-- ==== Sys2Proof/Word.lean ====
section
/-! DEFINITION. The word types of the Tvedgon and their plainest arithmetic (R4, R60). -/

namespace Sys2Proof

/-- A byte of memory (R4). -/
abbrev Byte := BitVec 8

/-- The value of a v, s, e or m register (R60, R339). -/
abbrev Word := BitVec 32

/-- An instruction word or a clause header (R74, R80). -/
abbrev Code := BitVec 64

/-- A 48-bit virtual address of a process (R163). -/
abbrev Addr := BitVec 48

/-- A lane mask of a group of up to 64 lanes (R26, R51). -/
abbrev Mask := BitVec 64

/-- The number a register operand field holds (R60). -/
abbrev RegNo := BitVec 10

/-- Bits `hi` down to `lo` of `x` as a natural number: the manual's x.b(hi, lo) (R6). -/
def bits {n : Nat} (x : BitVec n) (hi lo : Nat) : Nat :=
  x.toNat / 2 ^ lo % 2 ^ (hi + 1 - lo)

/-- The register pair `hi ++ lo` as one 64-bit value (R61). -/
def pairOf (hi lo : Word) : BitVec 64 := hi ++ lo

/-- The low word of a 64-bit value. -/
def loWord (x : BitVec 64) : Word := x.setWidth 32

/-- The high word of a 64-bit value. -/
def hiWord (x : BitVec 64) : Word := (x >>> 32).setWidth 32

/-- The 48-bit address in a register pair; bits 63:48 are ignored (R83). -/
def addrOfPair (hi lo : Word) : Addr := (pairOf hi lo).setWidth 48

/-- A 32-bit word from a Boolean, 1 or 0. -/
def wordOfBool (b : Bool) : Word := if b then 1#32 else 0#32

end Sys2Proof
end

