-- ==== Sys2Proof/Syntax.lean ====
section
/-! DEFINITION. The instructions and events of the Tvedgon: one constructor of `Instr` for each row of
spec/opcode_table.json. Rows that are instruction words (R86, R87) carry their operands; rows that are steps of
the device (95_what_each_step_holds.md) carry the place where they happen and what the outside world brings. -/

namespace Sys2Proof

/-- A source operand: its register number and its policy bit (R66: `true` is policy 1). -/
structure Src where
  r   : RegNo
  pol : Bool
  deriving DecidableEq, Repr

/-- The guard field and the negate bit (R63). -/
structure Guard where
  g   : BitVec 4
  neg : Bool
  deriving DecidableEq, Repr

/-- Overflow form of IADD and ISUB (R137). -/
inductive SatMode where
  | wrap | sat | usat
  deriving DecidableEq, Repr

/-- Integer comparison conditions (R141). -/
inductive Cond where
  | eq | ne | lt | le | gt | ge
  deriving DecidableEq, Repr

/-- Floating comparison conditions (R145). -/
inductive FCond where
  | eq | ne | lt | le | gt | ge | un | ord
  deriving DecidableEq, Repr

/-- Rounding modes (R105). -/
inductive RMode where
  | rne | rz | ru | rd | sr
  deriving DecidableEq, Repr

/-- Element format of the packed forms (R149). -/
inductive PFmt where
  | f16 | bf16
  deriving DecidableEq, Repr

/-- CVT format codes (R151). -/
inductive NumFmt where
  | f32 | f16 | bf16 | f8e4 | f8e5 | int8 | uint8 | int16 | int32 | uint32
  deriving DecidableEq, Repr

/-- SHFL modes (R158). -/
inductive ShflMode where
  | idx | up | down | xor
  deriving DecidableEq, Repr

/-- SHFL segment codes (R158). -/
inductive SegCode where
  | whole | s4 | s8 | s16 | s32 | s64
  deriving DecidableEq, Repr

/-- VOTE modes (R159). -/
inductive VoteMode where
  | all | any | eq | ballot
  deriving DecidableEq, Repr

/-- LRED and LSCAN operations (R161). -/
inductive LaneOp where
  | add | min | max | umin | umax | and | or | xor | fadd | fmin | fmax
  deriving DecidableEq, Repr

/-- Format-M access widths (R83, R191). -/
inductive Width where
  | w8 | w16 | w32 | w64 | w128
  deriving DecidableEq, Repr

/-- Access orderings (R83, R181). -/
inductive Ordering where
  | rlx | acq | rel | sc
  deriving DecidableEq, Repr

/-- ATOM and RED operations (R201). -/
inductive AtomOp where
  | add | min | max | umin | umax | and | or | xor | exch | inc | dec | fadd | fmin | fmax
  deriving DecidableEq, Repr

/-- FENCE kinds (R205). -/
inductive FenceKind where
  | acq | rel | ar | sc
  deriving DecidableEq, Repr

/-- Scopes (R177). -/
inductive Scope where
  | core | die
  deriving DecidableEq, Repr

/-- Queue element size codes (R269). -/
inductive SizeCode where
  | s16 | s32 | s64 | s128 | s256
  deriving DecidableEq, Repr

/-- AWAIT forms (R286): the lane mask is one register, a pair, or all lanes. -/
inductive AwaitForm where
  | one (a : Src) | pair (a : Src) | all
  deriving DecidableEq, Repr

/-- Join operations of RECRUIT (R323). -/
inductive JoinOp where
  | none | add | fadd | min | max | umin | umax | fmin | fmax | or | and
  deriving DecidableEq, Repr

/-- MMA kinds (R334). -/
inductive MmaKind where
  | bf16 | f16 | e4e4 | e4e5 | e5e4 | e5e5 | i8 | cb2 | mpbf16 | mpf16 | mtbf16 | orand
  deriving DecidableEq, Repr

/-- The value MCLR writes (R356). -/
inductive ClrVal where
  | zero | pinf | ninf
  deriving DecidableEq, Repr

/-- The conversion MDRN makes (R359). -/
inductive DrainCv where
  | f32 | bf16 | f16
  deriving DecidableEq, Repr

/-- Who issues: a fragment of a group, a helper of a group, or a matrix team's sequencer (R51, R316, R331).
Dies are named by physical index, teams by their die-wide slot. -/
inductive Agent where
  | frag (die slot g entry : Nat)
  | helper (die slot g h : Nat)
  | seq (die slot : Nat)
  deriving DecidableEq, Repr

/-- One frame as the host port receives it (R364, R365): the destination, the EtherType and the bytes after the Ethernet header. -/
structure HostFrame where
  mac     : BitVec 48
  etype   : BitVec 16
  data    : List Byte
  deriving DecidableEq, Repr

/-- A request or element that another panel sends, as the far router die hands it over (R235, R241). -/
structure WireMsg where
  /-- 0 reservation, 1 put with its own reservation, 2 put on a reservation, 3 cancel, 4 register put, 5 get,
  6 try, 7 state, 8 a request withdrawn; 0x40 granted, 0x41 ok, 0x42 full, 0x43 stale, 0x44 state words,
  0x45 a get accepted, 0x46 a get withdrawn, 0x50 and a cause refused, 0x60 elements served. The numbers are the model's own (log 9). -/
  op      : BitVec 8
  srcPanel : BitVec 8
  dstPanel : BitVec 8
  /-- Logical die of the sender on its own panel. -/
  srcDie  : BitVec 8
  /-- The number of the far agent's stream, unique on its panel. -/
  uid     : Nat
  qid     : BitVec 32
  die     : BitVec 7
  port    : BitVec 2
  slot    : BitVec 12
  gen     : BitVec 6
  ptag    : BitVec 12
  seq     : BitVec 32
  size    : BitVec 3
  count   : BitVec 16
  pos     : BitVec 32
  elems   : List (List Byte × BitVec 16)
  /-- What names the sender: of a group TAG, TEAM, logical core, slot and group (R259); of a port put its port, of a host
  request its connection and SEQUENCE (R289). -/
  prod    : List Nat
  deriving DecidableEq, Repr

/-- One Delup frame as it arrives (R261): the header's epoch byte and counter, the bytes the tag covers, the tag,
and what the frame carries once it is released. -/
structure DelupFrame where
  epoch   : BitVec 8
  counter : BitVec 56
  body    : List Byte
  tag     : List Byte
  carried : List WireMsg
  deriving DecidableEq, Repr

/-- A confirmation frame and the link it arrives on (R263). -/
structure ConfirmFrame where
  link  : Nat
  frame : DelupFrame
  deriving DecidableEq, Repr

/-- Outcome of a targeted test (R384). -/
inductive TestResult where
  | pass | fail | unfinished
  deriving DecidableEq, Repr

/-- What training a Delup link finds (R380). -/
structure TrainInfo where
  /-- Whether each direction, the sending and the receiving one, trained at 212.5 Gb/s. -/
  fastOut   : Bool
  fastIn    : Bool
  partner   : BitVec 64
  partnerLink : BitVec 8
  /-- The 16-byte random values the partners exchange, ours and theirs (R261). -/
  ours      : List Byte
  theirs    : List Byte
  /-- The partner's frame, which is verified. -/
  proof     : DelupFrame
  deriving DecidableEq, Repr

/-- What bring-up finds (R376): dies whose firmware fails, stacks that do not initialise, links that do not
train. -/
structure BringupInfo where
  darkDies   : List Nat
  deadStacks : List Nat
  d2dDown    : List (Nat × Nat)
  deriving DecidableEq, Repr

/-- The instructions and events: one constructor for each row of spec/opcode_table.json. -/
inductive Instr where
  -- control and system (R119 to R136)
  | nop
  | bra (tgt : BitVec 30) (g : Guard)
  | brx (a : Src) (g : Guard)
  | call (link : RegNo) (tgt : BitVec 30) (g : Guard)
  | callx (link : RegNo) (a : Src) (g : Guard)
  | ret (a : Src) (g : Guard)
  | join
  | regang
  | loop (k : BitVec 2) (a : Src) (tgt : BitVec 30)
  | endlp (k : BitVec 2) (tgt : BitVec 30)
  | exit (g : Guard)
  | exitS (tgt : BitVec 30) (keep : Option Src)
  | yield (g : Guard)
  | trap (code : BitVec 20) (g : Guard)
  | tret
  | spawn (a : Src) (g : Guard)
  | ltrig (g : Guard)
  | csrr (d : RegNo) (num : BitVec 12) (g : Guard)
  | csrw (num : BitVec 12) (a : Src) (g : Guard)
  -- integer and logic (R137 to R142)
  | iadd (d : RegNo) (a b : Src) (m : SatMode) (g : Guard)
  | iaddImm (d : RegNo) (a : Src) (imm : BitVec 20) (m : SatMode) (g : Guard)
  | isub (d : RegNo) (a b : Src) (m : SatMode) (g : Guard)
  | isubImm (d : RegNo) (a : Src) (imm : BitVec 20) (m : SatMode) (g : Guard)
  | addc (d : RegNo) (a b c : Src) (g : Guard)
  | subb (d : RegNo) (a b c : Src) (g : Guard)
  | imul (d : RegNo) (a b : Src) (g : Guard)
  | imulImm (d : RegNo) (a : Src) (imm : BitVec 20) (g : Guard)
  | imulh (d : RegNo) (a b : Src) (u : Bool) (g : Guard)
  | imad (d : RegNo) (a b c : Src) (g : Guard)
  | imadw (d : RegNo) (a b c : Src) (u : Bool) (g : Guard)
  | imin (d : RegNo) (a b : Src) (u : Bool) (g : Guard)
  | iminImm (d : RegNo) (a : Src) (imm : BitVec 20) (u : Bool) (g : Guard)
  | imax (d : RegNo) (a b : Src) (u : Bool) (g : Guard)
  | imaxImm (d : RegNo) (a : Src) (imm : BitVec 20) (u : Bool) (g : Guard)
  | iabs (d : RegNo) (a : Src) (sat : Bool) (g : Guard)
  | ineg (d : RegNo) (a : Src) (sat : Bool) (g : Guard)
  | and (d : RegNo) (a b : Src) (g : Guard)
  | andImm (d : RegNo) (a : Src) (imm : BitVec 20) (g : Guard)
  | or (d : RegNo) (a b : Src) (g : Guard)
  | orImm (d : RegNo) (a : Src) (imm : BitVec 20) (g : Guard)
  | xor (d : RegNo) (a b : Src) (g : Guard)
  | xorImm (d : RegNo) (a : Src) (imm : BitVec 20) (g : Guard)
  | andn (d : RegNo) (a b : Src) (g : Guard)
  | andnImm (d : RegNo) (a : Src) (imm : BitVec 20) (g : Guard)
  | shl (d : RegNo) (a b : Src) (g : Guard)
  | shlImm (d : RegNo) (a : Src) (amt : BitVec 5) (g : Guard)
  | shr (d : RegNo) (a b : Src) (g : Guard)
  | shrImm (d : RegNo) (a : Src) (amt : BitVec 5) (g : Guard)
  | sar (d : RegNo) (a b : Src) (g : Guard)
  | sarImm (d : RegNo) (a : Src) (amt : BitVec 5) (g : Guard)
  | rol (d : RegNo) (a b : Src) (g : Guard)
  | rolImm (d : RegNo) (a : Src) (amt : BitVec 5) (g : Guard)
  | bfx (d : RegNo) (a b : Src) (sgn : Bool) (g : Guard)
  | bfxImm (d : RegNo) (a : Src) (pos : BitVec 5) (len : BitVec 6) (sgn : Bool) (g : Guard)
  | bfi (d : RegNo) (a b c : Src) (g : Guard)
  | popc (d : RegNo) (a : Src) (g : Guard)
  | clz (d : RegNo) (a : Src) (g : Guard)
  | brev (d : RegNo) (a : Src) (g : Guard)
  | icmp (d : RegNo) (a b : Src) (c : Cond) (u : Bool) (g : Guard)
  | icmpImm (d : RegNo) (a : Src) (imm : BitVec 20) (c : Cond) (u : Bool) (g : Guard)
  | sel (d : RegNo) (a b c : Src) (g : Guard)
  | mov (d : RegNo) (a : Src) (wide : Bool) (g : Guard)
  | movi (d : RegNo) (imm : BitVec 32) (g : Guard)
  | lea (d : RegNo) (a b : Src) (sh : BitVec 3) (u : Bool) (g : Guard)
  | leaImm (d : RegNo) (a : Src) (imm : BitVec 20) (sh : BitVec 3) (u : Bool) (g : Guard)
  -- floating point (R143 to R148)
  | fadd (d : RegNo) (a b : Src) (rm : RMode) (g : Guard)
  | fsub (d : RegNo) (a b : Src) (rm : RMode) (g : Guard)
  | fmul (d : RegNo) (a b : Src) (rm : RMode) (g : Guard)
  | ffma (d : RegNo) (a b c : Src) (rm : RMode) (g : Guard)
  | fmin (d : RegNo) (a b : Src) (g : Guard)
  | fmax (d : RegNo) (a b : Src) (g : Guard)
  | fcmp (d : RegNo) (a b : Src) (c : FCond) (g : Guard)
  | fclass (d : RegNo) (a : Src) (g : Guard)
  | frcp (d : RegNo) (a : Src) (g : Guard)
  | frsq (d : RegNo) (a : Src) (g : Guard)
  | fsqrt (d : RegNo) (a : Src) (rm : RMode) (g : Guard)
  | fex2 (d : RegNo) (a : Src) (g : Guard)
  | flg2 (d : RegNo) (a : Src) (g : Guard)
  | fsin (d : RegNo) (a : Src) (g : Guard)
  | fcos (d : RegNo) (a : Src) (g : Guard)
  -- packed, conversion and scale forms (R149 to R156)
  | padd2 (d : RegNo) (a b : Src) (f : PFmt) (rm : RMode) (g : Guard)
  | pmul2 (d : RegNo) (a b : Src) (f : PFmt) (rm : RMode) (g : Guard)
  | pfma2 (d : RegNo) (a b c : Src) (f : PFmt) (rm : RMode) (g : Guard)
  | pdot2 (d : RegNo) (a b c : Src) (f : PFmt) (rm : RMode) (g : Guard)
  | idot4 (d : RegNo) (a b c : Src) (ua ub sat : Bool) (g : Guard)
  | cvt (d : RegNo) (a c : Src) (src dst : NumFmt) (rm : RMode) (sat : Bool) (j : BitVec 2) (g : Guard)
  | cbdec (d : RegNo) (a : Src) (w h : Bool) (g : Guard)
  | scal (d : RegNo) (a b : Src) (j : Bool) (rm : RMode) (g : Guard)
  -- cross-lane forms (R157 to R161)
  | shfl (d : RegNo) (a b : Src) (m : ShflMode) (seg : SegCode) (g : Guard)
  | vote (d : RegNo) (a : Src) (m : VoteMode) (wide : Bool) (g : Guard)
  | matchLanes (d : RegNo) (a : Src) (wide pair : Bool) (g : Guard)
  | lred (d : RegNo) (a : Src) (op : LaneOp) (g : Guard)
  | lscan (d : RegNo) (a : Src) (op : LaneOp) (excl : Bool) (g : Guard)
  -- memory (R191 to R206)
  | ld (d : RegNo) (a : Src) (off : BitVec 20) (w : Width) (o : Ordering) (str : Bool) (g : Guard)
  | st (d a : Src) (off : BitVec 20) (w : Width) (o : Ordering) (str : Bool) (g : Guard)
  | ldl (d : RegNo) (a : Src) (off : BitVec 20) (w : Width) (o : Ordering) (g : Guard)
  | stl (d a : Src) (off : BitVec 20) (w : Width) (o : Ordering) (g : Guard)
  | ldp (d : RegNo) (a : Src) (off : BitVec 20) (w : Width) (str : Bool) (g : Guard)
  | stp (d a : Src) (off : BitVec 20) (w : Width) (str : Bool) (g : Guard)
  | ldu (d : RegNo) (a : Src) (off : BitVec 20) (w : Width) (o : Ordering) (str : Bool) (g : Guard)
  | pref (a : Src) (off : BitVec 20) (l2 : Bool) (g : Guard)
  | atom (d : RegNo) (a b : Src) (op : AtomOp) (wide loc : Bool) (o : Ordering) (g : Guard)
  | acas (d : RegNo) (a b c : Src) (wide loc : Bool) (o : Ordering) (g : Guard)
  | red (a b : Src) (op : AtomOp) (wide loc : Bool) (o : Ordering) (g : Guard)
  | fence (k : FenceKind) (sc : Scope) (g : Guard)
  | binit (a b : Src) (g : Guard)
  | barv (a b : Src) (g : Guard)
  | bwait (a b : Src) (g : Guard)
  | csub (k : BitVec 3) (a : Src) (g : Guard)
  | wqry (k : BitVec 3) (a : Src) (g : Guard)
  -- queues, names, helpers (R265 to R288, R316 to R323)
  | qres (d : RegNo) (a b : Src) (g : Guard)
  | qput (d : RegNo) (a b c : Src) (z : SizeCode) (mem : Bool) (g : Guard)
  | qrp (d : RegNo) (a b c : Src) (z : SizeCode) (mem : Bool) (g : Guard)
  | qget (d : RegNo) (a : Src) (x : Option Src) (t : Option RegNo) (z : SizeCode) (g : Guard)
  | qtry (d : RegNo) (a : Src) (x : Option Src) (c : RegNo) (z : SizeCode) (g : Guard)
  | qcan (d : RegNo) (a : Src) (g : Guard)
  | qstatQ (d : RegNo) (a : Src) (g : Guard)
  | qstatR (d : RegNo) (a : Src) (g : Guard)
  | gname (d : RegNo) (g : Guard)
  | gfree (g : Guard)
  | rput (d : RegNo) (a b c : Src) (g : Guard)
  | await (d : RegNo) (f : AwaitForm) (g : Guard)
  | recruit (d : RegNo) (a b c : Src) (op : BitVec 4) (g : Guard)
  | hnext (g : Guard)
  | hquit (g : Guard)
  | hjoin (d : RegNo) (a : Src)
  | hjoinComplete (die slot g : Nat)
  -- matrix, vector side (R344 to R347)
  | mwin (a b : Src) (g : Guard)
  | mlend (d : RegNo) (n : BitVec 3) (g : Guard)
  | mrd (d : RegNo) (a : Src) (c : RegNo) (n : BitVec 3) (g : Guard)
  | mwr (d : Src) (a : Src) (n : BitVec 3) (g : Guard)
  -- matrix sequencer (R349 to R359)
  | mma (d a b c : RegNo) (ring : BitVec 4) (k : BitVec 2) (kind : MmaKind)
  | mscale (d a : RegNo) (int clr acq die : Bool) (g : Guard)
  | mclr (d a : RegNo) (v : ClrVal) (g : Guard)
  | mtab (a : RegNo) (acq die : Bool) (g : Guard)
  | msig (a b : RegNo) (rel die : Bool) (g : Guard)
  | mdrn (d a b : RegNo) (cv : DrainCv) (rel die : Bool) (g : Guard)
  | mmaStep (die slot : Nat)
  | mmaStepCommit (die slot : Nat)
  -- launch and placement (R33 to R46)
  | entryDieCheck (die : Nat)
  | launchForward (die : Nat)
  | forwardedCopyTake (die : Nat)
  | teamPlacement (die : Nat)
  | drainTarget (die : Nat)
  | trafficWindow (die : Nat)
  -- partitions, clauses and groups (R48, R49, R55, R77)
  | groupExchange (die slot g : Nat)
  | pendingExchange (die slot g : Nat)
  | clauseStart (ag : Agent)
  | groupEnd (die slot g : Nat)
  | workDeal (die : Nat)
  | loadDataReturn (id : Nat) (lanes : Mask)
  | atomicAtHomeSlice (id lane : Nat)
  | l2Eviction (die line : Nat)
  -- copy engine (R217)
  | recordStart (die core sub rec : Nat)
  | recordFinish (die core sub rec : Nat)
  -- queues and fabric (R227 to R264)
  | reservationRequest (msg : Nat)
  | putDataArrival (msg : Nat)
  | getRequest (msg : Nat)
  | cellarMoveComplete (die port slot : Nat)
  | queueAnswer (id : Nat)
  | queueTimeout (id : Nat)
  | waiterResend (msg : Nat)
  | ringDelivery (die port slot : Nat)
  | registerPutLanding (die port slot : Nat)
  | elementForward (msg : Nat)
  | portPutAnswer (id : Nat)
  | faultOverflowPut (die ptag : Nat)
  | delupFrameReceive (link : Nat) (f : DelupFrame)
  | rekeyStart (link : Nat)
  | keyReadyReceive (link : Nat) (f : DelupFrame)
  | keyConfirmReceive (c : ConfirmFrame)
  | rekeyStop (link : Nat)
  -- the host's answers and pre-emption (R300 to R309)
  | resume (die : Nat)
  | kill (die : Nat)
  | preempt (die : Nat)
  | release (die : Nat)
  | preemptStopBound (die slot g : Nat)
  | contextSave (die slot : Nat)
  | teamResume (die : Nat)
  | pageWalkComplete (die ptag page : Nat)
  | helperIterationTimeout (die slot g h : Nat)
  -- host frames (R364 to R371)
  | ack (f : HostFrame)
  | openConn (f : HostFrame)
  | put (f : HostFrame)
  | get (f : HostFrame)
  | write (f : HostFrame)
  | read (f : HostFrame)
  | close (f : HostFrame)
  | retransmissionTimeout (conn : Nat)
  -- commands (R372 to R375): the die executes the oldest element of its command queue
  | invalidateVa (die : Nat)
  | invalidateQid (die : Nat)
  | process (die : Nat)
  | slot (die : Nat)
  | share (die : Nat)
  | routes (die : Nat)
  | rowRepair (die : Nat) (spare : Bool)
  | rowRepairComplete (die : Nat) (ok : Bool)
  | laneSwap (die : Nat) (ok : Bool)
  | retireCore (die : Nat)
  | excludeDie (die : Nat)
  | renumber (die : Nat)
  | keyInstall (die : Nat)
  | linkReset (die : Nat)
  | selftest (die : Nat) (r : TestResult)
  | port (die : Nat)
  -- links, bring-up, tests and power (R376 to R393)
  | linkTrainingComplete (delup : Bool) (link : Nat) (t : TrainInfo)
  | linkTrainingTimeout (delup : Bool) (link : Nat)
  | bringup (b : BringupInfo)
  | hostPortTrainRetry (ok : Bool)
  | targetedTestStart (die : Nat)
  | targetedTestComplete (die : Nat) (r : TestResult)
  | thermalReport (die : Nat)
  | thermalTrip
  | linkDown (delup : Bool) (link : Nat)
  | powerDown
  -- words and frames the device turns away
  | unassignedOpcode (w : Code)
  | droppedFrame (f : HostFrame)
  | refusedCommand (die : Nat)
  deriving DecidableEq, Repr

end Sys2Proof
end

