-- ==== Sys2Proof/Config.lean ====
section
/-! DEFINITION. The constants of the panel that the manual fixes, and the free values it leaves open: a free value
is an opaque constant with no body, so nothing can be proved about its value (log 3, 6, 7, 8). -/

namespace Sys2Proof.Config

/-- Compute dies on a panel (R8). -/
def nDies : Nat := 128
/-- Physical cores of a die (R13). -/
def nCores : Nat := 128
/-- Partitions of a core (R14). -/
def nParts : Nat := 6
/-- Team slots of a die (R31). -/
def nSlots : Nat := 2048
/-- Bytes of a home stack: 48 GiB (R17). -/
def stackBytes : Nat := 48 * 2 ^ 30
/-- Bytes of a team's context block (R307). -/
def contextBytes : Nat := 0x400000
/-- Split-table entries (R51). -/
def nFrags : Nat := 8
/-- Defer-stack depth (R52). -/
def deferDepth : Nat := 16
/-- The register-file bytes of one partition (R31). -/
def regFileBytes : Nat := 65536
/-- Waiter records of a port (R247). -/
def nWaiters : Nat := 2048
/-- Clocks after which a waiting placement drains a core (R44). -/
def drainClocks : Nat := 65536
/-- Clocks of a traffic window (R46). -/
def trafficClocks : Nat := 65536
/-- Clocks after which a ready pending group is exchanged (R49). -/
def pendingClocks : Nat := 512
/-- Clocks after which a queue request times out (R232). -/
def timeoutClocks : Nat := 2 ^ 24
/-- Clocks between two requests of an unlinked get (R247). -/
def resendClocks : Nat := 1024
/-- Active-set clocks after which a pre-empted group stops before its next clause (R304). -/
def stopClocks : Nat := 2 ^ 20
/-- Clocks of one helper iteration (R326). -/
def iterationClocks : Nat := 65536
/-- Clocks in which a Delup link trains: 500 ms at 800 MHz (R1, R380). -/
def trainClocks : Nat := 400000000
/-- Elements of a fault overflow list (R299). -/
def overflowMax : Nat := 256
/-- Pending tests of a die (R384). -/
def testsMax : Nat := 64

/-- L2 slices of a die (R13). -/
def nSlices : Nat := 32
/-- Lines of 256 bytes in an L2 slice of 1 MiB (R13, R169). -/
def sliceLines : Nat := 4096
/-- Bytes of a core's unified array (R14). -/
def arrayBytes : Nat := 384 * 1024
/-- Pseudo-channels of a stack (R17). -/
def nChannels : Nat := 96
/-- Entries of a core's TLB (R312). -/
def coreTlb : Nat := 512
/-- Entries of a die's TLB (R312). -/
def dieTlb : Nat := 32768
/-- Page walkers of a die (R13, R312). -/
def nWalkers : Nat := 64
/-- Pages that wait for a walker (R312). -/
def walkList : Nat := 4096

/-- FREE VALUE: a natural number the manual leaves open, drawn by the counter `State.tick` (log 3). -/
opaque freeNat : Nat → Nat

/-- FREE VALUE: a word the manual leaves unspecified, drawn by the counter `State.tick` (log 3). -/
opaque freeWord : Nat → Word

/-- FREE VALUE: by how much the clock count of a die differs from another's: "Dies do not share one count" (R64). -/
opaque dieSkew : Nat → BitVec 64

/-- FREE VALUE: byte `off` of the team and state records of the save numbered `n`: "the device's own form, sealed
by a check word" (R307). -/
opaque sealByte : Nat → Nat → Byte

/-- FREE VALUE: the SRAM row that a RAS element names for a location of a structure and unit (R385): the manual does not
number rows. -/
opaque sramRow : Nat → Nat → Nat → Nat

/-- FREE VALUE: the pseudo-channel and row, as DETAIL of a RAS element, of a stack offset (R385): the manual does not give
the mapping. -/
opaque stackRow : Nat → Nat

/-- FREE VALUE: the home slice of a 256-byte line of a stack, modulo 32: "chosen from its physical address by a fixed function
that programs do not see" (R169). -/
opaque homeSlice : Nat → Nat

/-- FREE VALUE: HKDF-SHA-384 of key material, salt and info, first 32 bytes (R261, R263): the manual names the
standard and does not print it (log 8). -/
opaque hkdf : List Byte → List Byte → List Byte → List Byte

/-- FREE VALUE: whether a Delup frame's tag verifies under a key, a nonce and the bytes it covers: AES-GCM-256
(R261, R262; log 8). -/
opaque gcmVerifies : List Byte → List Byte → List Byte → List Byte → Bool

end Sys2Proof.Config
end

