-- ==== Sys2Proof/Machine/Sparse.lean ====
section
/-! DEFINITION. Finite maps with natural-number keys as sorted lists in one canonical form: with a default value
(`sget`, `sset`: no entry equals the default) and without one (`aget`, `aput`, `adel`). Memory is such a list. -/

namespace Sys2Proof.Machine

/-- The value at key `k`, or the default `d`. -/
def sget {α : Type} (d : α) : List (Nat × α) → Nat → α
  | [], _ => d
  | (k', v) :: t, k => if k = k' then v else sget d t k

/-- Keys strictly rise from above `lo`, and no entry equals the default. -/
def swfFrom {α : Type} [DecidableEq α] (d : α) : Nat → List (Nat × α) → Bool
  | _, [] => true
  | lo, (k, v) :: t => decide (lo ≤ k) && !(decide (v = d)) && swfFrom d (k + 1) t

/-- The canonical form: keys strictly rising, no entry equal to what an unlisted key reads as. -/
def swf {α : Type} [DecidableEq α] (d : α) (l : List (Nat × α)) : Bool := swfFrom d 0 l

/-- The entry at key `k`, if any. -/
def aget {α : Type} : List (Nat × α) → Nat → Option α
  | [], _ => none
  | (k', v) :: t, k => if k = k' then some v else aget t k

/-- The map with `v` at key `k`, keys rising. -/
def aput {α : Type} : List (Nat × α) → Nat → α → List (Nat × α)
  | [], k, v => [(k, v)]
  | (k', v') :: t, k, v =>
    if k < k' then (k, v) :: (k', v') :: t
    else if k = k' then (k, v) :: t
    else (k', v') :: aput t k v

/-- The map with `v` at key `k`, no entry equal to the default `d`. -/
def sset {α : Type} [DecidableEq α] (d : α) (l : List (Nat × α)) (k : Nat) (v : α) : List (Nat × α) :=
  if v = d then l.filter fun e => e.1 != k else aput l k v

/-- The map without key `k`. -/
def adel {α : Type} (l : List (Nat × α)) (k : Nat) : List (Nat × α) := l.filter fun e => e.1 != k

/-- The entry at key `k`, or `d`. -/
def agetD {α : Type} (l : List (Nat × α)) (k : Nat) (d : α) : α :=
  match aget l k with
  | some v => v
  | none => d

/-- Entry `k` changed by `f`, if it is there. -/
def amod {α : Type} (l : List (Nat × α)) (k : Nat) (f : α → α) : List (Nat × α) :=
  match aget l k with
  | some v => aput l k (f v)
  | none => l

/-- A set of numbers as a sorted list: insertion. -/
def nsInsert : List Nat → Nat → List Nat
  | [], k => [k]
  | x :: t, k => if k < x then k :: x :: t else if k = x then x :: t else x :: nsInsert t k

/-- Removal from a sorted set. -/
def nsErase (l : List Nat) (k : Nat) : List Nat := l.filter (· != k)

/-- The lanes of a mask in ascending order (R6). -/
def lanesOf (m : Mask) : List Nat := (List.range 64).filter fun l => m.getLsbD l

/-- The mask of one lane. -/
def laneBit (l : Nat) : Mask := 1#64 <<< l

/-- The mask of a list of lanes. -/
def maskOf (l : List Nat) : Mask := l.foldl (fun m i => m ||| laneBit i) 0#64

/-- The lowest lane of a mask. -/
def lowLane (m : Mask) : Nat := ((lanesOf m).head?).getD 0

/-- The number of lanes of a mask. -/
def popMask (m : Mask) : Nat := (lanesOf m).length

/-- The mask of lanes 0 to `w` - 1. -/
def fullMask (w : Nat) : Mask := BitVec.ofNat 64 (2 ^ w - 1)

/-- Byte `i` (0 lowest) of a natural number, little-endian (R4). -/
def byteOf (x i : Nat) : Byte := BitVec.ofNat 8 (x / 256 ^ i)

/-- `n` bytes of a natural number, lowest first. -/
def bytesOf (n x : Nat) : List Byte := (List.range n).map (byteOf x)

/-- The number that bytes, lowest first, hold. -/
def natOfBytes : List Byte → Nat
  | [] => 0
  | b :: t => b.toNat + 256 * natOfBytes t

/-- Bits `hi` down to `lo` of a natural number. -/
def nbits (x hi lo : Nat) : Nat := x / 2 ^ lo % 2 ^ (hi + 1 - lo)

/-- Bytes `off` to `off + n - 1` of a byte list as a number; a byte beyond the end reads 0. -/
def fieldAt (l : List Byte) (off n : Nat) : Nat := natOfBytes ((l.drop off).take n)

end Sys2Proof.Machine
end

