-- ==== Sys2Proof/Machine/State.lean ====
section
/-! DEFINITION. The state of a panel as plain data, and the panel at reset. Dies, cores and teams are named by
physical die, physical core and team slot; the logical numbers of R20 are computed from the maps held here. The
fields `agenda`, `cur`, `tick` and `fresh` are the model's own (log 2, 3). -/

namespace Sys2Proof.Machine

/-- Why the machine stops. -/
inductive Fault where
  /-- Raised by every instruction of a group, helper or sequencer that is executed with no live agent to execute
  it (no team is placed, or its fragment is gone). Safe: the panel issues no instruction without an agent (R47). -/
  | noAgent
  deriving DecidableEq, Repr

/-- Why the model gives no meaning. -/
inductive Refusal where
  /-- An instruction that Dispatch.lean rejects by name. Safe. -/
  | notModelled (mnemonic : String)
  deriving DecidableEq, Repr

/-- Tags of one register (R65, R382). The error marks are kept for each lane of a v register; of every other register they are
all bits or none. -/
structure RegTag where
  empty  : Bool := false
  arm    : Mask := 0#64
  filled : Mask := 0#64
  lent   : Bool := false
  /-- The lanes whose value holds an uncorrectable error or carries the mark of one (R382). -/
  poison : Mask := 0#64
  /-- Those of them whose error no read has met yet. -/
  ue     : Mask := 0#64
  deriving DecidableEq, Repr

/-- What a fragment or helper last waited on (R48 tells long stalls apart). -/
inductive Stall where
  | none
  /-- Waits at issue: no long stall. -/
  | issue
  /-- An operand register awaiting the value of a load or another long-latency producer. -/
  | load (r : Nat)
  /-- Source registers awaiting puts. -/
  | armed (rs : List Nat)
  /-- A destination register awaiting a put. -/
  | armedDst
  /-- A barrier wait (R211). -/
  | barrier
  deriving DecidableEq, Repr

/-- What a fragment stands at. -/
inductive Wait where
  | run
  /-- At its JOIN (R53). -/
  | join
  /-- A get whose request is out or linked (R246). -/
  | get (id : Nat)
  /-- An answered queue instruction whose request is out (R266). -/
  | answer (id : Nat)
  /-- HJOIN, until its helpers are done (R323). -/
  | hjoin
  /-- A BWAIT on the object at a local address for a phase value: the next arrival on the object compares again (R211). -/
  | bar (a : Nat) (v : Word)
  deriving DecidableEq, Repr

/-- How a fragment stopped for a pre-emption (R304, R313). -/
inductive Stopped where
  | no | safe | other
  deriving DecidableEq, Repr

/-- The lower gang of an instruction of a fragment with lanes in both halves of a 64-lane group (R27): the clock it issued at, and
the s registers, e14 and e15 as it read them. -/
structure LowGang where
  clock : Nat
  s     : List (Nat × Word)
  workX : Word
  workY : Word
  deriving DecidableEq, Repr

/-- A live entry of the split table (R51). The program counter is the clause header's address and the index of the
next instruction; `hdr` holds the header once the clause has started (R77). -/
structure Fragment where
  clause : Addr
  idx    : Nat := 0
  hdr    : Option Code := none
  mask   : Mask
  join   : Option Addr := none
  wait   : Wait := .run
  stall  : Stall := .none
  stopped : Stopped := .no
  /-- Accesses numbered below this hold back later memory, queue and engine instructions (R205, R181). -/
  fenceAll : Nat := 0
  /-- Reads numbered below this do so too. -/
  fenceRd  : Nat := 0
  /-- A fence's acquire invalidates DIE and REPL lines before the next access (R170, R171, R205). -/
  fenceInv : Bool := false
  /-- The accesses in flight, by number, that stand before the fragment's next one in program order (R179, R185). -/
  past : List Nat := []
  /-- The lower gang of its next instruction, if that has issued already (R27). -/
  gang : Option LowGang := none
  deriving DecidableEq, Repr

/-- The deferred arm of a DEFERRED record (R52). -/
structure Deferred where
  pc      : Addr
  mask    : Mask
  owner   : Nat
  swapped : Bool
  arrived : Mask
  deriving DecidableEq, Repr

/-- A defer-stack record: SPLIT when `arm` is none (R52). -/
structure DeferRec where
  join  : Addr
  outer : Option Addr
  arm   : Option Deferred
  deriving DecidableEq, Repr

/-- A queue home: die by logical number, port and slot, on a panel (R229). -/
structure QHome where
  panel : BitVec 8
  die   : BitVec 7
  port  : BitVec 2
  slot  : BitVec 12
  deriving DecidableEq, Repr

/-- A reservation record (R272). -/
structure Resv where
  qid  : BitVec 32
  home : QHome
  gen  : BitVec 6
  next : BitVec 32
  rem  : Nat
  deriving DecidableEq, Repr

/-- A fault as R291 describes it, with the place that raised it. `entry` is the fragment; for a fault of no
fragment it is none. -/
structure FaultRec where
  code   : Nat
  cause  : Nat := 0
  addr   : Addr := 0#48
  lanes  : Mask := 0#64
  detail : Word := 0#32
  pc     : Addr := 0#48
  entry  : Option Nat := none
  vectorFail : Bool := false
  frameFail  : Bool := false
  source : Nat := 0
  deriving DecidableEq, Repr

/-- A parked group's fault and whether it was parked in its handler (R297). -/
structure Park where
  fault     : FaultRec
  inHandler : Bool
  deriving DecidableEq, Repr

/-- What the device keeps of a handler's entry (R295, R296, R330). -/
structure Handler where
  entry  : Nat
  mask   : Mask
  clause : Addr
  held   : List Nat
  deriving DecidableEq, Repr

/-- A register left EMPTY by an MCHK, with the lanes whose read failed (R301). -/
structure MchkReg where
  reg  : Nat
  bad  : Mask
  deriving DecidableEq, Repr

/-- How a helper stands. -/
inductive HelperLife where
  | running | retired | stopped
  deriving DecidableEq, Repr

/-- A helper: one lane with its own registers, counters and program counter (R316, R320). Its registers are keyed
by number; `front` is its fragment state. -/
structure Helper where
  v      : List (Nat × Word) := []
  tags   : List (Nat × RegTag) := []
  lc     : List (Nat × Word) := []
  front  : Fragment
  iter   : BitVec 28
  dealt  : Nat
  ckpt   : Word
  sticky : BitVec 6 := 0#6
  life   : HelperLife := .running
  bank   : Nat
  slice  : Nat
  deriving DecidableEq, Repr

/-- A helper record as it was written (R328): when, by which helper, and its words. -/
structure HelperRec where
  clock  : Nat
  helper : Nat
  words  : List Word
  deriving DecidableEq, Repr

/-- A recruitment (R318): the join record, the recruiting fragment and lane, and the helpers. -/
structure Recruit where
  op      : JoinOp
  lo      : BitVec 28
  hi      : BitVec 28
  next    : BitVec 28
  dealing : Bool
  g       : Nat
  entry   : Nat
  lane    : Nat
  target  : Addr
  helpers : List (Nat × Helper)
  /-- The helper records written, in order (R328). -/
  recs    : List HelperRec := []
  exceeded : Bool := false
  /-- The lowest iteration that overran (R326). -/
  timeout : Option (BitVec 28) := none
  /-- D, the value of A and the address of a waiting HJOIN. -/
  hjoin   : Option (RegNo × Word × Addr) := none
  /-- The A operand of the waiting HJOIN holds an error or its mark (R382, log 62). -/
  hjoinBad : Bool := false
  /-- The D operand of the RECRUIT, and the clock of its issue: a pre-emption requested in that clock still counts (R329). -/
  dst     : Nat := 0
  since   : Option Nat := none
  deriving DecidableEq, Repr

/-- A group: the state of R71 and its place. -/
structure Group where
  uid     : Nat
  core    : Nat
  part    : Nat
  v       : List (Nat × Word) := []
  s       : List (Nat × Word) := []
  tags    : List (Nat × RegTag) := []
  lc      : List (Nat × Word) := []
  ac      : List (Nat × BitVec 16) := []
  frags   : List (Nat × Fragment) := []
  defer   : List DeferRec := []
  retired : Mask := 0#64
  resv    : List (Nat × Resv) := []
  hrecs   : List (Nat × Word) := []
  /-- The cask qid and the cask's port and slot (R253). -/
  name    : Option (BitVec 32 × Nat) := none
  trapVec   : Addr := 0#48
  trapFrame : Addr := 0#48
  liveTab   : Addr := 0#48
  sticky  : BitVec 6 := 0#6
  mapSel  : BitVec 7 := 0#7
  ltrig   : Bool := false
  parkCount : BitVec 16 := 0#16
  handler : Option Handler := none
  parked  : Option Park := none
  held    : List FaultRec := []
  mchk    : List MchkReg := []
  recruit : Option Recruit := none
  workX   : Word := 0xFFFFFFFF#32
  workY   : Word := 0xFFFFFFFF#32
  /-- Work queries outstanding, oldest first: counter K, answer address, instruction address, active lanes. -/
  wq      : List (Nat × Nat × Addr × Mask) := []
  /-- No lanes are left, and the group waits to end (R55). -/
  ended   : Bool := false
  /-- The clock at which the group last became ready in the pending set, if it stands there ready (R49). -/
  readySince : Option Nat := none
  /-- Clocks as an active-set member since the pre-emption request (R304). -/
  activeClocks : Nat := 0
  /-- The 2^20-clock bound has been reached (R304). -/
  bound   : Bool := false
  /-- What the group's state record holds has an uncorrectable error (R308). -/
  stateUe : Bool := false
  /-- The private area begins here (R38). -/
  privBase : Addr := 0#48
  deriving DecidableEq, Repr

/-- Spaces an access reaches (R163), and the tun, which an MRD reads (R360). -/
inductive Space where
  | glob | loc | tun
  deriving DecidableEq, Repr

/-- What an access in flight does. -/
inductive AccKind where
  | load | store
  | rmw (op : AtomOp) (wide : Bool)
  | cas (wide : Bool)
  deriving DecidableEq, Repr

/-- One indivisible piece of an access (R178, R197). -/
structure Piece where
  lane  : Nat
  /-- Local address, or the offset in the die's home stack. -/
  addr  : Nat
  /-- The address the program named. -/
  va    : Nat
  len   : Nat
  /-- Page class code (R165); 0 for local memory. -/
  cls   : Nat
  /-- Index of the first data register of this piece. -/
  reg   : Nat
  /-- The bytes stored, or the operand of an atomic. -/
  data  : Nat
  /-- The new value of ACAS. -/
  data2 : Nat := 0
  done  : Bool := false
  deriving DecidableEq, Repr

/-- A memory access issued and not yet performed in every lane (R65, R189). -/
structure Access where
  ag     : Agent
  uid    : Nat
  /-- The iteration of the helper that issued it. -/
  iter   : BitVec 28 := 0#28
  pc     : Addr
  kind   : AccKind
  space  : Space
  pieces : List Piece
  /-- First destination register and how many. -/
  dst    : Nat
  ndst   : Nat
  /-- The register that receives STEP_COUNT with the data of an MRD (R347). -/
  cnt    : Option Nat := none
  /-- Lanes written: the active lanes; `uniform` writes one value everywhere (R198). -/
  act    : Mask
  uniform : Bool := false
  /-- The accesses that stand before this one in program order, by number (R179, R185). -/
  before : List Nat := []
  /-- Every earlier access is performed first (R181). -/
  after  : Bool := false
  acq    : Bool := false
  rel    : Bool := false
  core   : Nat
  /-- Lanes not performed because of an error or poison, and the lowest such address (R176). -/
  bad    : Mask := 0#64
  badAddr : Addr := 0#48
  /-- Wide private accesses are performed chunk by chunk (R197). -/
  chunked : Bool := false
  /-- The streaming hint (R83). -/
  stream : Bool := false
  deriving DecidableEq, Repr

/-- An element of a queue: its bytes and user tag, or a void (R244). -/
structure Elem where
  data : List Byte
  tag  : BitVec 16
  void : Bool := false
  /-- The stream that produced a cask element (R258). -/
  prodId : Nat := 0
  /-- Its producer's panel, logical die, launch tag, team index, logical core, team slot and group (R259). -/
  prod   : List Nat := []
  deriving DecidableEq, Repr

/-- A granted position (R239): its element once the data has arrived, where it lies, and whether its move from the
cellar is under way (R290). -/
structure QPos where
  elem   : Option Elem := none
  inWin  : Bool
  moving : Bool := false
  /-- The stream it was granted to, of a cask (R258). -/
  prodId : Nat := 0
  deriving DecidableEq, Repr

/-- A landing binding (R249) and, while it is active, its delivery count and team. -/
structure Landing where
  tag   : BitVec 32
  team  : BitVec 32
  ring0 : Nat
  ring1 : Option Nat
  slots : Nat
  /-- The slot of the team on the home die while the binding is active (R251). -/
  active : Option Nat := none
  /-- Elements delivered since activation; DELIVERED shows them modulo 2^32 (R249, R250). -/
  delivered : Nat := 0
  /-- Delivery has stopped until the bound team ends (R396). -/
  stopped : Bool := false
  deriving DecidableEq, Repr

/-- A configured queue slot (R238, R239). `pos` holds the granted positions from HEAD upwards. -/
structure Queue where
  owner  : BitVec 12
  gen    : BitVec 6
  kind   : Nat
  size   : BitVec 3
  window : Nat
  cellarBase : Addr
  cellarPages : Nat
  landing : Option Landing
  head   : BitVec 32 := 0#32
  tail   : BitVec 32 := 0#32
  pos    : List QPos := []
  /-- The waiters, oldest first: the requests of sleeping gets and of standing host GETs (R246, R369). -/
  waiters : List Nat := []
  /-- The window slots freed in a clock, which take cellar moves from the next on: the clock and their number (R290). -/
  freed  : Nat × Nat := (0, 0)
  /-- The group a cask is bound to: die, team slot, group and the qid (R253). -/
  bound  : Option (Nat × BitVec 32) := none
  deriving DecidableEq, Repr

/-- Who sends a request (R241). -/
inductive Sender where
  /-- A group: its key, identity, and the agent that waits. -/
  | group (key uid : Nat) (ag : Agent)
  /-- A port put of a die (R397): what it carries. -/
  | port (die port : Nat)
  /-- A host connection: the SEQUENCE of its frame, and whether it is a standing GET (R369). -/
  | host (conn : Nat) (seq : BitVec 32) (standing : Bool)
  /-- An agent of another panel. -/
  | far (panel : BitVec 8) (uid : Nat)
  deriving DecidableEq, Repr

/-- What a port put carries, for its failure (R39, R299). -/
inductive PortPut where
  | fault (ptag : BitVec 12) (elem : List Byte)
  | completion (ptag : BitVec 12) (tag : Word) (qid : BitVec 32)
  /-- The head of a process's overflow list. -/
  | overflow (ptag : BitVec 12)
  deriving DecidableEq, Repr

/-- What a request asks (R242 to R246, R281). -/
inductive Ask where
  | reserve (n : Nat)
  /-- A put with its own reservation: QRP, RPUT or a port put. -/
  | qrp (z : Option (BitVec 3)) (elems : List Elem)
  /-- The data of a granted QRP, filling positions from `at` on. -/
  | fill (at_ : BitVec 32) (elems : List Elem)
  | put (z : BitVec 3) (at_ : BitVec 32) (elems : List Elem)
  | cancel (at_ : BitVec 32) (n : Nat)
  | get (z : BitVec 3) (k : Nat) (try_ : Bool)
  | stat
  deriving DecidableEq, Repr

/-- A request in the fabric (R241). -/
structure Msg where
  sender : Sender
  qid    : BitVec 32
  home   : QHome
  gen    : BitVec 6
  ptag   : BitVec 12
  /-- Its stream's number and its place in the stream (R241). -/
  stream : Nat
  seq    : BitVec 32
  ask    : Ask
  sent   : Nat
  /-- Logical source die. -/
  srcDie : Nat
  /-- What a port put carries. -/
  carry  : Option PortPut := none
  /-- The get is linked as a waiter, or awaits its next request (R247). -/
  linked : Bool := false
  lastTry : Nat := 0
  /-- Timed out: served without effect (R232). -/
  dead   : Bool := false
  /-- The get has been accepted (R233), linked or not. -/
  accepted : Bool := false
  /-- The DONE of a standing host GET has been sent (R369). -/
  told   : Bool := false
  /-- The request has left for another panel (R235). -/
  out    : Bool := false
  /-- The clock at which it, or what its sender last sent again for it, reached its home port (R247, R289). -/
  arrived : Option Nat := none
  /-- The router die by which it, or the answer to it, came in from another panel (R235). -/
  via    : Option Nat := none
  /-- What names its sender (R259, R289): of a group TAG, TEAM, logical core, team slot and group; of a port put its
  port; of a host request its connection and SEQUENCE. -/
  who    : List Nat := []
  deriving DecidableEq, Repr

/-- A home port's answer (R242, R271, R281, R232). -/
inductive Answer where
  | granted (pos : BitVec 32) (n : Nat)
  | ok (n : Nat)
  | full | stale
  | refuse (cause : Nat)
  | stat (words : List Word)
  | served (elems : List Elem)
  deriving DecidableEq, Repr

/-- Data a waiting queue instruction keeps to complete with (R266, R278). -/
structure Pend where
  /-- 0 QRES, 1 QPUT, 2 QRP, 3 QCAN, 4 QSTAT.q, 5 RPUT, 6 QGET, 7 QTRY. -/
  form  : Nat
  key   : Nat
  ag    : Agent
  pc    : Addr
  act   : Mask
  d     : RegNo
  n     : Nat := 0
  rec_  : Option RegNo := none
  want  : Option (List (Nat × BitVec 16)) := none
  handle : Nat := 0
  /-- The registers it reads, which other fragments may not write meanwhile (R266). -/
  srcs   : List Nat := []
  deriving DecidableEq, Repr

/-- A launch-queue element (R37), its process and, for a SPAWN child, its record's address. -/
structure LaunchElem where
  recd   : BitVec 1024
  map    : BitVec 256
  origin : Nat
  entryDie : Nat
  privBit : Bool
  ptag   : BitVec 12
  recAddr : Addr
  /-- A byte after the record was not zero (R370). -/
  dirty  : Bool
  deriving DecidableEq, Repr

/-- How a share stands. -/
inductive ShareLife where
  | waiting | ended | refused
  deriving DecidableEq, Repr

/-- A share (R30): the launch as one die runs it. -/
structure Share where
  recd   : BitVec 1024
  map    : BitVec 256
  ptag   : BitVec 12
  priv   : Bool
  /-- Predecessor shares of this die and whether only LTRIG is awaited (R41). -/
  preds  : List (Nat × Bool)
  life   : ShareLife := .waiting
  placed : Nat := 0
  normal : Nat := 0
  killed : Nat := 0
  /-- Next work item (R58). -/
  workNext : Nat := 0
  recAddr : Addr := 0#48
  deriving DecidableEq, Repr

/-- A step of an MMA in progress: the clock of its start, its quarters as lane words, and its rows of A (R351). -/
structure MmaStep where
  since    : Nat
  quarters : List (List Word)
  rows     : List Nat
  deriving DecidableEq, Repr

/-- An MMA in the sequencer's queue (R350, R353). -/
structure Mma where
  pc     : Addr
  kind   : MmaKind
  tile   : Nat
  barrier : Nat
  a0     : Nat
  a1     : Nat
  rs     : Nat
  ks     : Nat
  n      : Nat
  bBase  : Nat
  ring   : Nat
  lcAt   : Nat
  ctl    : Word
  /-- The sequencer's accesses in flight that stand before it in program order, by number (R341). -/
  before : List Nat
  /-- First step not committed. -/
  step   : Nat := 0
  acqDone : Bool := false
  /-- The quarters a failed step has read and kept: for each crew group its lane words (R353). -/
  kept   : List (Option (List Word)) := []
  /-- The step in progress. -/
  busy   : Option MmaStep := none
  /-- What 16-bit places of local memory held before stores made since the MMA issued: address / 2 and value (R354). -/
  older  : List (Nat × Nat) := []
  arrived : Bool := false
  deriving DecidableEq, Repr

/-- The sequencer of a matrix team (R331, R338). -/
structure Seq where
  m      : List (Nat × Word) := []
  mEmpty : List Nat := []
  mPoison : List Nat := []
  mUe     : List Nat := []
  lc     : List (Nat × Word) := []
  front  : Fragment
  halted : Bool := false
  mmas   : List Mma := []
  stepCount : Word := 0#32
  /-- The grist table while the team is off the cores, and its entries in error (R99, R382). -/
  grist   : List (Nat × Word) := []
  gristPoison : List Nat := []
  /-- Stopped by a sequencer fault until the park that stands for it is answered (R342). -/
  faulted : Bool := false
  deriving DecidableEq, Repr

/-- A pre-emption request of a team (R303). -/
structure Preempt where
  hold : Bool
  since : Nat
  deriving DecidableEq, Repr

/-- A resident or pre-empted team (R28, R38). -/
structure Team where
  recd   : BitVec 1024
  ptag   : BitVec 12
  priv   : Bool
  index  : Word
  share  : Nat
  privBase : Addr
  ctxBase  : Addr
  /-- Physical cores: one, or the lower and the upper of a cluster. -/
  cores  : List Nat
  localMem : List Host.Cell := []
  localPoison : List Nat := []
  localUe : List Nat := []
  preempt : Option Preempt := none
  /-- The team is saved and off the cores: HOLD, the save's number and the masks of windows each group saved. -/
  saved   : Option (Bool × Nat) := none
  savedWin : List (Nat × BitVec 80) := []
  /-- Cores the team may not return to (R309). -/
  avoid   : List Nat := []
  /-- Resume elements held for the team (R301). -/
  heldResume : List (BitVec 128) := []
  windows : List (Nat × (Nat × Nat)) := []
  seq     : Option Seq := none
  killed  : Bool := false
  /-- Clock since which the pre-empted team has found no place (R309). -/
  waitSince : Option Nat := none
  /-- A save was abandoned: pre-emption, with this HOLD, is requested again once the parked group is resumed (R308). -/
  again   : Option Bool := none
  /-- Groups that have ended (R41, R56). -/
  endedGroups : List Nat := []
  deriving DecidableEq, Repr

/-- An L1 line (R169): its class code, its 64 bytes and the bytes written here and not yet written back. -/
structure L1Line where
  cls   : Nat
  data  : BitVec 512
  dirty : BitVec 64
  /-- The line holds an uncorrectable error that no access has met (R176, R382). -/
  ue    : Bool := false
  /-- An access with the streaming hint has touched it: a first candidate for eviction (R83). -/
  stream : Bool := false
  deriving DecidableEq, Repr

/-- A byte's checked place: a local address, or a stack offset with its page's class. -/
structure Place where
  loc  : Bool
  addr : Nat
  cls  : Nat
  deriving DecidableEq, Repr

/-- A byte that a command record has still to write: where it comes from (nowhere for a FILL), its value as the record
started, and where it goes (R214). -/
structure EngMove where
  src  : Option Place
  byte : Byte
  dst  : Place
  deriving DecidableEq, Repr

/-- A record the copy engine has started (R217). -/
structure RunRec where
  addr   : Nat
  fields : BitVec 512
  /-- Its STATUS code (R215): DONE until a check or a byte fails. -/
  result : Nat
  /-- The bytes not written yet (R214, R220). -/
  todo   : List EngMove := []
  /-- Source and destination bytes overlap, or a byte is named twice (R214). -/
  overlap : Bool := false
  /-- The pages of global memory that it reads or writes, by their first 64 KiB (R312). -/
  pages : List Nat := []
  deriving DecidableEq, Repr

/-- A submission (R216). -/
structure Submission where
  die    : Nat
  slot   : Nat
  g      : Nat
  uid    : Nat
  k      : Nat
  /-- Records ready to start, and whether each is a root. -/
  ready  : List (Nat × Bool)
  running : List (Nat × RunRec)
  nextRec : Nat := 0
  deriving DecidableEq, Repr

/-- A cached translation (R312): the leaf entry and its level. -/
structure TlbEntry where
  leaf  : BitVec 64
  level : Nat
  deriving DecidableEq, Repr

/-- The gang of helpers that issues on a partition in a clock (R317): its recruitment's group, the instruction, its helpers, and the
generator's state for a CVT.SR of the gang (R113). -/
structure HelperGang where
  clock   : Nat
  key     : Nat
  pc      : Nat
  helpers : List Nat
  seed    : Option Word := none
  deriving DecidableEq, Repr

/-- A write of ROUND_SEED (R135): the clock and the group that made it, and the value. -/
structure SeedWrite where
  clock : Nat
  key   : Nat
  value : Word
  deriving DecidableEq, Repr

/-- A core (R14). Group keys stand in the active and pending sets in age order. -/
structure Core where
  split   : BitVec 2 := 0#2
  start   : Nat := 0
  l1      : List (Nat × L1Line) := []
  active  : List (Nat × List Nat) := []
  pending : List (Nat × List Nat) := []
  seeds   : List (Nat × Word) := []
  /-- The last write of each partition's ROUND_SEED, which acts from the clock after it (R114, R135). -/
  seedWrites : List (Nat × SeedWrite) := []
  /-- The last gang of helpers on each partition (R317). -/
  gangs   : List (Nat × HelperGang) := []
  subs    : List (Nat × Submission) := []
  grist   : List (Nat × Word) := []
  /-- Grist entries in error or marked, and those whose error no access has met (R382). -/
  gristPoison : List Nat := []
  gristUe : List Nat := []
  tun     : List (Nat × Word) := []
  tunPoison : List Nat := []
  tunUe   : List Nat := []
  /-- The core's 512-entry TLB (R312). -/
  tlb     : List (Nat × TlbEntry) := []
  deriving DecidableEq, Repr

/-- The tables of a process on a die (R373). -/
structure Proc where
  root : Nat
  qtab : Nat
  qlen : Nat
  deriving DecidableEq, Repr

/-- How a walk ended when no translation came of it: PAGE at a level, or an uncorrectable error (R311, R312). -/
structure WalkFail where
  level : Nat
  mchk  : Bool
  addr  : Nat
  deriving DecidableEq, Repr

/-- A process's traffic (R46). -/
structure Traffic where
  share : Nat := 0
  count : Nat := 0
  held  : Bool := false
  deriving DecidableEq, Repr

/-- A RAS element (R385). -/
structure RasElem where
  kind   : Nat
  sev    : Nat := 2
  cls    : Nat := 0
  struct_ : Nat := 10
  unit   : Nat := 0
  detail : Nat := 0
  lost   : Nat := 0
  count  : Nat := 0
  addr   : Nat := 0
  time   : Nat := 0
  phys   : Nat := 0
  deriving DecidableEq, Repr

/-- A location under or awaiting test (R383). -/
structure Test where
  struct_ : Nat
  unit   : Nat
  addr   : Nat
  detail : Nat
  sev    : Nat
  /-- The die clock count at the error (R385). -/
  time   : Nat := 0
  running : Bool := false
  deriving DecidableEq, Repr

/-- Errors counted at a location since bring-up and when the last three came (R384, R385). -/
structure ErrCount where
  n     : Nat
  times : List Nat
  deriving DecidableEq, Repr

/-- A port put that waits for an answer of its stream, which has 65,536 requests out (R241, R397). -/
structure WaitPut where
  port  : Nat
  ptag  : BitVec 12
  qid   : BitVec 32
  home  : QHome
  gen   : BitVec 6
  elem  : List Byte
  carry : PortPut
  deriving DecidableEq, Repr

/-- A compute die and its controller. -/
structure Die where
  live    : Bool := false
  /-- Logical core to physical core, and how many whole clusters there are (R20). -/
  coreMap : List Nat := []
  pairs   : Nat := 0
  hold    : BitVec 128 := 0#128
  retired : BitVec 128 := 0#128
  procs   : List (Nat × Proc) := []
  tlb     : List (Nat × TlbEntry) := []
  /-- The pages that the 64 walkers walk, and those that wait for a walker, oldest first (R312). -/
  walks   : List Nat := []
  walkWait : List Nat := []
  walkFails : List (Nat × WalkFail) := []
  qcache  : List (Nat × BitVec 64) := []
  launchQ : List LaunchElem := []
  shares  : List (Nat × Share) := []
  forwards : List (Nat × LaunchElem) := []
  /-- Physical cores of the drain target; once empty they are kept for the team of `drainFor` (R44). -/
  drain   : Option (List Nat) := none
  /-- The waiting pre-empted team for which the target drains: its slot. -/
  drainFor : Option Nat := none
  /-- The oldest placeable share and the clock since which it has found no place (R44). -/
  noCore  : Option (Nat × Nat) := none
  traffic : List (Nat × Traffic) := []
  /-- The window of 65,536 clocks that the traffic counts stand for (R46). -/
  window  : Nat := 0
  /-- Work queries not dealt yet, as they were made: the group's key, and the clock at which the query reached the distributor,
  if it has (R58, R224, R226). -/
  queries : List (Nat × Option Nat) := []
  resumeQ : List (BitVec 128) := []
  cmdQ    : List (List Byte) := []
  /-- The command that has begun and not completed (R375). -/
  cmdBusy : Option (List Byte) := none
  rasQ    : List RasElem := []
  rasLost : Nat := 0
  /-- Standing host GETs on the RAS queue: connection and process (R369). -/
  rasWaiters : List (Nat × BitVec 12) := []
  overflow : List (Nat × List (List Byte)) := []
  lostFaults : List (Nat × Nat) := []
  discards : List (Nat × Word) := []
  /-- Port puts that wait to be sent, oldest first (R241). -/
  putWait : List WaitPut := []
  tests   : List Test := []
  errCounts : List (Nat × ErrCount) := []
  deriving DecidableEq, Repr

/-- A link key and constant of one direction (R261). -/
structure LinkKey where
  key   : List Byte
  const : BitVec 32
  deriving DecidableEq, Repr

/-- A Delup link (R261 to R264, R380). Index 0 of a pair is the sending direction, 1 the receiving. -/
structure Link where
  up      : Bool := false
  /-- Whether the sending and the receiving direction run at 212.5 Gb/s (R380). -/
  fastOut : Bool := false
  fastIn  : Bool := false
  partner : BitVec 64 := 0#64
  partnerLink : BitVec 8 := 0#8
  txKey   : List Byte := []
  rxKey   : List Byte := []
  txEpoch : Nat := 0
  rxEpoch : Nat := 0
  txCount : Nat := 0
  /-- Highest counter verified under the receiving key. -/
  rxHigh  : Option Nat := none
  /-- The derived next sending key, from key-ready to confirmation (R263). -/
  txNext  : Option (List Byte) := none
  /-- Whether the confirmation has arrived. -/
  confirmed : Bool := false
  /-- The derived next receiving key, until a frame under it verifies. -/
  rxNext  : Option (List Byte) := none
  /-- The sender has stopped this direction (R264). -/
  txStopped : Bool := false
  /-- Training since this clock; `keep` retrains in the session in force (R387). -/
  training : Option (Nat × Bool) := none
  deriving DecidableEq, Repr

/-- What a Delup frame carries to the partner: a part of a message, key-ready, the confirmation, or nothing, the frame that a
training verifies (R235, R263, R380). -/
inductive FrameLoad where
  | msg (w : WireMsg) (part : Nat)
  | keyReady
  | confirm
  | proof
  deriving DecidableEq, Repr

/-- A frame sent: its header's epoch and counter, and what it carries (R261). -/
structure SentFrame where
  epoch   : BitVec 8
  counter : BitVec 56
  load    : FrameLoad
  deriving DecidableEq, Repr

/-- A message on its way to another panel: the die it leaves from, unless it only passes through (R235). -/
structure Passing where
  src : Option Nat
  msg  : WireMsg
  deriving DecidableEq, Repr

/-- The on-panel flash (R19, R261, R364, R386). -/
structure Flash where
  fuseDies  : BitVec 128 := 0#128
  fuseCores : List (Nat × BitVec 128) := []
  exclDies  : BitVec 128 := 0#128
  retCores  : List (Nat × BitVec 128) := []
  grade     : BitVec 4 := 0xA#4
  stepping  : BitVec 8 := 0x01#8
  mac       : BitVec 48 := 0#48
  etherType : BitVec 16 := 0x88B5#16
  serial    : BitVec 64 := 0#64
  keys      : List (Nat × LinkKey) := []
  /-- Spare lanes in use: key kind, link and lane group; the lanes swapped out. -/
  spares    : List (Nat × List Nat) := []
  /-- Rows redirected in each pseudo-channel by remap and by post-package repair (R386). -/
  remaps    : List (Nat × List Nat) := []
  deriving DecidableEq, Repr

/-- A frame the device sends: the fields of its header but the connection, and its payload (R365). -/
structure DevFrame where
  seq  : BitVec 32
  typ  : BitVec 8
  ack  : BitVec 32
  ptag : BitVec 12
  die  : BitVec 8
  payload : List Byte
  deriving DecidableEq, Repr

/-- A host connection (R366, R367). -/
structure Conn where
  window  : Nat
  frame   : Nat
  timeout : Nat
  rxSeq   : BitVec 32 := 0#32
  txSeq   : BitVec 32 := 0#32
  /-- Frames sent and not acknowledged, oldest first; then frames waiting for the window. -/
  unacked : List DevFrame := []
  backlog : List DevFrame := []
  lastAck : Nat := 0
  retries : Nat := 0
  /-- Elements DATA has carried and no ACK has covered, by sequence number (R367). -/
  elemsOut : List (Nat × Nat) := []
  deriving DecidableEq, Repr

/-- A physical error that comes from outside (R176, R382). `lasting` errors return after a rewrite. -/
inductive Upset where
  | stack (die sector : Nat) (lasting : Bool)
  | locMem (die slot block : Nat)
  | tun (die core row : Nat)
  | reg (die slot g reg lane : Nat)
  | helperReg (die slot g h reg : Nat)
  | mreg (die slot reg : Nat)
  | groupState (die slot g : Nat)
  | window (die port slot at_ : Nat)
  | grist (die core entry : Nat)
  | l1 (die core line : Nat)
  | l2 (die sector : Nat)
  | corrected (die struct_ unit addr detail : Nat)
  deriving DecidableEq, Repr

/-- What moves next: the model's own schedule (log 2). -/
inductive Turn where
  /-- `n` clocks pass (at least one). -/
  | tick (n : Nat)
  /-- The agent issues its next instruction, or starts its next clause. -/
  | issue (ag : Agent)
  /-- An event row of the opcode table happens. -/
  | happen (i : Instr)
  /-- Lanes of a store or reduction in flight are performed. -/
  | perform (id : Nat) (lanes : Mask)
  /-- A core's L1 gives up a line (R172). -/
  | l1Evict (die core line : Nat)
  /-- A request reaches its home port (R289). -/
  | arrive (id : Nat)
  /-- A frame is sent again over a Delup link, the partner having discarded it: its place in `wireOut` (R262). -/
  | replay (i : Nat)
  /-- Bytes of a running record in one aligned group of 8 are written: the place of one of them in what is left (R178, R214). -/
  | engine (die core sub rec i : Nat)
  /-- A submission of a core with no record left completes (R221). -/
  | settle (die core sub : Nat)
  /-- A work query reaches its die's distributor: its place in `queries` (R226). -/
  | reach (die i : Nat)
  /-- A translation is taken up by a die's TLB and a core's (R312). -/
  | tlbFill (die core ptag page : Nat)
  /-- A TLB, a core's or the die's, gives up an entry (R312). -/
  | tlbDrop (die : Nat) (core : Option Nat) (key : Nat)
  /-- A physical error. -/
  | upset (u : Upset)
  deriving DecidableEq, Repr

/-- Whether the rails are in range (R393). -/
inductive Phase where
  | off | up
  deriving DecidableEq, Repr

/-- The panel. -/
structure State where
  agenda  : List Turn
  cur     : Option Agent
  tick    : Nat
  fresh   : Nat
  phase   : Phase
  clock   : Nat
  flash   : Flash
  mem     : List Host.Cell
  l2      : List Host.Cell
  poison  : List Nat
  ue      : List Nat
  ueLasting : List Nat
  /-- Those of the sectors of `ue` whose error lies in the L2's copy (R382). -/
  ueL2    : List Nat
  dieMap  : List Nat
  exclNow : BitVec 128
  panelNo : BitVec 8
  routes  : Option (List Byte)
  dies    : List (Nat × Die)
  cores   : List (Nat × Core)
  teams   : List (Nat × Team)
  groups  : List (Nat × Group)
  flight  : List (Nat × Access)
  msgs    : List (Nat × Msg)
  answers : List (Nat × Answer)
  pends   : List (Nat × Pend)
  streams : List (Nat × BitVec 32)
  expects : List (Nat × BitVec 32)
  streamIds : List (List Nat)
  queues  : List (Nat × Queue)
  links   : List (Nat × Link)
  d2dDown : List Nat
  /-- Die-to-die links in training (R373, R387). -/
  d2dTrain : List Nat
  /-- Answers and passing elements that wait for their link (R235), by number. -/
  transit : List (Nat × Passing)
  /-- The frames that have left over each Delup link, oldest first. -/
  wireOut : List (Nat × SentFrame)
  hostPort : Bool
  etherNow : BitVec 16
  conns   : List (Nat × Conn)
  /-- What has left the host port, oldest first: the connection, and the bytes of the frame after its Ethernet header (R365). -/
  hostOut : List (Nat × List Byte)
  dropped : Nat
  hostLost : Nat
  deriving DecidableEq, Repr

/-- The panel before its rails reach range: nothing placed, flash as manufactured (R376; log 4), memory with
nothing listed (log 5). The first step brings it up (log 2). -/
def State.reset : State where
  agenda := []
  cur := none
  tick := 0
  fresh := 0
  phase := .off
  clock := 0
  flash := {}
  mem := []
  l2 := []
  poison := []
  ue := []
  ueLasting := []
  ueL2 := []
  dieMap := []
  exclNow := 0#128
  panelNo := 0#8
  routes := none
  dies := []
  cores := []
  teams := []
  groups := []
  flight := []
  msgs := []
  answers := []
  pends := []
  streams := []
  expects := []
  streamIds := []
  queues := []
  links := []
  d2dDown := []
  d2dTrain := []
  transit := []
  wireOut := []
  hostPort := false
  etherNow := 0x88B5#16
  conns := []
  hostOut := []
  dropped := 0
  hostLost := 0

end Sys2Proof.Machine
end

