-- ==== Sys2Proof/Machine/Panel.lean ====
section
/-! DEFINITION. Reading and changing the parts of the panel by name, the logical numbers of R20, and the fields of
a launch record (R33). -/

namespace Sys2Proof.Machine

/-- The key of a team slot of a die. -/
def teamKey (die slot : Nat) : Nat := die * Config.nSlots + slot
/-- The key of a group of a team. -/
def groupKey (die slot g : Nat) : Nat := teamKey die slot * 16 + g
/-- The die of a group's key. -/
def keyDie (k : Nat) : Nat := k / 16 / Config.nSlots
/-- The team slot of a group's key. -/
def keySlot (k : Nat) : Nat := k / 16 % Config.nSlots
/-- The group index of a group's key. -/
def keyG (k : Nat) : Nat := k % 16
/-- The key of a core. -/
def coreKey (die core : Nat) : Nat := die * Config.nCores + core
/-- The key of a queue slot. -/
def queueKey (die port slot : Nat) : Nat := die * 16384 + port * 4096 + slot

/-- A die by physical index. -/
def State.die (s : State) (d : Nat) : Die := agetD s.dies d {}
/-- A die changed. -/
def State.modDie (s : State) (d : Nat) (f : Die → Die) : State := { s with dies := aput s.dies d (f (s.die d)) }
/-- A core by physical die and core. -/
def State.core (s : State) (d c : Nat) : Core := agetD s.cores (coreKey d c) {}
/-- A core changed. -/
def State.modCore (s : State) (d c : Nat) (f : Core → Core) : State :=
  { s with cores := aput s.cores (coreKey d c) (f (s.core d c)) }
/-- A team by die and slot. -/
def State.team? (s : State) (d n : Nat) : Option Team := aget s.teams (teamKey d n)
/-- A team changed. -/
def State.modTeam (s : State) (d n : Nat) (f : Team → Team) : State := { s with teams := amod s.teams (teamKey d n) f }
/-- A group by key. -/
def State.group? (s : State) (k : Nat) : Option Group := aget s.groups k
/-- A group changed. -/
def State.modGroup (s : State) (k : Nat) (f : Group → Group) : State := { s with groups := amod s.groups k f }
/-- A fragment of a group changed. -/
def State.modFrag (s : State) (k e : Nat) (f : Fragment → Fragment) : State :=
  s.modGroup k fun g => { g with frags := amod g.frags e f }
/-- A queue slot changed. -/
def State.modQueue (s : State) (k : Nat) (f : Queue → Queue) : State := { s with queues := amod s.queues k f }
/-- A draw of the model's free-value counter (log 3). -/
def State.draw (s : State) : State := { s with tick := s.tick + 1 }

/-- The groups of a team that have not ended, ascending. -/
def State.groupsOf (s : State) (d n : Nat) : List Nat :=
  (List.range 16).filterMap fun g => if (s.group? (groupKey d n g)).isSome then some (groupKey d n g) else none

/-- The logical number of a physical die (R20). -/
def State.logDie? (s : State) (d : Nat) : Option Nat := s.dieMap.findIdx? (· == d)
/-- The logical number of a die that has one; 255 else. -/
def State.logDie (s : State) (d : Nat) : Nat := (s.logDie? d).getD 255
/-- The physical die of a logical number. -/
def State.physDie? (s : State) (ld : Nat) : Option Nat := s.dieMap[ld]?
/-- The logical number of a physical core (R20). -/
def Die.logCore? (d : Die) (c : Nat) : Option Nat := d.coreMap.findIdx? (· == c)
/-- The logical core of R23; 255 when it has none. -/
def Die.logCore (d : Die) (c : Nat) : Nat := (d.logCore? c).getD 255
/-- The logical cluster of a physical core, none on a lone core (R20). -/
def Die.cluster? (d : Die) (c : Nat) : Option Nat :=
  match d.logCore? c with
  | some n => if n < 2 * d.pairs then some (n / 2) else none
  | none => none

/-- A field of a launch record (R33). -/
def recF (r : BitVec 1024) (hi lo : Nat) : Nat := bits r hi lo
/-- W (R26, R33). -/
def recW (r : BitVec 1024) : Nat := 16 * 2 ^ recF r 532 531
/-- Nv (R32, R33). -/
def recNv (r : BitVec 1024) : Nat := 8 * (recF r 541 537 + 1)
/-- Ns (R32, R33). -/
def recNs (r : BitVec 1024) : Nat := 8 * recF r 547 542
/-- Groups of a team (R33). -/
def recGroups (r : BitVec 1024) : Nat := recF r 536 533 + 1
/-- L in bytes (R33). -/
def recL (r : BitVec 1024) : Nat := 256 * recF r 559 548
/-- P in bytes (R33). -/
def recP (r : BitVec 1024) : Nat := 16 * recF r 575 560
/-- The pair flag (R28). -/
def recPair (r : BitVec 1024) : Bool := r.getLsbD 523
/-- The matrix flag (R29). -/
def recMatrix (r : BitVec 1024) : Bool := r.getLsbD 524
/-- TAG (R33). -/
def recTag (r : BitVec 1024) : Word := r.extractLsb' 384 32
/-- The lower half H of a pair team's local memory (R45). -/
def halfOf (l : Nat) : Nat := ((l + 1) / 2 + 255) / 256 * 256
/-- One group's register-file footprint in bytes (R31). -/
def footprint (r : BitVec 1024) : Nat := recW r * recNv r * 4 + recNs r * 4
/-- What a team counts of local memory against each of its cores (R31). -/
def localPerCore (r : BitVec 1024) : Nat := if recPair r then halfOf (recL r) else recL r

/-- Local memory of a core under a split (R15). -/
def splitLocal (c : Nat) : Nat := (256 + 32 * c) * 1024

/-- The team of a group's key. -/
def State.teamOf? (s : State) (k : Nat) : Option Team := s.team? (keyDie k) (keySlot k)
/-- The launch record of a group's team, zero when it is gone. -/
def State.recOf (s : State) (k : Nat) : BitVec 1024 := ((s.teamOf? k).map (·.recd)).getD 0#1024
/-- The process tag of a group. -/
def State.ptagOf (s : State) (k : Nat) : BitVec 12 := ((s.teamOf? k).map (·.ptag)).getD 0#12

/-- The key of an agent's group, or of group 0 of a sequencer's team. -/
def agKey : Agent → Nat
  | .frag d n g _ => groupKey d n g
  | .helper d n g _ => groupKey d n g
  | .seq d n => groupKey d n 0

/-- A helper of a group's recruitment. -/
def State.helper? (s : State) (k h : Nat) : Option Helper :=
  (s.group? k).bind fun g => g.recruit.bind fun r => aget r.helpers h

/-- The fragment state of an agent: a split-table entry, a helper's or the sequencer's. -/
def State.front? (s : State) (ag : Agent) : Option Fragment :=
  match ag with
  | .frag _ _ _ e => (s.group? (agKey ag)).bind fun g => aget g.frags e
  | .helper _ _ _ h =>
    (s.helper? (agKey ag) h).bind fun x => if x.life = .running then some x.front else none
  | .seq d n => (s.team? d n).bind fun t => t.seq.map (·.front)

/-- A recruitment of a group changed. -/
def State.modRecruit (s : State) (k : Nat) (f : Recruit → Recruit) : State :=
  s.modGroup k fun g => { g with recruit := g.recruit.map f }
/-- A helper changed. -/
def State.modHelper (s : State) (k h : Nat) (f : Helper → Helper) : State :=
  s.modRecruit k fun r => { r with helpers := amod r.helpers h f }
/-- A team's sequencer changed. -/
def State.modSeq (s : State) (d n : Nat) (f : Seq → Seq) : State := s.modTeam d n fun t => { t with seq := t.seq.map f }

/-- The fragment state of an agent changed. -/
def State.modFront (s : State) (ag : Agent) (f : Fragment → Fragment) : State :=
  match ag with
  | .frag _ _ _ e => s.modFrag (agKey ag) e f
  | .helper _ _ _ h => s.modHelper (agKey ag) h fun x => { x with front := f x.front }
  | .seq d n => s.modSeq d n fun q => { q with front := f q.front }

/-- The header address that follows a clause (R78). -/
def nextClause (h : Addr) (hdr : Code) : Addr := h + BitVec.ofNat 48 (8 * (bits hdr 56 53 + 2))

/-- The address of the instruction a fragment stands at (R78). -/
def Fragment.pc (f : Fragment) : Addr := f.clause + BitVec.ofNat 48 (8 * (f.idx + 1))

/-- A fragment past its current instruction: the next of its clause, or the next clause (R78). -/
def Fragment.advance (f : Fragment) : Fragment :=
  match f.hdr with
  | none => f
  | some h =>
    if f.idx < bits h 56 53 then { f with idx := f.idx + 1, wait := .run, stall := .none, gang := none }
    else { f with clause := nextClause f.clause h, idx := 0, hdr := none, wait := .run, stall := .none, gang := none }

/-- A fragment at the header of another clause. -/
def Fragment.goto (f : Fragment) (a : Addr) : Fragment :=
  { f with clause := a, idx := 0, hdr := none, wait := .run, stall := .none, gang := none }

/-- The join address of a fragment's clause (R78). -/
def Fragment.joinAddr (f : Fragment) : Option Addr :=
  match f.hdr with
  | none => none
  | some h => if bits h 13 0 = 0 then none else some (f.clause + BitVec.ofNat 48 (8 * bits h 13 0))

/-- The agent past its current instruction. -/
def State.advance (s : State) (ag : Agent) : State := s.modFront ag Fragment.advance

/-- The agent marked as waiting: its gang that stands at issue tries again; a lower gang that has issued has read its sources (R27, R66). -/
def State.stallAt (s : State) (ag : Agent) (w : Stall) : State := s.modFront ag fun f => { f with stall := w }

/-- The die clock count of a die (R64): panel clocks since bring-up, offset by the die's skew. -/
def State.dieClock (s : State) (d : Nat) : BitVec 64 := BitVec.ofNat 64 s.clock + Config.dieSkew d

end Sys2Proof.Machine
end

