-- ==== Sys2Proof/Machine/Memory.lean ====
section
/-! DEFINITION. Memory of a die: stacks, L2 and L1 (R163 to R172), local memory (R167), poison and errors (R176,
R396), and translation (R311, R312) with the checks of R166. -/

namespace Sys2Proof.Machine

/-- Bytes of a stack's key space: the key of offset `off` of die `d`. -/
def stackKey (d off : Nat) : Nat := d * 2 ^ 36 + off

/-- What a byte of a stack that nothing has written reads as (log 5). -/
def unwritten : Byte := 0#8

/-- The canonical form of memory. -/
abbrev Memory.wf (m : List Host.Cell) : Bool := swf unwritten m

/-- One byte of a stack as the L2 gives it: a line held in L2, else the DRAM (R169). R377 speaks only of elements between dies: an
access of a die to its home stack while the link between them is down or trains is performed (DESIGN CHOICE, log 61). -/
def State.stackByte (s : State) (d off : Nat) : Byte :=
  match aget s.l2 (stackKey d off) with
  | some b => b
  | none => sget unwritten s.mem (stackKey d off)

/-- `n` bytes of a stack, little-endian, as the L2 gives them. -/
def State.stackRead (s : State) (d off n : Nat) : Nat :=
  natOfBytes ((List.range n).map fun i => s.stackByte d (off + i))

/-- The home slice of a 256-byte line of a stack: a fixed function that programs do not see (R169). -/
def homeSlice (line : Nat) : Nat := Config.homeSlice line % Config.nSlices

/-- The 256-byte lines of a die that the L2 holds: those with bytes that are not in the DRAM yet, and those held in some L1
of the die, which the L2 includes (R169). -/
def State.l2Lines (s : State) (d : Nat) : List Nat :=
  let own := s.l2.foldl (fun l e => if e.1 / 2 ^ 36 = d then nsInsert l (e.1 % 2 ^ 36 / 256) else l) []
  s.cores.foldl (fun l e => if e.1 / Config.nCores = d then e.2.l1.foldl (fun l x => nsInsert l (x.1 / 4)) l else l) own

/-- Whether the L2 holds a line. -/
def State.l2Holds (s : State) (d line : Nat) : Bool :=
  s.l2.any (fun e => e.1 / 256 == d * 2 ^ 28 + line) ||
  s.cores.any fun e => e.1 / Config.nCores == d && e.2.l1.any fun x => x.1 / 4 == line

/-- Whether the line of a stack offset is in its home slice or finds room there: a slice holds 4,096 lines (R13, R16). -/
def State.l2Room (s : State) (d off : Nat) : Bool :=
  s.l2Holds d (off / 256) ||
    let l := s.l2Lines d
    decide (l.length < Config.sliceLines) ||
      decide ((l.filter fun x => homeSlice x == homeSlice (off / 256)).length < Config.sliceLines)

/-- Bytes written at the home slice (R169). Where the slice is full and gives up no other line first, the line goes on to the
stack at once (log 50). -/
def State.stackWrite (s : State) (d off : Nat) : List Byte → State
  | [] => s
  | b :: t =>
    State.stackWrite
      (if s.l2Room d off then { s with l2 := aput s.l2 (stackKey d off) b }
       else { s with l2 := adel s.l2 (stackKey d off), mem := sset unwritten s.mem (stackKey d off) b }) d (off + 1) t

/-- The sector of a stack offset filled into the L2, where its slice has room (R199): its bytes keep their values. -/
def State.l2Fill (s : State) (d off : Nat) : State :=
  if s.l2Room d off then s.stackWrite d (off / 64 * 64) (bytesOf 64 (s.stackRead d (off / 64 * 64) 64)) else s

/-- Bytes of an L2 line moved to the DRAM (R169). -/
def evictCells (lo hi : Nat) : List Host.Cell → List Host.Cell → List Host.Cell × List Host.Cell
  | [], m => ([], m)
  | (k, b) :: t, m =>
    let r := evictCells lo hi t m
    if lo ≤ k && k < hi then (r.1, sset unwritten r.2 k b) else ((k, b) :: r.1, r.2)

/-- Bytes `lo` to `lo + n - 1` of an L1 line. -/
def lineRead (x : L1Line) (lo n : Nat) : Nat := x.data.toNat / 256 ^ lo % 256 ^ n

/-- An L1 line with bytes put in from offset `lo`; `dirty` marks them as not written back. -/
def lineWrite (x : L1Line) (lo : Nat) (l : List Byte) (dirty : Bool) : L1Line :=
  let m : BitVec 512 := BitVec.ofNat 512 ((256 ^ l.length - 1) * 256 ^ lo)
  { x with
    data := (x.data &&& ~~~m) ||| BitVec.ofNat 512 (natOfBytes l * 256 ^ lo)
    dirty := if dirty then x.dirty ||| BitVec.ofNat 64 ((2 ^ l.length - 1) * 2 ^ lo) else x.dirty }

/-- The line of L1 that holds offset `off`, fetched from L2 when it is not held (R170). -/
def State.l1Line (s : State) (d c off cls : Nat) : L1Line :=
  match aget (s.core d c).l1 (off / 64) with
  | some x => x
  | none => { cls := cls, data := BitVec.ofNat 512 (s.stackRead d (off / 64 * 64) 64), dirty := 0#64 }

/-- Whether a core's L1 holds the line of an offset. -/
def State.l1Has (s : State) (d c off : Nat) : Bool := (aget (s.core d c).l1 (off / 64)).isSome

/-- The dirty bytes of one line written back to L2 (R169): byte by byte from offset `i` on. -/
def State.writeBack (s : State) (d base : Nat) (x : L1Line) (i : Nat) : Nat → State
  | 0 => s
  | n + 1 =>
    let s' := if x.dirty.getLsbD i then s.stackWrite d (base + i) [byteOf x.data.toNat i] else s
    State.writeBack s' d base x (i + 1) n

/-- The lines that the L1 of a core with a split holds: 2,048, 1,536 or 1,024 (R15). -/
def l1Cap (split : Nat) : Nat := (Config.arrayBytes - splitLocal split) / 64

/-- Whether the line of an offset is in a core's L1 or finds room there and in the L2, which includes it (R15, R169). -/
def State.l1Room (s : State) (d c off : Nat) : Bool :=
  s.l1Has d c off || (decide ((s.core d c).l1.length < l1Cap (s.core d c).split.toNat) && s.l2Room d off)

/-- A line leaves a core's L1: its dirty bytes go to the home slice (R169, R172). -/
def State.l1Drop (s : State) (d c line : Nat) : State :=
  match aget (s.core d c).l1 line with
  | none => s
  | some x => (s.writeBack d (line * 64) x 0 64).modCore d c fun k => { k with l1 := adel k.l1 line }

/-- Every DIE and REPL line of a core invalidated (R170). -/
def State.l1InvalDieRepl (s : State) (d c : Nat) : State :=
  s.modCore d c fun k => { k with l1 := k.l1.filter fun e => e.2.cls = 0 }

/-- Every CORE line of a core invalidated (R172); its dirty bytes were written back before. -/
def State.l1InvalCore (s : State) (d c : Nat) : State :=
  s.modCore d c fun k => { k with l1 := k.l1.filter fun e => e.2.cls ≠ 0 }

/-- L1 copies of a range of stack offsets dropped without write-back (R55, R57). -/
def State.l1Discard (s : State) (d c lo n : Nat) : State :=
  s.modCore d c fun k => { k with l1 := k.l1.filter fun e => !(decide (lo ≤ e.1 * 64 ∧ e.1 * 64 < lo + n)) }

/-- An L2 line given up (R169): dirty bytes collected from every L1, merged, the copies invalidated, the line written to the
stack. -/
def State.l2Give (s : State) (d line : Nat) : State :=
  let s1 := (List.range Config.nCores).foldl (fun s c =>
    [0, 1, 2, 3].foldl (fun s i => s.l1Drop d c (line * 4 + i)) s) s
  let r := evictCells (stackKey d (line * 256)) (stackKey d (line * 256 + 256)) s1.l2 s1.mem
  { s1 with l2 := r.1, mem := r.2 }

/-- The sector of a stack offset (R169). -/
def sectorOf (d off : Nat) : Nat := stackKey d off / 64

/-- The RAS element of an event at a die clock count put, or counted as lost when the queue's 4,352 places are taken (R385). -/
def State.rasAt (s : State) (d time : Nat) (e : RasElem) : State :=
  s.modDie d fun x =>
    if x.rasQ.length < 256 + 4096 then
      { x with rasQ := x.rasQ ++ [{ e with phys := d, time := time, lost := x.rasLost }], rasLost := 0 }
    else { x with rasLost := x.rasLost + 1 }

/-- The RAS element of an event of now. -/
def State.rasPut (s : State) (d : Nat) (e : RasElem) : State := s.rasAt d (s.dieClock d).toNat e

/-- The key of a location in the error counts. -/
def locKey (struct_ unit addr : Nat) : Nat := (struct_ * 4096 + unit) * 2 ^ 64 + addr

/-- The errors of a location after one more: the corrected ones counted, the last three timed (R384, R385). -/
def ErrCount.bump (c : ErrCount) (now sev : Nat) : ErrCount :=
  { n := if sev = 0 then min (c.n + 1) (2 ^ 32 - 1) else c.n, times := (now :: c.times).take 3 }

/-- The pseudo-channel, one of 96 (R17), in bits 31:24, and the row in bits 23:0, of a stack offset (R385). -/
def stackPlace (off : Nat) : Nat :=
  Config.stackRow off / 2 ^ 24 % Config.nChannels * 2 ^ 24 + Config.stackRow off % 2 ^ 24

/-- The location of a line of an L1 in its core's unified array, apart from the blocks of local memory (R385). -/
def l1Loc (line : Nat) : Nat := 2 ^ 40 + line
/-- The location of a register of an agent in its core's register files or helper banks (R385). -/
def regLoc (k r : Nat) : Nat := k % (Config.nSlots * 16) * 1024 + r

/-- Whether a location of an SRAM lies in a row under test (R383). -/
def State.sramBusy (s : State) (d st unit addr : Nat) : Bool :=
  (s.die d).tests.any fun t =>
    t.running && t.struct_ == st && t.unit == unit && Config.sramRow st unit t.addr == Config.sramRow st unit addr

/-- Whether an access to a stack offset waits: its DRAM row is under test, or its pseudo-channel under repair (R383, R386), or
the row of its home slice is under test. -/
def State.stackBusy (s : State) (d off : Nat) : Bool :=
  ((s.die d).tests.any fun t => t.running && t.struct_ == 6 && stackPlace t.addr == stackPlace off) ||
  (match (s.die d).cmdBusy with
    | some c => fieldAt c 0 1 == 7 && stackPlace off / 2 ^ 24 == fieldAt c 8 1
    | none => false) ||
  s.sramBusy d 2 (homeSlice (off / 256)) (off / 64)

/-- The RAS element of an error, classified, with the time of the error (R384, R385). -/
def State.errorElem (s : State) (d struct_ unit addr detail sev cls time : Nat) : State :=
  s.rasAt d time
    { kind := 1, sev := sev, cls := cls, struct_ := struct_, unit := unit
      detail := if struct_ = 6 then stackPlace addr else detail
      addr := if struct_ = 6 then addr else if struct_ = 7 || struct_ = 8 then 0 else Config.sramRow struct_ unit addr
      count := (agetD (s.die d).errCounts (locKey struct_ unit addr) { n := 0, times := [] }).n }

/-- An error met at a location: counted, and a targeted test queued; with 64 tests pending it is classified
UNRESOLVED and reported at once; a test of the location already pending takes no second (R383, R384, R391). -/
def State.reportError (s : State) (d struct_ unit addr detail sev : Nat) : State :=
  let key := locKey struct_ unit addr
  let one := (agetD (s.die d).errCounts key { n := 0, times := [] }).bump s.clock sev
  let s := s.modDie d fun x => { x with errCounts := aput x.errCounts key one }
  let x := s.die d
  if x.tests.any fun t => t.struct_ = struct_ && t.unit = unit && t.addr = addr then s
  else if x.tests.length < Config.testsMax then
    s.modDie d fun x => { x with
      tests := x.tests ++ [{ struct_ := struct_, unit := unit, addr := addr, detail := detail, sev := sev, time := (s.dieClock d).toNat }] }
  else s.errorElem d struct_ unit addr detail sev 3 (s.dieClock d).toNat

/-- Whether an access meets trouble in a sector: the poison it carries, or an error no access has met (R176). -/
inductive Meet where
  | clean | poison | fresh
  deriving DecidableEq, Repr

/-- What a read of a stack sector at its home slice meets (R176). -/
def State.meetHome (s : State) (d off : Nat) : Meet :=
  if s.poison.contains (sectorOf d off) then .poison
  else if s.ue.contains (sectorOf d off) then .fresh
  else .clean

/-- Whether a core's L1 holds the line of an offset with bytes not written back and an error in it (R176). -/
def State.l1Bad (s : State) (d c off : Nat) : Bool :=
  match aget (s.core d c).l1 (off / 64) with
  | some x => x.ue && x.dirty != 0#64
  | none => false

/-- What an access of a core to a stack sector meets: what its L1 holds is not read again from the stack (R176, log 14). -/
def State.meetStack (s : State) (d c off : Nat) : Meet :=
  if s.poison.contains (sectorOf d off) then .poison
  else if s.l1Bad d c off || (s.ue.contains (sectorOf d off) && !s.l1Has d c off) then .fresh
  else .clean

/-- An error at a sector's home, in the stack or in the L2, reported and tested (R382, R383). -/
def State.reportHome (s : State) (d off : Nat) : State :=
  if s.ueL2.contains (sectorOf d off) then s.reportError d 2 (homeSlice (off / 256)) (off / 64) 0 1
  else s.reportError d 6 0 (off / 64 * 64) 0 1

/-- A sector poisoned because of an error just met at its home, which is reported and tested (R176). -/
def State.poisonStack (s : State) (d off : Nat) : State :=
  let k := sectorOf d off
  let s := s.reportHome d off
  { s with poison := nsInsert s.poison k, ue := nsErase s.ue k, ueL2 := nsErase s.ueL2 k }

/-- A sector poisoned because of an error an access of a core has just met: in the dirty line of its L1, which goes, or at the
sector's home (R176, R382). -/
def State.poisonCore (s : State) (d c off : Nat) : State :=
  if s.l1Bad d c off then
    ({ s with poison := nsInsert s.poison (sectorOf d off) }.modCore d c fun k => { k with l1 := adel k.l1 (off / 64) }).reportError
      d 1 c (l1Loc (off / 64)) 0 1
  else s.poisonStack d off

/-- An error in a clean L1 copy is no error of the location: it is reported and tested, and the line is fetched again (R176,
R383). -/
def State.l1Refetch (s : State) (d c off : Nat) : State :=
  match aget (s.core d c).l1 (off / 64) with
  | some x =>
    if x.ue && x.dirty = 0#64 then
      (s.modCore d c fun k => { k with l1 := adel k.l1 (off / 64) }).reportError d 1 c (l1Loc (off / 64)) 0 1
    else s
  | none => s

/-- A read of the device itself at a sector's home: an error not met before poisons it and is reported; poison does nothing
more (R3, R176). -/
def State.metHome (s : State) (d off : Nat) : State :=
  match s.meetHome d off with
  | .fresh => s.poisonStack d off
  | .poison | .clean => s

/-- The poison of a sector cleared by a write that covers it whole; a lasting defect may show again (R176). -/
def State.clearStack (s : State) (d off : Nat) : State :=
  let k := sectorOf d off
  { s with
    poison := nsErase s.poison k
    ue := if s.ueLasting.contains k then nsInsert s.ue k else nsErase s.ue k
    ueL2 := nsErase s.ueL2 k }

/-- A line leaves a core's L1 (R169, R172): an error in bytes not written back is met as the line is read out (R176). -/
def State.l1Leave (s : State) (d c line : Nat) : State :=
  if s.l1Bad d c (line * 64) then s.poisonCore d c (line * 64) else s.l1Drop d c line

/-- Room made in a core's L1 for the line of an offset: where there is none, a line that streamed goes first (R83); one
under test, or with a home under test or repair, stays (R383, R386). -/
def State.l1MakeRoom (s : State) (d c off : Nat) : State :=
  if s.l1Room d c off then s
  else match (s.core d c).l1.find? fun e =>
      e.2.stream && e.1 != off / 64 && !s.sramBusy d 1 c (l1Loc e.1) && !s.stackBusy d (e.1 * 64) with
    | some e => s.l1Leave d c e.1
    | none => s

/-- A line put into a core's L1 that has made room for it. Where the array is full and gives up no line, this one goes at once: its
dirty bytes to the home slice (R169, log 50). -/
def State.l1Put (s : State) (d c off : Nat) (x : L1Line) : State :=
  let s := s.l1MakeRoom d c off
  if s.l1Room d c off then s.modCore d c fun k => { k with l1 := aput k.l1 (off / 64) x }
  else s.writeBack d (off / 64 * 64) x 0 64

/-- A load of `n` bytes inside one line through a core's L1 (R170). -/
def State.coreRead (s : State) (d c off n cls : Nat) : State × Nat :=
  let x := s.l1Line d c off cls
  (s.l1Put d c off x, lineRead x (off % 64) n)

/-- A store inside one line: into L1, dirty, on a CORE page; written through to the home slice on any other, a copy
in the writer's L1 updated (R170). -/
def State.coreWrite (s : State) (d c off cls : Nat) (l : List Byte) : State :=
  if cls = 0 then s.l1Put d c off (lineWrite (s.l1Line d c off cls) (off % 64) l true)
  else
    let s' := s.stackWrite d off l
    match aget (s.core d c).l1 (off / 64) with
    | some x => s'.l1Put d c off (lineWrite x (off % 64) l false)
    | none => s'

/-- The line of an offset, if a core's L1 holds it, becomes a first candidate for eviction (R83). -/
def State.l1Stream (s : State) (d c off : Nat) : State :=
  s.modCore d c fun k => { k with l1 := amod k.l1 (off / 64) fun x => { x with stream := true } }

/-- A core's L1 gives up a line: while it holds lines that streamed, one of those first; a line under test or with a home under test
or repair waits (R83, R383, R386). -/
def State.l1Evict (s : State) (d c line : Nat) : State :=
  let l := (s.core d c).l1
  if (l.any (·.2.stream) && !((aget l line).map (·.stream)).getD false) || s.sramBusy d 1 c (l1Loc line) || s.stackBusy d (line * 64) then s
  else s.l1Leave d c line

/-- Every dirty CORE sector of a core written back, the lines kept clean (R172). -/
def State.l1WriteBackCore (s : State) (d c : Nat) : State :=
  (s.core d c).l1.foldl (fun s e =>
    if e.2.cls ≠ 0 then s
    else if s.l1Bad d c (e.1 * 64) then s.poisonCore d c (e.1 * 64)
    else
      (s.writeBack d (e.1 * 64) e.2 0 64).modCore d c fun k => { k with l1 := amod k.l1 e.1 fun x => { x with dirty := 0#64 } }) s

/-- Eviction of an L2 line (R169): dirty bytes collected from every L1, merged, the copies invalidated, the line written to the
stack. An error in the L2's copy is met as the line is read out (R382). -/
def State.l2Evict (s : State) (d line : Nat) : State :=
  let s := (s.cores.filter fun e => e.1 / Config.nCores == d).foldl (fun s e =>
    [0, 1, 2, 3].foldl (fun s i => if s.l1Bad d (e.1 % Config.nCores) ((line * 4 + i) * 64) then
      s.poisonCore d (e.1 % Config.nCores) ((line * 4 + i) * 64) else s) s) s
  let s := [0, 1, 2, 3].foldl (fun s i =>
    if s.ueL2.contains (sectorOf d (line * 256 + 64 * i)) then s.poisonStack d (line * 256 + 64 * i) else s) s
  s.l2Give d line

/-- Bytes from an address cut at 64-byte sectors. -/
def spanCuts (a n : Nat) : Nat → List (Nat × Nat)
  | 0 => []
  | fuel + 1 =>
    if n = 0 then []
    else
      let m := min n (64 - a % 64)
      (a, m) :: spanCuts (a + m) (n - m) fuel

/-- Bytes written at the home, a plan of offsets and lengths each inside one sector: a sector written whole loses its poison; a
part of a sector in error or poisoned is not written, and the answer is whether all were (R176, R240, R371). -/
def State.bulkPut (s : State) (d : Nat) (l : List Byte) : List (Nat × Nat) → State × Bool
  | [] => (s, true)
  | x :: t =>
    let b := l.take x.2
    if x.2 = 64 then State.bulkPut ((s.clearStack d x.1).stackWrite d x.1 b) d (l.drop x.2) t
    else match s.meetHome d x.1 with
      | .clean => State.bulkPut (s.stackWrite d x.1 b) d (l.drop x.2) t
      | .poison | .fresh => ((State.bulkPut (s.metHome d x.1) d (l.drop x.2) t).1, false)

/-- Sectors of a plan met by a read at the home: an error poisons its sector; the answer is whether all were clean (R176, R240,
R371). -/
def State.bulkMeet (s : State) (d : Nat) : List (Nat × Nat) → State × Bool
  | [] => (s, true)
  | x :: t =>
    match s.meetHome d x.1 with
    | .clean => State.bulkMeet s d t
    | .poison | .fresh => ((State.bulkMeet (s.metHome d x.1) d t).1, false)

/-- Whether a plan waits for a test or a repair of some row of it (R383, R386). -/
def State.bulkBusy (s : State) (d : Nat) (plan : List (Nat × Nat)) : Bool := plan.any fun x => s.stackBusy d x.1

/-- One byte of a team's local memory (R167). -/
def Team.localByte (t : Team) (a : Nat) : Byte := sget 0#8 t.localMem a
/-- `n` bytes of local memory, little-endian. -/
def Team.localRead (t : Team) (a n : Nat) : Nat := natOfBytes ((List.range n).map fun i => t.localByte (a + i))
/-- Bytes put into local memory. -/
def localPut (m : List Host.Cell) (a : Nat) : List Byte → List Host.Cell
  | [] => m
  | b :: t => localPut (sset 0#8 m a b) (a + 1) t
/-- The 16-bit places that `n` bytes from an address touch: address / 2 and what each holds. -/
def Team.placesAt (t : Team) (a n : Nat) : List (Nat × Nat) :=
  (List.range ((a % 2 + n + 1) / 2)).map fun i => (a / 2 + i, t.localRead (2 * (a / 2 + i)) 2)
/-- A sequencer whose MMAs, up to their consumed arrivals, remember what a store is about to replace (R354). -/
def Team.remember (t : Team) (a n : Nat) : Option Seq :=
  t.seq.map fun q => { q with mmas := q.mmas.map fun x => if x.arrived then x else { x with older := x.older ++ t.placesAt a n } }
/-- Bytes put into local memory, what they replace having been remembered. -/
def Team.localPoke (t : Team) (a : Nat) (l : List Byte) : Team := { t with localMem := localPut t.localMem a l }
/-- Bytes written to local memory. -/
def Team.localWrite (t : Team) (a : Nat) (l : List Byte) : Team := { t with seq := t.remember a l.length }.localPoke a l
/-- A 16-bit place remembered, with the bytes that `p` picks as they stand now. -/
def Team.patchPlace (t : Team) (p : Nat → Bool) (e : Nat × Nat) : Nat × Nat :=
  let byte := fun i => if p (2 * e.1 + i) then t.localRead (2 * e.1 + i) 1 else e.2 / 256 ^ i % 256
  (e.1, byte 0 + 256 * byte 1)

/-- What an access to local bytes meets in their 64-byte blocks (R176, R396). -/
def Team.meetLocal (t : Team) (a : Nat) : Meet :=
  if t.localPoison.contains (a / 64) then .poison
  else if t.localUe.contains (a / 64) then .fresh
  else .clean

/-- The physical core whose array holds a local address (R45). -/
def Team.localCore (t : Team) (a : Nat) : Nat :=
  match t.cores with
  | [lo, hi] => if a < halfOf (recL t.recd) then lo else hi
  | lo :: _ => lo
  | [] => 0

/-- A local block poisoned because of an error just met (R176). -/
def State.poisonLocal (s : State) (d n a : Nat) : State :=
  match s.team? d n with
  | none => s
  | some t =>
    (s.modTeam d n fun t => { t with localPoison := nsInsert t.localPoison (a / 64), localUe := nsErase t.localUe (a / 64) }).reportError
      d 1 (t.localCore a) (a / 64) 0 1

/-- A local block's poison cleared by a write that covers it whole (R396). -/
def State.clearLocal (s : State) (d n a : Nat) : State :=
  s.modTeam d n fun t => { t with localPoison := nsErase t.localPoison (a / 64), localUe := nsErase t.localUe (a / 64) }

/-- A read of local bytes inside one block by an agent of the device: the value, or none when an error or poison is
met; a fresh error poisons the block and is reported (R176). -/
def State.localGet (s : State) (d n a len : Nat) : State × Option Nat :=
  match s.team? d n with
  | none => (s, none)
  | some t =>
    match t.meetLocal a with
    | .clean => (s, some (t.localRead a len))
    | .poison => (s, none)
    | .fresh => (s.poisonLocal d n a, none)

/-- A write of local bytes inside one block by an agent of the device; `false` when it is not performed (R396). A
write of a whole block clears its poison. -/
def State.localSet (s : State) (d n a : Nat) (l : List Byte) : State × Bool :=
  match s.team? d n with
  | none => (s, false)
  | some t =>
    if l.length = 64 && a % 64 = 0 then ((s.clearLocal d n a).modTeam d n fun t => t.localWrite a l, true)
    else match t.meetLocal a with
      | .clean => (s.modTeam d n fun t => t.localWrite a l, true)
      | .poison => (s, false)
      | .fresh => (s.poisonLocal d n a, false)

/-- The core that holds a pair row (R331): the lower for rows 0 to 1,023, the upper for the rest. -/
def Team.tunCore (t : Team) (r : Nat) : Nat := (t.cores[r / 1024]?).getD 0

/-- A word of a pair row. -/
def State.tunWord (s : State) (d : Nat) (t : Team) (r w : Nat) : Word :=
  sget 0#32 (s.core d (t.tunCore r)).tun (r % 1024 * 16 + w)

/-- A word of a pair row written. -/
def State.tunPut (s : State) (d : Nat) (t : Team) (r w : Nat) (x : Word) : State :=
  s.modCore d (t.tunCore r) fun c => { c with tun := sset 0#32 c.tun (r % 1024 * 16 + w) x }

/-- A row's poison cleared by a write of the whole row (R347, R356). -/
def State.tunClear (s : State) (d : Nat) (t : Team) (r : Nat) : State :=
  s.modCore d (t.tunCore r) fun c =>
    { c with tunPoison := nsErase c.tunPoison (r % 1024), tunUe := nsErase c.tunUe (r % 1024) }

/-- A row read: an error poisons it and is reported; the answer is whether the row was clean (R347, R382). -/
def State.tunMeetRow (s : State) (d : Nat) (t : Team) (r : Nat) : State × Bool :=
  let c := s.core d (t.tunCore r)
  if c.tunPoison.contains (r % 1024) then (s, false)
  else if c.tunUe.contains (r % 1024) then
    let s := s.modCore d (t.tunCore r) fun c =>
      { c with tunPoison := nsInsert c.tunPoison (r % 1024), tunUe := nsErase c.tunUe (r % 1024) }
    (s.reportError d 4 (t.tunCore r) (r % 1024) 0 1, false)
  else (s, true)

/-- Rows read; the answer is whether every row was clean (R347, R382). -/
def State.tunMeet (s : State) (d : Nat) (t : Team) : List Nat → State × Bool
  | [] => (s, true)
  | r :: rs =>
    let x := s.tunMeetRow d t r
    let y := State.tunMeet x.1 d t rs
    (y.1, x.2 && y.2)

/-- Whether a row of the tun is under test (R383). -/
def State.tunBusy (s : State) (d : Nat) (t : Team) (rs : List Nat) : Bool := rs.any fun r => s.sramBusy d 4 (t.tunCore r) (r % 1024)

/-- The location of a grist entry among a core's other SRAM (R385). -/
def gristLoc (e : Nat) : Nat := e

/-- Grist entries of a core read: an error marks its entry until MTAB writes it, and is reported; the answer is whether every
entry was clean (R382). -/
def State.gristMeet (s : State) (d c : Nat) : List Nat → State × Bool
  | [] => (s, true)
  | e :: t =>
    let bad := (s.core d c).gristPoison.contains e
    let s := if (s.core d c).gristUe.contains e then
        (s.modCore d c fun x => { x with gristUe := nsErase x.gristUe e }).reportError d 9 c (gristLoc e) 0 1
      else s
    let y := State.gristMeet s d c t
    (y.1, !bad && y.2)

/-- Whether an entry of a core's grist copy is under test (R383). -/
def State.gristBusy (s : State) (d c : Nat) (l : List Nat) : Bool := l.any fun e => s.sramBusy d 9 c (gristLoc e)

/-- The fields of a translation entry (R311). -/
def TlbEntry.cls (e : TlbEntry) : Nat := bits e.leaf 61 60
/-- READ (R311). -/
def TlbEntry.rd (e : TlbEntry) : Bool := e.leaf.getLsbD 59
/-- WRITE (R311). -/
def TlbEntry.wr (e : TlbEntry) : Bool := e.leaf.getLsbD 58
/-- HOME (R311). -/
def TlbEntry.home (e : TlbEntry) : Nat := bits e.leaf 57 51
/-- The page size of a leaf at a level: 1 GiB, 2 MiB or 64 KiB (R311). -/
def pageSize (level : Nat) : Nat := if level = 2 then 2 ^ 30 else if level = 3 then 2 ^ 21 else 2 ^ 16
/-- The stack offset an address translates to (R311). -/
def TlbEntry.phys (e : TlbEntry) (va : Nat) : Nat := bits e.leaf 47 8 * 256 + va % pageSize e.level

/-- What a walk or a look-up gives. -/
inductive Walk where
  | ok (e : TlbEntry)
  | fail (f : WalkFail)
  deriving DecidableEq, Repr

/-- The index of an address at a level (R311). -/
def walkIndex (level va : Nat) : Nat :=
  match level with
  | 1 => nbits va 47 39
  | 2 => nbits va 38 30
  | 3 => nbits va 29 21
  | _ => nbits va 20 16

/-- Bytes of a table at a level: 512 entries, 32 at level 4 (R311). -/
def tableBytes (level : Nat) : Nat := if level = 4 then 256 else 4096

/-- Whether an entry stops the walk at a level (R311). A table that leaves the stack does too (log 51). -/
def badEntry (x : BitVec 64) (level : Nat) : Bool :=
  let leaf := x.getLsbD 62
  let a := bits x 47 8 * 256
  !x.getLsbD 63 || (leaf && level = 1) || (!leaf && level = 4) || bits x 50 48 != 0 || bits x 7 0 != 0 ||
  (leaf && (a % pageSize level != 0 || bits x 47 36 != 0 || decide (Config.stackBytes < a + pageSize level))) ||
  (!leaf && decide (Config.stackBytes < a + tableBytes (level + 1)))

/-- The walk from a table at a level (R311), `fuel` levels left. -/
def State.walkFrom (s : State) (d va table level : Nat) : Nat → Walk
  | 0 => .fail { level := 4, mchk := false, addr := 0 }
  | n + 1 =>
    let a := table + 8 * walkIndex level va
    if s.meetHome d a != .clean then .fail { level := level, mchk := true, addr := a }
    else
      let x := BitVec.ofNat 64 (s.stackRead d a 8)
      if badEntry x level then .fail { level := level, mchk := false, addr := 0 }
      else if x.getLsbD 62 then .ok { leaf := x, level := level }
      else State.walkFrom s d va (bits x 47 8 * 256) (level + 1) n

/-- The walk of an address in a process's table on a die; a process with no table there maps nothing (R311). -/
def State.walk (s : State) (d : Nat) (ptag : BitVec 12) (va : Nat) : Walk :=
  match aget (s.die d).procs ptag.toNat with
  | none => .fail { level := 1, mchk := false, addr := 0 }
  | some p => s.walkFrom d va p.root 1 4

/-- Whether a walk from a table at a level waits for a test or a repair of a row it reads (R383, R386), `fuel` levels left. -/
def State.walkBusyFrom (s : State) (d va table level : Nat) : Nat → Bool
  | 0 => false
  | n + 1 =>
    let a := table + 8 * walkIndex level va
    let x := BitVec.ofNat 64 (s.stackRead d a 8)
    s.stackBusy d a || (!badEntry x level && !x.getLsbD 62 && State.walkBusyFrom s d va (bits x 47 8 * 256) (level + 1) n)

/-- Whether the walk of an address waits (R383, R386). -/
def State.walkBusy (s : State) (d : Nat) (ptag : BitVec 12) (va : Nat) : Bool :=
  match aget (s.die d).procs ptag.toNat with
  | none => false
  | some p => s.walkBusyFrom d va p.root 1 4

/-- The key of a 64 KiB page of a process in the TLB and among the walks (R312). -/
def pageKey (ptag : BitVec 12) (va : Nat) : Nat := ptag.toNat * 2 ^ 32 + va / 65536

/-- The cached entry that maps an address, if a TLB holds one: entries stand under the first 64 KiB of their page (R312). -/
def tlbHit (l : List (Nat × TlbEntry)) (ptag : BitVec 12) (va : Nat) : Option TlbEntry :=
  [4, 3, 2].findSome? fun v =>
    (aget l (pageKey ptag (va / pageSize v * pageSize v))).bind fun e => if e.level = v then some e else none

/-- The cached translation a core has of an address: in its own TLB, or in the die's (R312). -/
def State.tlbGet (s : State) (d c : Nat) (ptag : BitVec 12) (va : Nat) : Option TlbEntry :=
  match tlbHit (s.core d c).tlb ptag va with
  | some e => some e
  | none => tlbHit (s.die d).tlb ptag va

/-- A TLB of `cap` entries with an entry put in: when it is full another, freely chosen, goes (R312). -/
def tlbPut (cap t : Nat) (l : List (Nat × TlbEntry)) (key : Nat) (e : TlbEntry) : List (Nat × TlbEntry) :=
  if (aget l key).isSome || decide (l.length < cap) then aput l key e
  else aput (l.eraseIdx (Config.freeNat t % l.length)) key e

/-- The page of an address, by its first 64 KiB, as the tables map it: misses to one page join one walk (R312). -/
def State.walkKey (s : State) (d : Nat) (ptag : BitVec 12) (va : Nat) : Nat :=
  match s.walk d ptag va with
  | .ok e => pageKey ptag (va / pageSize e.level * pageSize e.level)
  | .fail _ => pageKey ptag va

/-- Translation by an entry of the die's TLB, or by a walk made at once: for code fetches, engines and the device's own
accesses (R312). -/
def State.xlate (s : State) (d : Nat) (ptag : BitVec 12) (va : Nat) : Walk :=
  match tlbHit (s.die d).tlb ptag va with
  | some e => .ok e
  | none => s.walk d ptag va

/-- Whether a translation made at once waits for its walk (R383, R386). -/
def State.xlateBusy (s : State) (d : Nat) (ptag : BitVec 12) (va : Nat) : Bool :=
  (tlbHit (s.die d).tlb ptag va).isNone && s.walkBusy d ptag va

/-- The error that the walk for an address meets is poisoned and reported (R3, R312, R382). -/
def State.walkMet (s : State) (d : Nat) (ptag : BitVec 12) (va : Nat) : State :=
  match s.xlate d ptag va with
  | .ok _ => s
  | .fail f => if f.mchk then s.metHome d f.addr else s

/-- What an access needs (R166). -/
inductive Need where
  | read | write | both | fetch
  deriving DecidableEq, Repr

/-- DETAIL bits 2:0 of a translation fault (R291). -/
def Need.bits : Need → Nat
  | .read => 1 | .write => 2 | .both => 3 | .fetch => 4

/-- The rights and class check (R165, R166). -/
def rightsOk (e : TlbEntry) (n : Need) : Bool :=
  match n with
  | .read => e.cls != 3 && e.rd
  | .write => e.cls != 3 && e.cls != 2 && e.wr
  | .both => e.cls != 3 && e.cls != 2 && e.rd && e.wr
  | .fetch => e.cls == 2 && e.rd

/-- A page check (R166): the fault code and DETAIL, or the stack offset and the class. -/
inductive Chk where
  | ok (phys cls : Nat)
  | bad (code detail : Nat)
  /-- An uncorrectable error in the walk (R312). -/
  | mchk (addr : Nat)
  /-- No cached translation, and no walk has ended yet. -/
  | miss
  deriving DecidableEq, Repr

/-- NONLOCAL and PROT of a translated address (R166). -/
def State.chkEntry (s : State) (d : Nat) (e : TlbEntry) (va : Nat) (n : Need) : Chk :=
  if e.cls != 2 && n != .fetch && some e.home != s.logDie? d then .bad 33 e.home
  else if !rightsOk e n then .bad 34 n.bits
  else .ok (e.phys va) e.cls

/-- The checks of R166 on an address, translated at once. -/
def State.chkNow (s : State) (d : Nat) (ptag : BitVec 12) (va width : Nat) (n : Need) : Chk :=
  if va % width != 0 then .bad 5 0
  else match s.xlate d ptag va with
    | .ok e => s.chkEntry d e va n
    | .fail f => if f.mchk then .mchk f.addr else .bad 32 (n.bits + 256 * f.level)

/-- The checks of R166 on an address by a memory instruction of a core: a miss waits for its walk (R312). -/
def State.chkIssue (s : State) (d c : Nat) (ptag : BitVec 12) (va width : Nat) (n : Need) : Chk :=
  if va % width != 0 then .bad 5 0
  else match s.tlbGet d c ptag va with
    | some e => s.chkEntry d e va n
    | none =>
      match aget (s.die d).walkFails (pageKey ptag va) with
      | some f => if f.mchk then .mchk f.addr else .bad 32 (n.bits + 256 * f.level)
      | none => .miss

/-- A fetched word of code, or the fault that stops the fetch (R78). -/
def State.fetchWord (s : State) (d : Nat) (ptag : BitVec 12) (a : Addr) : Code ⊕ (Nat × Nat) :=
  match s.chkNow d ptag a.toNat 8 .fetch with
  | .ok p _ => if s.meetHome d p != .clean then .inr (36, 0)
               else .inl (BitVec.ofNat 64 (s.stackRead d p 8))
  | .bad c dt => .inr (c, dt)
  | .mchk _ => .inr (36, 0)
  | .miss => .inr (32, 0)

/-- The error that a fetch of code at an address meets, in the word or in a table of its translation: poisoned, tested and
reported (R3, R176, R383). -/
def State.fetchMet (s : State) (d : Nat) (ptag : BitVec 12) (a : Addr) : State :=
  match s.chkNow d ptag a.toNat 8 .fetch with
  | .ok p _ => s.metHome d p
  | .mchk p => s.metHome d p
  | .bad _ _ | .miss => s

/-- Whether a fetch of code at an address waits for a test or a repair (R383, R386). -/
def State.fetchBusy (s : State) (d : Nat) (ptag : BitVec 12) (a : Addr) : Bool :=
  s.xlateBusy d ptag a.toNat ||
  match s.chkNow d ptag a.toNat 8 .fetch with
  | .ok p _ => s.stackBusy d p
  | .bad _ _ | .mchk _ | .miss => false

/-- Whether a word is a clause header (R74). -/
def isHeader (w : Code) : Bool := bits w 63 60 == 0b1111
/-- Whether a word is a clause header with the landing flag (R74). -/
def isLanding (w : Code) : Bool := isHeader w && w.getLsbD 52
/-- Whether a header's class or windows raise ILLOP at its start (R74). -/
def badHeader (w : Code) : Bool :=
  decide (bits w 59 57 ≥ 6) ||
  [bits w 49 43, bits w 42 36, bits w 35 29, bits w 28 22].any fun x => decide (80 ≤ x ∧ x ≤ 126)

/-- Whether an address holds the header of an entry, an indirect target or a trap vector (R78): aligned, on a
readable REPL page, a header with the landing flag. Where its word or the walk to it is in error, R121 and R176 name no fault: it is no
such header here (log 74). -/
def State.landingAt (s : State) (d : Nat) (ptag : BitVec 12) (a : Addr) : Bool :=
  match s.fetchWord d ptag a with
  | .inl w => isLanding w
  | .inr _ => false

end Sys2Proof.Machine
end

