-- ==== Sys2Proof/Machine/Fabric.lean ====
section
/-! DEFINITION. Queue identifiers and their translation (R227 to R231), requests and their streams (R241, R268), port
puts (R397), and the elements the device sends: fault elements and notices (R298) and completion elements (R39). -/

namespace Sys2Proof.Machine

/-- KIND of a qid (R227). -/
def qidKind (q : BitVec 32) : Nat := bits q 31 30
/-- The table entry a qid names (R227). -/
def qidEntry (q : BitVec 32) : Nat := if qidKind q = 1 then bits q 23 0 else bits q 29 0

/-- The right a request needs (R230). -/
inductive Right where
  | produce | consume | either | none
  deriving DecidableEq, Repr

/-- Where a port reads an entry of a process's queue translation table, in the home stack of the die: none past the table's end, or
where the ports keep the entry (R228). -/
def State.qAddr (s : State) (d : Nat) (ptag : BitVec 12) (x : Nat) : Option Nat :=
  (aget (s.die d).procs ptag.toNat).bind fun p =>
    if p.qlen ≤ x || (aget (s.die d).qcache (ptag.toNat * 2 ^ 30 + x)).isSome then none else some (p.qtab + 8 * x)

/-- An entry of a process's queue translation table on a die, cached or read from its copy (R228). No rule gives a QFAULT cause for
an entry whose bytes are in error or poisoned: the model has no entry there, which gives NOENTRY (log 63). -/
def State.qEntry (s : State) (d : Nat) (ptag : BitVec 12) (x : Nat) : Option (BitVec 64) :=
  match aget (s.die d).procs ptag.toNat with
  | none => none
  | some p =>
    if p.qlen ≤ x then none
    else match aget (s.die d).qcache (ptag.toNat * 2 ^ 30 + x) with
      | some e => some e
      | none =>
        if s.meetHome d (p.qtab + 8 * x) != .clean then none else some (BitVec.ofNat 64 (s.stackRead d (p.qtab + 8 * x) 8))

/-- An error that a port's read of a table entry meets is poisoned and reported (R3, R176, R382). -/
def State.qMet (s : State) (d : Nat) (ptag : BitVec 12) (x : Nat) : State := ((s.qAddr d ptag x).map (s.metHome d)).getD s

/-- Whether a port's read of a table entry waits for a test or a repair of its row (R383, R386). -/
def State.qBusy (s : State) (d : Nat) (ptag : BitVec 12) (x : Nat) : Bool := ((s.qAddr d ptag x).map (s.stackBusy d)).getD false

/-- The ports keep an entry they have used until it is invalidated (R228). -/
def State.qCache (s : State) (d : Nat) (ptag : BitVec 12) (x : Nat) : State :=
  match s.qEntry d ptag x with
  | some e => s.modDie d fun v => { v with qcache := aput v.qcache (ptag.toNat * 2 ^ 30 + x) e }
  | none => s

/-- Whether a translation entry is in use and well formed (R229). -/
def qEntryOk (e : BitVec 64) (kind : Nat) : Bool :=
  e.getLsbD 63 && bits e 22 0 == 0 && (kind == 1 || decide (bits e 54 52 ≤ 4))

/-- The home an entry names (R229). -/
def qEntryHome (e : BitVec 64) : QHome :=
  { panel := e.extractLsb' 44 8, die := e.extractLsb' 37 7, port := e.extractLsb' 35 2, slot := e.extractLsb' 23 12 }

/-- Whether an entry gives a right (R229, R230). -/
def qEntryRight (e : BitVec 64) (r : Right) : Bool :=
  match r with
  | .produce => e.getLsbD 56
  | .consume => e.getLsbD 55
  | .either => e.getLsbD 56 || e.getLsbD 55
  | .none => true

/-- Translation of a qid at a port of a die (R230): the home and the generation the request carries, or the QFAULT
cause. R230 and R227 leave open what a port put or a host's request that names a system qid or KIND 0b11 gets, and whether its
entry is looked at first: the model's choice is NORIGHT before any check of an entry (log 56). -/
def State.transQ (s : State) (d : Nat) (ptag : BitVec 12) (q : BitVec 32) (r : Right) (byGroup : Bool)
    (kinds : List Nat) : Except Nat (QHome × BitVec 6) :=
  if qidKind q = 2 && byGroup then .error 3
  else if 2 ≤ qidKind q then .error 2
  else match s.qEntry d ptag (qidEntry q) with
    | none => .error 1
    | some e =>
      let h := qEntryHome e
      if !qEntryOk e (qidKind q) then .error 1
      else if !qEntryRight e r then .error 2
      else if h.panel = s.panelNo && decide (s.dieMap.length ≤ h.die.toNat) then .error 1
      else if !kinds.contains (qidKind q) then .error 2
      else .ok (h, if qidKind q = 1 then q.extractLsb' 24 6 else e.extractLsb' 57 6)

/-- The number of a stream, given one when it is new (R241). -/
def State.streamOf (s : State) (key : List Nat) : State × Nat :=
  match s.streamIds.findIdx? (· == key) with
  | some i => (s, i)
  | none => ({ s with streamIds := s.streamIds ++ [key] }, s.streamIds.length)

/-- The stream of a sender and a qid (R241); a port and a host connection put to queues of several processes, whose qids are
apart (R397). -/
def senderKey (x : Sender) (ptag : BitVec 12) (q : BitVec 32) : List Nat :=
  match x with
  | .group _ uid _ => [0, uid, q.toNat]
  | .port d p => [1, d, p, ptag.toNat, q.toNat]
  | .far p uid => [2, p.toNat, uid, q.toNat]
  | .host c _ _ => [3, c, ptag.toNat, q.toNat]

/-- Whether a message is the data of a request already answered. -/
def Ask.isFill : Ask → Bool
  | .fill _ _ => true
  | .reserve _ | .qrp _ _ | .put _ _ _ | .cancel _ _ | .get _ _ _ | .stat => false

/-- Whether a request is a standing host GET (R369). -/
def Msg.standing (m : Msg) : Bool :=
  match m.sender with
  | .host _ _ st => st
  | .group _ _ _ | .port _ _ | .far _ _ => false

/-- Whether some request of a connection that `p` picks by its SEQUENCE, or its data, is not performed yet (R368). -/
def State.connBusy (s : State) (c : Nat) (p : BitVec 32 → Bool) : Bool :=
  s.msgs.any fun e => match e.2.sender with
    | .host c' q _ => c' == c && p q && !e.2.accepted && !e.2.told && (aget s.answers e.1).isNone
    | .group _ _ _ | .port _ _ | .far _ _ => false

/-- Whether a host's request waits until an earlier one of its connection is performed (R368). -/
def State.connWaits (s : State) (m : Msg) : Bool :=
  match m.sender with
  | .host c q _ => !m.told && s.connBusy c fun x => x != q && decide ((q - x).toNat < 2 ^ 31)
  | .group _ _ _ | .port _ _ | .far _ _ => false

/-- Requests of a stream that have no answer yet (R241). -/
def State.unanswered (s : State) (i : Nat) : Nat :=
  (s.msgs.filter fun m => m.2.stream = i && !m.2.dead && !m.2.accepted && !m.2.ask.isFill).length

/-- Whether a further request of a sender's stream to a qid may be sent (R241). -/
def State.streamRoom (s : State) (x : Sender) (ptag : BitVec 12) (q : BitVec 32) : Bool :=
  match s.streamIds.findIdx? (· == senderKey x ptag q) with
  | some i => decide (s.unanswered i < 65536)
  | none => true

/-- Bytes of elements a port sends or delivers for a process, counted in its window (R46). -/
def State.addTraffic (s : State) (d : Nat) (ptag : BitVec 12) (n : Nat) : State :=
  s.modDie d fun x =>
    let t := agetD x.traffic ptag.toNat {}
    { x with traffic := aput x.traffic ptag.toNat { t with count := t.count + n } }

/-- Bytes of the elements a request carries. -/
def Ask.bytes : Ask → Nat
  | .qrp _ es | .fill _ es | .put _ _ es => (es.map fun e => e.data.length).sum
  | .reserve _ | .cancel _ _ | .get _ _ _ | .stat => 0

/-- What names a group in what it sends: TAG, TEAM, logical core, team slot and group (R259, R289). -/
def State.groupWho (s : State) (k : Nat) : List Nat :=
  [(recTag (s.recOf k)).toNat, ((s.teamOf? k).map fun t => t.index.toNat).getD 0,
   ((s.group? k).map fun g => (s.die (keyDie k)).logCore g.core).getD 255, keySlot k, keyG k]

/-- What names a sender (R289). -/
def State.whoOf (s : State) (x : Sender) : List Nat :=
  match x with
  | .group k _ _ => s.groupWho k
  | .port _ p => [p]
  | .host c q _ => [c, q.toNat]
  | .far _ _ => []

/-- A request sent: it takes the next number of its stream at that moment (R268). -/
def State.post (s : State) (x : Sender) (d : Nat) (ptag : BitVec 12) (q : BitVec 32) (h : QHome) (g : BitVec 6)
    (a : Ask) (carry : Option PortPut) : State × Nat :=
  let r := s.streamOf (senderKey x ptag q)
  let s := (r.1.qCache d ptag (qidEntry q)).addTraffic d ptag a.bytes
  let n := sget 0#32 s.streams r.2
  let m : Msg :=
    { sender := x, qid := q, home := h, gen := g, ptag := ptag, stream := r.2, seq := n, ask := a, sent := s.clock,
      srcDie := s.logDie d, carry := carry, who := s.whoOf x }
  ({ s with
      streams := sset 0#32 s.streams r.2 (n + 1#32)
      msgs := aput s.msgs s.fresh m
      fresh := s.fresh + 1 }, s.fresh)

/-- The fields of a fault element (R298). -/
structure Notice where
  code : Nat
  cause : Nat := 0
  vectorFail : Bool := false
  frameFail : Bool := false
  parked : Bool := false
  inHandler : Bool := false
  source : Nat := 0
  die : Nat := 0
  slot : Nat := 0
  group : Nat := 0
  core : Nat := 0xFF
  count : Nat := 0
  panel : Nat := 0
  parkId : Nat := 0
  team : Nat := 0
  tag : Nat := 0
  detail : Nat := 0
  pc : Nat := 0
  addr : Nat := 0
  lanes : Nat := 0
  deriving DecidableEq, Repr

/-- The 64 bytes of a fault element (R298). -/
def Notice.bytes (n : Notice) : List Byte :=
  let b := fun (x : Bool) (k : Nat) => if x then 2 ^ k else 0
  bytesOf 64 (n.code % 256 + n.cause % 256 * 2 ^ 8 + b n.vectorFail 17 + b n.frameFail 18 + b n.parked 19 +
    b n.inHandler 20 + n.source % 8 * 2 ^ 21 + n.die % 256 * 2 ^ 24 + n.slot % 2048 * 2 ^ 37 + n.group % 16 * 2 ^ 52 +
    n.core % 256 * 2 ^ 56 + n.count % 2 ^ 32 * 2 ^ 96 + n.panel % 256 * 2 ^ 128 + n.parkId % 2 ^ 16 * 2 ^ 240 +
    n.team % 2 ^ 32 * 2 ^ 256 + n.tag % 2 ^ 32 * 2 ^ 288 + n.detail % 2 ^ 32 * 2 ^ 320 + n.pc % 2 ^ 48 * 2 ^ 352 +
    n.addr % 2 ^ 48 * 2 ^ 400 + n.lanes % 2 ^ 64 * 2 ^ 448)

/-- A fault element kept in the process's overflow list, or dropped and counted when it holds 256 (R299). -/
def State.overflowAdd (s : State) (d : Nat) (ptag : BitVec 12) (e : List Byte) : State :=
  s.modDie d fun x =>
    let l := agetD x.overflow ptag.toNat []
    if l.length < Config.overflowMax then { x with overflow := aput x.overflow ptag.toNat (l ++ [e]) }
    else
      { x with
        lostFaults := aput x.lostFaults ptag.toNat (agetD x.lostFaults ptag.toNat 0 + 1)
        rasLost := x.rasLost + 1 }

/-- A port put sent, or kept behind those of its stream while 65,536 of its requests have no answer (R241, R397). -/
def State.portSend (s : State) (d : Nat) (w : WaitPut) : State :=
  if (s.die d).putWait.any (fun v => v.port == w.port && v.ptag == w.ptag && v.qid == w.qid) || !s.streamRoom (.port d w.port) w.ptag w.qid then
    s.modDie d fun x => { x with putWait := x.putWait ++ [w] }
  else
    (s.post (.port d w.port) d w.ptag w.qid w.home w.gen (.qrp none [{ data := w.elem, tag := 0#16 }]) (some w.carry)).1

/-- Port puts that waited are sent, oldest first, as far as their streams have room (R241). -/
def State.sendWaiting (s : State) (d : Nat) : State :=
  (s.die d).putWait.foldl (fun s w => s.portSend d w) (s.modDie d fun x => { x with putWait := [] })

/-- A fault element or notice put to the process's fault queue, entry 0 of its table, by a port of the die (R297,
R397). Elements kept back go first (R299). -/
def State.faultPut (s : State) (d port : Nat) (ptag : BitVec 12) (e : List Byte) : State :=
  if (agetD (s.die d).overflow ptag.toNat []) ≠ [] then s.overflowAdd d ptag e
  else match s.transQ d ptag 0#32 .none false [0] with
    | .error _ => (s.qMet d ptag 0).overflowAdd d ptag e
    | .ok (h, g) =>
      s.portSend d { port := port, ptag := ptag, qid := 0#32, home := h, gen := g, elem := e, carry := .fault ptag e }

/-- A notice sent by port 0 of a die (R397), its PANEL and DIE filled in. -/
def State.notice (s : State) (d : Nat) (ptag : BitVec 12) (n : Notice) : State :=
  s.faultPut d 0 ptag { n with panel := s.panelNo.toNat, die := s.logDie d }.bytes

/-- A completion element that could not be put: a QFAULT notice in its place (R39). -/
def State.completionFail (s : State) (d : Nat) (ptag : BitVec 12) (tag : Word) (q : BitVec 32) (cause : Nat) : State :=
  s.notice d ptag { code := 35, cause := cause, detail := q.toNat, tag := tag.toNat, source := 1 }

/-- A completion element put to COMPLETION_QID (R39, R397). -/
def State.completionPut (s : State) (d : Nat) (ptag : BitVec 12) (tag : Word) (q : BitVec 32) (e : List Byte) : State :=
  match s.transQ d ptag q .none false [0] with
  | .error c => (if c = 1 then s.qMet d ptag (qidEntry q) else s).completionFail d ptag tag q c
  | .ok (h, g) =>
    s.portSend d { port := 0, ptag := ptag, qid := q, home := h, gen := g, elem := e, carry := .completion ptag tag q }

/-- A group's identity in a notice (R298): a group of a pre-empted team is on no core (R315). -/
def State.groupNotice (s : State) (k : Nat) (n : Notice) : Notice :=
  let t := s.teamOf? k
  let d := s.die (keyDie k)
  { n with
    slot := keySlot k, group := keyG k,
    core := if (t.map fun t => t.cores.isEmpty).getD false then 255
      else ((s.group? k).map fun g => d.logCore g.core).getD 255,
    team := ((t.map fun t => t.index.toNat).getD 0), tag := (recTag (s.recOf k)).toNat }

end Sys2Proof.Machine
end

