-- ==== Sys2Proof/Machine/Frames.lean ====
section
/-! DEFINITION. The sites of dies, stacks and router dies (R8 to R11), routes within the panel (R234, R377), the managing die
of a router die (R378), and the frames the device sends to the host (R365 to R369). -/

namespace Sys2Proof.Machine

/-- The row of a physical die (R19). -/
def dieRow (d : Nat) : Nat := d / 8
/-- The column of a physical die (R8, R19). -/
def dieCol (d : Nat) : Nat := d % 8 * 2 + dieRow d % 2
/-- The die at a site. -/
def dieAt (i j : Nat) : Nat := 8 * i + j / 2

/-- The key of the link of a die's port (0 north, 1 east, 2 south, 3 west). -/
def linkKey (d p : Nat) : Nat := d * 4 + p

/-- Whether a port faces a site on the panel (R9, R13). -/
def portHasLink (d p : Nat) : Bool :=
  match p with
  | 0 => decide (0 < dieRow d)
  | 1 => decide (dieCol d < 15)
  | 2 => decide (dieRow d < 15)
  | _ => decide (0 < dieCol d)

/-- The site of a die (R8). -/
def dieSite (d : Nat) : Nat × Nat := (dieRow d, dieCol d)

/-- The port by which a route leaves a die for a site: the column offset is corrected first (R234). -/
def portOut (a : Nat) (x : Nat × Nat) : Nat :=
  if dieCol a < x.2 then 1 else if x.2 < dieCol a then 3 else if dieRow a < x.1 then 2 else 0

/-- The port by which a route from a site enters its destination die: the row offset is corrected last (R234). -/
def portIn (x : Nat × Nat) (b : Nat) : Nat :=
  if x.1 < dieRow b then 0 else if dieRow b < x.1 then 2 else if x.2 < dieCol b then 3 else 1

/-- Whether the way from a die to a site crosses no link that is down (R377; log 10). -/
def State.wayOut (s : State) (a : Nat) (x : Nat × Nat) : Bool := !s.d2dDown.contains (linkKey a (portOut a x))

/-- Whether the way from a site to a die crosses no link that is down (R377; log 10). -/
def State.wayIn (s : State) (x : Nat × Nat) (b : Nat) : Bool := !s.d2dDown.contains (linkKey b (portIn x b))

/-- Whether the route between two dies of the panel crosses no link that is down (R377; log 10). -/
def State.routeUp (s : State) (a b : Nat) : Bool := a == b || (s.wayOut a (dieSite b) && s.wayIn (dieSite a) b)

/-- The site of the stack that a router die is attached to (R10). -/
def routerSite (k : Nat) : Nat × Nat :=
  if k < 8 then (0, 2 * k + 1)
  else if k < 16 then (2 * (k - 8), 15)
  else if k < 24 then (15, 14 - 2 * (k - 16))
  else (15 - 2 * (k - 24), 0)

/-- The die that owns the stack at a site (R11). -/
def stackOwner (x : Nat × Nat) : Nat := if x.1 % 2 = 0 then dieAt x.1 (x.2 - 1) else dieAt x.1 (x.2 + 1)

/-- The dies linked to the stack at a site (R9), ascending. -/
def stackDies (x : Nat × Nat) : List Nat :=
  (if 0 < x.1 then [dieAt (x.1 - 1) x.2] else []) ++ (if 0 < x.2 then [dieAt x.1 (x.2 - 1)] else []) ++
  (if x.2 < 15 then [dieAt x.1 (x.2 + 1)] else []) ++ (if x.1 < 15 then [dieAt (x.1 + 1) x.2] else [])

/-- The managing die of a router die (R10, R378). -/
def State.manager (s : State) (k : Nat) : Option Nat :=
  let x := routerSite k
  if (s.die (stackOwner x)).live then some (stackOwner x) else (stackDies x).find? fun d => (s.die d).live

/-- Whether the way from a die to the host port is up (R377, R378; log 10). -/
def State.hostWay (s : State) (d : Nat) : Bool := ((s.manager 0).map (s.routeUp d)).getD false

/-- Whether the host port is up: with router die 0, which no live die may manage, it is down (R376, R378). -/
def State.portUp (s : State) : Bool := s.hostPort && (s.manager 0).isSome

/-- The bytes of a frame of a connection: the 16-byte header, VERSION 0b01, and the payload (R365). -/
def DevFrame.bytes (f : DevFrame) (c : Nat) : List Byte :=
  bytesOf 16 (f.payload.length % 2 ^ 14 + 2 ^ 14 + f.typ.toNat * 2 ^ 16 + f.die.toNat * 2 ^ 24 + f.ptag.toNat * 2 ^ 36 +
    c % 2 ^ 16 * 2 ^ 48 + f.seq.toNat * 2 ^ 64 + f.ack.toNat * 2 ^ 96) ++ f.payload

/-- Frames leave the host port, where that is up. -/
def State.putOut (s : State) (c : Nat) (fs : List DevFrame) : State :=
  if s.portUp then { s with hostOut := s.hostOut ++ fs.map fun f => (c, f.bytes c) } else s

/-- A frame sent on a connection: numbered, and held back while the window is full (R367). -/
def State.sendFrame (s : State) (c : Nat) (typ : Nat) (ptag : BitVec 12) (die : Nat) (payload : List Byte) (elems : Nat) : State :=
  match aget s.conns c with
  | none => s
  | some x =>
    let f : DevFrame := { seq := x.txSeq, typ := BitVec.ofNat 8 typ, ack := x.rxSeq, ptag := ptag, die := BitVec.ofNat 8 die, payload := payload }
    let x := { x with
      txSeq := x.txSeq + 1#32
      elemsOut := if elems = 0 then x.elemsOut else x.elemsOut ++ [(f.seq.toNat, elems)] }
    if x.unacked.length < x.window && x.backlog.isEmpty then
      { s with
        conns := aput s.conns c { x with unacked := x.unacked ++ [f], lastAck := if x.unacked.isEmpty then s.clock else x.lastAck } }.putOut c [f]
    else { s with conns := aput s.conns c { x with backlog := x.backlog ++ [f] } }

/-- An ACK frame that carries the connection's expectation, sent by the die that manages the host port (R365, R367). -/
def State.sendAck (s : State) (c : Nat) : State :=
  match aget s.conns c with
  | none => s
  | some x =>
    let die := ((s.manager 0).map s.logDie).getD 255
    let f : DevFrame := { seq := 0#32, typ := 0#8, ack := x.rxSeq, ptag := 0#12, die := BitVec.ofNat 8 die, payload := [] }
    s.putOut c [f]

/-- DONE (R366): the request's SEQUENCE, a status and the number of elements delivered. -/
def State.sendDone (s : State) (c : Nat) (ptag : BitVec 12) (die : Nat) (seq : BitVec 32) (status n : Nat) : State :=
  s.sendFrame c 8 ptag die (bytesOf 4 seq.toNat ++ bytesOf 4 status ++ bytesOf 4 n) 0

/-- The DONE status of a QFAULT cause (R232, R366). -/
def doneStatus (cause : Nat) : Nat :=
  match cause with
  | 1 => 3
  | 2 | 3 => 4
  | 4 => 5
  | 5 => 2
  | 6 => 6
  | 7 => 12
  | _ => 3

/-- One element in a DATA frame, in PUT's record layout (R366). -/
def State.sendElem (s : State) (c : Nat) (ptag : BitVec 12) (die : Nat) (e : Elem) : State :=
  s.sendFrame c 5 ptag die (bytesOf 8 e.tag.toNat ++ e.data) 1

/-- Payload bytes a DATA frame may carry (R364, R365): the agreed frame less its Ethernet and Caphor headers and check. -/
def Conn.room (x : Conn) : Nat := min 8192 (x.frame - 34)

end Sys2Proof.Machine
end

