-- ==== Sys2Proof/Machine/Ops.lean ====
section
/-! DEFINITION. The named operations over registers (R60 to R64, R320, R339), and the taking of exceptions: one shared
operation `raise` (R292, R295, R297, R327, R342), the delivery of held faults (R293), and the return TRET (R296). -/

namespace Sys2Proof.Machine

/-- A register of a group: v in a lane, or s (R60). -/
def Group.rd (g : Group) (r lane : Nat) : Word :=
  if r < 256 then sget 0#32 g.v (r * 64 + lane) else sget 0#32 g.s (r - 256)

/-- A register of a group written: v in a lane, or s. -/
def Group.wr (g : Group) (r lane : Nat) (w : Word) : Group :=
  if r < 256 then { g with v := sset 0#32 g.v (r * 64 + lane) w } else { g with s := sset 0#32 g.s (r - 256) w }

/-- A register of a group as a lane of a fragment reads it: a uniform register as the lower gang read it, in a lane of that gang
(R27, R60). -/
def Group.rdGang (g : Group) (q : Option LowGang) (r lane : Nat) : Word :=
  match q with
  | some q => if r < 256 then g.rd r lane else sget 0#32 q.s (r - 256)
  | none => g.rd r lane

/-- The lower gang of an agent's instruction, for a lane of it (R27). -/
def State.lowGang (s : State) (ag : Agent) (lane : Nat) : Option LowGang :=
  match ag with
  | .frag _ _ _ _ => if lane < 32 then (s.front? ag).bind (·.gang) else none
  | .helper _ _ _ _ | .seq _ _ => none

/-- The tag of a register (R65). -/
def Group.tag (g : Group) (r : Nat) : RegTag := sget {} g.tags r

/-- The tag of a register changed. -/
def Group.modTag (g : Group) (r : Nat) (f : RegTag → RegTag) : Group := { g with tags := sset {} g.tags r (f (g.tag r)) }

/-- Registers `r` to `r + n - 1` with their tags changed. -/
def Group.modTags (g : Group) (r : Nat) (f : RegTag → RegTag) : Nat → Group
  | 0 => g
  | n + 1 => Group.modTags (g.modTag r f) (r + 1) f n

/-- Whether a group has the register (R32, R60). -/
def regExists (rec_ : BitVec 1024) (r : Nat) : Bool :=
  decide (r < recNv rec_) || (decide (256 ≤ r) && decide (r < 256 + recNs rec_))

/-- The environment registers e0 to e31 of a group or helper (R64, R320). -/
def State.env (s : State) (ag : Agent) (n lane : Nat) : Word :=
  let k := agKey ag
  let d := keyDie k
  let t := s.teamOf? k
  let rec_ := s.recOf k
  let g := s.group? k
  let core := (g.map (·.core)).getD 0
  let die := s.die d
  let f := s.front? ag
  let m := (f.map (·.mask)).getD 0#64
  let h := match ag with
    | .helper _ _ _ h => g.bind fun g => g.recruit.bind fun r => aget r.helpers h
    | .frag _ _ _ _ | .seq _ _ => none
  match n with
  | 0 => BitVec.ofNat 32 lane
  | 1 => BitVec.ofNat 32 (lane / 4)
  | 2 => BitVec.ofNat 32 (keyG k)
  | 3 => (t.map (·.index)).getD 0#32
  | 4 => BitVec.ofNat 32 (recW rec_)
  | 5 => BitVec.ofNat 32 (recGroups rec_)
  | 6 => rec_.extractLsb' 128 32
  | 7 => rec_.extractLsb' 160 32
  | 8 => BitVec.ofNat 32 (die.logCore core)
  | 9 => BitVec.ofNat 32 (s.logDie d)
  | 10 => s.panelNo.setWidth 32
  | 11 => (h.map fun h => h.iter.setWidth 32).getD 0xFFFFFFFF#32
  | 12 => loWord (s.dieClock d)
  | 13 => hiWord (s.dieClock d)
  | 14 => ((s.lowGang ag lane).map (·.workX)).getD ((g.map (·.workX)).getD 0#32)
  | 15 => ((s.lowGang ag lane).map (·.workY)).getD ((g.map (·.workY)).getD 0#32)
  | 16 => ((die.cluster? core).map (BitVec.ofNat 32)).getD 0xFFFFFFFF#32
  | 17 => BitVec.ofNat 32 ((h.map (·.bank)).getD ((g.map (·.part)).getD 0))
  | 18 => BitVec.ofNat 32 (keySlot k)
  | 19 => rec_.extractLsb' 320 32
  | 20 => recTag rec_
  | 21 => BitVec.ofNat 32 (recL rec_)
  | 22 => BitVec.ofNat 32 (recP rec_)
  | 23 => BitVec.ofNat 32 (recNv rec_ + recNs rec_ * 65536)
  | 24 => loWord (((g.map (·.privBase)).getD 0#48).setWidth 64)
  | 25 => hiWord (((g.map (·.privBase)).getD 0#48).setWidth 64)
  | 26 => (rec_.extractLsb' 352 16).setWidth 32
  | 27 => (rec_.extractLsb' 368 16).setWidth 32
  | 28 => (s.ptagOf k).setWidth 32
  | 29 => match ag with
    | .helper _ _ _ h => 0x80000000#32 + BitVec.ofNat 32 h
    | .frag _ _ _ _ | .seq _ _ => 0#32
  | 30 => loWord m
  | 31 => hiWord m
  | _ => 0#32

/-- A register as an agent reads it in a lane: the group's, the helper's own or its recruiter's in the recruiter's
lane, the sequencer's m registers, or the environment (R60, R320, R339). -/
def State.rdReg (s : State) (ag : Agent) (r lane : Nat) : Word :=
  if 640 ≤ r then s.env ag (r - 640) lane
  else match ag with
    | .frag _ _ _ _ => ((s.group? (agKey ag)).map fun g => g.rdGang (s.lowGang ag lane) r lane).getD 0#32
    | .helper _ _ _ h =>
      ((s.group? (agKey ag)).map fun g =>
        match g.recruit with
        | none => 0#32
        | some rc =>
          if r < 32 then ((aget rc.helpers h).map fun x => sget 0#32 x.v r).getD 0#32
          else g.rd r rc.lane).getD 0#32
    | .seq d n => ((s.team? d n).bind fun t => t.seq.map fun q => sget 0#32 q.m r).getD 0#32

/-- The error marks that a write of one lane of a register clears (R382). -/
def regMark (r lane : Nat) : Mask := if r < 256 then laneBit lane else BitVec.allOnes 64

/-- The error marks of some lanes of a register cleared: those values are written (R382). -/
def RegTag.clean (t : RegTag) (m : Mask) : RegTag := { t with poison := t.poison &&& ~~~m, ue := t.ue &&& ~~~m }

/-- A tag as a reader of one lane sees it. -/
def RegTag.inLane (t : RegTag) (lane : Nat) : RegTag :=
  { t with
    poison := if t.poison.getLsbD lane then BitVec.allOnes 64 else 0#64
    ue := if t.ue.getLsbD lane then BitVec.allOnes 64 else 0#64 }

/-- A register written by an agent in a lane; writing clears the error mark of the value written (R382). -/
def State.wrReg (s : State) (ag : Agent) (r lane : Nat) (w : Word) : State :=
  match ag with
  | .frag _ _ _ _ =>
    s.modGroup (agKey ag) fun g => (g.wr r lane w).modTag r fun t => t.clean (regMark r lane)
  | .helper _ _ _ h =>
    s.modHelper (agKey ag) h fun x =>
      { x with v := sset 0#32 x.v r w, tags := sset {} x.tags r ((sget {} x.tags r).clean (BitVec.allOnes 64)) }
  | .seq d n => s.modSeq d n fun q => { q with m := sset 0#32 q.m r w, mPoison := nsErase q.mPoison r, mUe := nsErase q.mUe r }

/-- The tag of an m register (R339). -/
def Seq.tag (q : Seq) (r : Nat) : RegTag :=
  { empty := q.mEmpty.contains r
    poison := if q.mPoison.contains r then BitVec.allOnes 64 else 0#64
    ue := if q.mUe.contains r then BitVec.allOnes 64 else 0#64 }

/-- The tag of a register as an agent's own scoreboard shows it (R65, R320, R339). -/
def State.rdTag (s : State) (ag : Agent) (r : Nat) : RegTag :=
  match ag with
  | .frag _ _ _ _ => ((s.group? (agKey ag)).map fun g => g.tag r).getD {}
  | .helper _ _ _ h =>
    ((s.group? (agKey ag)).map fun g =>
      match g.recruit with
      | none => {}
      | some rc =>
        if r < 32 then ((aget rc.helpers h).map fun x => sget {} x.tags r).getD {} else (g.tag r).inLane rc.lane).getD {}
  | .seq d n =>
    ((s.team? d n).bind fun t => t.seq.map fun q => q.tag r).getD {}

/-- The tag of a register of an agent changed. -/
def State.modTag (s : State) (ag : Agent) (r : Nat) (f : RegTag → RegTag) : State :=
  match ag with
  | .frag _ _ _ _ => s.modGroup (agKey ag) fun g => g.modTag r f
  | .helper _ _ _ h => s.modHelper (agKey ag) h fun x => { x with tags := sset {} x.tags r (f (sget {} x.tags r)) }
  | .seq d n => s.modSeq d n fun q =>
      let t := f (q.tag r)
      { q with
        mEmpty := if t.empty then nsInsert q.mEmpty r else nsErase q.mEmpty r
        mPoison := if t.poison ≠ 0#64 then nsInsert q.mPoison r else nsErase q.mPoison r
        mUe := if t.ue ≠ 0#64 then nsInsert q.mUe r else nsErase q.mUe r }

/-- Registers `r` to `r + n - 1` marked EMPTY (R65). -/
def State.setEmpty (s : State) (ag : Agent) (r : Nat) (b : Bool) : Nat → State
  | 0 => s
  | n + 1 => State.setEmpty (s.modTag ag r fun t => { t with empty := b }) ag (r + 1) b n

/-- The two sets of a partition as lists of group keys. -/
def partSet (l : List (Nat × List Nat)) (p : Nat) : List Nat := agetD l p []

/-- A group leaves its partition's sets. -/
def Core.leave (c : Core) (p k : Nat) : Core :=
  { c with
    active := aput c.active p ((partSet c.active p).filter (· != k))
    pending := aput c.pending p ((partSet c.pending p).filter (· != k)) }

/-- A group joins the active set if it has room, else the tail of the pending set (R47). -/
def Core.join (c : Core) (p k : Nat) : Core :=
  let a := partSet c.active p
  if a.length < 8 then { c with active := aput c.active p (a ++ [k]) }
  else { c with pending := aput c.pending p (partSet c.pending p ++ [k]) }

/-- Whether a code is of class G (R291). -/
def classG (code : Nat) : Bool := decide (1 ≤ code ∧ code ≤ 14)
/-- Whether a code's resume point is after the faulting instruction (R291). -/
def resumeAfter (code : Nat) : Bool := code == 1 || (decide (11 ≤ code ∧ code ≤ 14))

/-- A group parks (R297): its park count advances, it stands in the pending set as not ready, and its fault element
goes to the process's fault queue. -/
def State.park (s : State) (k : Nat) (f : FaultRec) : State :=
  match s.group? k with
  | none => s
  | some g =>
    let inH := g.handler.isSome
    let d := keyDie k
    let s1 := s.modGroup k fun g =>
      { g with parked := some { fault := f, inHandler := inH }, parkCount := g.parkCount + 1#16, readySince := none }
    let s2 := s1.modCore d g.core fun c =>
      let c := c.leave g.part k
      { c with pending := aput c.pending g.part (partSet c.pending g.part ++ [k]) }
    s2.notice d (s.ptagOf k) (s.groupNotice k
      { code := f.code, cause := f.cause, vectorFail := f.vectorFail, frameFail := f.frameFail, parked := true,
        inHandler := inH, source := f.source, parkId := (g.parkCount + 1#16).toNat, detail := f.detail.toNat,
        pc := f.pc.toNat, addr := f.addr.toNat, lanes := f.lanes.toNat })

/-- The address of a group's trap frame: its own area, or the default frame of the context block (R294, R307). -/
def State.frameAddr (s : State) (k : Nat) (g : Group) : Addr :=
  if g.trapFrame ≠ 0#48 then g.trapFrame
  else ((s.teamOf? k).map (·.ctxBase)).getD 0#48 +
    BitVec.ofNat 48 (keySlot k * Config.contextBytes + 0x2000 + 0x40 * keyG k)

/-- The trap frame (R294): the fault, and the fragment at its resume point. -/
def frameBits (f : FaultRec) (r : Fragment) : BitVec 512 :=
  BitVec.ofNat 512 (f.code % 256 + f.cause % 256 * 2 ^ 8 + r.idx % 16 * 2 ^ 32 + r.clause.toNat * 2 ^ 160 +
    (r.join.getD 0#48).toNat * 2 ^ 208 + r.mask.toNat * 2 ^ 256 + f.detail.toNat * 2 ^ 320 + f.pc.toNat * 2 ^ 352 +
    f.addr.toNat * 2 ^ 400 + f.lanes.toNat * 2 ^ 448)

/-- A group enters its handler (R295): the vector is checked, the frame is written as one 64-byte release store, the
in-handler bit is set, and the faulting fragment continues at the vector; every other fragment is held. When the
vector or the frame store fails its check, the group parks. -/
def State.enterHandler (s : State) (k e : Nat) (g : Group) (r : Fragment) (f : FaultRec) : State :=
  let d := keyDie k
  if !s.landingAt d (s.ptagOf k) g.trapVec then (s.fetchMet d (s.ptagOf k) g.trapVec).park k { f with vectorFail := true }
  else
    let a := s.frameAddr k g
    match s.chkNow d (s.ptagOf k) a.toNat 64 .write with
    | .ok p cls =>
      let x : Access :=
        { ag := .frag d (keySlot k) (keyG k) e, uid := g.uid, pc := f.pc, kind := .store, space := .glob,
          pieces := [{ lane := lowLane r.mask, addr := p, va := a.toNat, len := 64, cls := cls, reg := 0,
                       data := (frameBits f r).toNat }],
          dst := 0, ndst := 0, act := r.mask, after := true, rel := true, core := g.core,
          before := r.past.filter fun i => (aget s.flight i).isSome }
      let h : Handler := { entry := e, mask := r.mask, clause := r.clause, held := (g.frags.map (·.1)).filter (· != e) }
      let s1 := s.modGroup k fun g =>
        { g with
          handler := some h
          frags := aput g.frags e { (r.goto g.trapVec) with join := none, stopped := .no, past := x.before ++ [s.fresh] } }
      { s1 with flight := aput s1.flight s1.fresh x, fresh := s1.fresh + 1 }
    | .mchk p => (s.metHome d p).park k { f with frameFail := true }
    | .bad _ _ | .miss => s.park k { f with frameFail := true }

/-- Whether the entry of a group's handler waits for a test or a repair, of the row of its vector or of tables of its translations
(R383, R386). -/
def State.entryBusy (s : State) (k : Nat) (g : Group) : Bool :=
  s.fetchBusy (keyDie k) (s.ptagOf k) g.trapVec || s.xlateBusy (keyDie k) (s.ptagOf k) (s.frameAddr k g).toNat

/-- A fault delivered to a group: class G with a vector and outside the handler enters the handler, every other parks
(R292). A sequencer fault (CAUSE 255) parks whatever its code (R342). One whose handler's entry waits is held first, and the group
issues nothing until it is delivered (R293, R383). -/
def State.deliver (s : State) (k : Nat) (f : FaultRec) : State :=
  match s.group? k with
  | none => s
  | some g =>
    match f.entry.bind fun e => (aget g.frags e).map fun r => (e, r) with
    | some (e, r) =>
      if classG f.code && f.cause != 255 && g.trapVec != 0#48 && g.handler.isNone then
        if s.entryBusy k g then s.modGroup k fun g => { g with held := f :: g.held } else s.enterHandler k e g r f
      else s.park k f
    | none => s.park k f

/-- A fault charged to a group: held while the group is parked or another is being delivered, else delivered (R293). A fault whose resume point is
after its instruction moves the fragment past it first (R291). -/
def State.groupFault (s : State) (k : Nat) (f : FaultRec) : State :=
  match s.group? k with
  | none => s
  | some g =>
    let s1 := match f.entry with
      | some e => if resumeAfter f.code then s.modFrag k e Fragment.advance else s
      | none => s
    if g.ended then
      s.notice (keyDie k) (s.ptagOf k) (s.groupNotice k
        { code := f.code, detail := f.detail.toNat, pc := f.pc.toNat, addr := f.addr.toNat, lanes := f.lanes.toNat })
    else if g.parked.isSome || !g.held.isEmpty then s1.modGroup k fun g => { g with held := g.held ++ [f] }
    else s1.deliver k f

/-- One helper record (R328). -/
def recordWords (h : Nat) (iter : BitVec 28) (f : FaultRec) : List Word :=
  [ BitVec.ofNat 32 (2 ^ 31 + h % 64 * 2 ^ 24 + f.cause % 256 * 256 + f.code % 256),
    iter.setWidth 32,
    f.pc.setWidth 32,
    BitVec.ofNat 32 (f.detail.toNat % 65536 * 65536 + f.pc.toNat / 2 ^ 32),
    f.addr.setWidth 32,
    BitVec.ofNat 32 (f.detail.toNat / 65536 * 65536 + f.addr.toNat / 2 ^ 32) ]

/-- Words put into the helper record from word `i` on. -/
def putRecord (m : List (Nat × Word)) (i : Nat) : List Word → List (Nat × Word)
  | [] => m
  | w :: t => putRecord (sset 0#32 m i w) (i + 1) t

/-- An iteration that has not reached HNEXT or HQUIT within 65,536 clocks of its dealing (R326). The spec does not say whether the
last of them counts: one that has not reached it before the clock 65,536 after its dealing is late (DESIGN CHOICE, log 62). -/
def Helper.late (x : Helper) (now : Nat) : Bool := decide (x.dealt + Config.iterationClocks ≤ now)

/-- Where a record made at a clock by a helper stands: records of one clock in ascending helper number (R328, R329). -/
def recordPlace (l : List HelperRec) (now h : Nat) : Nat :=
  (l.filter fun x => !(x.clock == now && decide (h < x.helper))).length

/-- A failed iteration recorded in the recruiter's helper record, at the clock of its failure, or OVERFLOW when more than four have
failed; dealing stops (R327). -/
def State.helperRecord (s : State) (k h now : Nat) (iter : BitVec 28) (f : FaultRec) : State :=
  s.modGroup k fun g =>
    match g.recruit with
    | none => g
    | some r =>
      let p := recordPlace r.recs now h
      let l := r.recs.take p ++ { clock := now, helper := h, words := recordWords h iter f } :: r.recs.drop p
      { g with
        hrecs := putRecord g.hrecs 0 ((l.take 4).flatMap (·.words))
        recruit := some { r with recs := l.take 4, exceeded := r.exceeded || decide (4 < l.length), dealing := false } }

/-- A helper retires or stops; as it retires its flags join its recruiter's (R104, R321). -/
def State.helperLeaves (s : State) (k h : Nat) (life : HelperLife) : State :=
  match s.helper? k h with
  | none => s
  | some x =>
    let s := s.modHelper k h fun x => { x with life := life }
    if life = .retired then s.modGroup k fun g => { g with sticky := g.sticky ||| x.sticky } else s

/-- A fault raised by a helper's instruction (R327): it stops, a record is written and dealing stops. A helper that has stopped
raises none. -/
def State.helperFault (s : State) (k h : Nat) (f : FaultRec) : State :=
  match s.helper? k h with
  | none => s
  | some x => if x.life = .running then (s.helperRecord k h s.clock x.iter f).helperLeaves k h .stopped else s

/-- A sequencer fault (R342): the sequencer stops, and the lowest live group is parked with CAUSE 255. -/
def State.seqFault (s : State) (d n : Nat) (f : FaultRec) : State :=
  let s := s.modSeq d n fun q => { q with faulted := true }
  match (s.groupsOf d n).filter fun k => ((s.group? k).map fun g => !g.ended).getD false with
  | [] => s
  | k :: _ => s.groupFault k { f with cause := 255, lanes := 0#64, detail := 0#32, entry := none }

/-- TAKING AN EXCEPTION: a fault raised by an agent's instruction is delivered to the group, recorded for the
recruiter, or stops the sequencer (R292). -/
def State.raise (s : State) (ag : Agent) (f : FaultRec) : State :=
  match ag with
  | .frag _ _ _ e => (s.modFront ag fun r => { r with gang := none }).groupFault (agKey ag) { f with entry := some e }
  | .helper _ _ _ h => s.helperFault (agKey ag) h f
  | .seq d n => s.seqFault d n f

/-- A fault of an agent at its current instruction. -/
def State.raiseAt (s : State) (ag : Agent) (code : Nat) (detail : Nat) (addr : Addr) (lanes : Mask) : State :=
  s.raise ag { code := code, detail := BitVec.ofNat 32 detail, addr := addr, lanes := lanes,
               pc := ((s.front? ag).map Fragment.pc).getD 0#48 }

/-- An entry's own ILLOP (R291). -/
def State.illop (s : State) (ag : Agent) (lanes : Mask) : State := s.raiseAt ag 2 0 0#48 lanes

/-- Held faults delivered one after another in the order they were charged, until one parks the group or none is left (R292, R293);
at most `n`. -/
def State.deliverHeld (s : State) (k : Nat) : Nat → State
  | 0 => s
  | n + 1 =>
    match s.group? k with
    | none => s
    | some g =>
      match g.parked, g.held with
      | none, f :: t => State.deliverHeld ((s.modGroup k fun g => { g with held := t }).deliver k f) k n
      | none, [] => s
      | some _, _ => s

/-- A TRET frame's fields: INDEX, CLAUSE, JOIN and ACTIVE (R294). -/
structure FrameIn where
  idx    : Nat
  clause : Addr
  join   : Addr
  active : Mask
  deriving DecidableEq, Repr

/-- The fields TRET reads (R294, R296). -/
def frameIn (x : BitVec 512) : FrameIn :=
  { idx := bits x 35 32, clause := x.extractLsb' 160 48, join := x.extractLsb' 208 48, active := x.extractLsb' 256 64 }

/-- Why TRET does not return: the code and the address it names (R296). -/
def State.tretCheck (s : State) (d : Nat) (ptag : BitVec 12) (h : Handler) (g : Group) (f : FrameIn) :
    Option (Nat × Addr) :=
  if f.active = 0#64 || f.active &&& ~~~(h.mask &&& ~~~g.retired) != 0#64 then some (2, 0#48)
  else match s.fetchWord d ptag f.clause with
    | .inr _ => some (6, f.clause)
    | .inl w =>
      if !isHeader w then some (6, f.clause)
      else if bits w 56 53 < f.idx then some (2, 0#48)
      else if f.idx = 0 && f.clause != h.clause && !isLanding w then some (6, f.clause)
      else none

/-- THE RETURN FROM AN EXCEPTION (R296, R330): fragment `e` takes the frame's mask, join address and resume point, the
lanes left out are retired as by EXIT, the in-handler bit is cleared and the held fragments are released. The
resumed clause has started already, so its header is read again. -/
def State.tretReturn (s : State) (k e : Nat) (h : Handler) (f : FrameIn) : State :=
  let hdr := match s.fetchWord (keyDie k) (s.ptagOf k) f.clause with
    | .inl w => some w
    | .inr _ => none
  s.modGroup k fun g =>
    { g with
      handler := none
      retired := g.retired ||| (h.mask &&& ~~~f.active)
      frags := amod g.frags e fun r =>
        { (r.goto f.clause) with
          idx := f.idx, hdr := if f.idx = 0 then none else hdr, mask := f.active
          join := if f.join = 0#48 then none else some f.join } }

end Sys2Proof.Machine
end

