-- ==== Sys2Proof/Machine/Flags.lean ====
section
/-! DEFINITION. STICKY_FLAGS (R73, R103, R104, R118): the six flags and how an instruction's flags join them. -/

namespace Sys2Proof.Machine

/-- The flags of one result (R103). -/
structure Flags where
  inv : Bool := false
  dz  : Bool := false
  ovf : Bool := false
  unf : Bool := false
  inx : Bool := false
  sat : Bool := false
  deriving DecidableEq, Repr

/-- The flags as bits 5:0 of STICKY_FLAGS (R73). -/
def Flags.bits (f : Flags) : BitVec 6 :=
  BitVec.ofBool f.sat ++ BitVec.ofBool f.inx ++ BitVec.ofBool f.unf ++ BitVec.ofBool f.ovf ++ BitVec.ofBool f.dz ++
    BitVec.ofBool f.inv

/-- No flag. -/
def Flags.none : Flags := {}
/-- The flags of two results together (R149). -/
def Flags.or (a b : Flags) : Flags :=
  { inv := a.inv || b.inv, dz := a.dz || b.dz, ovf := a.ovf || b.ovf, unf := a.unf || b.unf, inx := a.inx || b.inx,
    sat := a.sat || b.sat }

/-- The flags an instruction's active lanes raise, ORed into STICKY_FLAGS of the group, or into a helper's own; the
sequencer sets none (R103, R104, R321). -/
def State.addFlags (s : State) (ag : Agent) (f : Flags) : State :=
  if f = Flags.none then s
  else match ag with
    | .frag _ _ _ _ => s.modGroup (agKey ag) fun g => { g with sticky := g.sticky ||| f.bits }
    | .helper _ _ _ h => s.modHelper (agKey ag) h fun x => { x with sticky := x.sticky ||| f.bits }
    | .seq _ _ => s

end Sys2Proof.Machine
end

