-- ==== Sys2Proof/Machine/Operands.lean ====
section
/-! DEFINITION. The issue of an instruction: the checks of R85 in their order, the guard (R63), the source policies
(R66), the destinations (R67), the active lanes, and reading and writing operands (R60 to R62, R320, R339). -/

namespace Sys2Proof.Machine

/-- What the issue of an instruction needs to know. -/
structure Spec where
  /-- Class code (R75, R87). -/
  cls : Nat
  /-- NOP belongs to every class (R76). -/
  any : Bool := false
  /-- A transfer instruction, last of its clause (R76). -/
  transfer : Bool := false
  /-- JOIN or REGANG, first of a CTL clause (R76). -/
  first : Bool := false
  guard : Guard := ⟨0#4, false⟩
  /-- Source operands and how many registers each names (R61). -/
  srcs : List (Src × Nat) := []
  /-- Destination operands. -/
  dsts : List (RegNo × Nat) := []
  /-- MLEND writes no register it names (R346). -/
  writes : Bool := true
  /-- The sources, by their place, that are read in the lowest-numbered active lane alone (R198, R265; log 70). -/
  lone : List Nat := []
  /-- HJOIN and PREF themselves see to a source in error (log 62, 71). -/
  ownErr : Bool := false
  /-- Which agents the form is admitted in (R88, R321, R340). -/
  grp : Bool := true
  hlp : Bool := true
  seq : Bool := false
  /-- An ILLOP condition of the entry that needs no register value. -/
  illop : Bool := false
  /-- One that comes after the checks of R85 (R267). -/
  late : Bool := false
  deriving DecidableEq, Repr

/-- What the issue checks decide. -/
inductive Verdict where
  /-- A wait; `src` marks an EMPTY source. -/
  | stall (w : Stall) (src : Bool)
  | bad (code detail : Nat)
  /-- A source register that holds an uncorrectable error or its mark (R382). -/
  | poisoned
  | go (act : Mask)
  deriving DecidableEq, Repr

/-- Step 1 of R85: the clause rules of R76 at an instruction of a started clause. -/
def clauseRules (f : Fragment) (sp : Spec) : Bool :=
  match f.hdr with
  | none => false
  | some h =>
    let last := f.idx == bits h 56 53
    (sp.any || sp.cls == bits h 59 57 || (sp.cls == 4 && last)) && (!sp.transfer || last) &&
    (!sp.first || (f.idx == 0 && bits h 59 57 == 4))

/-- The alignment R61 asks of a pair or a quad. -/
def regAligned (r n : Nat) : Bool := (n != 2 || r % 2 == 0) && (n != 4 || r % 4 == 0)

/-- Whether a source operand names registers the agent may read (R61, R320, R339). -/
def State.srcOk (s : State) (ag : Agent) (x : Src × Nat) : Bool :=
  let r := x.1.r.toNat
  let rec_ := s.recOf (agKey ag)
  regAligned r x.2 &&
  match ag with
  | .seq _ _ => decide (r + x.2 ≤ 64) && !x.1.pol
  | .frag _ _ _ _ =>
    (decide (640 ≤ r) && decide (r + x.2 ≤ 672)) || (regExists rec_ r && regExists rec_ (r + x.2 - 1))
  | .helper _ _ _ _ =>
    (decide (640 ≤ r) && decide (r + x.2 ≤ 672)) ||
    ((decide (r < 32) || regExists rec_ r) && (decide (r + x.2 ≤ 32) || regExists rec_ (r + x.2 - 1)))

/-- Whether a destination operand names registers the agent may write (R61, R320, R339). -/
def State.dstOk (s : State) (ag : Agent) (x : RegNo × Nat) : Bool :=
  let r := x.1.toNat
  let rec_ := s.recOf (agKey ag)
  regAligned r x.2 &&
  match ag with
  | .seq _ _ => decide (r + x.2 ≤ 64)
  | .frag _ _ _ _ => regExists rec_ r && regExists rec_ (r + x.2 - 1)
  | .helper _ _ _ _ => decide (r + x.2 ≤ 32)

/-- The guard register of an agent (R63, R320, R339). -/
def guardReg (ag : Agent) (g : BitVec 4) : Nat :=
  match ag with
  | .frag _ _ _ _ => 240 + g.toNat
  | .helper _ _ _ _ => 16 + g.toNat
  | .seq _ _ => 48 + g.toNat

/-- The guard register, where an instruction has a guard. -/
def guardRegs (ag : Agent) (g : Guard) : List Nat := if g.g = 0#4 then [] else [guardReg ag g.g]

/-- Whether the guard field names a register of the agent (R63). -/
def State.guardOk (s : State) (ag : Agent) (g : Guard) : Bool :=
  match ag with
  | .frag _ _ _ _ => g.g == 0#4 || decide (guardReg ag g.g < recNv (s.recOf (agKey ag)))
  | .helper _ _ _ _ | .seq _ _ => true

/-- The active lanes: those of the fragment's mask whose guard passes (R63). -/
def State.active (s : State) (ag : Agent) (f : Fragment) (g : Guard) : Mask :=
  if g.g = 0#4 then f.mask
  else maskOf ((lanesOf f.mask).filter fun l => (s.rdReg ag (guardReg ag g.g) l).getLsbD 0 != g.neg)

/-- The stall that waiting for register `r` is (R48). -/
def RegTag.stall (t : RegTag) (r : Nat) : Stall := if t.arm ≠ 0#64 then .armed [r] else if t.empty then .load r else .issue

/-- The stall that waiting for a destination is: of the long stalls only an armed register (R48). -/
def Stall.asDst : Stall → Stall
  | .armed _ | .armedDst => .armedDst
  | .barrier => .barrier
  | .none | .issue | .load _ => .issue

/-- Whether a source register is EMPTY; e14 and e15 are while a work query is outstanding (R64, R65). -/
def State.srcEmpty (s : State) (ag : Agent) (r : Nat) : Bool :=
  if 640 ≤ r then (r == 654 || r == 655) && ((s.group? (agKey ag)).map fun g => !g.wq.isEmpty).getD false
  else (s.rdTag ag r).empty

/-- The registers of operands, with their policy. -/
def opRegs (l : List (Src × Nat)) : List (Nat × Bool) :=
  l.flatMap fun x => (List.range x.2).map fun j => (x.1.r.toNat + j, x.1.pol)

/-- The registers that an instruction's sources read, each with the lanes it is read in. -/
def Spec.reads (sp : Spec) (act : Mask) : List (Nat × Mask) :=
  sp.srcs.zipIdx.flatMap fun x =>
    (List.range x.1.2).map fun j => (x.1.1.r.toNat + j, if sp.lone.contains x.2 then laneBit (lowLane act) else act)

/-- The registers of destinations. -/
def dstRegs (l : List (RegNo × Nat)) : List Nat := l.flatMap fun x => (List.range x.2).map fun j => x.1.toNat + j

/-- The policy a source is read under: a helper reads its recruiter's registers as under policy 1 (R320). -/
def agPolicy (ag : Agent) (x : Nat × Bool) : Bool :=
  match ag with
  | .helper _ _ _ _ => x.2 || decide (32 ≤ x.1)
  | .frag _ _ _ _ | .seq _ _ => x.2

/-- Whether a destination must wait: EMPTY, armed, lent, or a source of a queue instruction of another fragment that
waits for its answer (R67, R266). -/
def State.dstHeld (s : State) (ag : Agent) (r : Nat) : Bool :=
  (s.rdTag ag r).empty || (s.rdTag ag r).arm != 0#64 || (s.rdTag ag r).lent ||
  match ag with
  | .frag _ _ _ _ => s.pends.any fun e => e.2.key == agKey ag && e.2.ag != ag && e.2.srcs.contains r
  | .helper _ _ _ _ | .seq _ _ => false

/-- What unit and structure hold a register of an agent, and where (R385): the helper banks, the register files, or, of the
sequencer, the lower core's. -/
def State.regPlace (s : State) (ag : Agent) (r : Nat) : Nat × Nat × Nat :=
  let k := agKey ag
  let core := ((s.group? k).map (·.core)).getD 0
  match ag with
  | .helper _ _ _ h => if r < 32 then (5, core, regLoc k r + (h + 1) * 2 ^ 30) else (0, core, regLoc k r)
  | .frag _ _ _ _ => (0, core, regLoc k r)
  | .seq d n => (0, ((s.team? d n).bind (·.cores.head?)).getD 0, regLoc k r + 2 ^ 40)

/-- Whether a register lies in a row under test (R383). -/
def State.regBusy (s : State) (ag : Agent) (r : Nat) : Bool :=
  let x := s.regPlace ag r
  decide (r < 640) && s.sramBusy (keyDie (agKey ag)) x.1 x.2.1 x.2.2

/-- Whether one of `n` registers from `r` on lies in a row under test (R383). -/
def State.regsBusy (s : State) (ag : Agent) (r n : Nat) : Bool := (List.range n).any fun j => s.regBusy ag (r + j)

/-- Steps 4 and 5 of R85 for an instruction with active lanes: an EMPTY source under policy 0 waits, one under policy 1
raises UNFILLED with its number; a destination that is EMPTY, armed or lent waits (R66, R67). A register in a row under test
waits (R383). -/
def State.operandsReady (s : State) (ag : Agent) (sp : Spec) (act : Mask) : Verdict :=
  let empties := (opRegs sp.srcs).filter fun x => s.srcEmpty ag x.1
  let armed := (empties.filter fun x => !agPolicy ag x && (s.rdTag ag x.1).arm != 0#64).map (·.1)
  match empties.find? fun x => !agPolicy ag x, empties.find? fun x => agPolicy ag x with
  | some x, _ => .stall (if armed.isEmpty then (s.rdTag ag x.1).stall x.1 else .armed armed) true
  | none, some x => .bad 3 x.1
  | none, none =>
    match (dstRegs sp.dsts).find? fun r => s.dstHeld ag r with
    | some r => .stall ((s.rdTag ag r).stall r) false
    | none =>
      if ((opRegs sp.srcs).map (·.1) ++ dstRegs sp.dsts).any (s.regBusy ag) then .stall .issue false
      else if !sp.ownErr && (sp.reads act).any fun x => decide (x.1 < 640) && (s.rdTag ag x.1).poison &&& x.2 != 0#64 then .poisoned else .go act

/-- Whether the form is admitted in the agent. -/
def Spec.admits (sp : Spec) (ag : Agent) : Bool :=
  match ag with
  | .frag _ _ _ _ => sp.grp
  | .helper _ _ _ _ => sp.hlp
  | .seq _ _ => sp.seq

/-- A verdict once a queue entry's own ILLOP conditions have followed the checks of R85 (R267). -/
def Verdict.orLate (v : Verdict) (late : Bool) : Verdict :=
  match v with
  | .go _ | .poisoned => if late then .bad 2 0 else v
  | .stall _ _ | .bad _ _ => v

/-- The issue checks of R85 in order: clause rules, fields, the entry's own ILLOP conditions, the guard, the sources
and the destinations. An entry's late ILLOP is raised with no active lanes too, which R63, R85 and R265 leave open (log 68). -/
def State.gate (s : State) (ag : Agent) (f : Fragment) (sp : Spec) : Verdict :=
  if !clauseRules f sp then .bad 2 1
  else if !(s.guardOk ag sp.guard && sp.srcs.all (s.srcOk ag) && sp.dsts.all (s.dstOk ag)) then .bad 2 2
  else if !sp.admits ag || sp.illop then .bad 2 0
  else if sp.guard.g ≠ 0#4 && (s.rdTag ag (guardReg ag sp.guard.g)).empty then
    .stall ((s.rdTag ag (guardReg ag sp.guard.g)).stall (guardReg ag sp.guard.g)) true
  else if (guardRegs ag sp.guard).any (s.regBusy ag) then .stall .issue false
  else if s.active ag f sp.guard = 0#64 then (Verdict.go 0#64).orLate sp.late
  else if sp.guard.g ≠ 0#4 && !sp.ownErr && (s.rdTag ag (guardReg ag sp.guard.g)).poison &&& f.mask != 0#64 then .poisoned
  else (s.operandsReady ag sp (s.active ag f sp.guard)).orLate sp.late

/-- The lanes a fault of the issue checks names: the active lanes, or the fragment's mask where the guard register cannot be
read (R291). -/
def State.faultLanes (s : State) (ag : Agent) (f : Fragment) (sp : Spec) : Mask :=
  if s.guardOk ag sp.guard && (sp.guard.g == 0#4 || !(s.rdTag ag (guardReg ag sp.guard.g)).empty) then s.active ag f sp.guard else f.mask

/-- The lanes of a register that a read for some lanes of an agent reads: all of them of an s, m or helper register, the
recruiter's lane of a v register that a helper reads (R60, R320). -/
def State.readLanes (s : State) (ag : Agent) (r : Nat) (lanes : Mask) : Mask :=
  match ag with
  | .frag _ _ _ _ => if r < 256 then lanes else BitVec.allOnes 64
  | .helper _ _ _ _ =>
    if 32 ≤ r && r < 256 then
      ((s.group? (agKey ag)).bind fun g => g.recruit.map fun rc => laneBit rc.lane).getD (BitVec.allOnes 64)
    else BitVec.allOnes 64
  | .seq _ _ => BitVec.allOnes 64

/-- Errors that a read of a register for some lanes meets and no read has met before: reported and tested; the marks stay until
the values are written (R382, R383). -/
def State.meetReg (s : State) (ag : Agent) (r : Nat) (lanes : Mask) : State :=
  let own : Agent := match ag with
    | .helper d n g _ => if r < 32 then ag else .frag d n g 0
    | .frag _ _ _ _ | .seq _ _ => ag
  let m := s.readLanes ag r lanes
  if r < 640 && (s.rdTag own r).ue &&& m != 0#64 then
    let x := s.regPlace own r
    (s.modTag own r fun t => { t with ue := t.ue &&& ~~~m }).reportError (keyDie (agKey ag)) x.1 x.2.1 x.2.2 0 1
  else s

/-- The errors of an instruction's guard register, read for the lanes of the fragment's mask, and of its sources, in the lanes that it
reads of each, are met. -/
def State.meetRegs (s : State) (ag : Agent) (sp : Spec) (act : Mask) : State :=
  let s := if sp.guard.g = 0#4 then s
    else s.meetReg ag (guardReg ag sp.guard.g) (((s.front? ag).map (·.mask)).getD act)
  (sp.reads act).foldl (fun s x => s.meetReg ag x.1 x.2) s

/-- Whether the guard or a source of an instruction is in error in a lane. -/
def State.laneBad (s : State) (ag : Agent) (sp : Spec) (l : Nat) : Bool :=
  (guardRegs ag sp.guard ++ (opRegs sp.srcs).map (·.1)).any fun r => decide (r < 640) && (s.rdTag ag r).poison.getLsbD l

/-- Destinations left EMPTY by an MCHK, named for a RESUME that fills them (R176, R293, R301, R382). -/
def State.emptyDsts (s : State) (ag : Agent) (regs : List Nat) (act : Mask) : State :=
  let s := regs.foldl (fun s r => s.setEmpty ag r true 1) s
  match ag with
  | .frag _ _ _ _ => s.modGroup (agKey ag) fun g => { g with mchk := g.mchk ++ regs.map fun r => { reg := r, bad := act } }
  | .helper _ _ _ _ | .seq _ _ => s

/-- MCHK of an instruction that reads a value in error or marked (R382): it has issued in none of its lanes, its destinations stay
EMPTY, and the agent stands after it (R293, log 18); the sequencer's issues again (R342). -/
def State.chargeRegs (s : State) (ag : Agent) (sp : Spec) (act : Mask) : State :=
  let s := s.meetRegs ag sp act
  let f : FaultRec := { code := 36, lanes := act, pc := ((s.front? ag).map Fragment.pc).getD 0#48 }
  match ag with
  | .seq _ _ => s.raise ag f
  | .frag _ _ _ _ | .helper _ _ _ _ =>
    ((s.emptyDsts ag (if sp.writes then dstRegs sp.dsts else []) act).advance ag).raise ag f

/-- A wait that goes on where a fragment is stopped: that on sources which are armed (R313). -/
def Stall.kept : Stall → Stall
  | .armed rs => .armed rs
  | .none | .issue | .load _ | .armedDst | .barrier => .none

/-- A fragment stops where it stands for a pre-emption request (R304, R313): before a safe-point clause when its next
instruction is the first of such a clause. -/
def Fragment.stopHere (f : Fragment) : Fragment :=
  { f with
    wait := .run, stall := f.stall.kept, gang := none
    stopped := if f.idx = 0 && (f.hdr.map fun h => h.getLsbD 51).getD false then .safe else .other }

/-- Whether a pre-emption of the agent's team is requested (R303). -/
def State.preemptAsked (s : State) (k : Nat) : Bool := ((s.teamOf? k).bind (·.preempt)).isSome

/-- Whether a wait ends at once when the team is to be pre-empted: on an armed source, or at a barrier (R212, R313). -/
def Stall.yields : Stall → Bool
  | .armed _ | .barrier => true
  | .none | .issue | .load _ | .armedDst => false

/-- The agent waits at issue; on an armed source or a barrier it stops at once when its team is to be pre-empted
(R212, R313). -/
def State.waitAt (s : State) (ag : Agent) (w : Stall) (src : Bool) : State :=
  match ag with
  | .frag _ _ _ _ =>
    if (w == .barrier || (w.yields && src)) && s.preemptAsked (agKey ag) then s.modFront ag fun f => { f with stall := w }.stopHere
    else s.stallAt ag w
  | .helper _ _ _ _ | .seq _ _ => s.stallAt ag w

/-- Whether an instruction of a fragment issues as two gangs: the fragment has lanes in both halves of a 64-lane group (R27). -/
def Fragment.halves (f : Fragment) : Bool := f.mask &&& 0xFFFFFFFF#64 != 0#64 && f.mask >>> 32 != 0#64

/-- Whether the gang that issues now is not an instruction's last: of two gangs the lower issues first, in another clock (R27). -/
def State.gangWaits (s : State) (ag : Agent) (f : Fragment) : Bool :=
  match ag with
  | .frag _ _ _ _ => f.halves && (f.gang.map fun q => decide (s.clock ≤ q.clock)).getD true
  | .helper _ _ _ _ | .seq _ _ => false

/-- The lower gang issues: the uniform registers it reads are read now (R27, R66). The instruction takes effect with its upper
gang, once nothing of it can fail any more (R66, R193, R382; log 49). -/
def State.lowIssue (s : State) (ag : Agent) (f : Fragment) : State :=
  match f.gang, s.group? (agKey ag) with
  | none, some g =>
    s.modFront ag fun r =>
      { r with stall := .none, gang := some { clock := s.clock, s := g.s, workX := g.workX, workY := g.workY } }
  | _, _ => s

/-- THE ISSUE OF AN INSTRUCTION: the checks of R85, and, when they pass, its effect `k` on its active lanes, as its last gang
issues (R27). An instruction with no active lanes completes without effect (R63). -/
def issueWith (s : State) (sp : Spec) (k : State → Agent → Mask → State) : Host.Outcome State Fault Refusal :=
  match s.cur with
  | none => .fault .noAgent
  | some ag =>
    match s.front? ag with
    | none => .fault .noAgent
    | some f =>
      match s.gate ag f sp with
      | .stall w src => .next (s.waitAt ag (if src then w else Stall.asDst w) src)
      | .bad c dt => .next (s.raiseAt ag c dt 0#48 (s.faultLanes ag f sp))
      | .poisoned => .next (s.chargeRegs ag sp (s.active ag f sp.guard))
      | .go act =>
        if s.gangWaits ag f then .next (s.lowIssue ag f)
        else if act = 0#64 then .next (s.advance ag)
        else .next (k s ag act)

/-- The values of source operand `k`, word `j`, in a lane. -/
abbrev Vals := Nat → Nat → Nat → Word

/-- The values of an instruction's sources as they stand at issue (R66). -/
def State.vals (s : State) (ag : Agent) (l : List (Src × Nat)) : Vals :=
  fun k j lane => ((l[k]?).map fun x => s.rdReg ag (x.1.r.toNat + j) lane).getD 0#32

/-- Words written to consecutive registers in one lane. -/
def State.wrWords (s : State) (ag : Agent) (r lane : Nat) : List Word → State
  | [] => s
  | w :: t => State.wrWords (s.wrReg ag r lane w) ag (r + 1) lane t

/-- Per-lane results written: a v register in each active lane, an s register with the value of the lowest-numbered
active lane (R62). -/
def State.wrLanes (s : State) (ag : Agent) (r : Nat) (rs : List (Nat × List Word)) : State :=
  if 256 ≤ r then (rs.head?.map fun x => s.wrWords ag r x.1 x.2).getD s
  else rs.foldl (fun s x => s.wrWords ag r x.1 x.2) s

/-- An instruction that computes each active lane's result from source values and writes it at once (R116): `f` is
given the values, the active lanes and the lane. -/
def aluLanes (sp : Spec) (d : RegNo) (f : Vals → Mask → Nat → List Word × Flags) (s : State) :
    Host.Outcome State Fault Refusal :=
  issueWith s sp fun s ag act =>
    let x := s.vals ag sp.srcs
    let rs := (lanesOf act).map fun l => (l, f x act l)
    ((s.wrLanes ag d.toNat (rs.map fun r => (r.1, r.2.1))).addFlags ag
      (rs.foldl (fun a r => a.or r.2.2) Flags.none)).advance ag

/-- An instruction whose result in a lane depends on that lane's operands alone: `f` is given source `k`, word `j`. -/
def aluOp (sp : Spec) (d : RegNo) (f : (Nat → Nat → Word) → List Word × Flags) (s : State) :
    Host.Outcome State Fault Refusal :=
  aluLanes sp d (fun x _ l => f fun k j => x k j l) s

/-- The width W of an agent's group (R26). -/
def State.width (s : State) (ag : Agent) : Nat := recW (s.recOf (agKey ag))

end Sys2Proof.Machine
end

