-- ==== Sys2Proof/Machine/Float.lean ====
section
/-! DEFINITION. The floating formats (R94, R95), exact values, the single rounding of R101 and R105 to R106 with its
flags (R103), sums and products with their special values (R102, R109, R110), and the transcendental functions
computed to enclosing bounds until both ends round alike (R147). -/

namespace Sys2Proof.Machine

/-- A floating format (R94): exponent and fraction widths, and whether it is F8E4, which has no infinity. -/
structure FFmt where
  eb : Nat
  mb : Nat
  noInf : Bool := false
  deriving DecidableEq, Repr

/-- FP32. -/
def f32 : FFmt := ⟨8, 23, false⟩
/-- FP16. -/
def f16 : FFmt := ⟨5, 10, false⟩
/-- BF16. -/
def bf16 : FFmt := ⟨8, 7, false⟩
/-- F8E4. -/
def f8e4 : FFmt := ⟨4, 3, true⟩
/-- F8E5. -/
def f8e5 : FFmt := ⟨5, 2, false⟩

/-- The exponent bias (R94). -/
def FFmt.bias (f : FFmt) : Int := 2 ^ (f.eb - 1) - 1
/-- The exponent of the subnormal spacing. -/
def FFmt.qmin (f : FFmt) : Int := 1 - f.bias - f.mb
/-- The all-ones exponent field. -/
def FFmt.emax (f : FFmt) : Nat := 2 ^ f.eb - 1
/-- The sign bit. -/
def FFmt.signBit (f : FFmt) (neg : Bool) : Nat := if neg then 2 ^ (f.eb + f.mb) else 0
/-- The canonical NaN (R95). -/
def FFmt.nan (f : FFmt) : Nat := if f.noInf then f.emax * 2 ^ f.mb + (2 ^ f.mb - 1) else f.emax * 2 ^ f.mb + 2 ^ (f.mb - 1)
/-- The largest finite magnitude (R95). -/
def FFmt.maxMag (f : FFmt) : Nat := if f.noInf then f.emax * 2 ^ f.mb + (2 ^ f.mb - 2) else f.emax * 2 ^ f.mb - 1
/-- The infinity; the largest finite value in F8E4 (R106). -/
def FFmt.infMag (f : FFmt) : Nat := if f.noInf then f.maxMag else f.emax * 2 ^ f.mb

/-- An element's value: NaN, an infinity, or (-1)^neg × m × 2^e exactly. -/
inductive FV where
  | nan
  | inf (neg : Bool)
  | fin (neg : Bool) (m : Nat) (e : Int)
  deriving DecidableEq, Repr

/-- The value of an element (R94). -/
def FFmt.unpack (f : FFmt) (x : Nat) : FV :=
  let neg := x / 2 ^ (f.eb + f.mb) % 2 == 1
  let e := x / 2 ^ f.mb % 2 ^ f.eb
  let m := x % 2 ^ f.mb
  if f.noInf && e == f.emax && m == 2 ^ f.mb - 1 then .nan
  else if !f.noInf && e == f.emax then (if m = 0 then .inf neg else .nan)
  else if e = 0 then .fin neg m f.qmin
  else .fin neg (2 ^ f.mb + m) ((e : Int) - f.bias - f.mb)

/-- The value of an FP32 register (R94). -/
def fv32 (w : Word) : FV := f32.unpack w.toNat

/-- NaN. -/
def FV.isNan : FV → Bool
  | .nan => true
  | .inf _ | .fin _ _ _ => false

/-- A zero. -/
def FV.isZero : FV → Bool
  | .fin _ m _ => m == 0
  | .nan | .inf _ => false

/-- The negated value. -/
def FV.neg : FV → FV
  | .nan => .nan
  | .inf s => .inf !s
  | .fin s m e => .fin (!s) m e

/-- The number of bits of a natural number. -/
def bitLen (m : Nat) : Nat := if m = 0 then 0 else Nat.log2 m + 1

/-- The multiple of 2^q that `m × 2^e` (plus a fraction of its last place when `sticky`) rounds to under a mode, as the
number of quanta, and whether it differs (R105). -/
def quantise (mode : RMode) (neg : Bool) (m : Nat) (e : Int) (sticky : Bool) (q : Int) : Nat × Bool :=
  let sh := (q - e).toNat
  let m := if q < e then m * 2 ^ (e - q).toNat else m
  let t := m / 2 ^ sh
  let r := m % 2 ^ sh * 2
  let inexact := r != 0 || sticky
  let up := match mode with
    | .rne | .sr => decide (2 ^ sh < r) || (r == 2 ^ sh && (sticky || t % 2 == 1))
    | .rz => false
    | .ru => inexact && !neg
    | .rd => inexact && neg
  (if up then t + 1 else t, inexact)

/-- What an overflow delivers (R106). -/
def FFmt.overflow (f : FFmt) (mode : RMode) (neg : Bool) : Nat :=
  f.signBit neg + match mode with
    | .rne | .sr => f.infMag
    | .rz => f.maxMag
    | .ru => if neg then f.maxMag else f.infMag
    | .rd => if neg then f.infMag else f.maxMag

/-- `t` quanta of 2^q in a format: the bits, and whether the magnitude is beyond the largest finite value. `q` is at
least the subnormal spacing, and `t` at most 2^(mb + 1). -/
def FFmt.encode (f : FFmt) (t : Nat) (q : Int) : Nat × Bool :=
  let q' := if t = 2 ^ (f.mb + 1) then q + 1 else q
  let t' := if t = 2 ^ (f.mb + 1) then 2 ^ f.mb else t
  let mag := (q' - f.qmin).toNat * 2 ^ f.mb + t'
  (mag, decide (f.maxMag < mag))

/-- The exponent of the spacing of a format at `m × 2^e` (R113): that of its binade, at least the subnormal one. -/
def FFmt.quantum (f : FFmt) (m : Nat) (e : Int) : Int := max (e + bitLen m - (f.mb + 1)) f.qmin

/-- Whether a value is tiny after rounding (R103). -/
def FFmt.tiny (f : FFmt) (mode : RMode) (neg : Bool) (m : Nat) (e : Int) (sticky : Bool) : Bool :=
  let q := e + bitLen m - (f.mb + 1)
  decide (q < f.qmin) &&
  (decide (q < f.qmin - 1) || (quantise mode neg m e sticky q).1 != 2 ^ (f.mb + 1))

/-- The single rounding (R101, R105, R106) of (-1)^neg × (m [+ a fraction]) × 2^e, with its flags (R103). -/
def FFmt.round (f : FFmt) (mode : RMode) (neg : Bool) (m : Nat) (e : Int) (sticky : Bool) : Nat × Flags :=
  if m = 0 && !sticky then (f.signBit neg, Flags.none)
  else
    let q := f.quantum m e
    let r := quantise mode neg m e sticky q
    let x := f.encode r.1 q
    if x.2 then (f.overflow mode neg, { ovf := true, inx := true })
    else (f.signBit neg + x.1, { inx := r.2, unf := r.2 && f.tiny mode neg m e sticky })

/-- An infinity's bits. -/
def FFmt.inf (f : FFmt) (neg : Bool) : Nat := f.signBit neg + f.infMag

/-- The exact value `x` as an integer count of 2^e0, for e0 at most its exponent. -/
def FV.scaled (e0 : Int) : FV → Int
  | .fin neg m e => (if neg then -1 else 1) * (m * 2 ^ (e - e0).toNat : Nat)
  | .nan | .inf _ => 0

/-- The exponent of a finite value. -/
def FV.exp : FV → Int
  | .fin _ _ e => e
  | .nan | .inf _ => 0

/-- The product of two values, exactly; 0 × ∞ is NaN (R109). -/
def FV.mul (a b : FV) : FV :=
  match a, b with
  | .nan, _ | _, .nan => .nan
  | .inf s, .inf t => .inf (s != t)
  | .inf s, .fin t m _ | .fin t m _, .inf s => if m = 0 then .nan else .inf (s != t)
  | .fin s m e, .fin t n k => .fin (s != t) (m * n) (e + k)

/-- The sign an exactly zero sum takes (R106, R109). -/
def zeroSign (mode : RMode) (l : List FV) : Bool :=
  let negs := l.all fun x => match x with
    | .fin neg m _ => neg && m == 0
    | .nan | .inf _ => false
  let poss := l.all fun x => match x with
    | .fin neg m _ => !neg && m == 0
    | .nan | .inf _ => false
  if negs then true else if poss then false else mode == .rd

/-- An exact sum rounded once (R101, R109). `nanIn` says that an operand was NaN, which raises no flag (R102,
R103). -/
def FFmt.sum (f : FFmt) (mode : RMode) (l : List FV) (nanIn : Bool) : Nat × Flags :=
  if l.any FV.isNan || (l.contains (.inf true) && l.contains (.inf false)) then (f.nan, { inv := !nanIn })
  else if l.contains (.inf true) then (f.inf true, Flags.none)
  else if l.contains (.inf false) then (f.inf false, Flags.none)
  else
    let e0 := l.foldl (fun a x => min a x.exp) 0
    let t : Int := l.foldl (fun a x => a + x.scaled e0) 0
    if t = 0 then (f.signBit (zeroSign mode l), Flags.none) else f.round mode (decide (t < 0)) t.natAbs e0 false

/-- A value rounded once. -/
def FFmt.value (f : FFmt) (mode : RMode) (x : FV) (nanIn : Bool) : Nat × Flags :=
  match x with
  | .nan => (f.nan, { inv := !nanIn })
  | .inf neg => (f.inf neg, Flags.none)
  | .fin neg m e => f.round mode neg m e false

/-- a + b in a format, from bits (R143, R149). -/
def FFmt.add (f : FFmt) (mode : RMode) (a b : Nat) : Nat × Flags :=
  let x := f.unpack a
  let y := f.unpack b
  f.sum mode [x, y] (x.isNan || y.isNan)

/-- a − b (R143). -/
def FFmt.sub (f : FFmt) (mode : RMode) (a b : Nat) : Nat × Flags :=
  let x := f.unpack a
  let y := f.unpack b
  f.sum mode [x, y.neg] (x.isNan || y.isNan)

/-- a × b (R143, R149). -/
def FFmt.mul (f : FFmt) (mode : RMode) (a b : Nat) : Nat × Flags :=
  let x := f.unpack a
  let y := f.unpack b
  f.value mode (x.mul y) (x.isNan || y.isNan)

/-- a × b + c with one rounding (R143, R149). -/
def FFmt.fma (f : FFmt) (mode : RMode) (a b c : Nat) : Nat × Flags :=
  let x := f.unpack a
  let y := f.unpack b
  let z := f.unpack c
  f.sum mode [x.mul y, z] (x.isNan || y.isNan || z.isNan)

/-- A total order key of FP32 values other than NaN, −0 below +0 (R102). -/
def fkey (w : Word) : Int := if w.getLsbD 31 then -((w.toNat % 2 ^ 31 : Nat) : Int) - 1 else (w.toNat : Int)

/-- The canonical NaN of FP32 (R95). -/
def nan32 : Word := 0x7FC00000#32

/-- FMIN and FMAX (R102, R144). -/
def fminmax (big : Bool) (a b : Word) : Word :=
  if (fv32 a).isNan && (fv32 b).isNan then nan32
  else if (fv32 a).isNan then b
  else if (fv32 b).isNan then a
  else if decide (fkey a ≤ fkey b) != big then a else b

/-- The conditions of FCMP (R145). -/
def fcondHolds (c : FCond) (a b : Word) : Bool :=
  let un := (fv32 a).isNan || (fv32 b).isNan
  let eq := a == b || ((fv32 a).isZero && (fv32 b).isZero)
  let lt := !eq && decide (fkey a < fkey b)
  match c with
  | .eq => !un && eq
  | .ne => un || !eq
  | .lt => !un && lt
  | .le => !un && (lt || eq)
  | .gt => !un && !lt && !eq
  | .ge => !un && !lt
  | .un => un
  | .ord => !un

/-- FCLASS (R146). -/
def fclassW (w : Word) : Word :=
  let neg := w.getLsbD 31
  let e := bits w 30 23
  let m := bits w 22 0
  let i :=
    if e = 255 then (if m = 0 then (if neg then 0 else 7) else if m < 2 ^ 22 then 8 else 9)
    else if e = 0 then (if m = 0 then (if neg then 3 else 4) else if neg then 2 else 5)
    else if neg then 1 else 6
  BitVec.ofNat 32 (2 ^ i)

/-- An FP32 result as a register value. -/
def w32 (r : Nat × Flags) : Word × Flags := (BitVec.ofNat 32 r.1, r.2)

/-- The integer square root, `n` bits of the root left to find. -/
def isqrtFrom (x : Nat) (r : Nat) : Nat → Nat
  | 0 => r
  | n + 1 => if (r + 2 ^ n) * (r + 2 ^ n) ≤ x then isqrtFrom x (r + 2 ^ n) n else isqrtFrom x r n

/-- The integer square root. -/
def isqrt (x : Nat) : Nat := isqrtFrom x 0 (bitLen x / 2 + 1)

/-- 1/A for finite non-zero A, rounded once (R147). -/
def recip (neg : Bool) (m : Nat) (e : Int) : Nat × Flags :=
  let k := bitLen m + 64
  f32.round .rne neg (2 ^ k / m) (-(k : Int) - e) (2 ^ k % m != 0)

/-- √A for finite positive A, rounded once (R147). -/
def sqrtR (mode : RMode) (m : Nat) (e : Int) : Nat × Flags :=
  let odd := e % 2 != 0
  let x := (if odd then 2 * m else m) * 2 ^ 128
  let e' := if odd then e - 1 else e
  let r := isqrt x
  f32.round mode false r (e' / 2 - 64) (r * r != x)

/-- 1/√A for finite positive A, rounded once (R147). -/
def rsqrtR (m : Nat) (e : Int) : Nat × Flags :=
  let odd := e % 2 != 0
  let x := if odd then 2 * m else m
  let e' := if odd then e - 1 else e
  let r := isqrt (2 ^ 256 / x)
  f32.round .rne false r (-128 - e' / 2) (r * r * x != 2 ^ 256)

/-- The sum of z^(2k+1) / (2k+1) at scale 2^p, with alternating signs when `alt`: atanh z or atan z. `pw` is the
power reached, `z2` the square of z, both at scale 2^p. -/
def oddSeries (p : Nat) (alt : Bool) (z2 : Nat) (pw k : Nat) (acc : Int) : Nat → Int
  | 0 => acc
  | n + 1 =>
    let term : Int := (pw / (2 * k + 1) : Nat)
    oddSeries p alt z2 (pw * z2 / 2 ^ p) (k + 1) (if alt && k % 2 == 1 then acc - term else acc + term) n

/-- ln 2 at scale 2^p: 2 atanh(1/3). -/
def ln2At (p : Nat) : Nat := (2 * oddSeries p false (2 ^ p / 9) (2 ^ p / 3) 0 0 (p / 3 + 4)).toNat

/-- π at scale 2^p: 16 atan(1/5) − 4 atan(1/239). -/
def piAt (p : Nat) : Nat :=
  (16 * oddSeries p true (2 ^ p / 25) (2 ^ p / 5) 0 0 (p / 4 + 4) -
    4 * oddSeries p true (2 ^ p / 57121) (2 ^ p / 239) 0 0 (p / 15 + 4)).toNat

/-- The exponential series at scale 2^p from term `t` of degree `k` on. -/
def expSeries (p x t k acc : Nat) : Nat → Nat
  | 0 => acc
  | n + 1 => expSeries p x (t * x / 2 ^ p / (k + 1)) (k + 1) (acc + t) n

/-- The sine (from x, degree 1) or cosine (from 1, degree 0) series at scale 2^p. -/
def trigSeries (p x2 t k : Nat) (neg : Bool) (acc : Int) : Nat → Int
  | 0 => acc
  | n + 1 =>
    trigSeries p x2 (t * x2 / 2 ^ p / ((k + 1) * (k + 2))) (k + 2) (!neg) (if neg then acc - t else acc + t) n

/-- The result enclosed by `v` ± 2^20 at scale 2^p (with exponent `e` more), when both ends round alike; else at more
precision, as often as `fuel` says. The value itself is irrational (R147). -/
def enclose (approx : Nat → Int) (e : Int) (p : Nat) : Nat → Nat × Flags
  | 0 =>
    let v := approx p
    f32.round .rne (decide (v < 0)) v.natAbs (e - p) true
  | n + 1 =>
    let v := approx p
    let lo := f32.round .rne (decide (v < 0)) (v.natAbs - 2 ^ 20) (e - p) true
    let hi := f32.round .rne (decide (v < 0)) (v.natAbs + 2 ^ 20) (e - p) true
    if lo.1 = hi.1 && lo.2 = hi.2 then lo else enclose approx e (2 * p) n

/-- 2^f for the fraction f = x / 2^k, at scale 2^p. -/
def exp2Approx (x k p : Nat) : Int :=
  let y := x * ln2At p / 2 ^ k
  (expSeries p y (2 ^ p) 0 0 (p / 2) : Nat)

/-- 2^A for finite A (R147). -/
def exp2R (neg : Bool) (m : Nat) (e : Int) : Nat × Flags :=
  if m = 0 then (0x3F800000, Flags.none)
  else if 9 < e + bitLen m then f32.round .rne false 1 (if neg then -1000 else 1000) false
  else
    let k := (-e).toNat
    let v : Int := (if neg then -1 else 1) * (m * 2 ^ e.toNat : Nat)
    let i := v / 2 ^ k
    let x := (v % 2 ^ k).toNat
    if x = 0 then f32.round .rne false 1 i false else enclose (exp2Approx x k) i 256 2

/-- log2 of 2^k × x / 2^n (1 ≤ x / 2^n < 2) at scale 2^p. -/
def log2Approx (k : Int) (x n p : Nat) : Int :=
  let z := (x - 2 ^ n) * 2 ^ p / (x + 2 ^ n)
  k * 2 ^ p + 2 * oddSeries p false (z * z / 2 ^ p) z 0 0 (p / 3 + 4) * 2 ^ p / (ln2At p : Int)

/-- log2 A for finite positive A (R147). -/
def log2R (m : Nat) (e : Int) : Nat × Flags :=
  let n := bitLen m - 1
  let k := e + n
  if m = 2 ^ n then f32.round .rne (decide (k < 0)) k.natAbs 0 false else enclose (log2Approx k m n) 0 256 2

/-- sin or cos of m × 2^e at scale 2^p: the argument reduced by multiples of π/2 held with 320 more bits. -/
def trigApprox (cos : Bool) (m : Nat) (e : Int) (p : Nat) : Int :=
  let q := p + 320
  let half := piAt q / 2
  let x := if 0 ≤ e + q then m * 2 ^ (e + q).toNat else m / 2 ^ (-(e + q)).toNat
  let n := x / half + if cos then 1 else 0
  let r := x % half / 2 ^ 320
  let r2 := r * r / 2 ^ p
  let v := if n % 2 = 0 then trigSeries p r2 r 1 false 0 (p / 4) else trigSeries p r2 (2 ^ p) 0 false 0 (p / 4)
  if n % 4 < 2 then v else -v

/-- sin A for finite non-zero A (R147); below 2^-31 the sine lies just below its argument. -/
def sinR (neg : Bool) (m : Nat) (e : Int) : Nat × Flags :=
  if e + bitLen m < -31 then f32.round .rne neg (m * 2 ^ 60 - 1) (e - 60) true
  else enclose (fun p => if neg then -(trigApprox false m e p) else trigApprox false m e p) 0 256 2

/-- cos A for finite non-zero A (R147); below 2^-31 the cosine lies just below 1. -/
def cosR (m : Nat) (e : Int) : Nat × Flags :=
  if e + bitLen m < -31 then f32.round .rne false (2 ^ 60 - 1) (-60) true
  else enclose (trigApprox true m e) 0 256 2

end Sys2Proof.Machine
end

