-- ==== Sys2Proof/Machine/Integer.lean ====
section
/-! DEFINITION. The integer and logic instructions (R137 to R142). Immediate forms take B from the word (R138). -/

namespace Sys2Proof.Machine

/-- An integer of any size clamped to the signed 32-bit range, and whether it was (R137). -/
def clampS (x : Int) : Word × Bool :=
  if x < -(2 ^ 31) then (0x80000000#32, true)
  else if 2 ^ 31 ≤ x then (0x7FFFFFFF#32, true)
  else (BitVec.ofInt 32 x, false)

/-- An integer clamped to the unsigned 32-bit range, and whether it was (R137). -/
def clampU (x : Int) : Word × Bool :=
  if x < 0 then (0#32, true)
  else if 2 ^ 32 ≤ x then (0xFFFFFFFF#32, true)
  else (BitVec.ofInt 32 x, false)

/-- IADD and ISUB in their three forms; `y` is negated for ISUB (R137). -/
def addSub (sub : Bool) (m : SatMode) (a b : Word) : Word × Flags :=
  let s : Int := if sub then a.toInt - b.toInt else a.toInt + b.toInt
  let u : Int := if sub then (a.toNat : Int) - b.toNat else (a.toNat : Int) + b.toNat
  match m with
  | .wrap => (BitVec.ofInt 32 s, Flags.none)
  | .sat => ((clampS s).1, { sat := (clampS s).2 })
  | .usat => ((clampU u).1, { sat := (clampU u).2 })

/-- A 32-bit value extended signed or unsigned (R137, R140). -/
def extI (u : Bool) (a : Word) : Int := if u then a.toNat else a.toInt

/-- IMULH (R137). -/
def mulHigh (u : Bool) (a b : Word) : Word := BitVec.ofInt 32 (extI u a * extI u b / 2 ^ 32)

/-- IMIN (R137). -/
def minI (u : Bool) (a b : Word) : Word := if extI u a ≤ extI u b then a else b
/-- IMAX (R137). -/
def maxI (u : Bool) (a b : Word) : Word := if extI u b ≤ extI u a then a else b

/-- IABS and INEG (R137). -/
def negI (sat : Bool) (a : Word) : Word × Flags :=
  if a = 0x80000000#32 then (if sat then (0x7FFFFFFF#32, { sat := true }) else (a, Flags.none)) else (-a, Flags.none)

/-- SHL (R139). -/
def shlW (a : Word) (amt : Nat) : Word := if 32 ≤ amt then 0#32 else a <<< amt
/-- SHR (R139). -/
def shrW (a : Word) (amt : Nat) : Word := if 32 ≤ amt then 0#32 else a >>> amt
/-- SAR (R139). -/
def sarW (a : Word) (amt : Nat) : Word :=
  if 32 ≤ amt then (if a.getLsbD 31 then 0xFFFFFFFF#32 else 0#32) else a.sshiftRight amt
/-- ROL (R139). -/
def rolW (a : Word) (amt : Nat) : Word := a.rotateLeft (amt % 32)

/-- BFX (R139). -/
def bfxW (sgn : Bool) (a : Word) (pos len : Nat) : Word :=
  let n := min len 32
  let f := a.toNat / 2 ^ min pos 32 % 2 ^ n
  if sgn && decide (0 < len) && f.testBit (n - 1) then BitVec.ofInt 32 ((f : Int) - 2 ^ n) else BitVec.ofNat 32 f

/-- BFI (R139). -/
def bfiW (a c : Word) (pos len : Nat) : Word :=
  if 32 ≤ pos || len = 0 then c
  else
    let n := min len (32 - pos)
    let m : Word := BitVec.ofNat 32 ((2 ^ n - 1) * 2 ^ pos)
    (c &&& ~~~m) ||| ((a <<< pos) &&& m)

/-- POPC (R137). -/
def popcW (a : Word) : Word := BitVec.ofNat 32 ((List.range 32).filter fun i => a.getLsbD i).length

/-- CLZ (R137). -/
def clzW (a : Word) : Word :=
  BitVec.ofNat 32 (((List.range 32).find? fun i => a.getLsbD (31 - i)).getD 32)

/-- BREV (R137). -/
def brevW (a : Word) : Word := a.reverse

/-- The conditions of ICMP (R141). -/
def condHolds (c : Cond) (u : Bool) (a b : Word) : Bool :=
  match c with
  | .eq => a == b
  | .ne => a != b
  | .lt => decide (extI u a < extI u b)
  | .le => decide (extI u a ≤ extI u b)
  | .gt => decide (extI u b < extI u a)
  | .ge => decide (extI u b ≤ extI u a)

/-- LEA (R142). -/
def leaW (hi lo b : Word) (sh : Nat) (u : Bool) : List Word :=
  let x := pairOf hi lo + (if u then b.setWidth 64 else b.signExtend 64) <<< sh
  [loWord x, hiWord x]

/-- The issue of an ALU instruction with the given sources and `nd` destination registers. -/
def aluSpec (seq : Bool) (g : Guard) (srcs : List (Src × Nat)) (d : RegNo) (nd : Nat) : Spec :=
  { cls := 0, guard := g, srcs := srcs, dsts := [(d, nd)], seq := seq }

/-- A one-register result of one source. -/
def alu1 (seq : Bool) (d : RegNo) (a : Src) (g : Guard) (f : Word → Word × Flags) (s : State) :
    Host.Outcome State Fault Refusal :=
  aluOp (aluSpec seq g [(a, 1)] d 1) d (fun x => ([(f (x 0 0)).1], (f (x 0 0)).2)) s

/-- A one-register result of two sources. -/
def alu2 (seq : Bool) (d : RegNo) (a b : Src) (g : Guard) (f : Word → Word → Word × Flags) (s : State) :
    Host.Outcome State Fault Refusal :=
  aluOp (aluSpec seq g [(a, 1), (b, 1)] d 1) d (fun x => ([(f (x 0 0) (x 1 0)).1], (f (x 0 0) (x 1 0)).2)) s

/-- A one-register result of three sources. -/
def alu3 (seq : Bool) (d : RegNo) (a b c : Src) (g : Guard) (f : Word → Word → Word → Word × Flags) (s : State) :
    Host.Outcome State Fault Refusal :=
  aluOp (aluSpec seq g [(a, 1), (b, 1), (c, 1)] d 1) d
    (fun x => ([(f (x 0 0) (x 1 0) (x 2 0)).1], (f (x 0 0) (x 1 0) (x 2 0)).2)) s

/-- A result that raises no flag. -/
def quiet (w : Word) : Word × Flags := (w, Flags.none)

/-- The immediate of a format-I instruction, sign-extended (R81, R138). -/
def immW (i : BitVec 20) : Word := i.signExtend 32

/-- IADD (R137). -/
def execIadd (d : RegNo) (a b : Src) (m : SatMode) (g : Guard) (s : State) := alu2 true d a b g (addSub false m) s
/-- IADD, immediate (R137, R138). -/
def execIaddImm (d : RegNo) (a : Src) (imm : BitVec 20) (m : SatMode) (g : Guard) (s : State) :=
  alu1 true d a g (fun x => addSub false m x (immW imm)) s
/-- ISUB (R137). -/
def execIsub (d : RegNo) (a b : Src) (m : SatMode) (g : Guard) (s : State) := alu2 true d a b g (addSub true m) s
/-- ISUB, immediate (R137, R138). -/
def execIsubImm (d : RegNo) (a : Src) (imm : BitVec 20) (m : SatMode) (g : Guard) (s : State) :=
  alu1 true d a g (fun x => addSub true m x (immW imm)) s

/-- ADDC (R140): the sum in D, the carry in D + 1. -/
def execAddc (d : RegNo) (a b c : Src) (g : Guard) (s : State) :=
  aluOp (aluSpec false g [(a, 1), (b, 1), (c, 1)] d 2) d (fun x =>
    let t := (x 0 0).toNat + (x 1 0).toNat + (x 2 0).toNat % 2
    ([BitVec.ofNat 32 t, BitVec.ofNat 32 (t / 2 ^ 32)], Flags.none)) s

/-- SUBB (R140): the difference in D, the borrow in D + 1. -/
def execSubb (d : RegNo) (a b c : Src) (g : Guard) (s : State) :=
  aluOp (aluSpec false g [(a, 1), (b, 1), (c, 1)] d 2) d (fun x =>
    let t : Int := (x 0 0).toNat - (x 1 0).toNat - ((x 2 0).toNat % 2 : Nat)
    ([BitVec.ofInt 32 t, wordOfBool (decide (t < 0))], Flags.none)) s

/-- IMUL (R137). -/
def execImul (d : RegNo) (a b : Src) (g : Guard) (s : State) := alu2 true d a b g (fun x y => quiet (x * y)) s
/-- IMUL, immediate (R137, R138). -/
def execImulImm (d : RegNo) (a : Src) (imm : BitVec 20) (g : Guard) (s : State) :=
  alu1 true d a g (fun x => quiet (x * immW imm)) s
/-- IMULH (R137). -/
def execImulh (d : RegNo) (a b : Src) (u : Bool) (g : Guard) (s : State) :=
  alu2 true d a b g (fun x y => quiet (mulHigh u x y)) s
/-- IMAD (R137). -/
def execImad (d : RegNo) (a b c : Src) (g : Guard) (s : State) := alu3 true d a b c g (fun x y z => quiet (x * y + z)) s

/-- IMADW (R140): the 64-bit product and sum in the pair D. -/
def execImadw (d : RegNo) (a b c : Src) (u : Bool) (g : Guard) (s : State) :=
  aluOp (aluSpec false g [(a, 1), (b, 1), (c, 2)] d 2) d (fun x =>
    let p : BitVec 64 := BitVec.ofInt 64 (extI u (x 0 0) * extI u (x 1 0)) + pairOf (x 2 1) (x 2 0)
    ([loWord p, hiWord p], Flags.none)) s

/-- IMIN (R137). -/
def execImin (d : RegNo) (a b : Src) (u : Bool) (g : Guard) (s : State) :=
  alu2 true d a b g (fun x y => quiet (minI u x y)) s
/-- IMIN, immediate (R137, R138). -/
def execIminImm (d : RegNo) (a : Src) (imm : BitVec 20) (u : Bool) (g : Guard) (s : State) :=
  alu1 true d a g (fun x => quiet (minI u x (immW imm))) s
/-- IMAX (R137). -/
def execImax (d : RegNo) (a b : Src) (u : Bool) (g : Guard) (s : State) :=
  alu2 true d a b g (fun x y => quiet (maxI u x y)) s
/-- IMAX, immediate (R137, R138). -/
def execImaxImm (d : RegNo) (a : Src) (imm : BitVec 20) (u : Bool) (g : Guard) (s : State) :=
  alu1 true d a g (fun x => quiet (maxI u x (immW imm))) s
/-- IABS (R137). -/
def execIabs (d : RegNo) (a : Src) (sat : Bool) (g : Guard) (s : State) :=
  alu1 false d a g (fun x => if x.getLsbD 31 then negI sat x else quiet x) s
/-- INEG (R137). -/
def execIneg (d : RegNo) (a : Src) (sat : Bool) (g : Guard) (s : State) := alu1 false d a g (negI sat) s

/-- AND (R137). -/
def execAnd (d : RegNo) (a b : Src) (g : Guard) (s : State) := alu2 true d a b g (fun x y => quiet (x &&& y)) s
/-- AND, immediate (R137, R138). -/
def execAndImm (d : RegNo) (a : Src) (imm : BitVec 20) (g : Guard) (s : State) :=
  alu1 true d a g (fun x => quiet (x &&& immW imm)) s
/-- OR (R137). -/
def execOr (d : RegNo) (a b : Src) (g : Guard) (s : State) := alu2 true d a b g (fun x y => quiet (x ||| y)) s
/-- OR, immediate (R137, R138). -/
def execOrImm (d : RegNo) (a : Src) (imm : BitVec 20) (g : Guard) (s : State) :=
  alu1 true d a g (fun x => quiet (x ||| immW imm)) s
/-- XOR (R137). -/
def execXor (d : RegNo) (a b : Src) (g : Guard) (s : State) := alu2 true d a b g (fun x y => quiet (x ^^^ y)) s
/-- XOR, immediate (R137, R138). -/
def execXorImm (d : RegNo) (a : Src) (imm : BitVec 20) (g : Guard) (s : State) :=
  alu1 true d a g (fun x => quiet (x ^^^ immW imm)) s
/-- ANDN (R137). -/
def execAndn (d : RegNo) (a b : Src) (g : Guard) (s : State) := alu2 true d a b g (fun x y => quiet (x &&& ~~~y)) s
/-- ANDN, immediate (R137, R138). -/
def execAndnImm (d : RegNo) (a : Src) (imm : BitVec 20) (g : Guard) (s : State) :=
  alu1 true d a g (fun x => quiet (x &&& ~~~immW imm)) s

/-- SHL (R139). -/
def execShl (d : RegNo) (a b : Src) (g : Guard) (s : State) := alu2 true d a b g (fun x y => quiet (shlW x y.toNat)) s
/-- SHL, immediate (R138, R139). -/
def execShlImm (d : RegNo) (a : Src) (amt : BitVec 5) (g : Guard) (s : State) :=
  alu1 true d a g (fun x => quiet (shlW x amt.toNat)) s
/-- SHR (R139). -/
def execShr (d : RegNo) (a b : Src) (g : Guard) (s : State) := alu2 true d a b g (fun x y => quiet (shrW x y.toNat)) s
/-- SHR, immediate (R138, R139). -/
def execShrImm (d : RegNo) (a : Src) (amt : BitVec 5) (g : Guard) (s : State) :=
  alu1 true d a g (fun x => quiet (shrW x amt.toNat)) s
/-- SAR (R139). -/
def execSar (d : RegNo) (a b : Src) (g : Guard) (s : State) := alu2 true d a b g (fun x y => quiet (sarW x y.toNat)) s
/-- SAR, immediate (R138, R139). -/
def execSarImm (d : RegNo) (a : Src) (amt : BitVec 5) (g : Guard) (s : State) :=
  alu1 true d a g (fun x => quiet (sarW x amt.toNat)) s
/-- ROL (R139). -/
def execRol (d : RegNo) (a b : Src) (g : Guard) (s : State) := alu2 true d a b g (fun x y => quiet (rolW x y.toNat)) s
/-- ROL, immediate (R138, R139). -/
def execRolImm (d : RegNo) (a : Src) (amt : BitVec 5) (g : Guard) (s : State) :=
  alu1 true d a g (fun x => quiet (rolW x amt.toNat)) s
/-- BFX (R139): position and length in B. -/
def execBfx (d : RegNo) (a b : Src) (sgn : Bool) (g : Guard) (s : State) :=
  alu2 true d a b g (fun x y => quiet (bfxW sgn x (bits y 7 0) (bits y 15 8))) s
/-- BFX, immediate (R138, R139). -/
def execBfxImm (d : RegNo) (a : Src) (pos : BitVec 5) (len : BitVec 6) (sgn : Bool) (g : Guard) (s : State) :=
  alu1 true d a g (fun x => quiet (bfxW sgn x pos.toNat len.toNat)) s
/-- BFI (R139): position and length in B, the word inserted into in C. -/
def execBfi (d : RegNo) (a b c : Src) (g : Guard) (s : State) :=
  alu3 true d a b c g (fun x y z => quiet (bfiW x z (bits y 7 0) (bits y 15 8))) s
/-- POPC (R137). -/
def execPopc (d : RegNo) (a : Src) (g : Guard) (s : State) := alu1 true d a g (fun x => quiet (popcW x)) s
/-- CLZ (R137). -/
def execClz (d : RegNo) (a : Src) (g : Guard) (s : State) := alu1 true d a g (fun x => quiet (clzW x)) s
/-- BREV (R137). -/
def execBrev (d : RegNo) (a : Src) (g : Guard) (s : State) := alu1 true d a g (fun x => quiet (brevW x)) s
/-- ICMP (R141). -/
def execIcmp (d : RegNo) (a b : Src) (c : Cond) (u : Bool) (g : Guard) (s : State) :=
  alu2 true d a b g (fun x y => quiet (wordOfBool (condHolds c u x y))) s
/-- ICMP, immediate (R138, R141). -/
def execIcmpImm (d : RegNo) (a : Src) (imm : BitVec 20) (c : Cond) (u : Bool) (g : Guard) (s : State) :=
  alu1 true d a g (fun x => quiet (wordOfBool (condHolds c u x (immW imm)))) s
/-- SEL (R137). -/
def execSel (d : RegNo) (a b c : Src) (g : Guard) (s : State) :=
  alu3 true d a b c g (fun x y z => quiet (if z.getLsbD 0 then x else y)) s
/-- MOV, and MOV.64 of a pair (R137). -/
def execMov (d : RegNo) (a : Src) (wide : Bool) (g : Guard) (s : State) :=
  aluOp (aluSpec true g [(a, if wide then 2 else 1)] d (if wide then 2 else 1)) d
    (fun x => (if wide then [x 0 0, x 0 1] else [x 0 0], Flags.none)) s
/-- MOVI (R137, R82). -/
def execMovi (d : RegNo) (imm : BitVec 32) (g : Guard) (s : State) :=
  aluOp (aluSpec true g [] d 1) d (fun _ => ([imm], Flags.none)) s
/-- LEA (R142). -/
def execLea (d : RegNo) (a b : Src) (sh : BitVec 3) (u : Bool) (g : Guard) (s : State) :=
  aluOp (aluSpec true g [(a, 2), (b, 1)] d 2) d (fun x => (leaW (x 0 1) (x 0 0) (x 1 0) sh.toNat u, Flags.none)) s
/-- LEA, immediate (R142): B is the immediate, sign-extended. -/
def execLeaImm (d : RegNo) (a : Src) (imm : BitVec 20) (sh : BitVec 3) (u : Bool) (g : Guard) (s : State) :=
  aluOp (aluSpec true g [(a, 2)] d 2) d (fun x => (leaW (x 0 1) (x 0 0) (immW imm) sh.toNat u, Flags.none)) s

end Sys2Proof.Machine
end

