-- ==== Sys2Proof/Machine/Life.lean ====
section
/-! DEFINITION. What begins and ends groups, teams and shares: readiness and the sets of a partition (R47 to R50),
reservations cancelled (R272), names released (R254, R315), the end of groups, teams and shares (R55, R56, R39), the
core numbering (R20, R22) and drains (R44, R388). -/

namespace Sys2Proof.Machine

/-- What is left of a wait when something has changed: the wait on source registers that are still armed (R313). -/
def Group.stillWaits (g : Group) (w : Stall) : Stall :=
  match w with
  | .armed rs =>
    match rs.filter fun r => (g.tag r).arm != 0#64 with
    | [] => .none
    | l => .armed l
  | .none | .issue | .load _ | .armedDst | .barrier => .none

/-- A group's fragments and helpers that waited at issue may try again. -/
def State.wake (s : State) (k : Nat) : State :=
  s.modGroup k fun g =>
    { g with
      frags := g.frags.map fun e => (e.1, { e.2 with stall := g.stillWaits e.2.stall })
      recruit := g.recruit.map fun r =>
        { r with helpers := r.helpers.map fun h => (h.1, { h.2 with front := { h.2.front with stall := .none } }) } }

/-- The groups of a die that waited at issue may try again, and a fault whose delivery waited is delivered (R293, R383). -/
def State.wakeDie (s : State) (d : Nat) : State :=
  ((s.groups.map (·.1)).filter fun k => keyDie k == d).foldl
    (fun s k => (s.wake k).deliverHeld k (((s.group? k).map fun g => g.held.length).getD 0)) s

/-- Whether a fragment could issue were its group active (R47, R51, R293, R319). -/
def Group.fragReady (g : Group) (e : Nat) (f : Fragment) : Bool :=
  f.wait == .run && f.stopped == .no && f.stall == .none &&
  (match g.handler with
    | some h => !h.held.contains e
    | none => true) &&
  (match g.recruit with
    | some r => r.entry == e
    | none => true)

/-- Whether a group has a ready fragment (R48, R297). -/
def State.groupReady (s : State) (k : Nat) : Bool :=
  match s.group? k, s.teamOf? k with
  | some g, some t =>
    g.parked.isNone && g.held.isEmpty && !g.ended && t.saved.isNone && !t.killed && g.frags.any fun e => g.fragReady e.1 e.2
  | _, _ => false

/-- The oldest ready group of a partition's pending set (R48). -/
def State.oldestReady (s : State) (d c p : Nat) : Option Nat :=
  (partSet (s.core d c).pending p).find? s.groupReady

/-- Group `a` of the active set exchanged with group `b` of the pending set; `a` goes to the tail (R48). -/
def State.exchange (s : State) (d c p a b : Nat) : State :=
  let ready := s.groupReady a
  let s := s.modCore d c fun x =>
    { x with
      active := aput x.active p ((partSet x.active p).filter (· != a) ++ [b])
      pending := aput x.pending p ((partSet x.pending p).filter (· != b) ++ [a]) }
  let s := s.modGroup b fun g => { g with readySince := none }
  s.modGroup a fun g => { g with readySince := if ready then some s.clock else none }

/-- Open reservations cancelled, as QCAN would: each remaining position receives a void (R244, R272). -/
def State.cancelResv (s : State) (k : Nat) : State :=
  match s.group? k with
  | none => s
  | some g =>
    let d := keyDie k
    let s := g.resv.foldl (fun s r =>
      (s.post (.group k g.uid (.frag d (keySlot k) (keyG k) 0)) d (s.ptagOf k) r.2.qid r.2.home r.2.gen
        (.cancel r.2.next r.2.rem) none).1) s
    s.modGroup k fun g => { g with resv := [] }

/-- Elements discarded on a die, counted for their process, saturating (R255). -/
def State.addDiscards (s : State) (d : Nat) (ptag : BitVec 12) (n : Nat) : State :=
  s.modDie d fun x =>
    let m := min ((sget 0#32 x.discards ptag.toNat).toNat + n) (2 ^ 32 - 1)
    { x with discards := sset 0#32 x.discards ptag.toNat (BitVec.ofNat 32 m) }

/-- A DISCARD notice of the cask's home port (R315). -/
def State.discardNotice (s : State) (d port : Nat) (ptag : BitVec 12) (n : Notice) : State :=
  s.faultPut d port ptag { n with code := 67, source := 3, panel := s.panelNo.toNat, die := s.logDie d }.bytes

/-- The name of a group released (R254): the cask's elements are discarded and counted, its generation advances, HEAD
and TAIL become equal (at a value the manual leaves open, log 3), and the notice of R315 is sent. -/
def State.nameRelease (s : State) (k : Nat) : State :=
  match (s.group? k).bind (·.name) with
  | none => s
  | some (qid, qk) =>
    match aget s.queues qk with
    | none => s.modGroup k fun g => { g with name := none }
    | some q =>
      let d := keyDie k
      let n := (q.pos.filter fun p => !((p.elem.map (·.void)).getD false)).length
      let at_ := Config.freeWord s.tick
      let note := s.groupNotice k { code := 67, count := n, detail := qid.toNat }
      let s := { s.draw with
        queues := aput s.queues qk
          { q with gen := q.gen + 1#6, head := at_, tail := at_, pos := [], waiters := [], bound := none } }
      let s := s.modGroup k fun g => { g with name := none }
      if n = 0 then s
      else (s.addDiscards d q.owner n).discardNotice d (qk % 16384 / 4096) q.owner note

/-- Teams of a share that live (R30). -/
def State.teamsOf (s : State) (d share : Nat) : List (Nat × Team) :=
  s.teams.filter fun e => e.1 / Config.nSlots == d && e.2.share == share

/-- COUNT of a map entry (R34). -/
def mapCount (m : BitVec 256) : Nat := bits m 63 32
/-- FIRST of a map entry (R34). -/
def mapFirst (m : BitVec 256) : Nat := bits m 31 0

/-- A team is triggered when each of its groups has executed LTRIG or ended (R41). -/
def State.teamTriggered (s : State) (d n : Nat) (t : Team) : Bool :=
  (List.range (recGroups t.recd)).all fun g =>
    t.endedGroups.contains g || ((s.group? (groupKey d n g)).map fun x => x.ltrig || x.ended).getD false

/-- Whether a predecessor share is met (R41). -/
def State.predMet (s : State) (d : Nat) (p : Nat × Bool) : Bool :=
  match aget (s.die d).shares p.1 with
  | none => true
  | some y =>
    y.life == .ended ||
    (p.2 && decide (mapCount y.map ≤ y.placed) &&
      (s.teamsOf d p.1).all fun e => s.teamTriggered d (e.1 % Config.nSlots) e.2)

/-- Whether a share's dependences are met (R40, R41). -/
def State.depsMet (s : State) (d : Nat) (x : Share) : Bool := x.preds.all (s.predMet d)

/-- The 16-byte completion element of a share (R39). -/
def completionBytes (x : Share) (logDie : Nat) : List Byte :=
  bytesOf 16 ((recTag x.recd).toNat + logDie % 256 * 2 ^ 32 + (if x.killed = 0 then 0 else 1) * 2 ^ 40 +
    mapCount x.map * 2 ^ 64 + x.normal * 2 ^ 96)

/-- A share ends (R39, R56). -/
def State.shareEnd (s : State) (d id : Nat) : State :=
  match aget (s.die d).shares id with
  | none => s
  | some x =>
    let s := s.modDie d fun v => { v with shares := aput v.shares id { x with life := .ended } }
    if x.recd.getLsbD 522 then
      s.completionPut d x.ptag (recTag x.recd) (x.recd.extractLsb' 480 32) (completionBytes x (s.logDie d))
    else s

/-- A waiting share without a team left to place or to end, whose dependences are met, ends (R40, R56). -/
def State.shareOver (s : State) (d : Nat) (x : Share) : Bool :=
  x.life == .waiting && decide (mapCount x.map ≤ x.normal + x.killed) && s.depsMet d x

/-- Shares that can end do end, `n` at most: one end may meet another share's dependences. -/
def State.settleShares (s : State) (d : Nat) : Nat → State
  | 0 => s
  | n + 1 =>
    match (s.die d).shares.find? fun e => s.shareOver d e.2 with
    | none => s
    | some e => State.settleShares (s.shareEnd d e.1) d n

/-- Shares of a die settled. -/
def State.settle (s : State) (d : Nat) : State := s.settleShares d ((s.die d).shares.length)

/-- Whether a team lies on a physical core. -/
def State.coreEmpty (s : State) (d c : Nat) : Bool :=
  !(s.teams.any fun e => e.1 / Config.nSlots == d && e.2.cores.contains c)

/-- Whether a die has a resident team (R22). -/
def State.dieEmpty (s : State) (d : Nat) : Bool :=
  !(s.teams.any fun e => e.1 / Config.nSlots == d && !e.2.cores.isEmpty)

/-- A COMMAND element: the command that began completes with a status (R375). -/
def State.cmdDone (s : State) (d : Nat) (cmd : List Byte) (status : Nat) : State :=
  (s.modDie d fun x => { x with cmdBusy := none }).rasPut d
    { kind := 2, detail := fieldAt cmd 4 2 + status * 65536 }

/-- The physical cores of a die by logical number, and its whole clusters, from the cores that are not live (R20). -/
def numberCores (dead : BitVec 128) : List Nat × Nat :=
  let live := fun c => !dead.getLsbD c
  let whole := (List.range 64).filter fun k => live (2 * k) && live (2 * k + 1)
  let lone := (List.range Config.nCores).filter fun c => live c && !live (c ^^^ 1)
  (whole.flatMap fun k => [2 * k, 2 * k + 1], whole.length) |> fun r => (r.1 ++ lone, r.2)

/-- The cores fused off on a die (R19). -/
def State.fusedCores (s : State) (d : Nat) : BitVec 128 := sget 0#128 s.flash.fuseCores d

/-- The core numbering rebuilt, once no team is resident, after a retirement (R22). -/
def State.rebuildCores (s : State) (d : Nat) : State :=
  if (s.die d).hold = 0#128 || !s.dieEmpty d then s
  else
    let gone := (s.die d).retired ||| (s.die d).hold
    let r := numberCores (gone ||| s.fusedCores d)
    s.modDie d fun x => { x with retired := gone, hold := 0#128, coreMap := r.1, pairs := r.2 }

/-- Whether a pre-empted team has the first claim on a die's drain target: it is saved, and waits for a place (R44, R309). -/
def State.drainClaim (s : State) (d : Nat) : Bool :=
  (((s.die d).drainFor.bind (s.team? d)).bind (·.saved)).map (·.1) == some false

/-- What a core's becoming empty brings about: a drain ends when its target is empty, unless a pre-empted team has the first claim
on it and may be offered it (R44, R394), a retirement completes (R388), and the numbering may be rebuilt (R22). -/
def State.coresLeft (s : State) (d : Nat) : State :=
  let s := match (s.die d).drain with
    | some l =>
      if (!s.drainClaim d || l.any fun c => (s.die d).hold.getLsbD c) && l.all (s.coreEmpty d) then
        s.modDie d fun x => { x with drain := none, drainFor := none }
      else s
    | none => s
  let s := match (s.die d).cmdBusy with
    | some cmd => if fieldAt cmd 0 1 = 9 && s.coreEmpty d (fieldAt cmd 8 1) then s.cmdDone d cmd 0 else s
    | none => s
  s.rebuildCores d

/-- Grist copies of the cores of a matrix team cleared (R99). -/
def State.clearGrist (s : State) (d : Nat) (cores : List Nat) : State :=
  cores.foldl (fun s c => s.modCore d c fun x => { x with grist := [], gristPoison := [], gristUe := [] }) s

/-- Landing bindings that were active for a team become inactive (R251); delivery stopped by R396 may begin anew. -/
def State.unbindLandings (s : State) (d n : Nat) : State :=
  { s with queues := s.queues.map fun e =>
      if e.1 / 16384 = d then
        (e.1, { e.2 with landing := e.2.landing.map fun l =>
                  if l.active = some n then { l with active := none, stopped := false } else l })
      else e }

/-- A team ends (R56): its slot, local memory, sequencer and tun are free, and its share counts it. -/
def State.teamEnd (s : State) (d n : Nat) : State :=
  match s.team? d n with
  | none => s
  | some t =>
    let s := if t.seq.isSome then s.clearGrist d t.cores else s
    let s := { s with teams := adel s.teams (teamKey d n), flight := s.flight.filter fun e => e.2.ag != Agent.seq d n }
    let s := s.unbindLandings d n
    let s := s.modDie d fun x =>
      { x with
        drainFor := if x.drainFor = some n then none else x.drainFor
        shares := amod x.shares t.share fun y =>
          if t.killed then { y with killed := y.killed + 1 } else { y with normal := y.normal + 1 } }
    (s.coresLeft d).settle d

/-- Queue instructions of a group that wait for answers are forgotten; its sleeping gets are removed (R248). -/
def State.dropWaits (s : State) (k : Nat) : State :=
  let ids := (s.pends.filter fun e => e.2.key = k).map (·.1)
  { s with
    pends := s.pends.filter fun e => e.2.key ≠ k
    msgs := s.msgs.filter fun e => !(ids.contains e.1 && e.2.linked)
    queues := s.queues.map fun e => (e.1, { e.2 with waiters := e.2.waiters.filter fun i => !ids.contains i }) }

/-- Stack offsets of a group's private area, chunk by chunk of 64 bytes, where mapped (R38). -/
def State.privLines (s : State) (k : Nat) (g : Group) : List Nat :=
  let r := s.recOf k
  (List.range (recW r * recP r / 64)).filterMap fun i =>
    match s.xlate (keyDie k) (s.ptagOf k) ((g.privBase.toNat + 64 * i) % 2 ^ 48) with
    | .ok e => some (e.phys ((g.privBase.toNat + 64 * i) % 2 ^ 48))
    | .fail _ => none

/-- The L1 copies of a group's private area invalidated without write-back (R55, R57, R172). -/
def State.dropPrivate (s : State) (k : Nat) : State :=
  match s.group? k with
  | none => s
  | some g => (s.privLines k g).foldl (fun s a => s.modCore (keyDie k) g.core fun c => { c with l1 := adel c.l1 (a / 64) }) s

/-- A group's end released (R55): private copies, reservations and name; the team ends with its last group (R56). -/
def State.groupGone (s : State) (k : Nat) : State :=
  match s.group? k with
  | none => s
  | some g =>
    let d := keyDie k
    let s := (((s.dropPrivate k).cancelResv k).nameRelease k).dropWaits k
    let s := s.modCore d g.core fun c => c.leave g.part k
    let s := { s with groups := adel s.groups k }
    let s := s.modTeam d (keySlot k) fun t => { t with endedGroups := nsInsert t.endedGroups (keyG k) }
    if (s.groupsOf d (keySlot k)).isEmpty then s.teamEnd d (keySlot k) else s.settle d

/-- Accesses of a group still in flight (R55, R305). -/
def State.inFlight (s : State) (k : Nat) : Bool :=
  match s.group? k with
  | none => false
  | some g => s.flight.any fun e => e.2.uid == g.uid && agKey e.2.ag == k

end Sys2Proof.Machine
end

