-- ==== Sys2Proof/Machine/Access.lean ====
section
/-! DEFINITION. Memory accesses between their issue and their performance: the checks of R166 and R193 over lanes,
program order and orderings (R179 to R186), and how loads, stores and atomics are performed (R170, R174 to R178, R196 to
R204). -/

namespace Sys2Proof.Machine

/-- A walk asked for: it joins one of the same page, takes one of 64 walkers, or waits in the list of 4,096 pages; beyond that the
access asks again (R312). -/
def Die.addWalk (x : Die) (key : Nat) : Die :=
  if x.walks.contains key || x.walkWait.contains key then x
  else if x.walks.length < Config.nWalkers then { x with walks := nsInsert x.walks key }
  else if x.walkWait.length < Config.walkList then { x with walkWait := x.walkWait ++ [key] }
  else x

/-- Walks asked for by an instruction (R312). -/
def State.addWalks (s : State) (d : Nat) (keys : List Nat) : State := s.modDie d fun x => keys.foldl Die.addWalk x

/-- Failed walks of pages that have been charged. -/
def State.dropFails (s : State) (d : Nat) (keys : List Nat) : State :=
  s.modDie d fun x => { x with walkFails := x.walkFails.filter fun e => !keys.contains e.1 }

/-- What the checks of an instruction's active lanes decide. -/
inductive Checked where
  /-- Some translation is not known yet. -/
  | wait (s : State)
  | bad (s : State) (code detail : Nat) (addr : Addr) (lanes : Mask)
  /-- Lane, address named, place and class code of each lane. -/
  | ok (s : State) (l : List (Nat × Nat × Nat × Nat))
  /-- An uncorrectable error met by a walk of the lanes named (R312). -/
  | mchk (s : State) (addr : Addr) (lanes : Mask)

/-- The first failing lane decides; the lanes that fail any check are named (R166, R193). -/
def decideLanes (s : State) (cs : List (Nat × Nat × Chk)) : Checked :=
  let bads := cs.filterMap fun x =>
    match x.2.2 with
    | .bad c dt => some (x.1, x.2.1, c, dt)
    | .mchk _ => some (x.1, x.2.1, 36, 0)
    | .ok _ _ | .miss => none
  match bads with
  | [] => .ok s (cs.filterMap fun x =>
      match x.2.2 with
      | .ok p c => some (x.1, x.2.1, p, c)
      | .bad _ _ | .mchk _ | .miss => none)
  | b :: _ =>
    if b.2.2.1 = 36 then .mchk s (BitVec.ofNat 48 b.2.1) (maskOf (bads.map (·.1)))
    else .bad s b.2.2.1 b.2.2.2 (BitVec.ofNat 48 b.2.1) (maskOf (bads.map (·.1)))

/-- What the checks of each lane and address have found decides (R166, R193): misses ask for walks (R312); a failed walk is
charged once. -/
def State.decideAll (s : State) (d : Nat) (ptag : BitVec 12) (cs : List (Nat × Nat × Nat × Chk)) : Checked :=
  let missing := cs.filter fun x => x.2.2.2 == .miss
  if !missing.isEmpty then .wait (s.addWalks d (missing.map fun x => s.walkKey d ptag x.2.2.1))
  else decideLanes (s.dropFails d (cs.map fun x => pageKey ptag x.2.2.1)) (cs.map fun x => (x.1, x.2.1, x.2.2.2))

/-- The global checks of an instruction of a core (R166). -/
def State.checkGlobal (s : State) (d c : Nat) (ptag : BitVec 12) (l : List (Nat × Nat)) (width : Nat) (n : Need) : Checked :=
  s.decideAll d ptag (l.map fun x => (x.1, x.2, x.2, s.chkIssue d c ptag x.2 width n))

/-- The local check of one address (R167, R193). -/
def chkLocal (limit width : Nat) (n : Need) (a : Nat) : Chk :=
  if a % width ≠ 0 then .bad 5 0 else if limit < a + width then .bad 34 n.bits else .ok a 0

/-- The local checks (R167, R193). -/
def checkLocal (s : State) (limit : Nat) (l : List (Nat × Nat)) (width : Nat) (n : Need) : Checked :=
  decideLanes s (l.map fun x => (x.1, x.2, chkLocal limit width n x.2))

/-- Unique numbers of agents: a group's, or 0 for a sequencer. -/
def State.agUid (s : State) (ag : Agent) : Nat :=
  match ag with
  | .frag _ _ _ _ | .helper _ _ _ _ => ((s.group? (agKey ag)).map (·.uid)).getD 0
  | .seq _ _ => 0

/-- The core an agent's accesses go through. -/
def State.agCore (s : State) (ag : Agent) : Nat :=
  match ag with
  | .frag _ _ _ _ | .helper _ _ _ _ => ((s.group? (agKey ag)).map (·.core)).getD 0
  | .seq d n => ((s.team? d n).bind (·.cores.head?)).getD 0

/-- The iteration of a helper. -/
def State.agIter (s : State) (ag : Agent) : BitVec 28 :=
  match ag with
  | .helper _ _ _ h =>
    ((s.helper? (agKey ag) h).map (·.iter)).getD 0#28
  | .frag _ _ _ _ | .seq _ _ => 0#28

/-- The accesses in flight that stand before an agent's current instruction in program order (R179, R185). -/
def State.earlier (s : State) (_ag : Agent) (f : Fragment) : List (Nat × Access) :=
  s.flight.filter fun e => f.past.contains e.1

/-- The same, of the agent where it stands. -/
def State.earlierOf (s : State) (ag : Agent) : List (Nat × Access) :=
  match s.front? ag with
  | none => []
  | some f => s.earlier ag f

/-- An access of an agent's current instruction, with nothing to do yet. -/
def State.newAccess (s : State) (ag : Agent) (f : Fragment) (kind : AccKind) (space : Space) : Access :=
  { ag := ag, uid := s.agUid ag, iter := s.agIter ag, pc := f.pc, kind := kind, space := space,
    before := (s.earlier ag f).map (·.1), pieces := [], dst := 0, ndst := 0, act := f.mask, core := s.agCore ag }

/-- An access enters `State.flight`; it stands before what its agent does next (R179). -/
def State.launchAccess (s : State) (ag : Agent) (x : Access) : State :=
  let id := s.fresh
  let s := { s with flight := aput s.flight id x, fresh := id + 1 }
  s.modFront ag fun f => { f with past := x.before ++ [id] }

/-- Whether an access reads. -/
def AccKind.reads : AccKind → Bool
  | .store => false
  | .load | .rmw _ _ | .cas _ => true

/-- Whether an access writes. -/
def AccKind.writes : AccKind → Bool
  | .load => false
  | .store | .rmw _ _ | .cas _ => true

/-- Whether an access is an ACAS. -/
def AccKind.isCas : AccKind → Bool
  | .cas _ => true
  | .load | .store | .rmw _ _ => false

/-- Whether an unmet fence holds back the fragment's memory, queue and engine instructions (R205). -/
def State.fenceHeld (s : State) (ag : Agent) (f : Fragment) : Bool :=
  (s.earlier ag f).any fun e => decide (e.1 < f.fenceAll) || (decide (e.1 < f.fenceRd) && e.2.kind.reads)

/-- Lines of the classes named leave a core's L1 (R170). -/
def State.l1Inval (s : State) (d c : Nat) (p : Nat → Bool) : State :=
  s.modCore d c fun k => { k with l1 := k.l1.filter fun e => !p e.2.cls }

/-- The invalidation of a met fence, before the next access (R205). -/
def State.fenceDue (s : State) (ag : Agent) (f : Fragment) : State :=
  if f.fenceInv then
    (s.l1Inval (keyDie (agKey ag)) (s.agCore ag) (· != 0)).modFront ag fun f => { f with fenceInv := false }
  else s

/-- Whether an agent's team lies on a core pair, so that core scope acts as R171 lays down. -/
def State.isPair (s : State) (ag : Agent) : Bool := ((s.teamOf? (agKey ag)).map fun t => recPair t.recd).getD false

/-- The L1 lines an acquire invalidates: every DIE and REPL line for one at die scope, which a DIE or a REPL page gives it, and
for one to local memory of a pair team (R170, R171, R177). -/
def State.acquireAct (s : State) (x : Access) : State :=
  let d := keyDie (agKey x.ag)
  match x.space with
  | .glob => if x.pieces.any fun p => p.cls != 0 then s.l1Inval d x.core (· != 0) else s
  | .loc => if s.isPair x.ag then s.l1Inval d x.core (· != 0) else s
  | .tun => s

/-- Whether two pieces name a common byte. -/
def Piece.meets (p q : Piece) : Bool := decide (p.addr < q.addr + q.len) && decide (q.addr < p.addr + p.len)

/-- The rows of the tun that a piece names. -/
def Piece.rows (p : Piece) : List Nat := (List.range (p.len / 64)).map (p.addr / 64 + ·)

/-- Whether a sequencer has stopped at a fault. -/
def State.seqStopped (s : State) (ag : Agent) : Bool :=
  match ag with
  | .seq d n => ((s.team? d n).bind fun t => t.seq.map (·.faulted)).getD false
  | .frag _ _ _ _ | .helper _ _ _ _ => false

/-- Whether an access of a core to a stack offset waits for a test or a repair: of the row of its L1, where that holds the line, and
at its home, where it does not or the access acts there too (R170, R383, R386). -/
def State.coreBusy (s : State) (d c off : Nat) (home : Bool) : Bool :=
  if s.l1Has d c off then s.sramBusy d 1 c (l1Loc (off / 64)) || (home && s.stackBusy d off) else s.stackBusy d off

/-- Whether an access to a local address waits for a test of its row (R383). -/
def State.localBusy (s : State) (d n a : Nat) : Bool :=
  let c := ((s.team? d n).map fun t => t.localCore a).getD 0
  s.sramBusy d 1 c (a / 64)

/-- Whether a range of local memory waits for a test of one of its rows (R383). -/
def State.rangeBusy (s : State) (d n a size : Nat) : Bool :=
  (List.range ((a % 64 + size + 63) / 64)).any fun i => s.localBusy d n (a / 64 * 64 + 64 * i)

/-- Whether a piece waits for a test or a repair of its row (R383, R386). -/
def State.pieceBusy (s : State) (x : Access) (p : Piece) : Bool :=
  match x.space with
  | .glob => s.coreBusy (keyDie (agKey x.ag)) x.core p.addr (x.kind != .load && p.cls != 0)
  | .loc => s.localBusy (keyDie (agKey x.ag)) (keySlot (agKey x.ag)) p.addr
  | .tun => ((s.teamOf? (agKey x.ag)).map fun t => s.tunBusy (keyDie (agKey x.ag)) t p.rows).getD false

/-- Whether the row of a register that an access writes is under test (R383). -/
def State.dstsBusy (s : State) (x : Access) : Bool :=
  s.regsBusy x.ag x.dst x.ndst || (x.cnt.map (s.regBusy x.ag)).getD false

/-- Whether an access stays as it is: a sequencer's that met trouble, until the sequencer goes on (R342), and one of a team that is
saved (R343). -/
def State.frozen (s : State) (x : Access) : Bool :=
  match x.ag with
  | .seq d n => (x.bad != 0#64 && s.seqStopped x.ag) || ((s.team? d n).map fun t => t.saved.isSome).getD false
  | .frag _ _ _ _ | .helper _ _ _ _ => false

/-- Whether a piece of access `id` may be performed: its row and those of the registers it writes are free, every earlier access that
orders it is complete, and no earlier access of the agent to one of its bytes is outstanding (R180, R181, R383, R386). -/
def State.mayPerform (s : State) (x : Access) (p : Piece) : Bool :=
  !s.pieceBusy x p && !s.dstsBusy x && !s.frozen x &&
  s.flight.all fun e =>
    !(x.before.contains e.1 &&
      (e.2.acq || x.after || (e.2.space == x.space && e.2.pieces.any fun q => !q.done && q.meets p)))

/-- The pieces of an access that are performed together with chosen ones: those that name a common byte (R178). -/
def closeOver (all sel : List Piece) : Nat → List Piece
  | 0 => sel
  | n + 1 => closeOver all (all.filter fun p => sel.any fun q => q.meets p) n

/-- One undone piece of a lane, freely chosen where it has several (R197). -/
def pickPiece (t : Nat) (l : List Piece) (lane : Nat) : List Piece :=
  let c := l.filter fun p => p.lane == lane && !p.done
  if c.length ≤ 1 then c else ((c)[Config.freeNat t % c.length]?).toList

/-- Pieces marked done. -/
def Access.finish (x : Access) (l : List Piece) : Access :=
  { x with pieces := x.pieces.map fun p => if l.contains p then { p with done := true } else p }

/-- A lane not performed because of an error or poison; the lowest such lane's address is kept (R176). -/
def Access.markBad (x : Access) (p : Piece) : Access :=
  { x with
    bad := x.bad ||| laneBit p.lane
    badAddr := if x.bad = 0#64 || p.lane < lowLane x.bad then BitVec.ofNat 48 p.va else x.badAddr }

/-- The words of a value of `len` bytes (R191). -/
def wordsOf (len v : Nat) : List Word := (List.range ((len + 3) / 4)).map fun i => BitVec.ofNat 32 (v / 2 ^ (32 * i))

/-- A value read for a piece written to the destination: in its lane, or everywhere for a uniform load; an s register
takes the lowest active lane (R62, R198). -/
def State.deliverPiece (s : State) (x : Access) (p : Piece) (v : Nat) : State :=
  if x.ndst = 0 then s
  else
    let r := x.dst + p.reg
    let lanes := if 256 ≤ x.dst then (if x.uniform || p.lane = lowLane x.act then [p.lane] else [])
                 else if x.uniform then lanesOf x.act else [p.lane]
    lanes.foldl (fun s l => s.wrWords x.ag r l (wordsOf p.len v)) s

/-- MCHK that reaches a helper (R327): in the iteration that made the access, a helper fault, of which a helper that has stopped in
that iteration raises no second (log 53); once the iteration has moved on, a record that names it, OVERFLOW, and the helper
stops. -/
def State.helperMchk (s : State) (k h : Nat) (iter : BitVec 28) (f : FaultRec) : State :=
  match s.helper? k h with
  | none => s
  | some x =>
    if x.iter = iter && x.life != .retired then s.helperFault k h f
    else
      let s := (s.helperRecord k h s.clock iter f).modRecruit k fun r => { r with exceeded := true }
      if x.life = .running then s.helperLeaves k h .stopped else s

/-- The registers an access writes. -/
def Access.dsts (x : Access) : List Nat := (List.range x.ndst).map (x.dst + ·) ++ x.cnt.toList

/-- The registers an access writes marked EMPTY or FULL (R65). -/
def State.markDsts (s : State) (x : Access) (b : Bool) : State :=
  match x.cnt with
  | none => s.setEmpty x.ag x.dst b x.ndst
  | some c => (s.setEmpty x.ag x.dst b x.ndst).setEmpty x.ag c b 1

/-- MCHK charged for an access (R176): to the group at its instruction, or to the helper, or to the sequencer. The one
access of BINIT stands for every active lane; so does the value of an LDU when a RESUME fills it (R198, R301). -/
def State.chargeMchk (s : State) (x : Access) : State :=
  let f : FaultRec := { code := 36, addr := x.badAddr, lanes := if x.uniform && x.ndst = 0 then x.act else x.bad, pc := x.pc }
  match x.ag with
  | .frag _ _ _ _ =>
    let bad := if x.uniform then x.act else if 256 ≤ x.dst then x.bad &&& laneBit (lowLane x.act) else x.bad
    let s := s.modGroup (agKey x.ag) fun g =>
      { g with mchk := g.mchk ++ x.dsts.map fun r => { reg := r, bad := bad } }
    s.groupFault (agKey x.ag) f
  | .helper _ _ _ h => s.helperMchk (agKey x.ag) h x.iter f
  | .seq d n => s.seqFault d n f

/-- An access after pieces of it have been performed: it leaves when all are, its acquire acts, its destinations become
FULL, or MCHK is charged (R65, R176). -/
def State.settleAccess (s : State) (id : Nat) (x : Access) : State :=
  if x.pieces.all (·.done) then
    let s := { s with flight := adel s.flight id }
    let s := if x.acq then s.acquireAct x else s
    let s := if x.bad = 0#64 then s.markDsts x false else s.chargeMchk x
    s.wake (agKey x.ag)
  else { s with flight := aput s.flight id x }

/-- One piece of a load read; none when it meets an error or poison (R176). -/
def State.readPiece (s : State) (x : Access) (p : Piece) : State × Option Nat :=
  let d := keyDie (agKey x.ag)
  match x.space with
  | .loc => s.localGet d (keySlot (agKey x.ag)) p.addr p.len
  | .glob =>
    let s := s.l1Refetch d x.core p.addr
    match s.meetStack d x.core p.addr with
    | .poison => (s, none)
    | .fresh => (s.poisonCore d x.core p.addr, none)
    | .clean => let r := s.coreRead d x.core p.addr p.len p.cls; (r.1, some r.2)
  | .tun => (s, none)

/-- The line of a piece of an access with the streaming hint (R83). -/
def State.streamed (s : State) (x : Access) (p : Piece) : State :=
  match x.space with
  | .glob => if x.stream then s.l1Stream (keyDie (agKey x.ag)) x.core p.addr else s
  | .loc | .tun => s

/-- Pieces of a load performed: of a sequencer's, one that meets trouble stays outstanding and faults (R342). -/
def State.loadPieces (s : State) (x : Access) : List Piece → State × Access
  | [] => (s, x)
  | p :: t =>
    match s.readPiece x p with
    | (s, some v) => State.loadPieces ((s.streamed x p).deliverPiece x p v) (x.finish [p]) t
    | (s, none) => State.loadPieces s ((x.finish [p]).markBad p) t

/-- The data of an MRD return (R347, R348): the rows as they stand between two units, with the STEP_COUNT of that moment; an error
in a row leaves the destinations EMPTY (R176). -/
def State.tunLoad (s : State) (x : Access) (p : Piece) : State × Access :=
  let d := keyDie (agKey x.ag)
  match s.teamOf? (agKey x.ag) with
  | none => (s, x.finish [p])
  | some t =>
    match s.tunMeet d t p.rows with
    | (s, false) => (s, { x.finish [p] with bad := x.act, badAddr := 0#48 })
    | (s, true) =>
      let w := s.width x.ag
      let s := (List.range x.ndst).foldl (fun s j => (lanesOf x.act).foldl (fun s l =>
        let i := j * w + l
        s.wrReg x.ag (x.dst + j) l (s.tunWord d t (p.addr / 64 + i / 16) (i % 16))) s) s
      let n := (t.seq.map (·.stepCount)).getD 0#32
      (x.cnt.toList.foldl (fun s c => s.wrLanes x.ag c ((lanesOf x.act).map fun l => (l, [n]))) s, x.finish [p])

/-- Pieces of a load read: of memory, or of the tun. -/
def State.readPieces (s : State) (x : Access) (sel : List Piece) : State × Access :=
  match x.space with
  | .glob | .loc => s.loadPieces x sel
  | .tun => sel.foldl (fun r p => r.1.tunLoad r.2 p) (s, x)

/-- A sequencer's access that has met trouble stays outstanding, marked with it, until it is performed again; the first such stops
the sequencer (R342, R343). -/
def State.seqTrouble (s : State) (id : Nat) (old x : Access) : State :=
  let s := { s with flight := aput s.flight id { old with bad := x.bad, badAddr := x.badAddr } }
  if s.seqStopped x.ag then s else s.chargeMchk x

/-- An access as it is performed again: what an earlier attempt met is forgotten. -/
def Access.again (x : Access) : Access :=
  match x.ag with
  | .seq _ _ => { x with bad := 0#64, badAddr := 0#48 }
  | .frag _ _ _ _ | .helper _ _ _ _ => x

/-- LOAD DATA RETURNS for lanes of a load (R65, R178). -/
def State.performLoad (s : State) (id : Nat) (x : Access) (lanes : Mask) : State :=
  let sel := (lanesOf lanes).flatMap (pickPiece s.tick x.pieces)
  let sel := if x.chunked then sel else closeOver x.pieces sel 64
  if sel.isEmpty || !sel.all (s.mayPerform x) then s
  else
    let s := if x.chunked then s.draw else s
    let r := s.readPieces x.again sel
    match x.ag with
    | .seq _ _ => if r.2.bad = 0#64 then r.1.settleAccess id r.2 else r.1.seqTrouble id x r.2
    | .frag _ _ _ _ | .helper _ _ _ _ => r.1.settleAccess id r.2

/-- The bytes of a 64-byte block that pieces name. -/
def coversBlock (l : List Piece) (b : Nat) : Bool :=
  (List.range 64).all fun i => l.any fun p => decide (p.addr ≤ 64 * b + i) && decide (64 * b + i < p.addr + p.len)

/-- What a store meets in the block of a piece: through the L1 on a CORE page, at the home slice on another (R170, R176). -/
def State.meetStore (s : State) (x : Access) (p : Piece) : Meet :=
  let d := keyDie (agKey x.ag)
  match x.space with
  | .loc => ((s.team? d (keySlot (agKey x.ag))).map fun t => t.meetLocal p.addr).getD .clean
  | .glob => if p.cls = 0 then s.meetStack d x.core p.addr else s.meetHome d p.addr
  | .tun => .clean

/-- What a piece of a store to local memory replaces is remembered, all of it at once (R354). -/
def State.remembers (s : State) (x : Access) (p : Piece) : State :=
  match x.space with
  | .loc => s.modTeam (keyDie (agKey x.ag)) (keySlot (agKey x.ag)) fun t => { t with seq := t.remember p.addr p.len }
  | .glob | .tun => s

/-- One byte stored. -/
def State.putByte (s : State) (x : Access) (a cls : Nat) (b : Byte) : State :=
  let d := keyDie (agKey x.ag)
  match x.space with
  | .loc => s.modTeam d (keySlot (agKey x.ag)) fun t => t.localPoke a [b]
  | .glob => s.coreWrite d x.core a cls [b]
  | .tun => s

/-- The byte a piece stores at an address. -/
def Piece.byteAt (p : Piece) (a : Nat) : Byte := byteOf p.data (a - p.addr)

/-- Bytes `i` on of a piece stored, `n` of them: where several lanes name them they receive the value of one of those lanes, freely
chosen for the whole piece, since each lane's access is seen whole or not at all (R178). -/
def State.putBytes (s : State) (x : Access) (sel : List Piece) (p : Piece) (i : Nat) : Nat → State
  | 0 => s
  | n + 1 =>
    let a := p.addr + i
    let c := sel.filter fun q => decide (q.addr ≤ a) && decide (a < q.addr + q.len)
    let w := if c.length ≤ 1 then p else ((c)[Config.freeNat (s.tick + p.addr) % c.length]?).getD p
    State.putBytes (s.putByte x a p.cls (w.byteAt a)) x sel p (i + 1) n

/-- A block's poison cleared by a store that covers it whole (R176, R396); an L1 line in error goes, since every byte is written
anew. -/
def State.clearBlock (s : State) (x : Access) (p : Piece) : State :=
  let d := keyDie (agKey x.ag)
  match x.space with
  | .loc => s.clearLocal d (keySlot (agKey x.ag)) p.addr
  | .glob =>
    let s := s.clearStack d p.addr
    if s.l1Bad d x.core p.addr then s.modCore d x.core fun k => { k with l1 := adel k.l1 (p.addr / 64) } else s
  | .tun => s

/-- A block poisoned by an error a store meets (R176). -/
def State.poisonBlock (s : State) (x : Access) (p : Piece) : State :=
  let d := keyDie (agKey x.ag)
  match x.space with
  | .loc => s.poisonLocal d (keySlot (agKey x.ag)) p.addr
  | .glob => if p.cls = 0 then s.poisonCore d x.core p.addr else s.poisonStack d p.addr
  | .tun => s

/-- The undone pieces of a store. -/
def Access.undone (x : Access) : List Piece := x.pieces.filter fun p => !p.done

/-- The pieces that a store's piece stands or falls with: of a wide private access none of whose chunks has been performed in
that lane, all chunks of the lane; else itself (R176, R197). -/
def Access.stands (x : Access) (p : Piece) : List Piece :=
  if x.chunked && !x.pieces.any fun q => q.lane == p.lane && q.done then x.pieces.filter fun q => q.lane == p.lane else [p]

/-- Whether a piece of a store is not performed: its block is in error or poisoned, and is none of the blocks `cov` that the
instruction covers whole (R176). -/
def State.barred (s : State) (x : Access) (cov : List Nat) (p : Piece) : Bool := s.meetStore x p != .clean && !cov.contains (p.addr / 64)

/-- The row of a piece's clean L1 copy in error fetched again (R176). -/
def State.refetch (s : State) (x : Access) (p : Piece) : State :=
  match x.space with
  | .loc | .tun => s
  | .glob => s.l1Refetch (keyDie (agKey x.ag)) x.core p.addr

/-- Pieces of a store performed; `sel` are all that are performed together, and `cov` the blocks that they cover whole (R176, R178). A
lane that meets an error or poison is not performed. -/
def State.storePieces (s : State) (x : Access) (sel : List Piece) (cov : List Nat) : List Piece → State × Access
  | [] => (s, x)
  | p :: t =>
    if !x.pieces.contains p then State.storePieces s x sel cov t
    else
      let s := s.refetch x p
      match (x.stands p).find? fun q => s.barred x cov q with
      | some q =>
        let s := if s.meetStore x q = .fresh then s.poisonBlock x q else s
        State.storePieces s ((x.finish (x.stands p)).markBad q) sel cov t
      | none =>
        let s := if s.meetStore x p = .clean then s else s.clearBlock x p
        State.storePieces (((s.remembers x p).putBytes x sel p 0 p.len).streamed x p) (x.finish [p]) sel cov t

/-- The blocks of pieces that an access covers whole with those it has not performed yet (R176). -/
def Access.covered (x : Access) (l : List Piece) : List Nat := (l.map fun p => p.addr / 64).filter (coversBlock x.undone)

/-- The pieces performed with chosen ones: lanes that name a common byte, and all lanes of a block in error or poisoned
that the instruction covers whole (R176). -/
def State.storeSet (s : State) (x : Access) (sel : List Piece) : List Piece :=
  let undone := x.undone
  let sel := closeOver undone sel 64
  let hard := sel.filter fun p => s.meetStore x p != .clean && coversBlock undone (p.addr / 64)
  undone.filter fun p => sel.contains p || hard.any fun q => q.addr / 64 == p.addr / 64

/-- A sequencer's store performed: an MMA that stands after it in program order reads none of its bytes as they stood before it
(R180, R341). -/
def State.storeBefore (s : State) (d n id : Nat) (l : List Piece) : State :=
  let stored := fun a => l.any fun p => decide (p.addr ≤ a) && decide (a < p.addr + p.len)
  s.modTeam d n fun t =>
    { t with seq := t.seq.map fun q =>
        { q with mmas := q.mmas.map fun x => if x.before.contains id then { x with older := x.older.map (t.patchPlace stored) } else x } }

/-- Lanes of a store in flight are performed (R178, R189). A sequencer's store that meets trouble stays outstanding
(R342). -/
def State.performStore (s : State) (id : Nat) (lanes : Mask) : State :=
  match aget s.flight id with
  | none => s
  | some x =>
    match x.kind with
    | .store =>
      let sel := s.storeSet x ((lanesOf lanes).flatMap (pickPiece s.tick x.pieces))
      if sel.isEmpty || !sel.all (s.mayPerform x) then s
      else
        let r := s.storePieces x.again sel (x.covered sel) sel
        match x.ag with
        | .seq d n =>
          if r.2.bad = 0#64 then (r.1.draw.storeBefore d n id sel).settleAccess id r.2
          else r.1.seqTrouble id x r.2
        | .frag _ _ _ _ | .helper _ _ _ _ => r.1.draw.settleAccess id r.2
    | .load | .rmw _ _ | .cas _ => s

/-- The new value of an atomic (R201); `n` is the width in bits. -/
def atomNew (op : AtomOp) (n old b : Nat) : Nat :=
  let sg := fun (x : Nat) => if x < 2 ^ (n - 1) then (x : Int) else (x : Int) - 2 ^ n
  match op with
  | .add => (old + b) % 2 ^ n
  | .min => if sg old ≤ sg b then old else b
  | .max => if sg b ≤ sg old then old else b
  | .umin => min old b
  | .umax => max old b
  | .and => old &&& b
  | .or => old ||| b
  | .xor => old ^^^ b
  | .exch => b
  | .inc => if b ≤ old then 0 else old + 1
  | .dec => if old = 0 || b < old then b else old - 1
  | .fadd => (f32.add .rne old b).1
  | .fmin => (fminmax false (BitVec.ofNat 32 old) (BitVec.ofNat 32 b)).toNat
  | .fmax => (fminmax true (BitVec.ofNat 32 old) (BitVec.ofNat 32 b)).toNat

/-- What an atomic writes, if anything (R202). -/
def AccKind.result (k : AccKind) (old : Nat) (p : Piece) : Option Nat :=
  match k with
  | .rmw op wide => some (atomNew op (if wide then 64 else 32) old p.data)
  | .cas _ => if old = p.data then some p.data2 else none
  | .load | .store => none

/-- The read of an atomic where it executes: the home slice on a DIE page, L1 on a CORE page, the array (R174). -/
def State.atomRead (s : State) (x : Access) (p : Piece) : State × Option Nat :=
  let d := keyDie (agKey x.ag)
  match x.space with
  | .loc => s.localGet d (keySlot (agKey x.ag)) p.addr p.len
  | .glob =>
    if p.cls = 0 then s.readPiece x p
    else match s.meetStore x p with
      | .poison => (s, none)
      | .fresh => (s.poisonStack d p.addr, none)
      | .clean => (s, some (s.stackRead d p.addr p.len))
  | .tun => (s, none)

/-- The write of an atomic. -/
def State.atomWrite (s : State) (x : Access) (p : Piece) (v : Nat) : State :=
  let d := keyDie (agKey x.ag)
  match x.space with
  | .loc => s.modTeam d (keySlot (agKey x.ag)) fun t => t.localWrite p.addr (bytesOf p.len v)
  | .glob => s.coreWrite d x.core p.addr p.cls (bytesOf p.len v)
  | .tun => s

/-- The value at an atomic's place, read by nobody. -/
def State.atomPeek (s : State) (x : Access) (p : Piece) : Nat :=
  let d := keyDie (agKey x.ag)
  match x.space with
  | .loc => ((s.team? d (keySlot (agKey x.ag))).map fun t => t.localRead p.addr p.len).getD 0
  | .glob => if p.cls = 0 then lineRead (s.l1Line d x.core p.addr p.cls) (p.addr % 64) p.len else s.stackRead d p.addr p.len
  | .tun => 0

/-- Whether a lane of an atomic may be performed: the release of an ACAS holds back only the lanes that write (R203). -/
def State.mayAtom (s : State) (x : Access) (p : Piece) : Bool :=
  s.mayPerform x p &&
  match x.kind with
  | .cas _ => !x.rel || (x.kind.result (s.atomPeek x p) p).isNone || s.flight.all fun e => !x.before.contains e.1
  | .load | .store | .rmw _ _ => true

/-- One lane of an atomic performed as one indivisible step (R174, R202). -/
def State.performAtomic (s : State) (id : Nat) (x : Access) (p : Piece) : State :=
  match s.atomRead x p with
  | (s, none) => s.settleAccess id ((x.finish [p]).markBad p)
  | (s, some old) =>
    let s := match x.kind.result old p with
      | some v => s.atomWrite x p v
      | none => s
    (s.deliverPiece x p old).settleAccess id (x.finish [p])

end Sys2Proof.Machine
end

