-- ==== Sys2Proof/Machine/Barrier.lean ====
section
/-! DEFINITION. Barrier objects in local memory (R207, R208, R211). -/

namespace Sys2Proof.Machine

/-- A barrier object (R207). -/
abbrev BarObj := BitVec 128

/-- EXPECTED (R207). -/
def BarObj.expected (b : BarObj) : Nat := bits b 31 0
/-- ARRIVED (R207). -/
def BarObj.arrived (b : BarObj) : Nat := bits b 63 32
/-- PHASE (R207). -/
def BarObj.phase (b : BarObj) : Word := b.extractLsb' 64 32
/-- ERROR (R207). -/
def BarObj.error (b : BarObj) : Bool := b.getLsbD 96

/-- The fields of a barrier object put back together, its reserved bits 127:99 kept as they are (R207). -/
def barObj (old : BarObj) (arrived : Nat) (phase : Word) (error lastError overshoot : Bool) : BarObj :=
  old.extractLsb' 99 29 ++ BitVec.ofBool overshoot ++ BitVec.ofBool lastError ++ BitVec.ofBool error ++ phase ++
    BitVec.ofNat 32 arrived ++ old.extractLsb' 0 32

/-- An arrival with count `n` and failure bit `err` (R208). -/
def arrival (b : BarObj) (n : Nat) (err : Bool) : BarObj :=
  let e := b.error || err
  let t := b.arrived + n
  if b.expected ≤ t then
    barObj b 0 (b.phase + 1#32) false e (b.getLsbD 98 || decide (b.expected < t))
  else barObj b t b.phase e (b.getLsbD 97) (b.getLsbD 98)

/-- Whether a BWAIT on phase value `v` completes (R211): PHASE - v lies from 1 to 2^31. -/
def phasePassed (b : BarObj) (v : Word) : Bool :=
  decide (1 ≤ (b.phase - v).toNat) && decide ((b.phase - v).toNat ≤ 2 ^ 31)

/-- A BWAIT that completes: an acquire at core scope, and the fragment goes on (R171, R186, R211). -/
def State.passBar (s : State) (ag : Agent) : State :=
  (if s.isPair ag then s.l1Inval (keyDie (agKey ag)) (s.agCore ag) (· != 0) else s).advance ag

/-- The fragments of a group that wait on the object at local address `a` for a phase that it has passed. -/
def Group.passedAt (g : Group) (a : Nat) (b : BarObj) : List Nat :=
  g.frags.filterMap fun e =>
    match e.2.wait with
    | .bar a' v => if a' = a && phasePassed b v then some e.1 else none
    | .run | .join | .get _ | .answer _ | .hjoin => none

/-- Every BWAIT of a team that waits on an object compares again (R211). -/
def State.compareBars (s : State) (d n a : Nat) (b : BarObj) : State :=
  (s.groupsOf d n).foldl (fun s k =>
    (((s.group? k).map fun g => g.passedAt a b).getD []).foldl (fun s e => s.passBar (.frag d n (keyG k) e)) s) s

/-- An arrival on the object at a local address, one atomic step in the array; `false` when it is not performed because
of an error or poison (R208, R396). Waiting BWAITs compare again (R211). -/
def State.arriveAt (s : State) (d n a cnt : Nat) (err : Bool) : State × Bool :=
  match s.localGet d n a 16 with
  | (s, none) => (s, false)
  | (s, some v) =>
    let b := arrival (BitVec.ofNat 128 v) cnt err
    ((s.modTeam d n fun t => t.localWrite a (bytesOf 16 b.toNat)).compareBars d n a b, true)

end Sys2Proof.Machine
end

