-- ==== Sys2Proof/Machine/MemoryOps.lean ====
section
/-! DEFINITION. The memory instructions (R191 to R212), the submission of command records (R216) and work queries
(R223), and the memory events: data returning, atomics at their home, page walks, evictions and deals. -/

namespace Sys2Proof.Machine

/-- Bytes of a width code (R191). -/
def Width.bytes : Width → Nat
  | .w8 => 1
  | .w16 => 2
  | .w32 => 4
  | .w64 => 8
  | .w128 => 16

/-- Data registers of a width code (R191). -/
def Width.regs : Width → Nat
  | .w8 | .w16 | .w32 => 1
  | .w64 => 2
  | .w128 => 4

/-- The class the memory forms count as: MTX in sequencer code for LDL and STL (R340), MEM else. -/
def State.memClass (s : State) : Nat :=
  match s.cur with
  | some (.seq _ _) => 5
  | some (.frag _ _ _ _) | some (.helper _ _ _ _) | none => 2

/-- A memory instruction's effect once the fragment's fences allow it (R205): a sequentially consistent access waits
for every earlier access (R181). -/
def State.withMem (s : State) (ag : Agent) (sc : Bool) (k : State → Fragment → State) : State :=
  match s.front? ag with
  | none => s
  | some f =>
    if s.fenceHeld ag f || (sc && !(s.earlier ag f).isEmpty) then s.stallAt ag .issue
    else k (s.fenceDue ag f) f

/-- An effect that acts as the instruction issues, not as an access in flight: it follows the earlier acquires of its agent
(R181). -/
def State.withNow (s : State) (ag : Agent) (k : State → Fragment → State) : State :=
  s.withMem ag false fun s f => if (s.earlier ag f).any fun e => e.2.acq then s.stallAt ag .issue else k s f

/-- MCHK of a walk charged to an instruction that has destinations `dst` to `dst + n - 1`: nothing of it is performed, they
stay EMPTY, and the agent goes on after it (R293, R312). -/
def State.walkMchk (s : State) (ag : Agent) (dst n : Nat) (act : Mask) (a : Addr) (lanes : Mask) : State :=
  let pc := ((s.front? ag).map Fragment.pc).getD 0#48
  let s := (s.emptyDsts ag ((List.range n).map (dst + ·)) act).advance ag
  s.raise ag { code := 36, addr := a, lanes := lanes, pc := pc }

/-- What follows from the address checks: a wait, a fault, or the effect. -/
def State.afterCheck (ag : Agent) (dst n : Nat) (act : Mask) (c : Checked) (k : State → List (Nat × Nat × Nat × Nat) → State) :
    State :=
  match c with
  | .wait s => s.stallAt ag .issue
  | .bad s code dt a l => s.raiseAt ag code dt a l
  | .mchk s a l => s.walkMchk ag dst n act a l
  | .ok s l => k s l

/-- Whether an ordering releases, acquires or is sequentially consistent (R181). -/
def Ordering.rel : Ordering → Bool
  | .rel | .sc => true
  | .rlx | .acq => false
/-- Whether an ordering acquires. -/
def Ordering.acq : Ordering → Bool
  | .acq | .sc => true
  | .rlx | .rel => false

/-- THE ISSUE OF AN ACCESS: it is in flight, its destinations are EMPTY (R65, R192), its ordering holds back the accesses
it orders (R181), and the fragment goes on. The release of an ACAS holds back its lanes one by one (R203). -/
def State.issueAccess (s : State) (ag : Agent) (x : Access) (o : Ordering) : State :=
  let id := s.fresh
  let x := { x with
    after := Ordering.rel o && x.kind.writes && !x.kind.isCas
    acq := Ordering.acq o && x.kind.reads
    rel := Ordering.rel o && x.kind.writes }
  let s := if o = .sc then s.acquireAct x else s
  let s := ((s.launchAccess ag x).markDsts x true).advance ag
  if o = .sc && x.kind.writes then
    let wide := match x.space with
      | .glob => x.pieces.any fun p => p.cls != 0
      | .loc => s.isPair ag
      | .tun => false
    s.modFront ag fun f => { f with fenceAll := id + 1, fenceInv := f.fenceInv || wide }
  else s

/-- The local limit L of an agent's team (R31). -/
def State.localLimit (s : State) (ag : Agent) : Nat := recL (s.recOf (agKey ag))

/-- The effective global address of a lane (R196). -/
def eaGlobal (hi lo : Word) (off : BitVec 20) : Nat := (addrOfPair hi lo + off.signExtend 48).toNat
/-- The effective local address of a lane (R196). -/
def eaLocal (a : Word) (off : BitVec 20) : Nat := (a + off.signExtend 32).toNat

/-- The number that consecutive source words hold. -/
def wordsVal (x : Nat → Word) (n : Nat) : Nat := ((List.range n).map fun j => (x j).toNat * 2 ^ (32 * j)).sum

/-- A piece of an access at a checked place. -/
def pieceAt (len data data2 : Nat) (c : Nat × Nat × Nat × Nat) : Piece :=
  { lane := c.1, va := c.2.1, addr := c.2.2.1, cls := c.2.2.2, len := len, reg := 0, data := data, data2 := data2 }

/-- An access of one piece per lane to global or local memory: its addresses are checked, then it issues (R193, R196).
`data` gives what each lane stores. -/
def State.oneEach (s : State) (ag : Agent) (f : Fragment) (kind : AccKind) (space : Space) (ea : List (Nat × Nat))
    (len : Nat) (need : Need) (dst ndst : Nat) (act : Mask) (uniform : Bool) (o : Ordering)
    (data data2 : Nat → Nat) (collide : Bool) (str : Bool := false) : State :=
  let d := keyDie (agKey ag)
  let chk := match space with
    | .glob => s.checkGlobal d (s.agCore ag) (s.ptagOf (agKey ag)) ea len need
    | .loc | .tun => checkLocal s (s.localLimit ag) ea len need
  State.afterCheck ag dst ndst act chk fun s l =>
    let same := l.filter fun c => (l.filter fun e => e.2.1 == c.2.1).length > 1
    if collide && !same.isEmpty then
      s.raiseAt ag 4 0 (BitVec.ofNat 48 ((same.head?.map (·.2.1)).getD 0)) (maskOf (same.map (·.1)))
    else
      s.issueAccess ag
        { s.newAccess ag f kind space with
          pieces := l.map fun c => pieceAt len (data c.1) (data2 c.1) c
          dst := dst, ndst := ndst, act := act, uniform := uniform, stream := str } o

/-- LD (R195, R196). -/
def execLd (d : RegNo) (a : Src) (off : BitVec 20) (w : Width) (o : Ordering) (str : Bool) (g : Guard) (s : State) :
    Host.Outcome State Fault Refusal :=
  let sp : Spec := { cls := 2, guard := g, srcs := [(a, 2)], dsts := [(d, Width.regs w)] }
  issueWith s sp fun s ag act =>
    let x := s.vals ag sp.srcs
    s.withMem ag (o == .sc) fun s f =>
      s.oneEach ag f .load .glob ((lanesOf act).map fun l => (l, eaGlobal (x 0 1 l) (x 0 0 l) off)) (Width.bytes w) .read
        d.toNat (Width.regs w) act false o (fun _ => 0) (fun _ => 0) false str

/-- ST (R195, R196). -/
def execSt (d a : Src) (off : BitVec 20) (w : Width) (o : Ordering) (str : Bool) (g : Guard) (s : State) :
    Host.Outcome State Fault Refusal :=
  let sp : Spec := { cls := 2, guard := g, srcs := [(a, 2), (d, Width.regs w)] }
  issueWith s sp fun s ag act =>
    let x := s.vals ag sp.srcs
    s.withMem ag (o == .sc) fun s f =>
      s.oneEach ag f .store .glob ((lanesOf act).map fun l => (l, eaGlobal (x 0 1 l) (x 0 0 l) off)) (Width.bytes w) .write
        0 0 act false o (fun l => wordsVal (fun j => x 1 j l) (Width.regs w)) (fun _ => 0) false str

/-- LDL (R195, R196); in sequencer code one value (R340). -/
def execLdl (d : RegNo) (a : Src) (off : BitVec 20) (w : Width) (o : Ordering) (g : Guard) (s : State) :
    Host.Outcome State Fault Refusal :=
  let sp : Spec := { cls := s.memClass, guard := g, srcs := [(a, 1)], dsts := [(d, Width.regs w)], seq := true }
  issueWith s sp fun s ag act =>
    let x := s.vals ag sp.srcs
    s.withMem ag (o == .sc) fun s f =>
      s.oneEach ag f .load .loc ((lanesOf act).map fun l => (l, eaLocal (x 0 0 l) off)) (Width.bytes w) .read
        d.toNat (Width.regs w) act false o (fun _ => 0) (fun _ => 0) false

/-- STL (R195, R196); in sequencer code one value (R340). -/
def execStl (d a : Src) (off : BitVec 20) (w : Width) (o : Ordering) (g : Guard) (s : State) :
    Host.Outcome State Fault Refusal :=
  let sp : Spec := { cls := s.memClass, guard := g, srcs := [(a, 1), (d, Width.regs w)], seq := true }
  issueWith s sp fun s ag act =>
    let x := s.vals ag sp.srcs
    s.withMem ag (o == .sc) fun s f =>
      s.oneEach ag f .store .loc ((lanesOf act).map fun l => (l, eaLocal (x 0 0 l) off)) (Width.bytes w) .write
        0 0 act false o (fun l => wordsVal (fun j => x 1 j l) (Width.regs w)) (fun _ => 0) false

/-- The global address of byte `o` of a lane's private area (R38). An address has 48 bits; R38 and R197 do not say what follows where
the sum passes 2^48: it wraps here (log 73). -/
def privAddr (base w o l : Nat) : Nat := (base + o / 4 * 4 * w + 4 * l + o % 4) % 2 ^ 48

/-- The private offset of a lane (R197). -/
def privOff (hi lo : Word) (off : BitVec 20) : Nat := eaGlobal hi lo off

/-- The checks of one lane's private access: alignment and size of its offset, then the global page of each of its chunks (R168,
R193). -/
def State.chkPrivate (s : State) (ag : Agent) (len : Nat) (need : Need) (x : Nat × Nat) : List (Nat × Nat × Nat × Chk) :=
  match chkLocal (recP (s.recOf (agKey ag))) len need x.2 with
  | .ok _ _ =>
    let base := (((s.group? (agKey ag)).map (·.privBase)).getD 0#48).toNat
    let chunk := min len 4
    (List.range (len / chunk)).map fun i =>
      let a := privAddr base (s.width ag) (x.2 + 4 * i) x.1
      (x.1, a, a, s.chkIssue (keyDie (agKey ag)) (s.agCore ag) (s.ptagOf (agKey ag)) a chunk need)
  | c => [(x.1, x.2, x.2, c)]

/-- The checks of a private access, lane by lane (R166, R168, R193). -/
def State.checkPrivate (s : State) (ag : Agent) (offs : List (Nat × Nat)) (len : Nat) (need : Need) : Checked :=
  s.decideAll (keyDie (agKey ag)) (s.ptagOf (agKey ag)) (offs.flatMap (s.chkPrivate ag len need))

/-- Chunk `i` of a lane, in the order the check lists them (R197). -/
def chunkIndex (l : List (Nat × Nat × Nat × Nat)) (c : Nat × Nat × Nat × Nat) : Nat :=
  ((l.filter fun e => e.1 == c.1).findIdx? (· == c)).getD 0

/-- LDP and STP: chunk by chunk (R197). -/
def State.privAccess (s : State) (ag : Agent) (f : Fragment) (kind : AccKind) (offs : List (Nat × Nat)) (len : Nat)
    (need : Need) (dst ndst : Nat) (act : Mask) (data : Nat → Nat) (str : Bool) : State :=
  State.afterCheck ag dst ndst act (s.checkPrivate ag offs len need) fun s l =>
    let chunk := min len 4
    s.issueAccess ag
      { s.newAccess ag f kind .glob with
        pieces := l.map fun c =>
          let i := chunkIndex l c
          { pieceAt chunk (data c.1 / 2 ^ (32 * i) % 2 ^ (8 * chunk)) 0 c with reg := i }
        dst := dst, ndst := ndst, act := act, chunked := true, stream := str } .rlx

/-- LDP (R195, R197). -/
def execLdp (d : RegNo) (a : Src) (off : BitVec 20) (w : Width) (str : Bool) (g : Guard) (s : State) :
    Host.Outcome State Fault Refusal :=
  let sp : Spec := { cls := 2, guard := g, srcs := [(a, 2)], dsts := [(d, Width.regs w)], hlp := false }
  issueWith s sp fun s ag act =>
    let x := s.vals ag sp.srcs
    s.withMem ag false fun s f =>
      s.privAccess ag f .load ((lanesOf act).map fun l => (l, privOff (x 0 1 l) (x 0 0 l) off)) (Width.bytes w) .read
        d.toNat (Width.regs w) act (fun _ => 0) str

/-- STP (R195, R197). -/
def execStp (d a : Src) (off : BitVec 20) (w : Width) (str : Bool) (g : Guard) (s : State) :
    Host.Outcome State Fault Refusal :=
  let sp : Spec := { cls := 2, guard := g, srcs := [(a, 2), (d, Width.regs w)], hlp := false }
  issueWith s sp fun s ag act =>
    let x := s.vals ag sp.srcs
    s.withMem ag false fun s f =>
      s.privAccess ag f .store ((lanesOf act).map fun l => (l, privOff (x 0 1 l) (x 0 0 l) off)) (Width.bytes w) .write
        0 0 act (fun l => wordsVal (fun j => x 1 j l) (Width.regs w)) str

/-- LDU (R198): one access, at the lowest active lane's address, for every active lane. -/
def execLdu (d : RegNo) (a : Src) (off : BitVec 20) (w : Width) (o : Ordering) (str : Bool) (g : Guard) (s : State) :
    Host.Outcome State Fault Refusal :=
  let sp : Spec := { cls := 2, guard := g, srcs := [(a, 2)], dsts := [(d, Width.regs w)], lone := [0] }
  issueWith s sp fun s ag act =>
    let x := s.vals ag sp.srcs
    let l := lowLane act
    s.withMem ag (o == .sc) fun s f =>
      s.oneEach ag f .load .glob [(l, eaGlobal (x 0 1 l) (x 0 0 l) off)] (Width.bytes w) .read
        d.toNat (Width.regs w) act true o (fun _ => 0) (fun _ => 0) false str

/-- One lane of a prefetch (R199): a line filled into L1, or its sector into the L2 alone, or nothing where a check fails; an error met is
reported. It fetches nothing of a row under test or a pseudo-channel under repair (R383, R386). -/
def State.prefLane (s : State) (d c : Nat) (ptag : BitVec 12) (l2 : Bool) (va : Nat) : State :=
  if s.xlateBusy d ptag va then s
  else match s.chkNow d ptag va 1 .read with
  | .ok p cls =>
    if s.coreBusy d c p false then s
    else match s.meetHome d p with
    | .poison => s
    | .fresh => s.reportHome d p
    | .clean => if l2 then s.l2Fill d p else s.l1Put d c p (s.l1Line d c p cls)
  | .mchk a => if s.meetHome d a = .fresh then s.reportHome d a else s
  | .bad _ _ | .miss => s

/-- PREF (R199). A lane whose address register or guard is in error is dropped, the error reported: R199 has PREF raise only ILLOP and
UNFILLED where R382 has a register in error raise MCHK (log 71). -/
def execPref (a : Src) (off : BitVec 20) (l2 : Bool) (g : Guard) (s : State) : Host.Outcome State Fault Refusal :=
  let sp : Spec := { cls := 2, guard := g, srcs := [(a, 2)], ownErr := true }
  issueWith s sp fun s ag act =>
    let x := s.vals ag sp.srcs
    (((lanesOf act).filter fun l => !s.laneBad ag sp l).foldl (fun s l =>
      s.prefLane (keyDie (agKey ag)) (s.agCore ag) (s.ptagOf (agKey ag)) l2 (eaGlobal (x 0 1 l) (x 0 0 l) off))
      (s.meetRegs ag sp act)).advance ag

/-- The addresses of an atomic's lanes (R200). -/
def atomEas (x : Vals) (loc : Bool) (act : Mask) : List (Nat × Nat) :=
  (lanesOf act).map fun l => (l, if loc then (x 0 0 l).toNat else eaGlobal (x 0 1 l) (x 0 0 l) 0#20)

/-- Whether lanes of the agent may collide: LANECOLL is never raised in a helper (R175, R321). -/
def collides (ag : Agent) : Bool :=
  match ag with
  | .helper _ _ _ _ => false
  | .frag _ _ _ _ | .seq _ _ => true

/-- The issue of ATOM, ACAS and RED (R200 to R204): `n` registers of operand, `d` none for RED. -/
def atomIssue (sp : Spec) (kind : AccKind) (loc : Bool) (n dst ndst : Nat) (o : Ordering) (s : State) :
    Host.Outcome State Fault Refusal :=
  issueWith s sp fun s ag act =>
    let x := s.vals ag sp.srcs
    s.withMem ag (o == .sc) fun s f =>
      s.oneEach ag f kind (if loc then .loc else .glob) (atomEas x loc act) (4 * n) .both dst ndst act false o
        (fun l => wordsVal (fun j => x 1 j l) n) (fun l => wordsVal (fun j => x 2 j l) n) (collides ag)

/-- ATOM (R200 to R204). -/
def execAtom (d : RegNo) (a b : Src) (op : AtomOp) (wide loc : Bool) (o : Ordering) (g : Guard) (s : State) :
    Host.Outcome State Fault Refusal :=
  let n := if wide then 2 else 1
  atomIssue { cls := 2, guard := g, srcs := [(a, if loc then 1 else 2), (b, n)], dsts := [(d, n)] } (.rmw op wide) loc n
    d.toNat n o s

/-- ACAS (R200 to R204). -/
def execAcas (d : RegNo) (a b c : Src) (wide loc : Bool) (o : Ordering) (g : Guard) (s : State) :
    Host.Outcome State Fault Refusal :=
  let n := if wide then 2 else 1
  atomIssue { cls := 2, guard := g, srcs := [(a, if loc then 1 else 2), (b, n), (c, n)], dsts := [(d, n)] } (.cas wide) loc n
    d.toNat n o s

/-- RED (R200 to R204). -/
def execRed (a b : Src) (op : AtomOp) (wide loc : Bool) (o : Ordering) (g : Guard) (s : State) :
    Host.Outcome State Fault Refusal :=
  let n := if wide then 2 else 1
  atomIssue { cls := 2, guard := g, srcs := [(a, if loc then 1 else 2), (b, n)] } (.rmw op wide) loc n 0 0 o s

/-- A fence of a fragment (R181, R205): what is in flight holds back later memory, queue and engine instructions. -/
def Fragment.fence (f : Fragment) (k : FenceKind) (now : Nat) (wide : Bool) : Fragment :=
  match k with
  | .acq => { f with fenceRd := now, fenceInv := f.fenceInv || wide }
  | .rel => { f with fenceAll := now }
  | .ar | .sc => { f with fenceAll := now, fenceInv := f.fenceInv || wide }

/-- FENCE (R205). -/
def execFence (k : FenceKind) (sc : Scope) (g : Guard) (s : State) : Host.Outcome State Fault Refusal :=
  issueWith s { cls := 2, guard := g } fun s ag _ =>
    let wide := sc == .die || s.isPair ag
    (s.modFront ag fun f => f.fence k s.fresh wide).advance ag

/-- The operands of BINIT, BARV and BWAIT: A and B of the lowest active lane, the object's address checked (R209); other lanes are not
read (log 70). -/
def barOp (a b : Src) (g : Guard) (s : State) (n : Need) (k : State → Agent → Fragment → Mask → Nat → Word → State) :
    Host.Outcome State Fault Refusal :=
  let sp : Spec := { cls := 2, guard := g, srcs := [(a, 1), (b, 1)], hlp := false, lone := [0, 1] }
  issueWith s sp fun s ag act =>
    let x := s.vals ag sp.srcs
    let l := lowLane act
    s.withNow ag fun s f =>
      State.afterCheck ag 0 0 act (checkLocal s (s.localLimit ag) [(l, (x 0 0 l).toNat)] 16 n) fun s _ =>
        k s ag f act (x 0 0 l).toNat (x 1 0 l)

/-- BINIT (R210): one 128-bit store. -/
def execBinit (a b : Src) (g : Guard) (s : State) : Host.Outcome State Fault Refusal :=
  barOp a b g s .write fun s ag f act addr v =>
    s.issueAccess ag
      { s.newAccess ag f .store .loc with
        pieces := [pieceAt 16 v.toNat 0 (lowLane act, addr, addr, 0)], act := act, uniform := true } .rlx

/-- BARV (R210): a release of the earlier accesses, which it waits for, then the arrival. -/
def execBarv (a b : Src) (g : Guard) (s : State) : Host.Outcome State Fault Refusal :=
  barOp a b g s .both fun s ag f act addr v =>
    if !(s.earlier ag f).isEmpty || s.rangeBusy (keyDie (agKey ag)) (keySlot (agKey ag)) addr 16 then s.stallAt ag .issue
    else
      let s := s.advance ag
      match s.arriveAt (keyDie (agKey ag)) (keySlot (agKey ag)) addr v.toNat false with
      | (s, true) => s
      | (s, false) => s.groupFault (agKey ag)
          { code := 36, addr := BitVec.ofNat 48 addr, lanes := act, pc := f.pc }

/-- BWAIT (R211): it compares as it issues; where the phase has not passed it waits, and every arrival on the object compares
again. Where its read meets an error, R396 has MCHK charged as for an LDL and R211 has it not complete: the model leaves the fragment at
the BWAIT, to issue again once the group goes on (log 72). -/
def execBwait (a b : Src) (g : Guard) (s : State) : Host.Outcome State Fault Refusal :=
  barOp a b g s .read fun s ag f act addr v =>
    let probe := pieceAt 16 0 0 (0, addr, addr, 0)
    if ((s.earlier ag f).any fun e => e.2.space == .loc && e.2.pieces.any fun p => !p.done && p.meets probe) ||
        s.rangeBusy (keyDie (agKey ag)) (keySlot (agKey ag)) addr 16 then
      s.stallAt ag .issue
    else
      match s.localGet (keyDie (agKey ag)) (keySlot (agKey ag)) addr 16 with
      | (s, none) => s.groupFault (agKey ag)
          { code := 36, addr := BitVec.ofNat 48 addr, lanes := act, pc := f.pc }
      | (s, some o) =>
        if phasePassed (BitVec.ofNat 128 o) v then s.passBar ag
        else if s.preemptAsked (agKey ag) then s.modFront ag Fragment.stopHere
        else s.modFront ag fun f => { f with wait := .bar addr v, stall := .barrier }

/-- Distinct values in their order. -/
def distinct : List Nat → List Nat
  | [] => []
  | x :: t => x :: (distinct t).filter (· != x)

/-- An async counter of a group (R71). -/
def Group.counter (g : Group) (k : Nat) : Nat := (sget 0#16 g.ac k).toNat
/-- An async counter raised. -/
def Group.raise (g : Group) (k : Nat) : Group := { g with ac := sset 0#16 g.ac k (BitVec.ofNat 16 (g.counter k + 1)) }
/-- An async counter lowered. -/
def Group.lower (g : Group) (k : Nat) : Group := { g with ac := sset 0#16 g.ac k (BitVec.ofNat 16 (g.counter k - 1)) }

/-- CSUB (R216): a release of the earlier accesses, which it waits for; the counter rises and the roots go to the
engine. -/
def execCsub (k : BitVec 3) (a : Src) (g : Guard) (s : State) : Host.Outcome State Fault Refusal :=
  let sp : Spec := { cls := 2, guard := g, srcs := [(a, 1)], hlp := false }
  issueWith s sp fun s ag act =>
    let x := s.vals ag sp.srcs
    let key := agKey ag
    s.withMem ag false fun s f =>
      State.afterCheck ag 0 0 act (checkLocal s (s.localLimit ag) ((lanesOf act).map fun l => (l, (x 0 0 l).toNat)) 64 .read) fun s l =>
        let c := s.agCore ag
        match s.group? key with
        | none => s
        | some gr =>
          if !(s.earlier ag f).isEmpty || 16 ≤ (s.core (keyDie key) c).subs.length || 65535 ≤ gr.counter k.toNat then
            s.stallAt ag .issue
          else
            let sub : Submission :=
              { die := keyDie key, slot := keySlot key, g := keyG key, uid := gr.uid, k := k.toNat
                ready := (distinct (l.map (·.2.1))).map fun a => (a, true), running := [] }
            let s := s.modGroup key fun g => g.raise k.toNat
            let s := s.modCore (keyDie key) c fun y => { y with subs := aput y.subs s.fresh sub }
            { s with fresh := s.fresh + 1 }.advance ag

/-- Whether e14 or e15 is a source of another fragment's queue instruction that waits for its answer: a WQRY, which writes them, waits
too (R266). -/
def State.workHeld (s : State) (ag : Agent) : Bool :=
  s.pends.any fun e => e.2.key == agKey ag && e.2.ag != ag && (e.2.srcs.contains 654 || e.2.srcs.contains 655)

/-- WQRY (R223): the counter rises, e14 and e15 are EMPTY until the answer, and the query goes to the distributor. -/
def execWqry (k : BitVec 3) (a : Src) (g : Guard) (s : State) : Host.Outcome State Fault Refusal :=
  let sp : Spec := { cls := 2, guard := g, srcs := [(a, 1)], hlp := false, lone := [0] }
  issueWith s sp fun s ag act =>
    let x := s.vals ag sp.srcs
    let key := agKey ag
    let l := lowLane act
    s.withMem ag false fun s f =>
      let addr := (x 0 0 l).toNat
      State.afterCheck ag 0 0 act (checkLocal s (s.localLimit ag) [(l, addr)] 8 .write) fun s _ =>
        if 65535 ≤ ((s.group? key).map fun gr => gr.counter k.toNat).getD 0 || s.workHeld ag then s.stallAt ag .issue
        else
          let s := s.modGroup key fun gr => { gr.raise k.toNat with wq := gr.wq ++ [(k.toNat, addr, f.pc, act)] }
          (s.modDie (keyDie key) fun y => { y with queries := y.queries ++ [(key, none)] }).advance ag

/-- LOAD_DATA_RETURN: data of lanes of a load returns (R65, R178). -/
def execLoadDataReturn (id : Nat) (lanes : Mask) (s : State) : Host.Outcome State Fault Refusal :=
  match aget s.flight id with
  | none => .next s
  | some x => if x.kind = .load then .next (s.performLoad id x lanes) else .next s

/-- ATOMIC_AT_HOME_SLICE: one lane of an atomic is performed where it executes (R174, R202). -/
def execAtomicAtHomeSlice (id lane : Nat) (s : State) : Host.Outcome State Fault Refusal :=
  match aget s.flight id with
  | none => .next s
  | some x =>
    match x.pieces.find? fun p => p.lane == lane && !p.done with
    | none => .next s
    | some p =>
      if x.kind.reads && x.kind.writes && s.mayAtom x p then .next (s.performAtomic id x p) else .next s

/-- L2_EVICTION (R169); a line in a row under test or a pseudo-channel under repair waits (R383, R386). -/
def execL2Eviction (die line : Nat) (s : State) : Host.Outcome State Fault Refusal :=
  if [0, 1, 2, 3].any fun i => s.stackBusy die (line * 256 + 64 * i) then .next s else .next (s.l2Evict die line)

/-- The key of the page that a leaf found for the 64 KiB page `key` maps (R312). -/
def TlbEntry.pageOf (e : TlbEntry) (key : Nat) : Nat := key / (pageSize e.level / 65536) * (pageSize e.level / 65536)

/-- PAGE_WALK_COMPLETE: a walk under way ends; its translation is cached, or its failure waits to be charged (R311,
R312). An error that it meets in a table is poisoned, tested and reported (R176). The oldest page that waits takes the walker. -/
def execPageWalkComplete (die ptag page : Nat) (s : State) : Host.Outcome State Fault Refusal :=
  let key := ptag * 2 ^ 32 + page
  if !(s.die die).walks.contains key || s.walkBusy die (BitVec.ofNat 12 ptag) (page * 65536) then .next s
  else
    let s := s.modDie die fun x =>
      { x with
        walks := match x.walkWait with
          | w :: _ => nsInsert (nsErase x.walks key) w
          | [] => nsErase x.walks key
        walkWait := x.walkWait.tail }
    match s.walk die (BitVec.ofNat 12 ptag) (page * 65536) with
    | .ok e => .next ((s.draw.modDie die fun x => { x with tlb := tlbPut Config.dieTlb s.tick x.tlb (e.pageOf key) e }).wakeDie die)
    | .fail f =>
      let s := if f.mchk then s.metHome die f.addr else s
      .next ((s.modDie die fun x => { x with walkFails := aput x.walkFails key f }).wakeDie die)

/-- The order in which queries that reach the distributor in one clock are dealt (R226): logical core, team slot,
group. -/
def State.queryRank (s : State) (d k : Nat) : Nat :=
  (s.die d).logCore (((s.group? k).map (·.core)).getD 0) * 2 ^ 20 + k % (Config.nSlots * 16)

/-- A query reaches its die's distributor: of a group the oldest that has not, and no second one in the same clock (R224,
R226). -/
def State.reach (s : State) (d i : Nat) : State :=
  let l := (s.die d).queries
  match l[i]? with
  | some (k, none) =>
    if (l.take i).any (fun e => e.1 == k && e.2.isNone) || l.any (fun e => e.1 == k && e.2 == some s.clock) then s
    else s.modDie d fun x => { x with queries := x.queries.set i (k, some s.clock) }
  | some (_, some _) | none => s

/-- The query dealt next: in the order the queries reached the distributor, those of one clock by rank, once that clock has
passed (R58, R226). -/
def State.nextQuery (s : State) (d : Nat) : Option (Nat × Nat) :=
  (s.die d).queries.foldl (fun b e =>
    match e.2 with
    | none => b
    | some c =>
      if s.clock ≤ c then b
      else match b with
        | none => some (e.1, c)
        | some (m, cm) =>
          if c < cm || (c = cm && s.queryRank d e.1 < s.queryRank d m) then some (e.1, c) else some (m, cm)) none

/-- The answer a share's distributor gives to its next query (R58), and the next item after it. -/
def dealItem (x : Share) : (Word × Word) × Nat :=
  let rx := bits x.recd 367 352
  let ry := bits x.recd 383 368
  if x.workNext < rx * ry then ((BitVec.ofNat 32 (x.workNext % rx), BitVec.ofNat 32 (x.workNext / rx)), x.workNext + 1)
  else ((0xFFFFFFFF#32, 0xFFFFFFFF#32), x.workNext)

/-- WORK_DEAL: the distributor deals the next item to a query, and the answer is written (R58, R59, R223, R224), once
the row it goes to is not under test (R383). -/
def execWorkDeal (die : Nat) (s : State) : Host.Outcome State Fault Refusal :=
  match s.nextQuery die with
  | none => .next s
  | some (key, at_) =>
    if ((s.group? key).bind fun g => g.wq.head?.map fun w => s.rangeBusy die (keySlot key) w.2.1 8).getD false then .next s else
    let s := s.modDie die fun y => { y with queries := y.queries.erase (key, some at_) }
    match s.group? key, s.teamOf? key with
    | some g, some t =>
      match g.wq with
      | [] => .next s
      | (k, addr, pc, act) :: rest =>
        let r := ((aget (s.die die).shares t.share).map dealItem).getD ((0xFFFFFFFF#32, 0xFFFFFFFF#32), 0)
        let s := s.modDie die fun y => { y with shares := amod y.shares t.share fun x => { x with workNext := r.2 } }
        let w := s.localSet die (keySlot key) addr (bytesOf 8 (r.1.1.toNat + r.1.2.toNat * 2 ^ 32))
        let s := w.1.modGroup key fun g => { g.lower k with workX := r.1.1, workY := r.1.2, wq := rest }
        let s := if w.2 then s
                 else s.groupFault key { code := 36, addr := BitVec.ofNat 48 addr, pc := pc, lanes := act }
        .next (s.wake key)
    | _, _ => .next s

end Sys2Proof.Machine
end

