-- ==== Sys2Proof/Machine/Queue.lean ====
section
/-! DEFINITION. The queue and name instructions as a group or helper issues them (R265 to R287), up to the request they send;
the answers come in Port.lean. -/

namespace Sys2Proof.Machine

/-- Bytes of a size code (R269). -/
def SizeCode.bytes : SizeCode → Nat
  | .s16 => 16
  | .s32 => 32
  | .s64 => 64
  | .s128 => 128
  | .s256 => 256

/-- The code of an element size (R229, R269). -/
def SizeCode.code : SizeCode → BitVec 3
  | .s16 => 0#3
  | .s32 => 1#3
  | .s64 => 2#3
  | .s128 => 3#3
  | .s256 => 4#3

/-- A result word (R271). -/
def resultWord (status handle count : Nat) : Word := BitVec.ofNat 32 (status * 2 ^ 28 + handle * 2 ^ 24 + count % 65536)

/-- HANDLE of a reservation word (R271). -/
def handleOf (w : Word) : Nat := bits w 25 24

/-- The launch record of the agent that is about to issue. -/
def State.curRec (s : State) : BitVec 1024 := (s.cur.map fun ag => s.recOf (agKey ag)).getD 0#1024

/-- The v registers an agent may name: below Nv, or a helper's own (R60, R320). -/
def State.vLimit (s : State) : Nat :=
  match s.cur with
  | some (.helper _ _ _ _) => max 32 (recNv s.curRec)
  | some (.frag _ _ _ _) | some (.seq _ _) | none => recNv s.curRec

/-- The base of a register element (R270). -/
def State.elemBase (s : State) (x : RegNo) (z : SizeCode) : Bool :=
  decide (x.toNat < 256) && x.toNat % 4 == 0 && decide (x.toNat + SizeCode.bytes z / 4 ≤ s.vLimit)

/-- The issue of a queue instruction; of the sources named `lone`, qids, words, counts, addresses and targets, only the lowest
active lane is read (R265). -/
def queSpec (g : Guard) (srcs : List (Src × Nat)) (dsts : List (RegNo × Nat)) (hlp : Bool) (lone : List Nat := [0]) : Spec :=
  { cls := 3, guard := g, srcs := srcs, dsts := dsts, hlp := hlp, lone := lone }

/-- Words written to consecutive destination registers in every active lane (R62). -/
def State.putResult (s : State) (ag : Agent) (d : RegNo) (act : Mask) (w : List Word) : State :=
  s.wrLanes ag d.toNat ((lanesOf act).map fun l => (l, w))

/-- QFAULT at an agent's current instruction (R232, R267). -/
def State.qfault (s : State) (ag : Agent) (act : Mask) (cause : Nat) (q : BitVec 32) : State :=
  s.raise ag { code := 35, cause := cause, detail := q, lanes := act, pc := ((s.front? ag).map Fragment.pc).getD 0#48 }

/-- What sends an agent's requests: its group (R241). -/
def State.senderOf (s : State) (ag : Agent) : Sender := .group (agKey ag) (s.agUid ag) ag

/-- Whether a further request of the agent's stream to a qid may be sent (R241). -/
def State.agRoom (s : State) (ag : Agent) (q : BitVec 32) : Bool := s.streamRoom (s.senderOf ag) (s.ptagOf (agKey ag)) q

/-- A request sent by an instruction, which then waits at issue for its answer (R266, R268). -/
def State.request (s : State) (ag : Agent) (q : BitVec 32) (h : QHome) (gen : BitVec 6) (a : Ask) (p : Pend)
    (w : Nat → Wait) : State :=
  if !s.agRoom ag q then s.stallAt ag .issue
  else
    let k := agKey ag
    let r := s.post (s.senderOf ag) (keyDie k) (s.ptagOf k) q h gen a none
    ({ r.1 with pends := aput r.1.pends r.2 p }).modFront ag fun f => { f with wait := w r.2, stall := .none }

/-- The data a waiting instruction keeps. -/
def State.newPend (_s : State) (ag : Agent) (f : Fragment) (form : Nat) (act : Mask) (d : RegNo) (srcs : List (Src × Nat)) : Pend :=
  { form := form, key := agKey ag, ag := ag, pc := f.pc, act := act, d := d, srcs := (opRegs srcs).map (·.1) }

/-- A queue instruction's effect once fences allow it (R205); a put waits for the agent's earlier accesses, which it
releases (R268). -/
def State.withQue (s : State) (ag : Agent) (rel : Bool) (k : State → Fragment → State) : State :=
  s.withMem ag false fun s f => if rel && !(s.earlier ag f).isEmpty then s.stallAt ag .issue else k s f

/-- An instruction that names a qid: KIND 0b11 is ILLOP at issue (R227). -/
def State.withQid (s : State) (ag : Agent) (act : Mask) (q : BitVec 32) (k : State → State) : State :=
  if qidKind q = 3 then s.illop ag act else k s

/-- Translation of a qid for an agent's instruction: a failed check is QFAULT (R230). A read of the table entry waits for a test of
its row, and an error that it meets is reported (R382, R383). -/
def State.withHome (s : State) (ag : Agent) (act : Mask) (q : BitVec 32) (r : Right) (kinds : List Nat)
    (k : QHome → BitVec 6 → State) : State :=
  let d := keyDie (agKey ag)
  let t := s.ptagOf (agKey ag)
  if qidKind q < 2 && s.qBusy d t (qidEntry q) then s.stallAt ag .issue
  else match s.transQ d t q r true kinds with
    | .error c => (if c = 1 then s.qMet d t (qidEntry q) else s).qfault ag act c q
    | .ok (h, gen) => k h gen

/-- The number of reservation records an agent's group has open or asked for (R272). -/
def State.resvBusy (s : State) (k : Nat) : Nat :=
  (((s.group? k).map fun g => g.resv.length).getD 0) + (s.pends.filter fun e => e.2.key == k && e.2.form == 0).length

/-- QRES (R273). -/
def execQres (d : RegNo) (a b : Src) (g : Guard) (s : State) : Host.Outcome State Fault Refusal :=
  let sp := queSpec g [(a, 1), (b, 1)] [(d, 2)] false [0, 1]
  issueWith s sp fun s ag act =>
    let x := s.vals ag sp.srcs
    let l := lowLane act
    let q := x 0 0 l
    let n := bits (x 1 0 l) 15 0
    s.withQid ag act q fun s => s.withQue ag false fun s f =>
      if n = 0 then (s.putResult ag d act [0#32, 0#32]).advance ag
      else if 4 ≤ s.resvBusy (agKey ag) then (s.putResult ag d act [resultWord 3 0 0, 0#32]).advance ag
      else s.withHome ag act q .produce [0] fun h gen =>
        s.request ag q h gen (.reserve n) (s.newPend ag f 0 act d sp.srcs) .answer

/-- An open record of an agent's group by handle (R272). -/
def State.resvOf (s : State) (ag : Agent) (h : Nat) : Option Resv := (s.group? (agKey ag)).bind fun g => aget g.resv h

/-- Whether another fragment's instruction on the same record awaits its answer (log 16). -/
def State.resvHeld (s : State) (ag : Agent) (h : Nat) : Bool :=
  s.pends.any fun e => e.2.key == agKey ag && (e.2.form == 1 || e.2.form == 3) && e.2.handle == h

/-- The bytes of a register element in a lane (R270). -/
def elemBytes (x : Vals) (op n l : Nat) : List Byte :=
  (List.range n).flatMap fun j => bytesOf 4 (x op j l).toNat

/-- The bytes of an element in local memory, read 16 bytes at a time; none where an error or poison is met. The whole run of a
`.mem` put is read in the step that sends it: R274 lets stores made while the put waits be seen in part, and this model takes
none of them in (log 57). -/
def State.localElem (s : State) (d n a : Nat) : Nat → State × Option (List Byte)
  | 0 => (s, some [])
  | m + 1 =>
    match s.localGet d n a 16 with
    | (s, none) => (s, none)
    | (s, some v) =>
      match State.localElem s d n (a + 16) m with
      | (s, none) => (s, none)
      | (s, some t) => (s, some (bytesOf 16 v ++ t))

/-- `k` elements of `z` bytes in local memory from `a` on; where one cannot be read, its address, which the MCHK names: R288 does
not say which address it is (log 57). -/
def State.localElems (s : State) (d n a z : Nat) (tag : BitVec 16) : Nat → State × Except Nat (List Elem)
  | 0 => (s, .ok [])
  | k + 1 =>
    match s.localElem d n a (z / 16) with
    | (s, none) => (s, .error a)
    | (s, some b) =>
      match State.localElems s d n (a + z) z tag k with
      | (s, .error e) => (s, .error e)
      | (s, .ok t) => (s, .ok ({ data := b, tag := tag } :: t))

/-- The sources of QPUT and QRP: A, the data, the tags (R274). -/
def putSrcs (a b c : Src) (z : SizeCode) (mem : Bool) : List (Src × Nat) :=
  [(a, 1), (b, if mem then 2 else SizeCode.bytes z / 4), (c, 1)]

/-- The sources of QPUT and QRP that only the lowest active lane gives: in the `.mem` form all of them (R265, R274; of the tag log 57). -/
def putLone (mem : Bool) : List Nat := if mem then [0, 1, 2] else [0]

/-- The element count of a put (R274). -/
def putCount (x : Vals) (mem : Bool) (act : Mask) : Nat := if mem then bits (x 1 1 (lowLane act)) 15 0 else popMask act

/-- The elements of a put and what follows: in the `.mem` form a zero count ends the instruction, the address is checked,
and the bytes are read (R274). The `.mem` form's tag comes from the lowest-numbered active lane of C, which R265 and R274 leave
open (log 57). `pre` checks what precedes the reading. -/
def State.withElems (s : State) (ag : Agent) (x : Vals) (d : RegNo) (z : SizeCode) (mem : Bool) (act : Mask)
    (pre : State → (State → State) → State) (k : State → List Elem → State) : State :=
  let l := lowLane act
  let n := putCount x mem act
  if mem then
    let a := (x 1 0 l).toNat
    if n = 0 then (s.putResult ag d act [0#32]).advance ag
    else if a % 16 ≠ 0 then s.raiseAt ag 5 0 (BitVec.ofNat 48 a) (laneBit l)
    else if s.localLimit ag < a + n * SizeCode.bytes z then s.raiseAt ag 34 1 (BitVec.ofNat 48 a) (laneBit l)
    else pre s fun s =>
      if s.rangeBusy (keyDie (agKey ag)) (keySlot (agKey ag)) a (n * SizeCode.bytes z) then s.stallAt ag .issue else
      match s.localElems (keyDie (agKey ag)) (keySlot (agKey ag)) a (SizeCode.bytes z) ((x 2 0 l).setWidth 16) n with
      | (s, .error e) => s.raiseAt ag 36 0 (BitVec.ofNat 48 e) act
      | (s, .ok es) => k s es
  else
    pre s fun s =>
      k s ((lanesOf act).map fun i => { data := elemBytes x 1 (SizeCode.bytes z / 4) i, tag := (x 2 0 i).setWidth 16 })

/-- QPUT (R274, R275). -/
def execQput (d : RegNo) (a b c : Src) (z : SizeCode) (mem : Bool) (g : Guard) (s : State) :
    Host.Outcome State Fault Refusal :=
  let sp := { queSpec g (putSrcs a b c z mem) [(d, 1)] false (putLone mem) with late := !mem && !s.elemBase b.r z }
  issueWith s sp fun s ag act =>
    let x := s.vals ag sp.srcs
    let h := handleOf (x 0 0 (lowLane act))
    let k := putCount x mem act
    s.withQue ag true fun s f =>
      if s.resvHeld ag h then s.stallAt ag .issue
      else match s.resvOf ag h with
        | none => s.illop ag act
        | some r =>
          if r.rem < k then s.illop ag act
          else s.withElems ag x d z mem act (fun s go => go s) fun s es =>
            s.request ag r.qid r.home r.gen (.put (SizeCode.code z) r.next es)
              { s.newPend ag f 1 act d sp.srcs with handle := h, n := k } .answer

/-- QRP (R274, R275). -/
def execQrp (d : RegNo) (a b c : Src) (z : SizeCode) (mem : Bool) (g : Guard) (s : State) :
    Host.Outcome State Fault Refusal :=
  let sp := { queSpec g (putSrcs a b c z mem) [(d, 1)] true (putLone mem) with late := !mem && !s.elemBase b.r z }
  issueWith s sp fun s ag act =>
    let x := s.vals ag sp.srcs
    let q := x 0 0 (lowLane act)
    s.withQid ag act q fun s => s.withQue ag true fun s f =>
      s.withElems ag x d z mem act (fun s go => s.withHome ag act q .produce [0] fun _ _ => go s) fun s es =>
        s.withHome ag act q .produce [0] fun h gen =>
          s.request ag q h gen (.qrp (some (SizeCode.code z)) es)
            { s.newPend ag f 2 act d sp.srcs with n := es.length } .answer

/-- QCAN (R276). -/
def execQcan (d : RegNo) (a : Src) (g : Guard) (s : State) : Host.Outcome State Fault Refusal :=
  let sp := queSpec g [(a, 1)] [(d, 1)] false
  issueWith s sp fun s ag act =>
    let h := handleOf (s.vals ag sp.srcs 0 0 (lowLane act))
    s.withQue ag false fun s f =>
      if s.resvHeld ag h then s.stallAt ag .issue
      else match s.resvOf ag h with
        | none => s.illop ag act
        | some r =>
          s.request ag r.qid r.home r.gen (.cancel r.next r.rem)
            { s.newPend ag f 3 act d sp.srcs with handle := h, n := r.rem } .answer

/-- Whether a receipt register lies outside the data registers (R277). -/
def receiptOk (c d : RegNo) (n : Nat) : Bool :=
  decide (c.toNat < 256) && !(decide (d.toNat ≤ c.toNat) && decide (c.toNat < d.toNat + n))

/-- The tags a `.x` form expects, lane by lane (R279). -/
def wantTags (x : Vals) (e : Option Src) (act : Mask) : Option (List (Nat × BitVec 16)) :=
  e.map fun _ => (lanesOf act).map fun l => (l, (x 1 0 l).setWidth 16)

/-- The sources of QGET and QTRY. -/
def getSrcs (a : Src) (x : Option Src) : List (Src × Nat) :=
  (a, 1) :: (match x with
    | some b => [(b, 1)]
    | none => [])

/-- QGET and QTRY (R277, R278): the request is sent and the destinations are EMPTY. -/
def takeOp (d : RegNo) (a : Src) (x : Option Src) (t : Option RegNo) (z : SizeCode) (try_ : Bool) (g : Guard) (s : State) :
    Host.Outcome State Fault Refusal :=
  let n := SizeCode.bytes z / 4
  let dsts := (d, n) :: (match t with
    | some c => [(c, 1)]
    | none => [])
  let sp := { queSpec g (getSrcs a x) dsts try_ with
    late := !s.elemBase d z || !((t.map fun c => receiptOk c d n).getD true) }
  issueWith s sp fun s ag act =>
    let v := s.vals ag sp.srcs
    let q := v 0 0 (lowLane act)
    s.withQid ag act q fun s => s.withQue ag false fun s f =>
      s.withHome ag act q .consume [0, 1] fun h gen =>
        if !s.agRoom ag q then s.stallAt ag .issue
        else
          let p := { s.newPend ag f (if try_ then 7 else 6) act d [] with n := n, rec_ := t, want := wantTags v x act }
          let s := s.request ag q h gen (.get (SizeCode.code z) (popMask act) try_) p (if try_ then .answer else .get)
          let s := s.setEmpty ag d.toNat true n
          (t.map fun c => s.setEmpty ag c.toNat true 1).getD s

/-- QGET (R277 to R279). -/
def execQget (d : RegNo) (a : Src) (x : Option Src) (t : Option RegNo) (z : SizeCode) (g : Guard) (s : State) :
    Host.Outcome State Fault Refusal := takeOp d a x t z false g s

/-- QTRY (R277 to R279). -/
def execQtry (d : RegNo) (a : Src) (x : Option Src) (c : RegNo) (z : SizeCode) (g : Guard) (s : State) :
    Host.Outcome State Fault Refusal := takeOp d a x (some c) z true g s

/-- QSTAT.q (R281). -/
def execQstatQ (d : RegNo) (a : Src) (g : Guard) (s : State) : Host.Outcome State Fault Refusal :=
  let sp := queSpec g [(a, 1)] [(d, 4)] true
  issueWith s sp fun s ag act =>
    let q := s.vals ag sp.srcs 0 0 (lowLane act)
    s.withQid ag act q fun s => s.withQue ag false fun s f =>
      s.withHome ag act q .either [0, 1] fun h gen =>
        s.request ag q h gen .stat (s.newPend ag f 4 act d sp.srcs) .answer

/-- QSTAT.r (R282). -/
def execQstatR (d : RegNo) (a : Src) (g : Guard) (s : State) : Host.Outcome State Fault Refusal :=
  let sp := queSpec g [(a, 1)] [(d, 2)] true
  issueWith s sp fun s ag act =>
    s.withQue ag false fun s _ =>
      let w := match s.resvOf ag (handleOf (s.vals ag sp.srcs 0 0 (lowLane act))) with
        | some r => [0x80000000#32 ||| BitVec.ofNat 32 r.rem, r.next]
        | none => [0#32, 0#32]
      (s.putResult ag d act w).advance ag

/-- The slot a translation entry names on a die of this panel. -/
def State.entrySlot (s : State) (e : BitVec 64) : Option Nat :=
  let h := qEntryHome e
  if h.panel = s.panelNo then (s.physDie? h.die.toNat).map fun d => queueKey d h.port.toNat h.slot.toNat else none

/-- Whether a table entry names a free cask of a die's pool (R253). -/
def State.freeCask (s : State) (d : Nat) (ptag : BitVec 12) (x : Nat) : Option Nat :=
  match s.qEntry d ptag x with
  | none => none
  | some e =>
    if !qEntryOk e 1 then none
    else match s.entrySlot e with
      | none => none
      | some k =>
        match aget s.queues k with
        | none => none
        | some q => if q.kind = 1 && q.bound.isNone && q.owner = ptag && k / 16384 = d then some k else none

/-- The cask of lowest table entry that is free in a die's pool (R253). -/
def State.findCask (s : State) (d : Nat) (ptag : BitVec 12) : Option (Nat × Nat) :=
  let n := ((aget (s.die d).procs ptag.toNat).map (·.qlen)).getD 0
  (List.range (min n (2 ^ 24))).findSome? fun x => (s.freeCask d ptag x).map fun k => (x, k)

/-- A cask qid (R227, R253). -/
def caskQid (gen : BitVec 6) (entry : Nat) : BitVec 32 := 1#2 ++ gen ++ BitVec.ofNat 24 entry

/-- The errors met by the reads of table entries below `n` (R3, R382). -/
def State.qMetAll (s : State) (d : Nat) (ptag : BitVec 12) (n : Nat) : State := (List.range n).foldl (fun s x => s.qMet d ptag x) s

/-- The group bound to a free cask, or left unnamed when the pool is empty, and the qid it reads (R253, R283). -/
def State.takeName (s : State) (k : Nat) : State × Word :=
  match (s.group? k).bind (·.name) with
  | some (q, _) => (s, q)
  | none =>
    match s.findCask (keyDie k) (s.ptagOf k) with
    | none => (s.qMetAll (keyDie k) (s.ptagOf k) (((aget (s.die (keyDie k)).procs (s.ptagOf k).toNat).map (·.qlen)).getD 0), 0#32)
    | some (x, qk) =>
      let s := s.qMetAll (keyDie k) (s.ptagOf k) x
      match aget s.queues qk with
      | none => (s, 0#32)
      | some q =>
        let qid := caskQid q.gen x
        let s := s.qCache (keyDie k) (s.ptagOf k) x
        ((s.modQueue qk fun q => { q with bound := some (k, qid) }).modGroup k fun g => { g with name := some (qid, qk) }, qid)

/-- GNAME (R283); its request and answer are one step (log 16). -/
def execGname (d : RegNo) (g : Guard) (s : State) : Host.Outcome State Fault Refusal :=
  issueWith s (queSpec g [] [(d, 1)] false) fun s ag act =>
    s.withQue ag false fun s _ =>
      let r := s.takeName (agKey ag)
      (r.1.putResult ag d act [r.2]).advance ag

/-- Every armed register of a group disarmed (R284). -/
def Group.disarm (g : Group) : Group :=
  { g with tags := g.tags.filterMap fun e =>
      let t := { e.2 with arm := 0#64, filled := 0#64, empty := e.2.empty && e.2.arm == 0#64 }
      if t = {} then none else some (e.1, t) }

/-- GFREE (R284); its request and answer are one step (log 16). -/
def execGfree (g : Guard) (s : State) : Host.Outcome State Fault Refusal :=
  issueWith s (queSpec g [] [] false) fun s ag _ =>
    s.withQue ag false fun s _ =>
      let k := agKey ag
      let s := s.advance ag
      if ((s.group? k).bind (·.name)).isNone then s
      else ((s.nameRelease k).modGroup k Group.disarm).wake k

/-- The data of a cask element (R287). -/
def caskData (m : Mask) (tgt : Word) (gen : BitVec 6) (ptag : BitVec 12) (seq : BitVec 32) (vals : List Word) : List Byte :=
  bytesOf 16 (seq.toNat + ptag.toNat * 2 ^ 32 + gen.toNat * 2 ^ 44 + bits tgt 13 8 * 2 ^ 50 + bits tgt 7 0 * 2 ^ 56 +
    m.toNat * 2 ^ 64) ++
  bytesOf 256 ((vals.zip (List.range vals.length)).map fun v => v.1.toNat * 2 ^ (32 * v.2)).sum

/-- The next number of an agent's stream to a qid, and the stream (R268). -/
def State.nextSeq (s : State) (ag : Agent) (q : BitVec 32) : State × Nat × BitVec 32 :=
  let r := s.streamOf (senderKey (s.senderOf ag) (s.ptagOf (agKey ag)) q)
  (r.1, r.2, sget 0#32 s.streams r.2)

/-- What names a producing group (R259): panel, logical die, launch tag, team index, logical core, team slot, group. -/
def State.producerOf (s : State) (k : Nat) : List Nat := s.panelNo.toNat :: s.logDie (keyDie k) :: s.groupWho k

/-- RPUT (R257, R285, R287). -/
def execRput (d : RegNo) (a b c : Src) (g : Guard) (s : State) : Host.Outcome State Fault Refusal :=
  let sp := queSpec g [(a, 1), (b, 1), (c, 1)] [(d, 1)] true [0, 1]
  issueWith s sp fun s ag act =>
    let x := s.vals ag sp.srcs
    let l := lowLane act
    let q := x 0 0 l
    s.withQid ag act q fun s => s.withQue ag true fun s f =>
      s.withHome ag act q .produce [1] fun h gen =>
        let r := s.nextSeq ag q
        let e : Elem :=
          { data := caskData act (x 1 0 l) (q.extractLsb' 24 6) (s.ptagOf (agKey ag)) r.2.2 ((lanesOf act).map fun i => x 2 0 i)
            tag := 0#16, prodId := r.2.1, prod := s.producerOf (agKey ag) }
        r.1.request ag q h gen (.qrp none [e]) { s.newPend ag f 5 act d sp.srcs with n := 1 } .answer

/-- The sources of AWAIT. -/
def awaitSrcs : AwaitForm → List (Src × Nat)
  | .one a => [(a, 1)]
  | .pair a => [(a, 2)]
  | .all => []

/-- The lanes AWAIT arms (R286). -/
def awaitMask (f : AwaitForm) (x : Vals) (l w : Nat) : Mask :=
  (match f with
    | .one _ => (x 0 0 l).setWidth 64
    | .pair _ => pairOf (x 0 1 l) (x 0 0 l)
    | .all => fullMask w) &&& fullMask w

/-- Whether the group about to issue has a name (R286). -/
def State.curNamed (s : State) : Bool :=
  (s.cur.bind fun ag => (s.group? (agKey ag)).bind (·.name)).isSome

/-- AWAIT (R68, R286). Its mask comes from the lowest-numbered active lane of A, which R265 does not name (log 57). -/
def execAwait (d : RegNo) (f : AwaitForm) (g : Guard) (s : State) : Host.Outcome State Fault Refusal :=
  let sp := { queSpec g (awaitSrcs f) [(d, 1)] false with
    late := decide (recNv s.curRec ≤ d.toNat) || !s.curNamed }
  issueWith s sp fun s ag act =>
    let m := awaitMask f (s.vals ag sp.srcs) (lowLane act) (s.width ag)
    s.withQue ag false fun s _ =>
      let s := if m = 0#64 then s else s.modTag ag d.toNat fun t => { t with empty := true, arm := m, filled := 0#64 }
      s.advance ag

end Sys2Proof.Machine
end

