-- ==== Sys2Proof/Machine/Port.lean ====
section
/-! DEFINITION. The home ports: queue positions (R239, R240), requests and data (R241 to R248), landing rings (R249 to R252),
register delivery (R257 to R259), and the answers queue instructions, ports and the host receive (R266, R232, R299, R39). -/

namespace Sys2Proof.Machine

/-- Bytes of an element of a queue (R238, R259). -/
def Queue.elemSize (q : Queue) : Nat := if q.kind = 1 then 272 else 16 * 2 ^ q.size.toNat
/-- The depth of a queue (R238). -/
def Queue.depth (q : Queue) : Nat :=
  q.window + q.cellarPages * 65536 / (if q.kind = 1 then 512 else 16 * 2 ^ q.size.toNat)
/-- The free count (R239). -/
def Queue.free (q : Queue) : Nat := q.depth - q.pos.length

/-- A void element (R244). -/
def voidElem : Elem := { data := [], tag := 0#16, void := true }

/-- Whether a position holds a void (R244). -/
def QPos.isVoid (p : QPos) : Bool := (p.elem.map (·.void)).getD false

/-- `n` positions granted, each placed by R240. -/
def Queue.grant (q : Queue) : Nat → Queue
  | 0 => q
  | n + 1 =>
    let w := q.pos.all (·.inWin) && decide (q.pos.length < q.window)
    Queue.grant { q with pos := q.pos ++ [{ inWin := w }], tail := q.tail + 1#32 } n

/-- The positions once voids at HEAD have been passed (R244). -/
def dropVoids : List QPos → List QPos
  | [] => []
  | p :: t => if p.inWin && !p.moving && p.isVoid then dropVoids t else p :: t

/-- HEAD moved up to what is left of the positions. -/
def Queue.keep (q : Queue) (l : List QPos) : Queue :=
  let l := dropVoids l
  { q with pos := l, head := q.head + BitVec.ofNat 32 (q.pos.length - l.length) }

/-- Positions held in the window. -/
def Queue.inWindow (q : Queue) : Nat := (q.pos.filter (·.inWin)).length

/-- Elements taken at a clock: the window slots they free take cellar moves from the next clock on (R290). -/
def Queue.taken (q : Queue) (now : Nat) (l : List QPos) : Queue :=
  let r := q.keep l
  { r with
    freed := if r.inWindow = q.inWindow then q.freed else (now, (if q.freed.1 = now then q.freed.2 else 0) + (q.inWindow - r.inWindow)) }

/-- Moves of cellar elements started while the window has room, lowest first (R240). -/
def startMoves (room : Nat) : List QPos → List QPos
  | [] => []
  | p :: t =>
    if p.inWin then p :: startMoves room t
    else if room = 0 || p.elem.isNone then p :: t
    else { p with inWin := true, moving := true } :: startMoves (room - 1) t

/-- The moves a queue can start at a clock (R240, R290). -/
def Queue.fillWindow (q : Queue) (now : Nat) : Queue :=
  { q with pos := startMoves (q.window - q.inWindow - (if q.freed.1 = now then q.freed.2 else 0)) q.pos }

/-- The `k` lowest elements from HEAD, all with data in the window, and the positions above them (R245). -/
def takeFrom : List QPos → Nat → Option (List Elem × List QPos)
  | l, 0 => some ([], l)
  | [], _ + 1 => none
  | p :: t, k + 1 =>
    if !p.inWin || p.moving then none
    else match p.elem with
      | none => none
      | some e => if e.void then takeFrom t (k + 1) else (takeFrom t k).map fun r => (e :: r.1, r.2)

/-- Up to `k` elements from HEAD (R246, R278). -/
def takeUpTo : List QPos → Nat → List Elem × List QPos
  | l, 0 => ([], l)
  | [], _ + 1 => ([], [])
  | p :: t, k + 1 =>
    if !p.inWin || p.moving then ([], p :: t)
    else match p.elem with
      | none => ([], p :: t)
      | some e =>
        if e.void then takeUpTo t (k + 1)
        else let r := takeUpTo t k; (e :: r.1, r.2)

/-- The queue slot a home names on this panel. -/
def State.homeKey (s : State) (h : QHome) : Option Nat :=
  if h.panel = s.panelNo then (s.physDie? h.die.toNat).map fun d => queueKey d h.port.toNat h.slot.toNat else none

/-- The checks of R231 at the home port. -/
def State.homeCheck (s : State) (h : QHome) (ptag : BitVec 12) (gen : BitVec 6) (consume : Bool) : Except Answer (Nat × Queue) :=
  match (s.homeKey h).bind fun k => (aget s.queues k).map fun q => (k, q) with
  | none => .error (.refuse 1)
  | some (k, q) =>
    if q.owner ≠ ptag then .error (.refuse 4)
    else if q.gen ≠ gen then .error (if consume then .refuse 5 else .stale)
    else .ok (k, q)

/-- A queue changed at the place it has. -/
def State.putQueue (s : State) (k : Nat) (q : Queue) : State := { s with queues := aput s.queues k q }

/-- Whether a row of a home port's SRAM that holds a queue's window is under test (R383). -/
def State.portBusy (s : State) (k : Nat) : Bool := s.sramBusy (k / 16384) 3 (k % 16384 / 4096) (k % 4096)

/-- The address of a position's element in a queue's cellar: the layout of a slot is the model's (R239, R280, log 26). -/
def Queue.cellarAt (q : Queue) (p : BitVec 32) : Nat :=
  let slot := if q.kind = 1 then 512 else 16 * 2 ^ q.size.toNat
  q.cellarBase.toNat + slot * (p.toNat % (q.cellarPages * 65536 / slot))

/-- Where a position's element lies in a queue's cellar, sector by sector. None where a page of the cellar is no longer mapped, or its
walk meets an error: no rule says what becomes of the element, and the model keeps its bytes with the position (log 26). -/
def State.cellarPlan (s : State) (k : Nat) (q : Queue) (p : BitVec 32) (n : Nat) : Option (List (Nat × Nat)) :=
  match s.xlate (k / 16384) q.owner (q.cellarAt p) with
  | .ok e => some (spanCuts (e.phys (q.cellarAt p)) n n)
  | .fail _ => none

/-- The cellar positions among those from `at_` on that elements fill, and the element bytes of each. -/
def Queue.cellarSpots (q : Queue) (at_ : BitVec 32) (es : List Elem) : List (BitVec 32 × List Byte) :=
  (es.zip (List.range es.length)).filterMap fun x =>
    let p := at_ + BitVec.ofNat 32 x.2
    if x.1.void || ((q.pos[(p - q.head).toNat]?).map (·.inWin)).getD true then none else some (p, x.1.data)

/-- Data written into granted positions from position `at_` on (R243). -/
def Queue.fill (q : Queue) (at_ : BitVec 32) : List Elem → Queue
  | [] => q
  | e :: t =>
    let i := (at_ - q.head).toNat
    let q := match q.pos[i]? with
      | some p => { q with pos := q.pos.set i { p with elem := some e } }
      | none => q
    Queue.fill q (at_ + 1#32) t

/-- An element as a queue holds it: padded with zeros to the element size (R397). -/
def Queue.padded (q : Queue) (e : Elem) : Elem :=
  { e with data := e.data ++ List.replicate (q.elemSize - e.data.length) 0#8 }

/-- A put with its own reservation at the home port (R242, R274, R285, R369, R397): the grant and what it is answered.
`z` is the size code the request states, none for a register put or a port put. The KIND of the qid is compared with none of the slot
its entry names: sizes that differ are all that is refused, as SIZE (log 79). -/
def Queue.grantPut (q : Queue) (z : Option (BitVec 3)) (elems : List Elem) : Queue × Answer × BitVec 32 :=
  let bad := match z with
    | some z => z != q.size
    | none => elems.any fun e => decide (q.elemSize < e.data.length)
  if bad then (q, .refuse 6, 0#32)
  else if q.free < elems.length then (q, .full, 0#32)
  else
    let r := q.grant elems.length
    let mark := fun (p : QPos) => { p with prodId := (elems.head?.map (·.prodId)).getD 0 }
    ({ r with pos := q.pos ++ (r.pos.drop q.pos.length).map mark }, .ok elems.length, q.tail)

/-- A DATA-bearing or other answer on its way to another panel (R235). -/
def State.wireAnswer (s : State) (m : Msg) (p : BitVec 8) (uid op count : Nat) (pos : BitVec 32)
    (elems : List (List Byte × BitVec 16)) : State :=
  let w : WireMsg :=
    { op := BitVec.ofNat 8 op, srcPanel := s.panelNo, dstPanel := p, srcDie := BitVec.ofNat 8 m.srcDie, uid := uid, qid := m.qid,
      die := m.home.die, port := m.home.port, slot := m.home.slot, gen := m.gen, ptag := m.ptag, seq := m.seq, size := 0#3,
      count := BitVec.ofNat 16 count, pos := pos, elems := elems, prod := [] }
  { s with transit := aput s.transit s.fresh { src := s.physDie? m.home.die.toNat, msg := w }, fresh := s.fresh + 1 }

/-- What an answer travels as. -/
def State.answerFar (s : State) (m : Msg) (p : BitVec 8) (uid : Nat) (a : Answer) : State :=
  match a with
  | .granted pos n => s.wireAnswer m p uid 0x40 n pos []
  | .ok n => s.wireAnswer m p uid 0x41 n 0#32 []
  | .full => s.wireAnswer m p uid 0x42 0 0#32 []
  | .stale => s.wireAnswer m p uid 0x43 0 0#32 []
  | .stat ws => s.wireAnswer m p uid 0x44 0 0#32 (ws.map fun w => (bytesOf 4 w.toNat, 0#16))
  | .refuse c => s.wireAnswer m p uid (0x50 + c) 0 0#32 []
  | .served es => s.wireAnswer m p uid 0x60 es.length 0#32 (es.map fun e => (e.data, e.tag))

/-- A request of a stream served: the next number is expected (R241). -/
def State.expectNext (s : State) (m : Msg) : State := { s with expects := sset 0#32 s.expects m.stream (m.seq + 1#32) }

/-- The answer to a request: on its way to its sender. -/
def State.reply (s : State) (id : Nat) (m : Msg) (a : Answer) : State :=
  match m.sender with
  | .far p uid => { s with msgs := adel s.msgs id }.answerFar m p uid a
  | .group _ _ _ | .port _ _ | .host _ _ _ => { s with answers := aput s.answers id a }

/-- Whether the way of a request to its home on this panel is up (R234, R235, R377). -/
def State.pathUp (s : State) (m : Msg) : Bool :=
  match s.physDie? m.home.die.toNat, m.sender with
  | none, _ => true
  | some b, .far _ _ => (m.via.map fun l => s.wayIn (routerSite l) b).getD true
  | some b, .group _ _ _ | some b, .port _ _ | some b, .host _ _ _ => ((s.physDie? m.srcDie).map fun a => s.routeUp a b).getD true

/-- Whether the way back from a request's home, or from the router die where its answer came in, is up: to the sender's die, or for a
host to the die that manages the host port (R234, R235, R377). -/
def State.backUp (s : State) (m : Msg) : Bool :=
  let way := fun (dst : Nat) =>
    if m.home.panel = s.panelNo then ((s.physDie? m.home.die.toNat).map fun b => s.routeUp b dst).getD true
    else (m.via.map fun l => s.wayIn (routerSite l) dst).getD true
  match m.sender with
  | .host _ _ _ => ((s.manager 0).map way).getD false
  | .group _ _ _ | .port _ _ => ((s.physDie? m.srcDie).map way).getD true
  | .far _ _ => true

/-- A request or data reaches its home port (R241, R289); a get that found no waiter record comes again after 1,024 clocks (R247). -/
def State.arrive (s : State) (id : Nat) : State :=
  match aget s.msgs id with
  | none => s
  | some m =>
    if m.out || m.home.panel ≠ s.panelNo || m.arrived.isSome || !s.pathUp m ||
        (m.accepted && (m.linked || (aget s.answers id).isSome || decide (s.clock < m.lastTry + Config.resendClocks))) then s
    else { s with msgs := aput s.msgs id { m with arrived := some s.clock } }

/-- Where a request stands among those that reach one home port in a clock (R289): groups and port puts by their dies, and then host
requests, of this panel and of others, by connection and SEQUENCE; two that tie there, on different panels, stand by panel and die, this
panel first (log 58). -/
def State.rank (s : State) (m : Msg) : List Nat :=
  let from_ := fun (panel : BitVec 8) =>
    let home := panel == s.panelNo && m.srcDie == m.home.die.toNat
    match m.who with
    | [_, _, core, slot, g] => if home then [0, core, slot, g] else [2, panel.toNat, m.srcDie, 0, slot, g]
    | [p] => if home then [1, p] else [2, panel.toNat, m.srcDie, 1, p]
    | w => 3 :: w ++ [panel.toNat, m.srcDie]
  match m.sender with
  | .host c seq _ => [3, c, seq.toNat]
  | .far p _ => from_ p
  | .group _ _ _ | .port _ _ => from_ s.panelNo

/-- Whether a message is data or voids for granted positions: a port writes what has arrived before it serves requests (R290). -/
def Ask.isData : Ask → Bool
  | .fill _ _ | .put _ _ _ | .cancel _ _ => true
  | .reserve _ | .qrp _ _ | .get _ _ _ | .stat => false

/-- The order of a home port's work (R241, R289, R290): by the clock of arrival, in a clock data before requests, and then by R289. -/
def State.turnOf (s : State) (m : Msg) : List Nat := m.arrived.getD 0 :: (if m.ask.isData then 0 else 1) :: s.rank m

/-- Lexical order. -/
def lexLt : List Nat → List Nat → Bool
  | _, [] => false
  | [], _ :: _ => true
  | a :: s, b :: t => decide (a < b) || (a == b && lexLt s t)

/-- Whether a message stands to be served: it reached its home on this panel before this clock, has no answer yet, and is data, the
next request of its stream, or a get sent again; of a connection every earlier request is performed (R234, R241, R247, R368). -/
def State.waiting (s : State) (id : Nat) (m : Msg) : Bool :=
  !m.out && m.home.panel == s.panelNo && !m.linked && (aget s.answers id).isNone &&
  (m.ask.isFill || m.accepted || sget 0#32 s.expects m.stream == m.seq) && !s.connWaits m &&
  ((m.arrived.map fun c => decide (c < s.clock)).getD false)

/-- Whether a request may be served now: no other that stands to be served at its port comes before it (R289), and the port's
row is not under test (R383). -/
def State.canServe (s : State) (id : Nat) (m : Msg) : Bool :=
  s.waiting id m && !((s.homeKey m.home).map s.portBusy).getD false &&
  !(s.msgs.any fun e => e.1 != id && e.2.home.die == m.home.die && e.2.home.port == m.home.port && s.waiting e.1 e.2 &&
    lexLt (s.turnOf e.2) (s.turnOf m))

/-- A request that timed out or was withdrawn is served without effect; its sender on another panel is told (R248). -/
def State.dropDead (s : State) (id : Nat) (m : Msg) : State :=
  let s := { s.expectNext m with msgs := adel s.msgs id }
  match m.sender with
  | .far p uid => s.wireAnswer m p uid 0x46 0 0#32 []
  | .group _ _ _ | .port _ _ | .host _ _ _ => s

/-- Registers of a get that has taken nothing, FULL again (R248, R278). -/
def State.restoreGet (s : State) (p : Pend) : State :=
  let s := s.setEmpty p.ag p.d.toNat false p.n
  (p.rec_.map fun c => s.setEmpty p.ag c.toNat false 1).getD s

/-- A sleeping or refused get leaves: its instruction stands next again (R248). -/
def State.getForget (s : State) (id : Nat) : State :=
  match aget s.pends id with
  | none => { s with msgs := adel s.msgs id }
  | some p =>
    let s := { s with msgs := adel s.msgs id, pends := adel s.pends id }
    (s.restoreGet p).modFront p.ag fun f => { f with wait := .run, stall := .none }

/-- The lanes whose received tag differs from the expected one, with both (R279). -/
def tagMisses (p : Pend) (lanes : List Nat) (es : List Elem) : List (Nat × BitVec 16 × BitVec 16) :=
  match p.want with
  | none => []
  | some w => (lanes.zip es).filterMap fun (x : Nat × Elem) =>
      match aget w x.1 with
      | some t => if t = x.2.tag then none else some (x.1, x.2.tag, t)
      | none => none

/-- The elements a get or try receives (R277 to R280): written to its registers and receipts, an acquire, and the fragment
goes on, or TAGMISMATCH is raised. -/
def State.getServed (s : State) (id : Nat) (es : List Elem) : State :=
  match aget s.pends id with
  | none => { s with msgs := adel s.msgs id }
  | some p =>
    let s := { s with msgs := adel s.msgs id, pends := adel s.pends id }
    let lanes := (lanesOf p.act).take es.length
    let s := (lanes.zip es).foldl (fun (s : State) (x : Nat × Elem) => s.wrWords p.ag p.d.toNat x.1 (wordsOf x.2.data.length (natOfBytes x.2.data))) s
    let s := match p.rec_ with
      | none => s
      | some c =>
        let word := fun (l : Nat) => match (lanes.zip es).find? fun (x : Nat × Elem) => x.1 == l with
          | some x => 0x10000#32 ||| x.2.tag.setWidth 32
          | none => 0#32
        (lanesOf p.act).foldl (fun s l => s.wrReg p.ag c.toNat l (word l)) s
    let s := s.restoreGet p
    let s := if es.isEmpty then s else s.l1Inval (keyDie p.key) (s.agCore p.ag) (· != 0)
    let s := match tagMisses p lanes es with
      | [] => s.advance p.ag
      | m :: (t : List (Nat × BitVec 16 × BitVec 16)) =>
        let s := s.modFront p.ag fun f => { f with wait := .run }
        s.raise p.ag { code := 11, detail := (m.2.2 ++ m.2.1 : BitVec 32), pc := p.pc, lanes := maskOf ((m :: t).map fun (y : Nat × BitVec 16 × BitVec 16) => y.1) }
    s.wake p.key

/-- The DONE of a standing host GET, sent once (R369). -/
def State.tellHost (s : State) (id : Nat) (m : Msg) : State :=
  match m.sender with
  | .host c seq true =>
    if m.told then s else { s with msgs := aput s.msgs id { m with told := true } }.sendDone c m.ptag m.srcDie seq 0 0
  | .host _ _ false | .group _ _ _ | .port _ _ | .far _ _ => s

/-- The elements a host's GET receives: DATA, and after them the DONE of one that does not stand (R368, R369). -/
def State.hostServed (s : State) (id : Nat) (m : Msg) (c : Nat) (seq : BitVec 32) (standing : Bool) (es : List Elem) : State :=
  let s := es.foldl (fun s e => s.sendElem c m.ptag m.srcDie e) (s.tellHost id m)
  if standing then s else { s with msgs := adel s.msgs id }.sendDone c m.ptag m.srcDie seq 0 es.length

/-- Whether a register that a waiting get or try receives its elements in is under test (R383). -/
def State.pendBusy (s : State) (id : Nat) : Bool :=
  ((aget s.pends id).map fun p => s.regsBusy p.ag p.d.toNat p.n || (p.rec_.map fun c => s.regBusy p.ag c.toNat).getD false).getD false

/-- Elements handed to the sender of a get; while the way to it is down, or a register that receives them is under test, they wait
(R377, R383). -/
def State.handOut (s : State) (die : Nat) (id : Nat) (m : Msg) (es : List Elem) : State :=
  let s := s.addTraffic die m.ptag (es.map fun e => e.data.length).sum
  let kept : State := { s with answers := aput s.answers id (.served es), msgs := aput s.msgs id { m with accepted := true } }
  match m.sender with
  | .group _ _ _ => if s.backUp m && !s.pendBusy id then s.getServed id es else kept
  | .far p uid => { s with msgs := adel s.msgs id }.answerFar m p uid (.served es)
  | .host c seq standing => if s.backUp m then s.hostServed id m c seq standing es else kept
  | .port _ _ => { s with msgs := adel s.msgs id }

/-- The number of elements a get asks for. -/
def Ask.count : Ask → Nat
  | .get _ k _ => k
  | .reserve _ | .qrp _ _ | .fill _ _ | .put _ _ _ | .cancel _ _ | .stat => 0

/-- The oldest waiter served whole, if it can be; a standing host GET goes back to the tail (R246, R369). -/
def State.serveOne (s : State) (k : Nat) : Option State :=
  match aget s.queues k with
  | none => none
  | some q =>
    match q.waiters with
    | [] => none
    | id :: rest =>
      match aget s.msgs id with
      | none => some (s.putQueue k { q with waiters := rest })
      | some m =>
        (takeFrom q.pos m.ask.count).map fun r =>
          let q := { q.taken s.clock r.2 with waiters := if m.standing && s.backUp m then rest ++ [id] else rest }
          (s.putQueue k q).handOut (k / 16384) id m r.1

/-- Waiters served, oldest first, as long as one can be; at most `n`. -/
def State.serveWaiters (s : State) (k : Nat) : Nat → State
  | 0 => s
  | n + 1 =>
    match s.serveOne k with
    | none => s
    | some s => State.serveWaiters s k n

/-- A home port's work on a queue after data has arrived, or as a clock begins: voids at HEAD, moves, waiters (R290). -/
def State.workQueue (s : State) (k : Nat) : State :=
  match aget s.queues k with
  | none => s
  | some q =>
    if s.portBusy k then s
    else
      let q := (q.keep q.pos).fillWindow s.clock
      (s.putQueue k q).serveWaiters k (q.waiters.length + q.pos.length + 1)

/-- The ports' work on every queue as a clock begins (R290): the next waiter is served where an older one has gone (R245, R246). -/
def State.workQueues (s : State) : State := (s.queues.map (·.1)).foldl State.workQueue s

/-- The qid that names a queue slot in its owner's table on its die: of several entries that name it, one drawn at
`State.tick` (log 17). -/
def State.qidOf (s : State) (k : Nat) (q : Queue) : BitVec 32 :=
  let d := k / 16384
  match q.bound with
  | some (_, qid) => qid
  | none =>
    let n := ((aget (s.die d).procs q.owner.toNat).map (·.qlen)).getD 0
    let l := (List.range n).filter fun x => ((s.qEntry d q.owner x).bind s.entrySlot) == some k
    match l[if l.length ≤ 1 then 0 else Config.freeNat s.tick % l.length]? with
    | some x => if q.kind = 1 then caskQid q.gen x else BitVec.ofNat 32 x
    | none => 0#32

/-- A position's element removed: it holds its place as a void until HEAD passes it. -/
def State.voidAt (s : State) (k i : Nat) : State :=
  s.modQueue k fun q =>
    match q.pos[i]? with
    | some p => { q with pos := q.pos.set i { p with elem := some voidElem } }
    | none => q

/-- An element lost to an error becomes a void; the discard is counted and noticed (R382). -/
def State.voidLost (s : State) (k i : Nat) : State :=
  match aget s.queues k with
  | none => s
  | some q =>
    ((s.voidAt k i).addDiscards (k / 16384) q.owner 1).discardNotice (k / 16384) (k % 16384 / 4096) q.owner
      { code := 67, count := 1, detail := (s.qidOf k q).toNat } |>.draw

/-- Data that has arrived, written to a queue: the bytes of cellar positions go to the cellar through its home slice (R240), and
one that cannot be written there is lost (log 26). -/
def State.fillQueue (s : State) (k : Nat) (q : Queue) (at_ : BitVec 32) (es : List Elem) : State :=
  let s := s.putQueue k (q.fill at_ es)
  (q.cellarSpots at_ es).foldl (fun s x =>
    match s.cellarPlan k q x.1 x.2.length with
    | none => s.walkMet (k / 16384) q.owner (q.cellarAt x.1)
    | some l =>
      match s.bulkPut (k / 16384) x.2 l with
      | (s, true) => s
      | (s, false) => s.voidLost k (x.1 - q.head).toNat) s

/-- Whether data for a queue waits: a row of its window or of its cellar, or of the tables that map it, is under test or repair (R383,
R386). -/
def State.fillBusy (s : State) (k : Nat) (q : Queue) (at_ : BitVec 32) (es : List Elem) : Bool :=
  s.portBusy k || (q.cellarSpots at_ es).any fun x =>
    s.xlateBusy (k / 16384) q.owner (q.cellarAt x.1) ||
    ((s.cellarPlan k q x.1 x.2.length).map (s.bulkBusy (k / 16384))).getD false

/-- RESERVATION_REQUEST: a reservation, or a put with its own, is served (R242). -/
def execReservationRequest (msg : Nat) (s : State) : Host.Outcome State Fault Refusal :=
  match aget s.msgs msg with
  | none => .next s
  | some m =>
    if !s.canServe msg m then .next s
    else match m.ask with
      | .reserve n =>
        if m.dead then .next (s.dropDead msg m)
        else match s.homeCheck m.home m.ptag m.gen false with
          | .error a => .next ((s.expectNext m).reply msg m a)
          | .ok (k, q) =>
            let g := min n q.free
            if g = 0 then .next ((s.expectNext m).reply msg m .full)
            else .next (((s.expectNext m).putQueue k (q.grant g)).reply msg m (.granted q.tail g))
      | .qrp z es =>
        if m.dead then .next (s.dropDead msg m)
        else match s.homeCheck m.home m.ptag m.gen false with
          | .error a => .next ((s.expectNext m).reply msg m a)
          | .ok (k, q) =>
            let r := q.grantPut z es
            let s := (s.expectNext m).putQueue k r.1
            match r.2.1 with
            | .ok _ =>
              let d : Msg := { m with ask := .fill r.2.2 (es.map q.padded), carry := none, arrived := none }
              let s := { s with msgs := aput s.msgs s.fresh d, fresh := s.fresh + 1 }
              .next (s.reply msg m r.2.1)
            | a => .next (s.reply msg m a)
      | .fill _ _ | .put _ _ _ | .cancel _ _ | .get _ _ _ | .stat => .next s

/-- PUT_DATA_ARRIVAL: data or voids fill their positions, and waiters are served (R243, R244, R275, R276). -/
def execPutDataArrival (msg : Nat) (s : State) : Host.Outcome State Fault Refusal :=
  match aget s.msgs msg with
  | none => .next s
  | some m =>
    let arrive := fun (s : State) (k : Nat) (q : Queue) (at_ : BitVec 32) (es : List Elem) => (s.fillQueue k q at_ es).workQueue k
    match m.ask with
    | .fill at_ es =>
      if !s.canServe msg m then .next s
      else
        let s' := { s with msgs := adel s.msgs msg }
        match s.homeCheck m.home m.ptag m.gen false with
        | .error _ => .next s'
        | .ok (k, q) => if s.fillBusy k q at_ es then .next s else .next (arrive s' k q at_ es)
    | .put z at_ es =>
      if !s.canServe msg m then .next s
      else if m.dead then .next (s.dropDead msg m)
      else match s.homeCheck m.home m.ptag m.gen false with
        | .error a => .next ((s.expectNext m).reply msg m a)
        | .ok (k, q) =>
          if z ≠ q.size then .next ((s.expectNext m).reply msg m (.refuse 6))
          else if s.fillBusy k q at_ es then .next s
          else .next (arrive ((s.expectNext m).reply msg m (.ok es.length)) k q at_ es)
    | .cancel at_ n =>
      if !s.canServe msg m then .next s
      else if m.dead then .next (s.dropDead msg m)
      else match s.homeCheck m.home m.ptag m.gen false with
        | .error a => .next ((s.expectNext m).reply msg m a)
        | .ok (k, q) => .next (arrive ((s.expectNext m).reply msg m (.ok n)) k q at_ (List.replicate n voidElem))
    | .reserve _ | .qrp _ _ | .get _ _ _ | .stat => .next s

/-- Waiters linked at a port (R247). -/
def State.portWaiters (s : State) (port : Nat) : Nat :=
  ((s.queues.filter fun e => e.1 / 4096 = port).map fun e => e.2.waiters.length).sum

/-- A get's group is to be pre-empted: the get is not linked, and its fragment stops (R248, R313). -/
def State.getStops (s : State) (m : Msg) : Bool :=
  match m.sender with
  | .group k _ _ => s.preemptAsked k
  | .port _ _ | .host _ _ _ | .far _ _ => false

/-- The acceptance of a get of another panel, sent once (R233). -/
def State.tellFar (s : State) (m : Msg) : State :=
  match m.sender with
  | .far p uid => if m.accepted then s else s.wireAnswer m p uid 0x45 0 0#32 []
  | .group _ _ _ | .port _ _ | .host _ _ _ => s

/-- A get that is not served at once: linked at the tail of the waiters, or left to send again when no record is free
(R246, R247). A standing host GET is answered when it is linked (R369). -/
def State.getLink (s : State) (id k : Nat) (m : Msg) (q : Queue) : State :=
  if s.getStops m then
    let ag := (aget s.pends id).map (·.ag)
    let s := s.getForget id
    (ag.map fun ag => s.modFront ag Fragment.stopHere).getD s
  else if s.portWaiters (k / 4096) < Config.nWaiters then
    let m' := { m with linked := true, accepted := true }
    (({ s with msgs := aput s.msgs id m' }.putQueue k { q with waiters := q.waiters ++ [id] }).tellHost id m').tellFar m
  else { s with msgs := aput s.msgs id { m with accepted := true, lastTry := s.clock, arrived := none } }.tellFar m

/-- A get or try at its home port, past the checks of R231 (R245, R246, R278); a standing host GET is linked first (R369). -/
def State.getAt (s : State) (id k : Nat) (m : Msg) (q : Queue) (z : BitVec 3) (n : Nat) (try_ : Bool) : State :=
  if q.landing.isSome then s.reply id m (.refuse 7)
  else if q.window < n then s.reply id m (.refuse 6)
  else if z ≠ q.size && z ≠ 7#3 then s.reply id m (.refuse 6)
  else if try_ then
    let r := if q.waiters.isEmpty then takeUpTo q.pos n else ([], q.pos)
    (s.putQueue k (q.taken s.clock r.2)).handOut (k / 16384) id m r.1
  else if m.standing then (s.getLink id k m q).workQueue k
  else if !q.waiters.isEmpty then s.getLink id k m q
  else match takeFrom q.pos n with
    | some r => (s.putQueue k (q.taken s.clock r.2)).handOut (k / 16384) id m r.1
    | none => s.getLink id k m q

/-- The four words of QSTAT.q (R281). -/
def Queue.statWords (q : Queue) : List Word :=
  [BitVec.ofNat 32 q.pos.length, BitVec.ofNat 32 q.free,
   BitVec.ofNat 32 ((if q.landing.isSome then 2 ^ 31 else 0) + q.gen.toNat * 2 ^ 24 +
     (if q.kind = 1 then 7 else q.size.toNat) * 2 ^ 16 + min q.waiters.length 65535),
   q.head]

/-- GET_REQUEST: a get, a try or a state request arrives at its home port (R245, R246, R278, R281). -/
def execGetRequest (msg : Nat) (s : State) : Host.Outcome State Fault Refusal :=
  match aget s.msgs msg with
  | none => .next s
  | some m =>
    if m.accepted || !s.canServe msg m then .next s
    else match m.ask with
      | .get z n try_ =>
        if m.dead then .next (s.dropDead msg m)
        else match s.homeCheck m.home m.ptag m.gen true with
          | .error a => .next ((s.expectNext m).reply msg m a)
          | .ok (k, q) => .next ((s.expectNext m).getAt msg k m q z n try_)
      | .stat =>
        if m.dead then .next (s.dropDead msg m)
        else match s.homeCheck m.home m.ptag m.gen true with
          | .error a => .next ((s.expectNext m).reply msg m a)
          | .ok (_, q) => .next ((s.expectNext m).reply msg m (.stat q.statWords))
      | .reserve _ | .qrp _ _ | .fill _ _ | .put _ _ _ | .cancel _ _ => .next s

/-- WAITER_RESEND: an accepted get that found no waiter record and has come again after 1,024 clocks is served in its turn (R247,
R289). -/
def execWaiterResend (msg : Nat) (s : State) : Host.Outcome State Fault Refusal :=
  match aget s.msgs msg with
  | none => .next s
  | some m =>
    if m.accepted && s.canServe msg m then
      match m.ask with
      | .get z n _ =>
        match s.homeCheck m.home m.ptag m.gen true with
        | .error a => .next (s.reply msg m a)
        | .ok (k, q) => .next (s.getAt msg k m q z n false)
      | .reserve _ | .qrp _ _ | .fill _ _ | .put _ _ _ | .cancel _ _ | .stat => .next s
    else .next s

/-- An element moved from the cellar is present, with the bytes read there; where they cannot be read it is lost (R240, R290, log
26). -/
def State.moveDone (s : State) (k i : Nat) (q : Queue) (p : QPos) (plan : Option (List (Nat × Nat))) : State :=
  let put := fun (s : State) (e : Option Elem) => s.putQueue k { q with pos := q.pos.set i { p with moving := false, elem := e } }
  match p.elem, plan with
  | some e, some l =>
    if e.void then put s (some e)
    else match s.bulkMeet (k / 16384) l with
      | (s, true) => put s (some { e with data := l.flatMap fun x => bytesOf x.2 (s.stackRead (k / 16384) x.1 x.2) })
      | (s, false) => (put s (some e)).voidLost k i
  | e, _ => put s e

/-- CELLAR_MOVE_COMPLETE: the lowest element on its way from the cellar is present, and waiters are served (R240, R290). -/
def execCellarMoveComplete (die port slot : Nat) (s : State) : Host.Outcome State Fault Refusal :=
  let k := queueKey die port slot
  match aget s.queues k with
  | none => .next s
  | some q =>
    match q.pos.findIdx? (·.moving) with
    | none => .next s
    | some i =>
      match q.pos[i]? with
      | none => .next s
      | some p =>
        let at_ := q.head + BitVec.ofNat 32 i
        let plan := s.cellarPlan k q at_ ((p.elem.map fun e => e.data.length).getD 0)
        if s.portBusy k || s.xlateBusy die q.owner (q.cellarAt at_) || (plan.map (s.bulkBusy die)).getD false then .next s
        else .next (((s.walkMet die q.owner (q.cellarAt at_)).moveDone k i q p plan).workQueue k)

/-- The lowest free handle (R273). -/
def Group.freeHandle (g : Group) : Nat := (([0, 1, 2, 3].find? fun h => (aget g.resv h).isNone)).getD 0

/-- A group's reservation records after an answer to one of its instructions (R273, R275, R276). -/
def Group.resvAfter (g : Group) (p : Pend) (m : Msg) (a : Answer) : Group :=
  match p.form, a with
  | 0, .granted pos n =>
    { g with resv := aput g.resv g.freeHandle { qid := m.qid, home := m.home, gen := m.gen, next := pos, rem := n } }
  | 1, .ok n =>
    match aget g.resv p.handle with
    | none => g
    | some r =>
      if r.rem ≤ n then { g with resv := adel g.resv p.handle }
      else { g with resv := aput g.resv p.handle { r with next := r.next + BitVec.ofNat 32 n, rem := r.rem - n } }
  | 1, .stale | 3, .ok _ | 3, .stale => { g with resv := adel g.resv p.handle }
  | _, _ => g

/-- The words an answered instruction writes (R271, R273, R275, R276, R281, R285). -/
def answerWords (p : Pend) (h : Nat) (a : Answer) : List Word :=
  match a with
  | .granted pos n => [resultWord 0 h n, pos]
  | .ok n => [resultWord 0 (if p.form = 1 || p.form = 3 then p.handle else 0) n]
  | .full => if p.form = 0 then [resultWord 1 0 0, 0#32] else [resultWord 1 0 0]
  | .stale =>
    if p.form = 0 then [resultWord 2 0 0, 0#32]
    else [resultWord 2 (if p.form = 1 || p.form = 3 then p.handle else 0) 0]
  | .stat ws => ws
  | .refuse _ | .served _ => []

/-- Whether a group has ended and only waits to be released (R55). -/
def State.groupEnded (s : State) (k : Nat) : Bool := ((s.group? k).map (·.ended)).getD true

/-- QFAULT at a waiting instruction (R233, R267): nothing of it is performed, and it stands next again. -/
def State.answerFault (s : State) (id : Nat) (p : Pend) (q : BitVec 32) (cause : Nat) : State :=
  let s := { s with pends := adel s.pends id }
  if s.groupEnded p.key then s else
  let s := if p.form = 6 || p.form = 7 then s.restoreGet p else s
  let s := s.modFront p.ag fun f => { f with wait := .run, stall := .none }
  (s.raise p.ag { code := 35, cause := cause, detail := q, lanes := p.act, pc := p.pc }).wake p.key

/-- Whether the destinations of a waiting instruction are free: none is EMPTY, armed, lent, a source of another fragment's waiting
instruction (R67, R266), or under test (R383). -/
def State.answerFree (s : State) (p : Pend) (n : Nat) : Bool :=
  !s.regsBusy p.ag p.d.toNat n && (List.range n).all fun i => !s.dstHeld p.ag (p.d.toNat + i)

/-- Whether a waiting instruction is held while its group recruits: that of a fragment, not of a helper (R319). -/
def State.answerHeld (s : State) (p : Pend) : Bool :=
  match p.ag with
  | .helper _ _ _ _ => false
  | .frag _ _ _ _ | .seq _ _ => ((s.group? p.key).bind (·.recruit)).isSome

/-- QUEUE_ANSWER: the answer to a waiting queue instruction; the instruction issues, writes its destination and completes, or
raises QFAULT (R233, R266, R267). -/
def execQueueAnswer (id : Nat) (s : State) : Host.Outcome State Fault Refusal :=
  match aget s.answers id, aget s.msgs id with
  | some a, some m =>
    match m.sender with
    | .group _ _ _ =>
      let gone := { s with answers := adel s.answers id, msgs := adel s.msgs id }
      match aget s.pends id with
      | none => .next gone
      | some p =>
        if !s.backUp m || s.answerHeld p then .next s
        else match a with
        | .refuse c => .next (gone.answerFault id p m.qid c)
        | .served es => if s.pendBusy id then .next s else .next ({ s with answers := adel s.answers id }.getServed id es)
        | .granted _ _ | .ok _ | .full | .stale | .stat _ =>
          let h := ((s.group? p.key).map Group.freeHandle).getD 0
          let w := answerWords p h a
          if s.groupEnded p.key then
            .next ({ gone with pends := adel s.pends id }.modGroup p.key fun g => g.resvAfter p m a)
          else if !s.answerFree p w.length then .next s
          else
            let s := { gone with pends := adel s.pends id }
            let s := s.modGroup p.key fun g => g.resvAfter p m a
            .next (((s.putResult p.ag p.d p.act w).advance p.ag).wake p.key)
    | .port _ _ | .host _ _ _ | .far _ _ => .next s
  | _, _ => .next s

/-- A port put that failed with a cause (R39, R299). -/
def State.portPutFailed (s : State) (die : Nat) (m : Msg) (cause : Nat) : State :=
  match m.carry with
  | none => s
  | some (.fault ptag e) => s.overflowAdd die ptag e
  | some (.completion ptag tag q) => s.completionFail die ptag tag q cause
  | some (.overflow _) => s

/-- A port put that was accepted: the head of an overflow list leaves it (R299). -/
def State.portPutDone (s : State) (die : Nat) (m : Msg) : State :=
  match m.carry with
  | some (.overflow ptag) =>
    s.modDie die fun x =>
      match (agetD x.overflow ptag.toNat []).tail with
      | [] => { x with overflow := adel x.overflow ptag.toNat }
      | l => { x with overflow := aput x.overflow ptag.toNat l }
  | some (.fault _ _) | some (.completion _ _ _) | none => s

/-- The status a home port's answer to a host's request has in DONE (R366, R369). -/
def Answer.status : Answer → Nat
  | .full => 1
  | .stale => 2
  | .refuse c => doneStatus c
  | .granted _ _ | .ok _ | .stat _ | .served _ => 0

/-- The cause a failed put is reported with: that of the refusal, 5 for STALE, 11 for FULL (R39). -/
def Answer.cause : Answer → Option Nat
  | .refuse c => some c
  | .stale => some 5
  | .full => some 11
  | .granted _ _ | .ok _ | .stat _ | .served _ => none

/-- A standing host GET after an element that had to wait or came from another panel: linked again at its home here, or asked again
there (R369); at a queue re-created meanwhile it is dropped (log 60). -/
def State.standAgain (s : State) (id : Nat) (m : Msg) : State :=
  if m.home.panel = s.panelNo then
    match s.homeCheck m.home m.ptag m.gen true with
    | .error _ => { s with msgs := adel s.msgs id }
    | .ok (k, q) => (s.getLink id k { m with linked := false, told := true } q).workQueue k
  else
    let n := sget 0#32 s.streams m.stream
    let again : Msg :=
      { m with seq := n, sent := s.clock, out := false, accepted := false, told := true, via := none }
    { s with msgs := aput s.msgs id again, streams := sset 0#32 s.streams m.stream (n + 1#32) }

/-- A port's put that has an answer, or has timed out, makes room for those that wait (R241). -/
def State.portPutOver (s : State) (die : Nat) (m : Msg) (cause : Option Nat) : State :=
  (match cause with
    | none => s.portPutDone die m
    | some c => s.portPutFailed die m c).sendWaiting die

/-- PORT_PUT_ANSWER: the answer to a port's own put, or to a host's request (R39, R299, R369, R397). A standing GET that asks again
waits while its stream has 65,536 requests out (R241). -/
def execPortPutAnswer (id : Nat) (s : State) : Host.Outcome State Fault Refusal :=
  match aget s.answers id, aget s.msgs id with
  | some a, some m =>
    let gone := { s with answers := adel s.answers id, msgs := adel s.msgs id }
    if !s.backUp m then .next s
    else match m.sender with
    | .port die _ => .next (gone.portPutOver die m a.cause)
    | .host c seq st =>
      match a with
      | .served es =>
        if st && m.home.panel ≠ s.panelNo && !gone.streamRoom m.sender m.ptag m.qid then .next s
        else
          let s := { s with answers := adel s.answers id }.hostServed id m c seq st es
          .next (if st then s.standAgain id m else s)
      | .granted _ _ | .ok _ | .full | .stale | .refuse _ | .stat _ =>
        .next (if st && m.told then gone else gone.sendDone c m.ptag m.srcDie seq a.status 0)
    | .group _ _ _ | .far _ _ => .next s
  | _, _ => .next s

/-- A request as it travels to another panel (R235, R241). -/
def Msg.wire (m : Msg) (s : State) : WireMsg :=
  let sz := fun (z : Option (BitVec 3)) => z.getD 7#3
  let op : Nat × BitVec 3 × Nat × BitVec 32 × List Elem := match m.ask with
    | .reserve n => (0, 7#3, n, 0#32, [])
    | .qrp z es => (if qidKind m.qid = 1 then 4 else 1, sz z, es.length, 0#32, es)
    | .fill p es => (2, 7#3, es.length, p, es)
    | .put z p es => (2, z, es.length, p, es)
    | .cancel p n => (3, 7#3, n, p, [])
    | .get z n t => (if t then 6 else 5, z, n, 0#32, [])
    | .stat => (7, 7#3, 0, 0#32, [])
  { op := BitVec.ofNat 8 op.1, srcPanel := s.panelNo, dstPanel := m.home.panel, srcDie := BitVec.ofNat 8 m.srcDie, uid := m.stream,
    qid := m.qid, die := m.home.die, port := m.home.port, slot := m.home.slot, gen := m.gen, ptag := m.ptag, seq := m.seq,
    size := op.2.1, count := BitVec.ofNat 16 op.2.2.1, pos := op.2.2.2.1,
    elems := op.2.2.2.2.map fun e => (e.data, e.tag), prod := m.who }

/-- The withdrawal of a request whose home lies on another panel, on its way (R232, R248). -/
def State.withdrawFar (s : State) (m : Msg) : State :=
  let w : WireMsg := { m.wire s with op := 8#8 }
  { s with transit := aput s.transit s.fresh { src := s.physDie? m.srcDie, msg := w }, fresh := s.fresh + 1 }

/-- QUEUE_TIMEOUT: the home port has not answered an instruction or a port's put within 2^24 clocks (R232). -/
def execQueueTimeout (id : Nat) (s : State) : Host.Outcome State Fault Refusal :=
  match aget s.msgs id with
  | none => .next s
  | some m =>
    if m.dead || m.accepted || m.ask.isFill || (aget s.answers id).isSome || s.clock < m.sent + Config.timeoutClocks then .next s
    else
      let s' := { s with msgs := aput s.msgs id { m with dead := true, carry := none } }
      let s' := if m.out then s'.withdrawFar m else s'
      match m.sender with
      | .group _ _ _ =>
        match aget s.pends id with
        | none => .next s
        | some p => if s.answerHeld p then .next s else .next (s'.answerFault id p m.qid 8)
      | .port die _ => .next (s'.portPutOver die m (some 8))
      | .host _ _ _ | .far _ _ => .next s

/-- FAULT_OVERFLOW_PUT: the oldest element of a process's overflow list is put again (R299); an error that the read of the fault
queue's entry meets is poisoned and reported (R3, R382). -/
def execFaultOverflowPut (die ptag : Nat) (s : State) : Host.Outcome State Fault Refusal :=
  let t := BitVec.ofNat 12 ptag
  let busy := (s.msgs.any fun e => e.2.sender == .port die 0 && !e.2.dead && e.2.carry == some (.overflow t)) ||
    (s.die die).putWait.any fun w => w.carry == .overflow t
  match agetD (s.die die).overflow ptag [], s.transQ die t 0#32 .none false [0] with
  | e :: _, .ok (h, g) =>
    if busy then .next s
    else .next (s.portSend die { port := 0, ptag := t, qid := 0#32, home := h, gen := g, elem := e, carry := .overflow t })
  | _ :: _, .error _ => .next (if s.qBusy die t 0 then s else s.qMet die t 0)
  | [], _ => .next s

/-- QFAULT RING (R252, R396). -/
def State.ringNotice (s : State) (k : Nat) (q : Queue) : State :=
  (s.notice (k / 16384) q.owner { code := 35, cause := 10, detail := (s.qidOf k q).toNat, source := 3 }).draw

/-- Bytes of one ring (R249). -/
def Queue.ringBytes (q : Queue) (l : Landing) : Nat := 0x40 + q.elemSize * l.slots

/-- Whether a binding's rings lie in a team's local memory and apart (R252). -/
def Queue.ringsOk (q : Queue) (l : Landing) (limit : Nat) : Bool :=
  let n := q.ringBytes l
  decide (l.ring0 + n ≤ limit) &&
  match l.ring1 with
  | none => true
  | some b => decide (b + n ≤ limit) && (decide (l.ring0 + n ≤ b) || decide (b + n ≤ l.ring0))

/-- The share of a process that a TAG names on a die: the most recent (R41, R251). -/
def State.shareByTag (s : State) (d : Nat) (ptag : BitVec 12) (tag : Word) : Option (Nat × Share) :=
  (s.die d).shares.reverse.find? fun e => e.2.ptag == ptag && recTag e.2.recd == tag

/-- A landing binding activated for a team, or found impossible (R251, R252). -/
def State.bindOne (s : State) (k : Nat) (q : Queue) (l : Landing) (n : Nat) (t : Team) : State :=
  if q.ringsOk l (recL t.recd) then s.putQueue k { q with landing := some { l with active := some n, delivered := 0, stopped := false } }
  else (s.putQueue k { q with landing := some { l with active := none } }).ringNotice k q

/-- What a team's placement, or a slot's configuration, does to one slot's binding: `first` marks the first look at a share,
at which a team index that the share does not place is reported (R251, R252). -/
def State.bindSlot (s : State) (k : Nat) (d : Nat) (n : Nat) (t : Team) (first : Bool) : State :=
  match aget s.queues k with
  | none => s
  | some q =>
    match q.landing with
    | none => s
    | some l =>
      match s.shareByTag d q.owner l.tag with
      | none => s
      | some (id, x) =>
        if k / 16384 ≠ d || t.ptag ≠ q.owner || t.share ≠ id || l.active = some n then s
        else if t.index = l.team then s.bindOne k q l n t
        else if first && !(decide (mapFirst x.map ≤ l.team.toNat) && decide (l.team.toNat < mapFirst x.map + mapCount x.map)) then
          s.ringNotice k q
        else s

/-- Every binding of a die looked at when a team has been placed (R251). -/
def State.bindLandings (s : State) (d n : Nat) (t : Team) (first : Bool) : State :=
  (s.queues.map (·.1)).foldl (fun s k => s.bindSlot k d n t first) s

/-- CONSUMED of a ring (R249). -/
def State.ringConsumed (s : State) (d n a : Nat) : State × Option Nat := s.localGet d n (a + 0x20) 4

/-- The pieces an element is written in: 64-byte blocks, or less. -/
def ringChunks (a : Nat) (l : List Byte) : List (Nat × List Byte) :=
  if l.length < 64 then [(a, l)] else (List.range (l.length / 64)).map fun i => (a + 64 * i, (l.drop (64 * i)).take 64)

/-- Chunks written in turn; `false` where one is not performed. -/
def State.putChunks (s : State) (d n : Nat) : List (Nat × List Byte) → State × Bool
  | [] => (s, true)
  | c :: t =>
    match s.localSet d n c.1 c.2 with
    | (s, false) => (s, false)
    | (s, true) => State.putChunks s d n t

/-- Element `m` since activation written to its slot of one ring, and DELIVERED raised, modulo 2^32 (R249, R250). -/
def State.putRing (s : State) (d n a m size slots : Nat) (e : Elem) : State × Bool :=
  match s.putChunks d n (ringChunks (a + 0x40 + size * (m % slots)) e.data) with
  | (s, false) => (s, false)
  | (s, true) => s.localSet d n a (bytesOf 4 (m + 1))

/-- Whether the writes of an element into one ring can be performed: its partial writes and DELIVERED's meet no error or poison; one
they meet is reported (R396). -/
def State.ringTakes (s : State) (d n a m size slots : Nat) (e : Elem) : State × Bool :=
  let parts := (ringChunks (a + 0x40 + size * (m % slots)) e.data).filter fun c => c.2.length != 64 || c.1 % 64 != 0
  ((a, 4) :: parts.map fun c => (c.1, c.2.length)).foldl (fun r c =>
    let x := r.1.localGet d n c.1 c.2; (x.1, r.2 && x.2.isSome)) (s, true)

/-- RING_DELIVERY: the element at HEAD of a queue with an active binding goes to its rings (R250, R251, R396). R396 speaks only of
the ring's writes, and where one of them cannot be performed none is: a read of CONSUMED that meets an error or poison stops the delivery in the same way (log 59). R290 does not
place the delivery: the window slot it frees takes a cellar move from the next clock (log 58). -/
def execRingDelivery (die port slot : Nat) (s : State) : Host.Outcome State Fault Refusal :=
  let k := queueKey die port slot
  match aget s.queues k with
  | none => .next s
  | some q =>
    match q.landing with
    | none => .next s
    | some l =>
      match l.active, takeFrom q.pos 1 with
      | some n, some ([e], rest) =>
        let current := match s.team? die n, s.shareByTag die q.owner l.tag with
          | some t, some (id, _) => t.share == id && t.saved.isNone
          | _, _ => false
        let rings := l.ring0 :: l.ring1.toList
        let room := fun (a : Nat) => 
          s.rangeBusy die n a 64 || s.rangeBusy die n (a + 0x40 + q.elemSize * (l.delivered % l.slots)) q.elemSize
        if l.stopped || !current || s.portBusy k || rings.any room then .next s
        else
          let r := rings.foldl (fun (r : State × List (Option Nat)) a =>
            let c := r.1.ringConsumed die n a; (c.1, r.2 ++ [c.2])) (s, [])
          let stop := fun (s : State) =>
            (s.putQueue k { q with landing := some { l with stopped := true } }).ringNotice k q
          if r.2.any (·.isNone) then .next (stop r.1)
          else if !(r.2.all fun c => decide ((l.delivered % 2 ^ 32 + 2 ^ 32 - c.getD 0 % 2 ^ 32) % 2 ^ 32 < l.slots)) then .next r.1
          else
            let t := rings.foldl (fun (t : State × Bool) a =>
              let x := t.1.ringTakes die n a l.delivered q.elemSize l.slots e; (x.1, t.2 && x.2)) (r.1, true)
            if !t.2 then .next (stop t.1)
            else
              let w := rings.foldl (fun (w : State × Bool) a => w.1.putRing die n a l.delivered q.elemSize l.slots e) t
              let q := { q.taken s.clock rest with landing := some { l with delivered := l.delivered + 1 } }
              .next (((w.1.putQueue k q).addTraffic die q.owner e.data.length).workQueue k)
      | _, _ => .next s

/-- The target register, the offset and the producer's lanes of a cask element (R287). -/
def Elem.target (e : Elem) : Nat × Nat × List Nat :=
  let h := fieldAt e.data 0 16
  (nbits h 63 56, nbits h 55 50, lanesOf (BitVec.ofNat 64 (nbits h 127 64)))

/-- The static check of a cask element (R259). -/
def Elem.putOk (e : Elem) (rec_ : BitVec 1024) : Bool :=
  let t := e.target
  decide (t.1 < recNv rec_) && t.2.2.all fun l => decide (l + t.2.1 < recW rec_)

/-- A cask element landed in its group, if it can land now (R258). -/
def Group.land (g : Group) (e : Elem) : Option Group :=
  let t := e.target
  let tag := g.tag t.1
  let ls := t.2.2.map (· + t.2.1)
  if ls.all fun l => tag.arm.getLsbD l && !tag.filled.getLsbD l then
    let vals := (List.range ls.length).map fun i => BitVec.ofNat 32 (fieldAt e.data (16 + 4 * i) 4)
    let g := (ls.zip vals).foldl (fun g x => g.wr t.1 x.1 x.2) g
    let filled := tag.filled ||| maskOf ls
    some (g.modTag t.1 fun x =>
      let x := x.clean (maskOf ls)
      if filled = tag.arm then { x with empty := false, arm := 0#64, filled := 0#64 } else { x with filled := filled })
  else none

/-- BADPUT (R259). -/
def State.badPut (s : State) (k : Nat) (q : Queue) (qid : BitVec 32) (e : Elem) : State :=
  let t := e.target
  let p := fun i => (e.prod[i]?).getD 0
  let n : Notice :=
    { code := 35, cause := 9, source := 3, panel := p 0, die := p 1, tag := p 2, team := p 3, core := p 4, slot := p 5,
      group := p 6, count := 1, detail := qid.toNat, lanes := (maskOf t.2.2).toNat, addr := t.1 + t.2.1 * 2 ^ 8 }
  (s.addDiscards (k / 16384) q.owner 1).faultPut (k / 16384) (k % 16384 / 4096) q.owner n.bytes

/-- Whether a group's team is resident (R258). -/
def State.isResident (s : State) (gk : Nat) : Bool := ((s.teamOf? gk).map fun t => t.saved.isNone).getD false

/-- The elements of a cask considered in position order from place `i` on; `held` are the producers whose element could
not land or has not arrived (R258, R259). One for a register under test waits (R383). While the team is saved, or being saved or
restored, elements are checked and none lands. R258 leaves open whether an element still in the cellar may land and where its bytes
come from: the model's choice is that it lands from the bytes kept with its position (log 78). -/
def State.landFrom (s : State) (k gk : Nat) (qid : BitVec 32) (i : Nat) (held : List Nat) : Nat → State
  | 0 => s
  | n + 1 =>
    match aget s.queues k, s.group? gk with
    | some q, some g =>
      match (q.pos[i]?).bind (·.elem) with
      | none => State.landFrom s k gk qid (i + 1) (((q.pos[i]?).map (·.prodId)).toList ++ held) n
      | some e =>
        if e.void || held.contains e.prodId then State.landFrom s k gk qid (i + 1) held n
        else if !e.putOk (s.recOf gk) then State.landFrom ((s.badPut k q qid e).voidAt k i) k gk qid (i + 1) held n
        else match if s.regBusy (.frag (keyDie gk) (keySlot gk) (keyG gk) 0) e.target.1 || !s.isResident gk then none else g.land e with
          | none => State.landFrom s k gk qid (i + 1) (e.prodId :: held) n
          | some g' =>
            let s := { s with groups := aput s.groups gk g' }.voidAt k i
            let full := !(g'.tag e.target.1).empty
            let s := if full then (s.l1Inval (keyDie gk) g.core (· != 0)).wake gk else s
            State.landFrom (s.addTraffic (k / 16384) q.owner e.data.length) k gk qid (i + 1) held n
    | _, _ => s

/-- REGISTER_PUT_LANDING: a cask's home port considers its elements (R258, R259). R290 does not place the landing in a clock's work: the window slots it frees take cellar moves from the next
clock (log 58). -/
def execRegisterPutLanding (die port slot : Nat) (s : State) : Host.Outcome State Fault Refusal :=
  let k := queueKey die port slot
  match aget s.queues k with
  | none => .next s
  | some q =>
    match q.bound with
    | none => .next s
    | some (gk, qid) =>
      if !s.portBusy k then
        .next (((s.landFrom k gk qid 0 [] q.pos.length).modQueue k fun q => q.taken s.clock q.pos).workQueue k)
      else .next s

/-- The link that leads to a panel, by the route table in force (R235, R390). -/
def State.linkTo (s : State) (panel : BitVec 8) : Option Nat :=
  (s.routes.bind fun t => t[panel.toNat]?).bind fun b => if b.getLsbD 7 then some (bits b 4 0) else none

/-- A frame sent on a link: the counter advances, and the first frame after a confirmation is sent under the new key, with
the new epoch and counter 0 (R261, R263). -/
def Link.frameOut (x : Link) : Link :=
  match x.confirmed, x.txNext with
  | true, some k => { x with txKey := k, txEpoch := x.txEpoch + 1, txCount := 1, txNext := none, confirmed := false }
  | _, _ => { x with txCount := x.txCount + 1 }

/-- A frame leaves on a link, under the header it takes (R261). -/
def State.frameLeaves (s : State) (l : Nat) (x : FrameLoad) : State :=
  match aget s.links l with
  | none => s
  | some y =>
    let z := y.frameOut
    { s with
      links := aput s.links l z
      wireOut := s.wireOut ++ [(l, { epoch := BitVec.ofNat 8 z.txEpoch, counter := BitVec.ofNat 56 (z.txCount - 1), load := x })] }

/-- Bytes of ASCII text. -/
def asciiBytes (l : List Nat) : List Byte := l.map (BitVec.ofNat 8)

/-- "Delup" (R263). -/
def infoDelup : List Byte := asciiBytes [68, 101, 108, 117, 112]

/-- The next key of a direction (R263). -/
def nextKey (key : List Byte) (epoch : Nat) : List Byte := (Config.hkdf key [] (infoDelup ++ bytesOf 4 (epoch + 1))).take 32

/-- At counter 2^48 the sender derives the next key and sends key-ready under the current one (R263). -/
def State.rekey (s : State) (l : Nat) : State :=
  match aget s.links l with
  | none => s
  | some x =>
    if x.txNext.isNone && decide (2 ^ 48 ≤ x.txCount) then
      { s with links := aput s.links l { x with txNext := some (nextKey x.txKey x.txEpoch), confirmed := false } }.frameLeaves l .keyReady
    else s

/-- A frame sent on a link; from counter 2^48 on key-ready goes before it (R263). -/
def State.putFrame (s : State) (l : Nat) (x : FrameLoad) : State := (s.rekey l).frameLeaves l x

/-- The frames a message takes: 480 bytes of elements in each, what follows the first of 16 flits (R261, log 9). -/
def wireFrames (w : WireMsg) : Nat := max 1 (((w.elems.map fun e => e.1.length).sum + 479) / 480)

/-- A message sent over a link. -/
def State.overLink (s : State) (l : Nat) (w : WireMsg) : State :=
  (List.range (wireFrames w)).foldl (fun s i => s.putFrame l (.msg w i)) s

/-- Whether a link can carry `n` frames now (R235): those that take it up to counter 2^48 + 2^20, key-ready among them where it has not
been sent, and any once the next key is confirmed (R263, R264). A message's frames leave together (log 25). -/
def Link.fits (x : Link) (n : Nat) : Bool :=
  x.up && !x.txStopped && (x.confirmed || decide (x.txCount + n + (if x.txNext.isNone then 1 else 0) ≤ 2 ^ 48 + 2 ^ 20))

/-- Whether a link can carry `n` frames now (R235, R264): that of a router die that no live die manages is down (R378). -/
def State.linkFits (s : State) (l n : Nat) : Bool := (s.manager l).isSome && ((aget s.links l).map fun x => x.fits n).getD false

/-- Whether a link can carry elements now (R235). -/
def State.linkOpen (s : State) (l : Nat) : Bool := s.linkFits l 1

/-- A frame sent again under a fresh counter, its partner having discarded it (R262). -/
def State.replayFrame (s : State) (i : Nat) : State :=
  match s.wireOut[i]? with
  | some (l, f) => if s.linkOpen l then s.putFrame l f.load else s
  | none => s

/-- ELEMENT_FORWARD: a request, an answer or a passing element for another panel leaves through the link that the route table
names, once that link and the way to its router die are up (R235, R377, R390). A request given up before it left only passes its
number on (R232, R248). -/
def execElementForward (msg : Nat) (s : State) : Host.Outcome State Fault Refusal :=
  let free := fun (l : Nat) (src : Option Nat) (w : WireMsg) =>
    s.linkFits l (wireFrames w) && (src.map fun d => s.wayOut d (routerSite l)).getD true
  match aget s.transit msg with
  | some w =>
    match s.linkTo w.msg.dstPanel with
    | some l => if free l w.src w.msg then .next ({ s with transit := adel s.transit msg }.overLink l w.msg) else .next s
    | none => .next s
  | none =>
    match aget s.msgs msg with
    | none => .next s
    | some m =>
      if m.out || m.home.panel = s.panelNo || s.connWaits m then .next s
      else match s.linkTo m.home.panel with
        | some l =>
          if !free l (s.physDie? m.srcDie) (m.wire s) then .next s
          else if m.dead then .next ({ s with msgs := adel s.msgs msg }.overLink l { m.wire s with op := 8#8 })
          else .next ({ s with msgs := aput s.msgs msg { m with out := true } }.overLink l (m.wire s))
        | none => .next s

/-- A message is no longer a waiter anywhere. -/
def State.dropWaiter (s : State) (id : Nat) : State :=
  { s with queues := s.queues.map fun e => (e.1, { e.2 with waiters := e.2.waiters.filter (· != id) }) }

/-- A get withdrawn stands next again; its fragment stops there when its team is to be pre-empted (R248, R313). -/
def State.getStopped (s : State) (id : Nat) : State :=
  let ag := (aget s.pends id).map (·.ag)
  let s := s.getForget id
  match ag with
  | some ag => if s.preemptAsked (agKey ag) then s.modFront ag Fragment.stopHere else s
  | none => s

/-- A sleeping get withdrawn: its waiter goes, and its fragment stops; for a get at another panel the withdrawal is sent, and
its answer stops the fragment; one that has not left gives up only its number; one that has its elements, on their way to it, no
longer sleeps (R248, R278, R313). -/
def State.getWithdraw (s : State) (id : Nat) : State :=
  match aget s.msgs id with
  | none => s
  | some m =>
    if (aget s.answers id).isSome then s
    else if m.out then s.withdrawFar m
    else if m.home.panel ≠ s.panelNo then
      let s := s.getStopped id
      { s with msgs := aput s.msgs id { m with dead := true } }
    else if m.accepted then (s.dropWaiter id).getStopped id
    else s

end Sys2Proof.Machine
end

