-- ==== Sys2Proof/Machine/Links.lean ====
section
/-! DEFINITION. Delup links: what arrives over them (R235, R237), their protection (R261, R262) and rekeying (R263, R264), and
the training, loss and return of links (R376, R377, R380). -/

namespace Sys2Proof.Machine

/-- "Delup-S" (R261). -/
def infoDelupS : List Byte := infoDelup ++ asciiBytes [45, 83]

/-- The key and constant of a direction of a link: 0 sending, 1 receiving (R261, R373). -/
def Flash.linkKey (f : Flash) (l dir : Nat) : LinkKey :=
  agetD f.keys (l * 2 + dir) { key := List.replicate 32 0#8, const := 0#32 }

/-- A session key (R261). -/
def sessionKey (k : LinkKey) (sender receiver : List Byte) : List Byte :=
  (Config.hkdf k.key (sender ++ receiver) (infoDelupS ++ bytesOf 4 k.const.toNat)).take 32

/-- A LINK element on the RAS queue of a router die's managing die (R385). -/
def State.linkRas (s : State) (l detail addr : Nat) : State :=
  match s.manager l with
  | none => s
  | some d => s.rasPut d { kind := 3, struct_ := 8, unit := l, detail := detail, addr := addr }

/-- The nonce of a frame (R261). -/
def frameNonce (const : BitVec 32) (counter : BitVec 56) : List Byte := bytesOf 4 const.toNat ++ bytesOf 8 counter.toNat

/-- A link after a frame has been taken: none where the frame is discarded, with whether its tag failed (R262, R263). -/
def Link.take (x : Link) (const : BitVec 32) (f : DelupFrame) : Option Link × Bool :=
  let ok := fun key => Config.gcmVerifies key (frameNonce const f.counter) f.body f.tag
  if f.epoch = BitVec.ofNat 8 x.rxEpoch then
    if !ok x.rxKey then (none, true)
    else if (x.rxHigh.map fun h => decide (f.counter.toNat ≤ h)).getD false then (none, false)
    else (some { x with rxHigh := some f.counter.toNat }, false)
  else match x.rxNext with
    | none => (none, true)
    | some k =>
      if f.epoch ≠ BitVec.ofNat 8 (x.rxEpoch + 1) || !ok k then (none, true)
      else (some { x with rxKey := k, rxEpoch := x.rxEpoch + 1, rxHigh := some f.counter.toNat, rxNext := none }, false)

/-- What a request from another panel asks (R241). -/
def wireAsk (w : WireMsg) (stream : Nat) : Ask :=
  let es : List Elem := w.elems.map fun e =>
    { data := e.1, tag := e.2, prodId := stream, prod := w.srcPanel.toNat :: w.srcDie.toNat :: w.prod }
  match w.op.toNat with
  | 0 => .reserve w.count.toNat
  | 1 => .qrp (if w.size = 7#3 then none else some w.size) es
  | 2 => .put w.size w.pos es
  | 3 => .cancel w.pos w.count.toNat
  | 4 => .qrp none es
  | 5 => .get w.size w.count.toNat false
  | 6 => .get w.size w.count.toNat true
  | _ => .stat

/-- A request of another panel arrives over link `l`; a second copy of a number already held is discarded (R237, R241). One that
has been withdrawn keeps its number and has no effect (R248). -/
def State.requestIn (s : State) (l : Nat) (w : WireMsg) : State :=
  let x : Sender := .far w.srcPanel w.uid
  let r := s.streamOf (senderKey x w.ptag w.qid)
  let d := (w.seq - sget 0#32 r.1.expects r.2).toNat
  if 65536 ≤ d || r.1.msgs.any fun e => e.2.stream == r.2 && e.2.seq == w.seq && !e.2.ask.isFill then s
  else
    let m : Msg :=
      { sender := x, qid := w.qid, home := { panel := s.panelNo, die := w.die, port := w.port, slot := w.slot }, gen := w.gen,
        ptag := w.ptag, stream := r.2, seq := w.seq, ask := wireAsk w r.2, sent := s.clock, srcDie := w.srcDie.toNat,
        dead := w.op == 8#8, via := some l, who := w.prod }
    { r.1 with msgs := aput r.1.msgs r.1.fresh m, fresh := r.1.fresh + 1 }

/-- What an answer from another panel says. -/
def answerOfWire (w : WireMsg) : Option Answer :=
  let op := w.op.toNat
  if op = 0x40 then some (.granted w.pos w.count.toNat)
  else if op = 0x41 then some (.ok w.count.toNat)
  else if op = 0x42 then some .full
  else if op = 0x43 then some .stale
  else if op = 0x44 then some (.stat (w.elems.map fun e => BitVec.ofNat 32 (natOfBytes e.1)))
  else if 0x50 ≤ op && op < 0x60 then some (.refuse (op - 0x50))
  else if op = 0x60 then some (.served (w.elems.map fun e => { data := e.1, tag := e.2 }))
  else none

/-- An answer of another panel arrives over link `l` at the request it answers; the acceptance of a get lets it sleep, or has it
withdrawn where its team is to be pre-empted (R233, R248). -/
def State.answerIn (s : State) (l : Nat) (w : WireMsg) : State :=
  match s.msgs.find? fun e => e.2.stream == w.uid && e.2.seq == w.seq && e.2.out with
  | none => s
  | some (id, m) =>
    if m.dead then { s with msgs := adel s.msgs id }
    else match answerOfWire w with
      | some a => { s with answers := aput s.answers id a, msgs := aput s.msgs id { m with via := some l } }
      | none =>
        if w.op = 0x45#8 then
          let m' := { m with accepted := true }
          let s := { s with msgs := aput s.msgs id m' }.tellHost id m'
          if s.getStops m then s.withdrawFar m else s
        else if w.op = 0x46#8 then
          match m.sender with
          | .host c seq false => { s with msgs := adel s.msgs id }.sendDone c m.ptag m.srcDie seq 0 0
          | .host _ _ true | .group _ _ _ | .port _ _ | .far _ _ => s.getStopped id
        else s

/-- The withdrawal of a request of another panel: a waiter goes, a request not served yet loses its effect, and one that has not
come yet will have none (R232, R248). -/
def State.withdrawIn (s : State) (l : Nat) (w : WireMsg) : State :=
  match s.msgs.find? fun e => e.2.sender == .far w.srcPanel w.uid && e.2.seq == w.seq && !e.2.ask.isFill with
  | some (id, m) =>
    if m.accepted then { s.dropWaiter id with msgs := adel s.msgs id }.wireAnswer m w.srcPanel w.uid 0x46 0 0#32 []
    else { s with msgs := aput s.msgs id { m with dead := true } }
  | none => s.requestIn l w

/-- One message taken from a frame of a link: passed on, or an answer, a withdrawal or a request for this panel (R235). -/
def State.wireIn (l : Nat) (s : State) (w : WireMsg) : State :=
  if w.dstPanel ≠ s.panelNo then { s with transit := aput s.transit s.fresh { src := none, msg := w }, fresh := s.fresh + 1 }
  else if w.op = 8#8 then s.withdrawIn l w
  else if w.op.toNat < 8 then s.requestIn l w
  else s.answerIn l w

/-- A frame taken from a link: nothing is released before its tag verifies, and every tag failure is reported (R262). -/
def State.takeFrame (s : State) (l : Nat) (f : DelupFrame) : Option State × State :=
  match aget s.links l with
  | none => (none, s)
  | some x =>
    if !x.up || (s.manager l).isNone then (none, s)
    else match x.take (s.flash.linkKey l 1).const f with
      | (some y, _) => (some { s with links := aput s.links l y }, s)
      | (none, true) => (none, s.linkRas l 0 0)
      | (none, false) => (none, s)

/-- DELUP_FRAME_RECEIVE (R235, R262). -/
def execDelupFrameReceive (link : Nat) (f : DelupFrame) (s : State) : Host.Outcome State Fault Refusal :=
  match s.takeFrame link f with
  | (some s, _) => .next (f.carried.foldl (State.wireIn link) s)
  | (none, s) => .next s

/-- REKEY_START: at counter 2^48 the sender derives the next key and sends key-ready (R263). -/
def execRekeyStart (link : Nat) (s : State) : Host.Outcome State Fault Refusal :=
  match aget s.links link with
  | none => .next s
  | some x =>
    .next (if x.up && !x.txStopped then s.rekey link else s)

/-- KEY_READY_RECEIVE: the receiver verifies the frame, derives the same key and confirms, in a frame of its own direction where that
still takes one (R263, R264). -/
def execKeyReadyReceive (link : Nat) (f : DelupFrame) (s : State) : Host.Outcome State Fault Refusal :=
  match s.takeFrame link f with
  | (none, s) => .next s
  | (some s, _) =>
    let s := { s with links := amod s.links link fun x => { x with rxNext := some (nextKey x.rxKey x.rxEpoch) } }
    .next (if s.linkOpen link then s.putFrame link .confirm else s)

/-- KEY_CONFIRM_RECEIVE: the sender verifies the frame and switches at its next one (R262, R263). -/
def execKeyConfirmReceive (c : ConfirmFrame) (s : State) : Host.Outcome State Fault Refusal :=
  match s.takeFrame c.link c.frame with
  | (none, s) => .next s
  | (some s, _) =>
    .next { s with links := amod s.links c.link fun x => if x.txNext.isSome && !x.txStopped then { x with confirmed := true } else x }

/-- REKEY_STOP: no confirmation by counter 2^48 + 2^20, so the sender stops, and the link stays down (R264). -/
def execRekeyStop (link : Nat) (s : State) : Host.Outcome State Fault Refusal :=
  match aget s.links link with
  | none => .next s
  | some x =>
    if !x.confirmed && !x.txStopped && decide (2 ^ 48 + 2 ^ 20 ≤ x.txCount) then
      .next ({ s with links := aput s.links link { x with txStopped := true, up := false } }.linkRas link 0 0)
    else .next s

/-- A trained link: its session is new unless the retraining keeps it (R261, R380, R387). -/
def Link.trained (x : Link) (tx rx : LinkKey) (t : TrainInfo) (keep : Bool) : Link :=
  let x := { x with up := true, training := none }
  if keep then x
  else
    { x with
      fastOut := t.fastOut, fastIn := t.fastIn, partner := t.partner, partnerLink := t.partnerLink
      txKey := sessionKey tx t.ours t.theirs, rxKey := sessionKey rx t.theirs t.ours
      txEpoch := 0, rxEpoch := 0, txCount := 0, rxHigh := none, txNext := none, confirmed := false, rxNext := none }

/-- Whether a training begun at a clock has had its 500 ms (R380). -/
def State.trainOver (s : State) (since : Nat) : Bool := decide (since + Config.trainClocks ≤ s.clock)

/-- The LANE_SWAP that pauses a link, if one is in progress, completes with a status (R375, R387). -/
def State.swapDone (s : State) (delup : Bool) (link status : Nat) : State :=
  let die := if delup then s.manager link else some (link / 4)
  match die.bind fun d => ((s.die d).cmdBusy.map fun c => (d, c)) with
  | some (d, c) =>
    if fieldAt c 0 1 = 8 && fieldAt c 0x08 1 = (if delup then 1 else 0) && fieldAt c 0x09 1 = (if delup then link else link % 4) then
      s.cmdDone d c status
    else s
  | none => s

/-- The frame that both sides verify in a new session, the partner's first; a retrain for a lane swap has none (R380). -/
def State.proveLink (s : State) (l : Nat) (y : Link) (t : TrainInfo) : State :=
  match y.take (s.flash.linkKey l 1).const t.proof with
  | (some z, _) => (({ s with links := aput s.links l z }.frameLeaves l .proof).linkRas l y.partnerLink.toNat y.partner.toNat).swapDone true l 0
  | (none, true) => s.linkRas l 0 0
  | (none, false) => s

/-- LINK_TRAINING_COMPLETE: a Delup link in training, within its 500 ms, comes up once the frame has verified, and is reported with
its partner; a frame whose tag fails is reported, and the training goes on (R262); a die-to-die link (key: die and port) returns (R236,
R377, R380, R385). -/
def execLinkTrainingComplete (delup : Bool) (link : Nat) (t : TrainInfo) (s : State) : Host.Outcome State Fault Refusal :=
  if delup then
    match aget s.links link with
    | none => .next s
    | some x =>
      match x.training with
      | none => .next s
      | some (since, keep) =>
        if s.trainOver since || x.txStopped then .next s
        else
          let y := x.trained (s.flash.linkKey link 0) (s.flash.linkKey link 1) t keep
          .next (if keep then ({ s with links := aput s.links link y }.linkRas link y.partnerLink.toNat y.partner.toNat).swapDone true link 0
            else s.proveLink link y t)
  else if s.d2dTrain.contains link then
    .next (({ s with d2dDown := nsErase s.d2dDown link, d2dTrain := nsErase s.d2dTrain link }.rasPut
      (link / 4) { kind := 3, struct_ := 7, unit := link % 4 }).swapDone false link 0)
  else .next s

/-- LINK_TRAINING_TIMEOUT: a Delup link that has not finished training within 500 ms, or a die-to-die link whose training ends
without success, is down and is reported (R376, R380). -/
def execLinkTrainingTimeout (delup : Bool) (link : Nat) (s : State) : Host.Outcome State Fault Refusal :=
  if delup then
    match aget s.links link with
    | none => .next s
    | some x =>
      if !((x.training.map fun t => s.trainOver t.1).getD false) then .next s
      else .next (({ s with links := aput s.links link { x with training := none, up := false } }.linkRas link 0 0).swapDone true link 2)
  else if s.d2dTrain.contains link then
    .next (({ s with d2dDown := nsInsert s.d2dDown link, d2dTrain := nsErase s.d2dTrain link }.rasPut
      (link / 4) { kind := 3, struct_ := 7, unit := link % 4 }).swapDone false link 2)
  else .next s

/-- LINK_DOWN: a link fails and is reported; what would cross it waits (R235, R377, R385). -/
def execLinkDown (delup : Bool) (link : Nat) (s : State) : Host.Outcome State Fault Refusal :=
  if delup then
    match aget s.links link with
    | none => .next s
    | some x =>
      if x.up then .next ({ s with links := aput s.links link { x with up := false } }.linkRas link 0 0) else .next s
  else if portHasLink (link / 4) (link % 4) && !s.d2dDown.contains link && decide (link < 512) then
    .next ({ s with d2dDown := nsInsert s.d2dDown link }.rasPut (link / 4) { kind := 3, struct_ := 7, unit := link % 4 })
  else .next s

end Sys2Proof.Machine
end

