-- ==== Sys2Proof/WellFormed.lean ====
section
/-! DEFINITION. Which terms of `Instr` an encoding or an event of the panel can be: what R61, R63 and R80 to R84
reject whatever the group, and the ranges of places (R8, R13, R31). What depends on the group (its Nv, Ns and W)
is checked at issue (R85). -/

namespace Sys2Proof

/-- A negate bit without a guard register is not admitted (R63). -/
def Guard.wf (g : Guard) : Bool := g.g != 0#4 || !g.neg

/-- Rounding modes outside CVT (R105). -/
def RMode.plain (m : RMode) : Bool := m != .sr

/-- The integer formats (R96). -/
def NumFmt.isInt : NumFmt → Bool
  | .int8 | .uint8 | .int16 | .int32 | .uint32 => true
  | .f32 | .f16 | .bf16 | .f8e4 | .f8e5 => false

/-- Elements per register (R151). -/
def NumFmt.elems : NumFmt → Nat
  | .f32 | .int32 | .uint32 => 1
  | .f16 | .bf16 | .int16 => 2
  | .f8e4 | .f8e5 | .int8 | .uint8 => 4

/-- The element index of CVT lies in the range of R152. -/
def cvtIndexOk (src dst : NumFmt) (j : BitVec 2) : Bool :=
  (src.elems == 1 || decide (j.toNat < src.elems)) && (dst.elems == 1 || decide (j.toNat < dst.elems)) &&
  (src.elems != 1 || dst.elems != 1 || j == 0#2)

/-- The ILLOP conditions of CVT that R151, R152 and R154 give. -/
def cvtOk (src dst : NumFmt) (rm : RMode) (sat : Bool) (j : BitVec 2) : Bool :=
  src != dst && (!(src.isInt && dst.isInt) || rm == .rne) && !(sat && dst.isInt) &&
  (rm != .sr || (src == .f32 && !dst.isInt)) && cvtIndexOk src dst j

/-- Loads accept relaxed, acquire and sequentially consistent orderings (R194). -/
def Ordering.loadOk (o : Ordering) : Bool := o != .rel

/-- Stores accept relaxed, release and sequentially consistent orderings (R194). -/
def Ordering.storeOk (o : Ordering) : Bool := o != .acq

/-- RED accepts relaxed and release (R203). -/
def Ordering.redOk (o : Ordering) : Bool := o == .rlx || o == .rel

/-- The floating operations of ATOM and RED have no 64-bit form (R201). -/
def AtomOp.wideOk (op : AtomOp) (wide : Bool) : Bool :=
  !wide || (op != .fadd && op != .fmin && op != .fmax)

/-- A die of the panel (R8). -/
def dieOk (d : Nat) : Bool := decide (d < Config.nDies)

/-- A team slot of a die (R31) and a group of its team (R28). -/
def groupOk (d slot g : Nat) : Bool := dieOk d && decide (slot < Config.nSlots) && decide (g < 16)

/-- A queue slot of a port (R13, R238). -/
def portOk (d p q : Nat) : Bool := dieOk d && decide (p < 4) && decide (q < 4096)

/-- A Delup link (R10) or a die-to-die link, numbered die * 4 + port (R9). -/
def linkOk (delup : Bool) (l : Nat) : Bool := decide (l < if delup then 32 else 512)

/-- An agent of the panel. -/
def Agent.wf : Agent → Bool
  | .frag d s g e => groupOk d s g && decide (e < Config.nFrags)
  | .helper d s g h => groupOk d s g && decide (h < 63)
  | .seq d s => groupOk d s 0

/-- The ten-bit opcodes of R87. -/
def opcodeAssigned (op : Nat) : Bool :=
  (decide (0x001 ≤ op ∧ op ≤ 0x013)) || (decide (0x080 ≤ op ∧ op ≤ 0x09D)) ||
  [0x0C0, 0x0C1, 0x0C4, 0x0C8, 0x0C9, 0x0CC, 0x0CD, 0x0CE, 0x0CF, 0x0D0, 0x0D1, 0x0D2, 0x0D3, 0x0D4, 0x0D9,
    0x0DD].contains op ||
  (decide (0x100 ≤ op ∧ op ≤ 0x107)) || (decide (0x110 ≤ op ∧ op ≤ 0x116)) || (decide (0x120 ≤ op ∧ op ≤ 0x124)) ||
  (decide (0x180 ≤ op ∧ op ≤ 0x182)) || (decide (0x190 ≤ op ∧ op ≤ 0x194)) || (decide (0x1C0 ≤ op ∧ op ≤ 0x1C6)) ||
  (decide (0x1C8 ≤ op ∧ op ≤ 0x1CA)) || (decide (0x1CC ≤ op ∧ op ≤ 0x1CD)) || (decide (0x1E0 ≤ op ∧ op ≤ 0x1E4)) ||
  (decide (0x240 ≤ op ∧ op ≤ 0x246)) || (decide (0x248 ≤ op ∧ op ≤ 0x24B)) || (decide (0x260 ≤ op ∧ op ≤ 0x263)) ||
  (decide (0x2C0 ≤ op ∧ op ≤ 0x2C3)) || (decide (0x300 ≤ op ∧ op ≤ 0x305))

/-- The well-formed terms. -/
def Instr.wf : Instr → Bool
  | .nop | .join | .regang | .tret => true
  | .bra _ g | .brx _ g | .call _ _ g | .callx _ _ g | .ret _ g | .exit g | .yield g | .trap _ g | .spawn _ g
  | .ltrig g | .csrr _ _ g | .csrw _ _ g => g.wf
  | .loop _ _ _ | .endlp _ _ | .exitS _ _ => true
  | .iadd _ _ _ _ g | .iaddImm _ _ _ _ g | .isub _ _ _ _ g | .isubImm _ _ _ _ g | .addc _ _ _ _ g
  | .subb _ _ _ _ g | .imul _ _ _ g | .imulImm _ _ _ g | .imulh _ _ _ _ g | .imad _ _ _ _ g
  | .imadw _ _ _ _ _ g | .imin _ _ _ _ g | .iminImm _ _ _ _ g | .imax _ _ _ _ g | .imaxImm _ _ _ _ g
  | .iabs _ _ _ g | .ineg _ _ _ g | .and _ _ _ g | .andImm _ _ _ g | .or _ _ _ g | .orImm _ _ _ g
  | .xor _ _ _ g | .xorImm _ _ _ g | .andn _ _ _ g | .andnImm _ _ _ g | .shl _ _ _ g | .shlImm _ _ _ g
  | .shr _ _ _ g | .shrImm _ _ _ g | .sar _ _ _ g | .sarImm _ _ _ g | .rol _ _ _ g | .rolImm _ _ _ g
  | .bfx _ _ _ _ g | .bfi _ _ _ _ g | .popc _ _ g | .clz _ _ g | .brev _ _ g | .icmp _ _ _ _ _ g
  | .icmpImm _ _ _ _ _ g | .sel _ _ _ _ g | .mov _ _ _ g | .movi _ _ g | .lea _ _ _ _ _ g
  | .leaImm _ _ _ _ _ g => g.wf
  | .bfxImm _ _ _ len _ g => g.wf && decide (len.toNat ≤ 32)
  | .fadd _ _ _ rm g | .fsub _ _ _ rm g | .fmul _ _ _ rm g | .ffma _ _ _ _ rm g | .fsqrt _ _ rm g
  | .padd2 _ _ _ _ rm g | .pmul2 _ _ _ _ rm g | .pfma2 _ _ _ _ _ rm g | .pdot2 _ _ _ _ _ rm g
  | .scal _ _ _ _ rm g => g.wf && rm.plain
  | .fmin _ _ _ g | .fmax _ _ _ g | .fcmp _ _ _ _ g | .fclass _ _ g | .frcp _ _ g | .frsq _ _ g | .fex2 _ _ g
  | .flg2 _ _ g | .fsin _ _ g | .fcos _ _ g | .idot4 _ _ _ _ _ _ _ g | .cbdec _ _ _ _ g => g.wf
  | .cvt _ _ c src dst rm sat j g =>
    g.wf && cvtOk src dst rm sat j && (dst.elems != 1 || (c.r == 0#10 && !c.pol))
  | .shfl _ _ _ _ _ g | .matchLanes _ _ _ _ g | .lred _ _ _ g | .lscan _ _ _ _ g => g.wf
  | .vote _ _ m wide g => g.wf && (!wide || m == .ballot)
  | .ld _ _ _ _ o _ g | .ldl _ _ _ _ o g | .ldu _ _ _ _ o _ g => g.wf && o.loadOk
  | .st _ _ _ _ o _ g | .stl _ _ _ _ o g => g.wf && o.storeOk
  | .ldp _ _ _ _ _ g | .stp _ _ _ _ _ g | .pref _ _ _ g => g.wf
  | .atom _ _ _ op wide _ _ g => g.wf && op.wideOk wide
  | .acas _ _ _ _ _ _ _ g => g.wf
  | .red _ _ op wide _ o g => g.wf && op.wideOk wide && o.redOk
  | .fence _ _ g | .binit _ _ g | .barv _ _ g | .bwait _ _ g | .csub _ _ g | .wqry _ _ g | .qres _ _ _ g
  | .qput _ _ _ _ _ _ g | .qrp _ _ _ _ _ _ g | .qget _ _ _ _ _ g | .qtry _ _ _ _ _ g | .qcan _ _ g
  | .qstatQ _ _ g | .qstatR _ _ g | .gname _ g | .gfree g | .rput _ _ _ _ g | .await _ _ g => g.wf
  | .recruit _ _ _ _ _ _ => true
  | .hnext g | .hquit g => g.wf
  | .hjoin _ _ => true
  | .hjoinComplete d s g => groupOk d s g
  | .mwin _ _ g | .mlend _ _ g | .mrd _ _ _ _ g | .mwr _ _ _ g => g.wf
  | .mma _ _ _ _ ring k _ => decide (ring.toNat ≤ 8) && (ring != 0#4 || k == 0#2)
  | .mscale _ _ _ _ _ _ g | .mclr _ _ _ g | .mtab _ _ _ g | .msig _ _ _ _ g | .mdrn _ _ _ _ _ _ g => g.wf
  | .mmaStep d s | .mmaStepCommit d s | .contextSave d s => groupOk d s 0
  | .entryDieCheck d | .launchForward d | .forwardedCopyTake d | .teamPlacement d | .drainTarget d
  | .trafficWindow d | .workDeal d | .resume d | .kill d | .preempt d | .release d | .teamResume d
  | .invalidateVa d | .invalidateQid d | .process d | .slot d | .share d | .routes d | .rowRepair d _
  | .rowRepairComplete d _ | .laneSwap d _ | .retireCore d | .excludeDie d | .renumber d | .keyInstall d
  | .linkReset d | .selftest d _ | .port d | .targetedTestStart d | .targetedTestComplete d _ | .thermalReport d
  | .refusedCommand d => dieOk d
  | .groupExchange d s g | .pendingExchange d s g | .groupEnd d s g | .preemptStopBound d s g => groupOk d s g
  | .clauseStart ag => ag.wf
  | .loadDataReturn _ _ => true
  | .atomicAtHomeSlice _ lane => decide (lane < 64)
  | .l2Eviction d line => dieOk d && decide (line < Config.stackBytes / 256)
  | .recordStart d c _ _ | .recordFinish d c _ _ => dieOk d && decide (c < Config.nCores)
  | .reservationRequest _ | .putDataArrival _ | .getRequest _ | .queueAnswer _ | .queueTimeout _
  | .waiterResend _ | .elementForward _ | .portPutAnswer _ => true
  | .cellarMoveComplete d p q | .ringDelivery d p q | .registerPutLanding d p q => portOk d p q
  | .faultOverflowPut d t => dieOk d && decide (t < 4096)
  | .delupFrameReceive l _ | .rekeyStart l | .keyReadyReceive l _ | .keyConfirmReceive ⟨l, _⟩ | .rekeyStop l =>
    linkOk true l
  | .pageWalkComplete d t p => dieOk d && decide (t < 4096) && decide (p < 2 ^ 32)
  | .helperIterationTimeout d s g h => groupOk d s g && decide (h < 63)
  | .ack _ | .openConn _ | .put _ | .get _ | .write _ | .read _ | .close _ | .droppedFrame _ => true
  | .retransmissionTimeout c => decide (c < 65536)
  | .linkTrainingComplete k l _ | .linkTrainingTimeout k l | .linkDown k l => linkOk k l
  | .bringup _ | .hostPortTrainRetry _ | .thermalTrip | .powerDown => true
  | .unassignedOpcode w => !opcodeAssigned (bits w 63 54)

end Sys2Proof
end

