-- ==== Sys2Proof/Decode.lean ====
section
/-! DEFINITION. Decoding of the 64-bit words of R80 to R87 into `Instr`, total on every word and rejecting by name,
and the encoder written from the same tables. A word whose opcode R87 does not assign decodes to
`Instr.unassignedOpcode` (R86); a word that R61, R63 or R80 to R84 reject for its static fields is rejected, and the
step takes ILLOP for it (R85). -/

namespace Sys2Proof

/-- Why a word whose opcode is assigned is rejected (R80): the issue of such a word raises ILLOP. -/
inductive Reject where
  /-- A field that the entry does not use is not zero. -/
  | field
  /-- A policy bit for a source that the entry does not have is set. -/
  | policy
  /-- A modifier value that the entry does not assign. -/
  | modifier
  /-- The guard field or the negate bit breaks R63, or the entry admits no guard. -/
  | guard
  /-- An immediate outside the range the entry allows. -/
  | immediate
  /-- A condition that the entry itself states as ILLOP, beyond its field layout (R151, R159). -/
  | entry
  deriving DecidableEq, Repr

/-- What a word decodes to. -/
abbrev Decoded := Except Reject Instr

/-- Format A (R80). -/
structure FmtA where
  op  : BitVec 10
  d   : RegNo
  a   : RegNo
  b   : RegNo
  c   : RegNo
  g   : BitVec 4
  neg : BitVec 1
  pol : BitVec 3
  m   : BitVec 6
  deriving DecidableEq, Repr

/-- Format I (R81). -/
structure FmtI where
  op  : BitVec 10
  d   : RegNo
  a   : RegNo
  imm : BitVec 20
  g   : BitVec 4
  neg : BitVec 1
  pol : BitVec 1
  m   : BitVec 8
  deriving DecidableEq, Repr

/-- Format L (R82). -/
structure FmtL where
  op  : BitVec 10
  d   : RegNo
  imm : BitVec 32
  g   : BitVec 4
  neg : BitVec 1
  m   : BitVec 7
  deriving DecidableEq, Repr

/-- Format M (R83). -/
structure FmtM where
  op  : BitVec 10
  d   : RegNo
  a   : RegNo
  off : BitVec 20
  g   : BitVec 4
  neg : BitVec 1
  pol : BitVec 3
  w   : BitVec 3
  o   : BitVec 2
  h   : BitVec 1
  deriving DecidableEq, Repr

/-- Format B (R84). -/
structure FmtB where
  op  : BitVec 10
  a   : RegNo
  tgt : BitVec 30
  g   : BitVec 4
  neg : BitVec 1
  pol : BitVec 3
  m   : BitVec 6
  deriving DecidableEq, Repr

/-- The fields of a format-A word (R80). -/
def FmtA.ofWord (w : Code) : FmtA where
  op := w.extractLsb' 54 10
  d := w.extractLsb' 44 10
  a := w.extractLsb' 34 10
  b := w.extractLsb' 24 10
  c := w.extractLsb' 14 10
  g := w.extractLsb' 10 4
  neg := w.extractLsb' 9 1
  pol := w.extractLsb' 6 3
  m := w.extractLsb' 0 6

/-- The word of format-A fields. -/
def FmtA.toWord (f : FmtA) : Code :=
  f.op ++ f.d ++ f.a ++ f.b ++ f.c ++ f.g ++ f.neg ++ f.pol ++ f.m

/-- The fields of a format-I word (R81). -/
def FmtI.ofWord (w : Code) : FmtI where
  op := w.extractLsb' 54 10
  d := w.extractLsb' 44 10
  a := w.extractLsb' 34 10
  imm := w.extractLsb' 14 20
  g := w.extractLsb' 10 4
  neg := w.extractLsb' 9 1
  pol := w.extractLsb' 8 1
  m := w.extractLsb' 0 8

/-- The word of format-I fields. -/
def FmtI.toWord (f : FmtI) : Code :=
  f.op ++ f.d ++ f.a ++ f.imm ++ f.g ++ f.neg ++ f.pol ++ f.m

/-- The fields of a format-L word (R82). -/
def FmtL.ofWord (w : Code) : FmtL where
  op := w.extractLsb' 54 10
  d := w.extractLsb' 44 10
  imm := w.extractLsb' 12 32
  g := w.extractLsb' 8 4
  neg := w.extractLsb' 7 1
  m := w.extractLsb' 0 7

/-- The word of format-L fields. -/
def FmtL.toWord (f : FmtL) : Code :=
  f.op ++ f.d ++ f.imm ++ f.g ++ f.neg ++ f.m

/-- The fields of a format-M word (R83). -/
def FmtM.ofWord (w : Code) : FmtM where
  op := w.extractLsb' 54 10
  d := w.extractLsb' 44 10
  a := w.extractLsb' 34 10
  off := w.extractLsb' 14 20
  g := w.extractLsb' 10 4
  neg := w.extractLsb' 9 1
  pol := w.extractLsb' 6 3
  w := w.extractLsb' 3 3
  o := w.extractLsb' 1 2
  h := w.extractLsb' 0 1

/-- The word of format-M fields. -/
def FmtM.toWord (f : FmtM) : Code :=
  f.op ++ f.d ++ f.a ++ f.off ++ f.g ++ f.neg ++ f.pol ++ f.w ++ f.o ++ f.h

/-- The fields of a format-B word (R84). -/
def FmtB.ofWord (w : Code) : FmtB where
  op := w.extractLsb' 54 10
  a := w.extractLsb' 44 10
  tgt := w.extractLsb' 14 30
  g := w.extractLsb' 10 4
  neg := w.extractLsb' 9 1
  pol := w.extractLsb' 6 3
  m := w.extractLsb' 0 6

/-- The word of format-B fields. -/
def FmtB.toWord (f : FmtB) : Code :=
  f.op ++ f.a ++ f.tgt ++ f.g ++ f.neg ++ f.pol ++ f.m

/-- A source operand from its field and its policy bit (R66). -/
def srcOf (r : RegNo) (p : BitVec 1) : Src := ⟨r, p == 1#1⟩

/-- The policy bit of a source. -/
def polBit (s : Src) : BitVec 1 := BitVec.ofBool s.pol

/-- The guard from its field and the negate bit (R63). -/
def guardOf (g : BitVec 4) (n : BitVec 1) : Guard := ⟨g, n == 1#1⟩

/-- The negate bit of a guard. -/
def negBit (g : Guard) : BitVec 1 := BitVec.ofBool g.neg

/-- Accept when the check holds, else reject by name. -/
def chk (c : Bool) (r : Reject) (k : Decoded) : Decoded := if c then k else .error r

/-- Continue with a coded value, or reject it by name. -/
def coded {α : Type} (x : Option α) (r : Reject) (k : α → Decoded) : Decoded :=
  match x with
  | some y => k y
  | none => .error r

/-- The code of a `SatMode` (R137). -/
def SatMode.code : SatMode → BitVec 2
  | .wrap => 0#2
  | .sat => 1#2
  | .usat => 2#2

/-- The `SatMode` of a code (R137). -/
def SatMode.ofCode (x : BitVec 2) : Option SatMode :=
  match x.toNat with
  | 0 => some .wrap
  | 1 => some .sat
  | 2 => some .usat
  | _ => none

/-- The code of a `Cond` (R141). -/
def Cond.code : Cond → BitVec 3
  | .eq => 0#3
  | .ne => 1#3
  | .lt => 2#3
  | .le => 3#3
  | .gt => 4#3
  | .ge => 5#3

/-- The `Cond` of a code (R141). -/
def Cond.ofCode (x : BitVec 3) : Option Cond :=
  match x.toNat with
  | 0 => some .eq
  | 1 => some .ne
  | 2 => some .lt
  | 3 => some .le
  | 4 => some .gt
  | 5 => some .ge
  | _ => none

/-- The code of a `FCond` (R145). -/
def FCond.code : FCond → BitVec 3
  | .eq => 0#3
  | .ne => 1#3
  | .lt => 2#3
  | .le => 3#3
  | .gt => 4#3
  | .ge => 5#3
  | .un => 6#3
  | .ord => 7#3

/-- The `FCond` of a code (R145). -/
def FCond.ofCode (x : BitVec 3) : Option FCond :=
  match x.toNat with
  | 0 => some .eq
  | 1 => some .ne
  | 2 => some .lt
  | 3 => some .le
  | 4 => some .gt
  | 5 => some .ge
  | 6 => some .un
  | 7 => some .ord
  | _ => none

/-- The code of a `RMode` (R105). -/
def RMode.code : RMode → BitVec 3
  | .rne => 0#3
  | .rz => 1#3
  | .ru => 2#3
  | .rd => 3#3
  | .sr => 4#3

/-- The `RMode` of a code (R105). -/
def RMode.ofCode (x : BitVec 3) : Option RMode :=
  match x.toNat with
  | 0 => some .rne
  | 1 => some .rz
  | 2 => some .ru
  | 3 => some .rd
  | 4 => some .sr
  | _ => none

/-- The code of a `PFmt` (R149). -/
def PFmt.code : PFmt → BitVec 1
  | .f16 => 0#1
  | .bf16 => 1#1

/-- The `PFmt` of a code (R149). -/
def PFmt.ofCode (x : BitVec 1) : Option PFmt :=
  match x.toNat with
  | 0 => some .f16
  | 1 => some .bf16
  | _ => none

/-- The code of a `NumFmt` (R151). -/
def NumFmt.code : NumFmt → BitVec 5
  | .f32 => 0#5
  | .f16 => 1#5
  | .bf16 => 2#5
  | .f8e4 => 3#5
  | .f8e5 => 4#5
  | .int8 => 5#5
  | .uint8 => 6#5
  | .int16 => 7#5
  | .int32 => 8#5
  | .uint32 => 9#5

/-- The `NumFmt` of a code (R151). -/
def NumFmt.ofCode (x : BitVec 5) : Option NumFmt :=
  match x.toNat with
  | 0 => some .f32
  | 1 => some .f16
  | 2 => some .bf16
  | 3 => some .f8e4
  | 4 => some .f8e5
  | 5 => some .int8
  | 6 => some .uint8
  | 7 => some .int16
  | 8 => some .int32
  | 9 => some .uint32
  | _ => none

/-- The code of a `ShflMode` (R158). -/
def ShflMode.code : ShflMode → BitVec 2
  | .idx => 0#2
  | .up => 1#2
  | .down => 2#2
  | .xor => 3#2

/-- The `ShflMode` of a code (R158). -/
def ShflMode.ofCode (x : BitVec 2) : Option ShflMode :=
  match x.toNat with
  | 0 => some .idx
  | 1 => some .up
  | 2 => some .down
  | 3 => some .xor
  | _ => none

/-- The code of a `SegCode` (R158). -/
def SegCode.code : SegCode → BitVec 3
  | .whole => 0#3
  | .s4 => 1#3
  | .s8 => 2#3
  | .s16 => 3#3
  | .s32 => 4#3
  | .s64 => 5#3

/-- The `SegCode` of a code (R158). -/
def SegCode.ofCode (x : BitVec 3) : Option SegCode :=
  match x.toNat with
  | 0 => some .whole
  | 1 => some .s4
  | 2 => some .s8
  | 3 => some .s16
  | 4 => some .s32
  | 5 => some .s64
  | _ => none

/-- The code of a `VoteMode` (R159). -/
def VoteMode.code : VoteMode → BitVec 2
  | .all => 0#2
  | .any => 1#2
  | .eq => 2#2
  | .ballot => 3#2

/-- The `VoteMode` of a code (R159). -/
def VoteMode.ofCode (x : BitVec 2) : Option VoteMode :=
  match x.toNat with
  | 0 => some .all
  | 1 => some .any
  | 2 => some .eq
  | 3 => some .ballot
  | _ => none

/-- The code of a `LaneOp` (R161). -/
def LaneOp.code : LaneOp → BitVec 4
  | .add => 0#4
  | .min => 1#4
  | .max => 2#4
  | .umin => 3#4
  | .umax => 4#4
  | .and => 5#4
  | .or => 6#4
  | .xor => 7#4
  | .fadd => 8#4
  | .fmin => 9#4
  | .fmax => 10#4

/-- The `LaneOp` of a code (R161). -/
def LaneOp.ofCode (x : BitVec 4) : Option LaneOp :=
  match x.toNat with
  | 0 => some .add
  | 1 => some .min
  | 2 => some .max
  | 3 => some .umin
  | 4 => some .umax
  | 5 => some .and
  | 6 => some .or
  | 7 => some .xor
  | 8 => some .fadd
  | 9 => some .fmin
  | 10 => some .fmax
  | _ => none

/-- The code of a `Width` (R191). -/
def Width.code : Width → BitVec 3
  | .w8 => 0#3
  | .w16 => 1#3
  | .w32 => 2#3
  | .w64 => 3#3
  | .w128 => 4#3

/-- The `Width` of a code (R191). -/
def Width.ofCode (x : BitVec 3) : Option Width :=
  match x.toNat with
  | 0 => some .w8
  | 1 => some .w16
  | 2 => some .w32
  | 3 => some .w64
  | 4 => some .w128
  | _ => none

/-- The code of a `Ordering` (R83). -/
def Ordering.code : Ordering → BitVec 2
  | .rlx => 0#2
  | .acq => 1#2
  | .rel => 2#2
  | .sc => 3#2

/-- The `Ordering` of a code (R83). -/
def Ordering.ofCode (x : BitVec 2) : Option Ordering :=
  match x.toNat with
  | 0 => some .rlx
  | 1 => some .acq
  | 2 => some .rel
  | 3 => some .sc
  | _ => none

/-- The code of a `AtomOp` (R201). -/
def AtomOp.code : AtomOp → BitVec 4
  | .add => 0#4
  | .min => 1#4
  | .max => 2#4
  | .umin => 3#4
  | .umax => 4#4
  | .and => 5#4
  | .or => 6#4
  | .xor => 7#4
  | .exch => 8#4
  | .inc => 9#4
  | .dec => 10#4
  | .fadd => 11#4
  | .fmin => 12#4
  | .fmax => 13#4

/-- The `AtomOp` of a code (R201). -/
def AtomOp.ofCode (x : BitVec 4) : Option AtomOp :=
  match x.toNat with
  | 0 => some .add
  | 1 => some .min
  | 2 => some .max
  | 3 => some .umin
  | 4 => some .umax
  | 5 => some .and
  | 6 => some .or
  | 7 => some .xor
  | 8 => some .exch
  | 9 => some .inc
  | 10 => some .dec
  | 11 => some .fadd
  | 12 => some .fmin
  | 13 => some .fmax
  | _ => none

/-- The code of a `FenceKind` (R205). -/
def FenceKind.code : FenceKind → BitVec 2
  | .acq => 0#2
  | .rel => 1#2
  | .ar => 2#2
  | .sc => 3#2

/-- The `FenceKind` of a code (R205). -/
def FenceKind.ofCode (x : BitVec 2) : Option FenceKind :=
  match x.toNat with
  | 0 => some .acq
  | 1 => some .rel
  | 2 => some .ar
  | 3 => some .sc
  | _ => none

/-- The code of a `Scope` (R205). -/
def Scope.code : Scope → BitVec 1
  | .core => 0#1
  | .die => 1#1

/-- The `Scope` of a code (R205). -/
def Scope.ofCode (x : BitVec 1) : Option Scope :=
  match x.toNat with
  | 0 => some .core
  | 1 => some .die
  | _ => none

/-- The code of a `SizeCode` (R269). -/
def SizeCode.code : SizeCode → BitVec 3
  | .s16 => 0#3
  | .s32 => 1#3
  | .s64 => 2#3
  | .s128 => 3#3
  | .s256 => 4#3

/-- The `SizeCode` of a code (R269). -/
def SizeCode.ofCode (x : BitVec 3) : Option SizeCode :=
  match x.toNat with
  | 0 => some .s16
  | 1 => some .s32
  | 2 => some .s64
  | 3 => some .s128
  | 4 => some .s256
  | _ => none

/-- The code of a `JoinOp` (R323). -/
def JoinOp.code : JoinOp → BitVec 4
  | .none => 0#4
  | .add => 1#4
  | .fadd => 2#4
  | .min => 3#4
  | .max => 4#4
  | .umin => 5#4
  | .umax => 6#4
  | .fmin => 7#4
  | .fmax => 8#4
  | .or => 9#4
  | .and => 10#4

/-- The `JoinOp` of a code (R323). -/
def JoinOp.ofCode (x : BitVec 4) : Option JoinOp :=
  match x.toNat with
  | 0 => some .none
  | 1 => some .add
  | 2 => some .fadd
  | 3 => some .min
  | 4 => some .max
  | 5 => some .umin
  | 6 => some .umax
  | 7 => some .fmin
  | 8 => some .fmax
  | 9 => some .or
  | 10 => some .and
  | _ => none

/-- The code of a `MmaKind` (R334). -/
def MmaKind.code : MmaKind → BitVec 4
  | .bf16 => 0#4
  | .f16 => 1#4
  | .e4e4 => 2#4
  | .e4e5 => 3#4
  | .e5e4 => 4#4
  | .e5e5 => 5#4
  | .i8 => 6#4
  | .cb2 => 7#4
  | .mpbf16 => 8#4
  | .mpf16 => 9#4
  | .mtbf16 => 10#4
  | .orand => 11#4

/-- The `MmaKind` of a code (R334). -/
def MmaKind.ofCode (x : BitVec 4) : Option MmaKind :=
  match x.toNat with
  | 0 => some .bf16
  | 1 => some .f16
  | 2 => some .e4e4
  | 3 => some .e4e5
  | 4 => some .e5e4
  | 5 => some .e5e5
  | 6 => some .i8
  | 7 => some .cb2
  | 8 => some .mpbf16
  | 9 => some .mpf16
  | 10 => some .mtbf16
  | 11 => some .orand
  | _ => none

/-- The code of a `ClrVal` (R356). -/
def ClrVal.code : ClrVal → BitVec 2
  | .zero => 0#2
  | .pinf => 1#2
  | .ninf => 2#2

/-- The `ClrVal` of a code (R356). -/
def ClrVal.ofCode (x : BitVec 2) : Option ClrVal :=
  match x.toNat with
  | 0 => some .zero
  | 1 => some .pinf
  | 2 => some .ninf
  | _ => none

/-- The code of a `DrainCv` (R359). -/
def DrainCv.code : DrainCv → BitVec 2
  | .f32 => 0#2
  | .bf16 => 1#2
  | .f16 => 2#2

/-- The `DrainCv` of a code (R359). -/
def DrainCv.ofCode (x : BitVec 2) : Option DrainCv :=
  match x.toNat with
  | 0 => some .f32
  | 1 => some .bf16
  | 2 => some .f16
  | _ => none

/-- The register field of an optional source: zero when absent. -/
def optSrc (x : Option Src) : RegNo :=
  match x with
  | some s => s.r
  | none => 0#10

/-- The policy bit of an optional source. -/
def optPol (x : Option Src) : BitVec 1 :=
  match x with
  | some s => polBit s
  | none => 0#1

/-- The A field of AWAIT (R286). -/
def AwaitForm.reg : AwaitForm → RegNo
  | .one a | .pair a => a.r
  | .all => 0#10

/-- The policy field of AWAIT. -/
def AwaitForm.polField : AwaitForm → BitVec 3
  | .one a | .pair a => polBit a ++ 0#2
  | .all => 0#3

/-- The modifier of AWAIT. -/
def AwaitForm.code : AwaitForm → BitVec 6
  | .one _ => 0#6
  | .pair _ => 1#6
  | .all => 2#6

/-- Decode of the assigned opcodes 0x001 to 0x013 (R116 to R136). -/
def decodeControl (op : Nat) (w : Code) : Decoded :=
  match op with
  | 0x001 =>
    let f := FmtA.ofWord w
    chk (f.d == 0#10 && f.a == 0#10 && f.b == 0#10 && f.c == 0#10) .field <|
    chk (f.pol.extractLsb' 2 1 == 0#1 && f.pol.extractLsb' 1 1 == 0#1 && f.pol.extractLsb' 0 1 == 0#1) .policy <|
    chk (f.m.extractLsb' 0 6 == 0#6) .modifier <|
    chk (f.g == 0#4 && f.neg == 0#1) .guard <|
    .ok (.nop)
  | 0x007 =>
    let f := FmtA.ofWord w
    chk (f.d == 0#10 && f.a == 0#10 && f.b == 0#10 && f.c == 0#10) .field <|
    chk (f.pol.extractLsb' 2 1 == 0#1 && f.pol.extractLsb' 1 1 == 0#1 && f.pol.extractLsb' 0 1 == 0#1) .policy <|
    chk (f.m.extractLsb' 0 6 == 0#6) .modifier <|
    chk (f.g == 0#4 && f.neg == 0#1) .guard <|
    .ok (.join)
  | 0x008 =>
    let f := FmtA.ofWord w
    chk (f.d == 0#10 && f.a == 0#10 && f.b == 0#10 && f.c == 0#10) .field <|
    chk (f.pol.extractLsb' 2 1 == 0#1 && f.pol.extractLsb' 1 1 == 0#1 && f.pol.extractLsb' 0 1 == 0#1) .policy <|
    chk (f.m.extractLsb' 0 6 == 0#6) .modifier <|
    chk (f.g == 0#4 && f.neg == 0#1) .guard <|
    .ok (.regang)
  | 0x00B =>
    let f := FmtA.ofWord w
    chk (f.d == 0#10 && f.a == 0#10 && f.b == 0#10 && f.c == 0#10) .field <|
    chk (f.pol.extractLsb' 2 1 == 0#1 && f.pol.extractLsb' 1 1 == 0#1 && f.pol.extractLsb' 0 1 == 0#1) .policy <|
    chk (f.m.extractLsb' 0 6 == 0#6) .modifier <|
    chk (guardOf f.g f.neg).wf .guard <|
    .ok (.exit (guardOf f.g f.neg))
  | 0x00D =>
    let f := FmtA.ofWord w
    chk (f.d == 0#10 && f.a == 0#10 && f.b == 0#10 && f.c == 0#10) .field <|
    chk (f.pol.extractLsb' 2 1 == 0#1 && f.pol.extractLsb' 1 1 == 0#1 && f.pol.extractLsb' 0 1 == 0#1) .policy <|
    chk (f.m.extractLsb' 0 6 == 0#6) .modifier <|
    chk (guardOf f.g f.neg).wf .guard <|
    .ok (.yield (guardOf f.g f.neg))
  | 0x00F =>
    let f := FmtA.ofWord w
    chk (f.d == 0#10 && f.a == 0#10 && f.b == 0#10 && f.c == 0#10) .field <|
    chk (f.pol.extractLsb' 2 1 == 0#1 && f.pol.extractLsb' 1 1 == 0#1 && f.pol.extractLsb' 0 1 == 0#1) .policy <|
    chk (f.m.extractLsb' 0 6 == 0#6) .modifier <|
    chk (f.g == 0#4 && f.neg == 0#1) .guard <|
    .ok (.tret)
  | 0x010 =>
    let f := FmtA.ofWord w
    chk (f.d == 0#10 && f.b == 0#10 && f.c == 0#10) .field <|
    chk (f.pol.extractLsb' 1 1 == 0#1 && f.pol.extractLsb' 0 1 == 0#1) .policy <|
    chk (f.m.extractLsb' 0 6 == 0#6) .modifier <|
    chk (guardOf f.g f.neg).wf .guard <|
    .ok (.spawn (srcOf f.a (f.pol.extractLsb' 2 1)) (guardOf f.g f.neg))
  | 0x011 =>
    let f := FmtA.ofWord w
    chk (f.d == 0#10 && f.a == 0#10 && f.b == 0#10 && f.c == 0#10) .field <|
    chk (f.pol.extractLsb' 2 1 == 0#1 && f.pol.extractLsb' 1 1 == 0#1 && f.pol.extractLsb' 0 1 == 0#1) .policy <|
    chk (f.m.extractLsb' 0 6 == 0#6) .modifier <|
    chk (guardOf f.g f.neg).wf .guard <|
    .ok (.ltrig (guardOf f.g f.neg))
  | 0x002 =>
    let f := FmtB.ofWord w
    chk (f.a == 0#10) .field <|
    chk (f.pol == 0#3) .policy <|
    chk (f.m == 0#6) .modifier <|
    chk (guardOf f.g f.neg).wf .guard <|
    .ok (.bra f.tgt (guardOf f.g f.neg))
  | 0x003 =>
    let f := FmtB.ofWord w
    chk (f.tgt == 0#30) .field <|
    chk (f.pol.extractLsb' 0 2 == 0#2) .policy <|
    chk (f.m == 0#6) .modifier <|
    chk (guardOf f.g f.neg).wf .guard <|
    .ok (.brx (srcOf f.a (f.pol.extractLsb' 2 1)) (guardOf f.g f.neg))
  | 0x004 =>
    let f := FmtB.ofWord w
    chk (f.pol == 0#3) .policy <|
    chk (f.m == 0#6) .modifier <|
    chk (guardOf f.g f.neg).wf .guard <|
    .ok (.call f.a f.tgt (guardOf f.g f.neg))
  | 0x005 =>
    let f := FmtB.ofWord w
    chk (f.tgt.extractLsb' 0 20 == 0#20) .field <|
    chk (f.pol.extractLsb' 0 2 == 0#2) .policy <|
    chk (f.m == 0#6) .modifier <|
    chk (guardOf f.g f.neg).wf .guard <|
    .ok (.callx (f.tgt.extractLsb' 20 10) (srcOf f.a (f.pol.extractLsb' 2 1)) (guardOf f.g f.neg))
  | 0x006 =>
    let f := FmtB.ofWord w
    chk (f.tgt == 0#30) .field <|
    chk (f.pol.extractLsb' 0 2 == 0#2) .policy <|
    chk (f.m == 0#6) .modifier <|
    chk (guardOf f.g f.neg).wf .guard <|
    .ok (.ret (srcOf f.a (f.pol.extractLsb' 2 1)) (guardOf f.g f.neg))
  | 0x009 =>
    let f := FmtB.ofWord w
    chk (f.pol.extractLsb' 0 2 == 0#2) .policy <|
    chk (f.m.extractLsb' 2 4 == 0#4) .modifier <|
    chk (f.g == 0#4 && f.neg == 0#1) .guard <|
    .ok (.loop (f.m.extractLsb' 0 2) (srcOf f.a (f.pol.extractLsb' 2 1)) f.tgt)
  | 0x00A =>
    let f := FmtB.ofWord w
    chk (f.a == 0#10) .field <|
    chk (f.pol == 0#3) .policy <|
    chk (f.m.extractLsb' 2 4 == 0#4) .modifier <|
    chk (f.g == 0#4 && f.neg == 0#1) .guard <|
    .ok (.endlp (f.m.extractLsb' 0 2) f.tgt)
  | 0x00C =>
    let f := FmtB.ofWord w
    chk (f.pol.extractLsb' 0 2 == 0#2) .policy <|
    chk (f.m.extractLsb' 1 5 == 0#5) .modifier <|
    chk ((f.m.extractLsb' 0 1 == 1#1) || (f.a == 0#10 && f.pol.extractLsb' 2 1 == 0#1)) .field <|
    chk (f.g == 0#4 && f.neg == 0#1) .guard <|
    .ok (.exitS f.tgt (if (f.m.extractLsb' 0 1 == 1#1) then some (srcOf f.a (f.pol.extractLsb' 2 1)) else none))
  | 0x00E =>
    let f := FmtI.ofWord w
    chk (f.d == 0#10 && f.a == 0#10) .field <|
    chk (f.pol == 0#1) .policy <|
    chk (f.m == 0#8) .modifier <|
    chk (guardOf f.g f.neg).wf .guard <|
    .ok (.trap f.imm (guardOf f.g f.neg))
  | 0x012 =>
    let f := FmtI.ofWord w
    chk (f.a == 0#10 && f.imm.extractLsb' 12 8 == 0#8) .field <|
    chk (f.pol == 0#1) .policy <|
    chk (f.m == 0#8) .modifier <|
    chk (guardOf f.g f.neg).wf .guard <|
    .ok (.csrr f.d (f.imm.extractLsb' 0 12) (guardOf f.g f.neg))
  | 0x013 =>
    let f := FmtI.ofWord w
    chk (f.d == 0#10 && f.imm.extractLsb' 12 8 == 0#8) .field <|
    chk (f.m == 0#8) .modifier <|
    chk (guardOf f.g f.neg).wf .guard <|
    .ok (.csrw (f.imm.extractLsb' 0 12) (srcOf f.a f.pol) (guardOf f.g f.neg))
  | _ => .ok (.unassignedOpcode w)

/-- Decode of the assigned opcodes 0x080 to 0x0DD (R137 to R142). -/
def decodeInteger (op : Nat) (w : Code) : Decoded :=
  match op with
  | 0x080 =>
    let f := FmtA.ofWord w
    chk (f.c == 0#10) .field <|
    chk (f.pol.extractLsb' 0 1 == 0#1) .policy <|
    chk (f.m.extractLsb' 2 4 == 0#4) .modifier <|
    coded (SatMode.ofCode (f.m.extractLsb' 0 2)) .modifier fun m =>
    chk (guardOf f.g f.neg).wf .guard <|
    .ok (.iadd f.d (srcOf f.a (f.pol.extractLsb' 2 1)) (srcOf f.b (f.pol.extractLsb' 1 1)) m (guardOf f.g f.neg))
  | 0x081 =>
    let f := FmtA.ofWord w
    chk (f.c == 0#10) .field <|
    chk (f.pol.extractLsb' 0 1 == 0#1) .policy <|
    chk (f.m.extractLsb' 2 4 == 0#4) .modifier <|
    coded (SatMode.ofCode (f.m.extractLsb' 0 2)) .modifier fun m =>
    chk (guardOf f.g f.neg).wf .guard <|
    .ok (.isub f.d (srcOf f.a (f.pol.extractLsb' 2 1)) (srcOf f.b (f.pol.extractLsb' 1 1)) m (guardOf f.g f.neg))
  | 0x082 =>
    let f := FmtA.ofWord w
    chk (f.m.extractLsb' 0 6 == 0#6) .modifier <|
    chk (guardOf f.g f.neg).wf .guard <|
    .ok (.addc f.d (srcOf f.a (f.pol.extractLsb' 2 1)) (srcOf f.b (f.pol.extractLsb' 1 1)) (srcOf f.c (f.pol.extractLsb' 0 1)) (guardOf f.g f.neg))
  | 0x083 =>
    let f := FmtA.ofWord w
    chk (f.m.extractLsb' 0 6 == 0#6) .modifier <|
    chk (guardOf f.g f.neg).wf .guard <|
    .ok (.subb f.d (srcOf f.a (f.pol.extractLsb' 2 1)) (srcOf f.b (f.pol.extractLsb' 1 1)) (srcOf f.c (f.pol.extractLsb' 0 1)) (guardOf f.g f.neg))
  | 0x084 =>
    let f := FmtA.ofWord w
    chk (f.c == 0#10) .field <|
    chk (f.pol.extractLsb' 0 1 == 0#1) .policy <|
    chk (f.m.extractLsb' 0 6 == 0#6) .modifier <|
    chk (guardOf f.g f.neg).wf .guard <|
    .ok (.imul f.d (srcOf f.a (f.pol.extractLsb' 2 1)) (srcOf f.b (f.pol.extractLsb' 1 1)) (guardOf f.g f.neg))
  | 0x085 =>
    let f := FmtA.ofWord w
    chk (f.c == 0#10) .field <|
    chk (f.pol.extractLsb' 0 1 == 0#1) .policy <|
    chk (f.m.extractLsb' 1 5 == 0#5) .modifier <|
    chk (guardOf f.g f.neg).wf .guard <|
    .ok (.imulh f.d (srcOf f.a (f.pol.extractLsb' 2 1)) (srcOf f.b (f.pol.extractLsb' 1 1)) (f.m.extractLsb' 0 1 == 1#1) (guardOf f.g f.neg))
  | 0x086 =>
    let f := FmtA.ofWord w
    chk (f.m.extractLsb' 0 6 == 0#6) .modifier <|
    chk (guardOf f.g f.neg).wf .guard <|
    .ok (.imad f.d (srcOf f.a (f.pol.extractLsb' 2 1)) (srcOf f.b (f.pol.extractLsb' 1 1)) (srcOf f.c (f.pol.extractLsb' 0 1)) (guardOf f.g f.neg))
  | 0x087 =>
    let f := FmtA.ofWord w
    chk (f.m.extractLsb' 1 5 == 0#5) .modifier <|
    chk (guardOf f.g f.neg).wf .guard <|
    .ok (.imadw f.d (srcOf f.a (f.pol.extractLsb' 2 1)) (srcOf f.b (f.pol.extractLsb' 1 1)) (srcOf f.c (f.pol.extractLsb' 0 1)) (f.m.extractLsb' 0 1 == 1#1) (guardOf f.g f.neg))
  | 0x088 =>
    let f := FmtA.ofWord w
    chk (f.c == 0#10) .field <|
    chk (f.pol.extractLsb' 0 1 == 0#1) .policy <|
    chk (f.m.extractLsb' 1 5 == 0#5) .modifier <|
    chk (guardOf f.g f.neg).wf .guard <|
    .ok (.imin f.d (srcOf f.a (f.pol.extractLsb' 2 1)) (srcOf f.b (f.pol.extractLsb' 1 1)) (f.m.extractLsb' 0 1 == 1#1) (guardOf f.g f.neg))
  | 0x089 =>
    let f := FmtA.ofWord w
    chk (f.c == 0#10) .field <|
    chk (f.pol.extractLsb' 0 1 == 0#1) .policy <|
    chk (f.m.extractLsb' 1 5 == 0#5) .modifier <|
    chk (guardOf f.g f.neg).wf .guard <|
    .ok (.imax f.d (srcOf f.a (f.pol.extractLsb' 2 1)) (srcOf f.b (f.pol.extractLsb' 1 1)) (f.m.extractLsb' 0 1 == 1#1) (guardOf f.g f.neg))
  | 0x08A =>
    let f := FmtA.ofWord w
    chk (f.b == 0#10 && f.c == 0#10) .field <|
    chk (f.pol.extractLsb' 1 1 == 0#1 && f.pol.extractLsb' 0 1 == 0#1) .policy <|
    chk (f.m.extractLsb' 1 5 == 0#5) .modifier <|
    chk (guardOf f.g f.neg).wf .guard <|
    .ok (.iabs f.d (srcOf f.a (f.pol.extractLsb' 2 1)) (f.m.extractLsb' 0 1 == 1#1) (guardOf f.g f.neg))
  | 0x08B =>
    let f := FmtA.ofWord w
    chk (f.b == 0#10 && f.c == 0#10) .field <|
    chk (f.pol.extractLsb' 1 1 == 0#1 && f.pol.extractLsb' 0 1 == 0#1) .policy <|
    chk (f.m.extractLsb' 1 5 == 0#5) .modifier <|
    chk (guardOf f.g f.neg).wf .guard <|
    .ok (.ineg f.d (srcOf f.a (f.pol.extractLsb' 2 1)) (f.m.extractLsb' 0 1 == 1#1) (guardOf f.g f.neg))
  | 0x08C =>
    let f := FmtA.ofWord w
    chk (f.c == 0#10) .field <|
    chk (f.pol.extractLsb' 0 1 == 0#1) .policy <|
    chk (f.m.extractLsb' 0 6 == 0#6) .modifier <|
    chk (guardOf f.g f.neg).wf .guard <|
    .ok (.and f.d (srcOf f.a (f.pol.extractLsb' 2 1)) (srcOf f.b (f.pol.extractLsb' 1 1)) (guardOf f.g f.neg))
  | 0x08D =>
    let f := FmtA.ofWord w
    chk (f.c == 0#10) .field <|
    chk (f.pol.extractLsb' 0 1 == 0#1) .policy <|
    chk (f.m.extractLsb' 0 6 == 0#6) .modifier <|
    chk (guardOf f.g f.neg).wf .guard <|
    .ok (.or f.d (srcOf f.a (f.pol.extractLsb' 2 1)) (srcOf f.b (f.pol.extractLsb' 1 1)) (guardOf f.g f.neg))
  | 0x08E =>
    let f := FmtA.ofWord w
    chk (f.c == 0#10) .field <|
    chk (f.pol.extractLsb' 0 1 == 0#1) .policy <|
    chk (f.m.extractLsb' 0 6 == 0#6) .modifier <|
    chk (guardOf f.g f.neg).wf .guard <|
    .ok (.xor f.d (srcOf f.a (f.pol.extractLsb' 2 1)) (srcOf f.b (f.pol.extractLsb' 1 1)) (guardOf f.g f.neg))
  | 0x08F =>
    let f := FmtA.ofWord w
    chk (f.c == 0#10) .field <|
    chk (f.pol.extractLsb' 0 1 == 0#1) .policy <|
    chk (f.m.extractLsb' 0 6 == 0#6) .modifier <|
    chk (guardOf f.g f.neg).wf .guard <|
    .ok (.andn f.d (srcOf f.a (f.pol.extractLsb' 2 1)) (srcOf f.b (f.pol.extractLsb' 1 1)) (guardOf f.g f.neg))
  | 0x090 =>
    let f := FmtA.ofWord w
    chk (f.c == 0#10) .field <|
    chk (f.pol.extractLsb' 0 1 == 0#1) .policy <|
    chk (f.m.extractLsb' 0 6 == 0#6) .modifier <|
    chk (guardOf f.g f.neg).wf .guard <|
    .ok (.shl f.d (srcOf f.a (f.pol.extractLsb' 2 1)) (srcOf f.b (f.pol.extractLsb' 1 1)) (guardOf f.g f.neg))
  | 0x091 =>
    let f := FmtA.ofWord w
    chk (f.c == 0#10) .field <|
    chk (f.pol.extractLsb' 0 1 == 0#1) .policy <|
    chk (f.m.extractLsb' 0 6 == 0#6) .modifier <|
    chk (guardOf f.g f.neg).wf .guard <|
    .ok (.shr f.d (srcOf f.a (f.pol.extractLsb' 2 1)) (srcOf f.b (f.pol.extractLsb' 1 1)) (guardOf f.g f.neg))
  | 0x092 =>
    let f := FmtA.ofWord w
    chk (f.c == 0#10) .field <|
    chk (f.pol.extractLsb' 0 1 == 0#1) .policy <|
    chk (f.m.extractLsb' 0 6 == 0#6) .modifier <|
    chk (guardOf f.g f.neg).wf .guard <|
    .ok (.sar f.d (srcOf f.a (f.pol.extractLsb' 2 1)) (srcOf f.b (f.pol.extractLsb' 1 1)) (guardOf f.g f.neg))
  | 0x093 =>
    let f := FmtA.ofWord w
    chk (f.c == 0#10) .field <|
    chk (f.pol.extractLsb' 0 1 == 0#1) .policy <|
    chk (f.m.extractLsb' 0 6 == 0#6) .modifier <|
    chk (guardOf f.g f.neg).wf .guard <|
    .ok (.rol f.d (srcOf f.a (f.pol.extractLsb' 2 1)) (srcOf f.b (f.pol.extractLsb' 1 1)) (guardOf f.g f.neg))
  | 0x094 =>
    let f := FmtA.ofWord w
    chk (f.c == 0#10) .field <|
    chk (f.pol.extractLsb' 0 1 == 0#1) .policy <|
    chk (f.m.extractLsb' 1 5 == 0#5) .modifier <|
    chk (guardOf f.g f.neg).wf .guard <|
    .ok (.bfx f.d (srcOf f.a (f.pol.extractLsb' 2 1)) (srcOf f.b (f.pol.extractLsb' 1 1)) (f.m.extractLsb' 0 1 == 1#1) (guardOf f.g f.neg))
  | 0x095 =>
    let f := FmtA.ofWord w
    chk (f.m.extractLsb' 0 6 == 0#6) .modifier <|
    chk (guardOf f.g f.neg).wf .guard <|
    .ok (.bfi f.d (srcOf f.a (f.pol.extractLsb' 2 1)) (srcOf f.b (f.pol.extractLsb' 1 1)) (srcOf f.c (f.pol.extractLsb' 0 1)) (guardOf f.g f.neg))
  | 0x096 =>
    let f := FmtA.ofWord w
    chk (f.b == 0#10 && f.c == 0#10) .field <|
    chk (f.pol.extractLsb' 1 1 == 0#1 && f.pol.extractLsb' 0 1 == 0#1) .policy <|
    chk (f.m.extractLsb' 0 6 == 0#6) .modifier <|
    chk (guardOf f.g f.neg).wf .guard <|
    .ok (.popc f.d (srcOf f.a (f.pol.extractLsb' 2 1)) (guardOf f.g f.neg))
  | 0x097 =>
    let f := FmtA.ofWord w
    chk (f.b == 0#10 && f.c == 0#10) .field <|
    chk (f.pol.extractLsb' 1 1 == 0#1 && f.pol.extractLsb' 0 1 == 0#1) .policy <|
    chk (f.m.extractLsb' 0 6 == 0#6) .modifier <|
    chk (guardOf f.g f.neg).wf .guard <|
    .ok (.clz f.d (srcOf f.a (f.pol.extractLsb' 2 1)) (guardOf f.g f.neg))
  | 0x098 =>
    let f := FmtA.ofWord w
    chk (f.b == 0#10 && f.c == 0#10) .field <|
    chk (f.pol.extractLsb' 1 1 == 0#1 && f.pol.extractLsb' 0 1 == 0#1) .policy <|
    chk (f.m.extractLsb' 0 6 == 0#6) .modifier <|
    chk (guardOf f.g f.neg).wf .guard <|
    .ok (.brev f.d (srcOf f.a (f.pol.extractLsb' 2 1)) (guardOf f.g f.neg))
  | 0x099 =>
    let f := FmtA.ofWord w
    chk (f.c == 0#10) .field <|
    chk (f.pol.extractLsb' 0 1 == 0#1) .policy <|
    chk (f.m.extractLsb' 4 2 == 0#2) .modifier <|
    coded (Cond.ofCode (f.m.extractLsb' 0 3)) .modifier fun c =>
    chk (guardOf f.g f.neg).wf .guard <|
    .ok (.icmp f.d (srcOf f.a (f.pol.extractLsb' 2 1)) (srcOf f.b (f.pol.extractLsb' 1 1)) c (f.m.extractLsb' 3 1 == 1#1) (guardOf f.g f.neg))
  | 0x09A =>
    let f := FmtA.ofWord w
    chk (f.m.extractLsb' 0 6 == 0#6) .modifier <|
    chk (guardOf f.g f.neg).wf .guard <|
    .ok (.sel f.d (srcOf f.a (f.pol.extractLsb' 2 1)) (srcOf f.b (f.pol.extractLsb' 1 1)) (srcOf f.c (f.pol.extractLsb' 0 1)) (guardOf f.g f.neg))
  | 0x09B =>
    let f := FmtA.ofWord w
    chk (f.b == 0#10 && f.c == 0#10) .field <|
    chk (f.pol.extractLsb' 1 1 == 0#1 && f.pol.extractLsb' 0 1 == 0#1) .policy <|
    chk (f.m.extractLsb' 1 5 == 0#5) .modifier <|
    chk (guardOf f.g f.neg).wf .guard <|
    .ok (.mov f.d (srcOf f.a (f.pol.extractLsb' 2 1)) (f.m.extractLsb' 0 1 == 1#1) (guardOf f.g f.neg))
  | 0x09D =>
    let f := FmtA.ofWord w
    chk (f.c == 0#10) .field <|
    chk (f.pol.extractLsb' 0 1 == 0#1) .policy <|
    chk (f.m.extractLsb' 4 2 == 0#2) .modifier <|
    chk (guardOf f.g f.neg).wf .guard <|
    .ok (.lea f.d (srcOf f.a (f.pol.extractLsb' 2 1)) (srcOf f.b (f.pol.extractLsb' 1 1)) (f.m.extractLsb' 0 3) (f.m.extractLsb' 3 1 == 1#1) (guardOf f.g f.neg))
  | 0x0C0 =>
    let f := FmtI.ofWord w
    chk (f.m.extractLsb' 2 6 == 0#6) .modifier <|
    coded (SatMode.ofCode (f.m.extractLsb' 0 2)) .modifier fun m =>
    chk (guardOf f.g f.neg).wf .guard <|
    .ok (.iaddImm f.d (srcOf f.a f.pol) f.imm m (guardOf f.g f.neg))
  | 0x0C1 =>
    let f := FmtI.ofWord w
    chk (f.m.extractLsb' 2 6 == 0#6) .modifier <|
    coded (SatMode.ofCode (f.m.extractLsb' 0 2)) .modifier fun m =>
    chk (guardOf f.g f.neg).wf .guard <|
    .ok (.isubImm f.d (srcOf f.a f.pol) f.imm m (guardOf f.g f.neg))
  | 0x0C4 =>
    let f := FmtI.ofWord w
    chk (f.m == 0#8) .modifier <|
    chk (guardOf f.g f.neg).wf .guard <|
    .ok (.imulImm f.d (srcOf f.a f.pol) f.imm (guardOf f.g f.neg))
  | 0x0CC =>
    let f := FmtI.ofWord w
    chk (f.m == 0#8) .modifier <|
    chk (guardOf f.g f.neg).wf .guard <|
    .ok (.andImm f.d (srcOf f.a f.pol) f.imm (guardOf f.g f.neg))
  | 0x0CD =>
    let f := FmtI.ofWord w
    chk (f.m == 0#8) .modifier <|
    chk (guardOf f.g f.neg).wf .guard <|
    .ok (.orImm f.d (srcOf f.a f.pol) f.imm (guardOf f.g f.neg))
  | 0x0CE =>
    let f := FmtI.ofWord w
    chk (f.m == 0#8) .modifier <|
    chk (guardOf f.g f.neg).wf .guard <|
    .ok (.xorImm f.d (srcOf f.a f.pol) f.imm (guardOf f.g f.neg))
  | 0x0CF =>
    let f := FmtI.ofWord w
    chk (f.m == 0#8) .modifier <|
    chk (guardOf f.g f.neg).wf .guard <|
    .ok (.andnImm f.d (srcOf f.a f.pol) f.imm (guardOf f.g f.neg))
  | 0x0C8 =>
    let f := FmtI.ofWord w
    chk (f.m.extractLsb' 1 7 == 0#7) .modifier <|
    chk (guardOf f.g f.neg).wf .guard <|
    .ok (.iminImm f.d (srcOf f.a f.pol) f.imm (f.m.extractLsb' 0 1 == 1#1) (guardOf f.g f.neg))
  | 0x0C9 =>
    let f := FmtI.ofWord w
    chk (f.m.extractLsb' 1 7 == 0#7) .modifier <|
    chk (guardOf f.g f.neg).wf .guard <|
    .ok (.imaxImm f.d (srcOf f.a f.pol) f.imm (f.m.extractLsb' 0 1 == 1#1) (guardOf f.g f.neg))
  | 0x0D0 =>
    let f := FmtI.ofWord w
    chk (f.m == 0#8) .modifier <|
    chk (f.imm.extractLsb' 5 15 == 0#15) .immediate <|
    chk (guardOf f.g f.neg).wf .guard <|
    .ok (.shlImm f.d (srcOf f.a f.pol) (f.imm.extractLsb' 0 5) (guardOf f.g f.neg))
  | 0x0D1 =>
    let f := FmtI.ofWord w
    chk (f.m == 0#8) .modifier <|
    chk (f.imm.extractLsb' 5 15 == 0#15) .immediate <|
    chk (guardOf f.g f.neg).wf .guard <|
    .ok (.shrImm f.d (srcOf f.a f.pol) (f.imm.extractLsb' 0 5) (guardOf f.g f.neg))
  | 0x0D2 =>
    let f := FmtI.ofWord w
    chk (f.m == 0#8) .modifier <|
    chk (f.imm.extractLsb' 5 15 == 0#15) .immediate <|
    chk (guardOf f.g f.neg).wf .guard <|
    .ok (.sarImm f.d (srcOf f.a f.pol) (f.imm.extractLsb' 0 5) (guardOf f.g f.neg))
  | 0x0D3 =>
    let f := FmtI.ofWord w
    chk (f.m == 0#8) .modifier <|
    chk (f.imm.extractLsb' 5 15 == 0#15) .immediate <|
    chk (guardOf f.g f.neg).wf .guard <|
    .ok (.rolImm f.d (srcOf f.a f.pol) (f.imm.extractLsb' 0 5) (guardOf f.g f.neg))
  | 0x0D4 =>
    let f := FmtI.ofWord w
    chk (f.m.extractLsb' 1 7 == 0#7) .modifier <|
    chk (f.imm.extractLsb' 14 6 == 0#6 && f.imm.extractLsb' 5 3 == 0#3 && decide ((f.imm.extractLsb' 8 6).toNat ≤ 32)) .immediate <|
    chk (guardOf f.g f.neg).wf .guard <|
    .ok (.bfxImm f.d (srcOf f.a f.pol) (f.imm.extractLsb' 0 5) (f.imm.extractLsb' 8 6) (f.m.extractLsb' 0 1 == 1#1) (guardOf f.g f.neg))
  | 0x0D9 =>
    let f := FmtI.ofWord w
    chk (f.m.extractLsb' 4 4 == 0#4) .modifier <|
    coded (Cond.ofCode (f.m.extractLsb' 0 3)) .modifier fun c =>
    chk (guardOf f.g f.neg).wf .guard <|
    .ok (.icmpImm f.d (srcOf f.a f.pol) f.imm c (f.m.extractLsb' 3 1 == 1#1) (guardOf f.g f.neg))
  | 0x0DD =>
    let f := FmtI.ofWord w
    chk (f.m.extractLsb' 4 4 == 0#4) .modifier <|
    chk (guardOf f.g f.neg).wf .guard <|
    .ok (.leaImm f.d (srcOf f.a f.pol) f.imm (f.m.extractLsb' 0 3) (f.m.extractLsb' 3 1 == 1#1) (guardOf f.g f.neg))
  | 0x09C =>
    let f := FmtL.ofWord w
    chk (f.m == 0#7) .modifier <|
    chk (guardOf f.g f.neg).wf .guard <|
    .ok (.movi f.d f.imm (guardOf f.g f.neg))
  | _ => .ok (.unassignedOpcode w)

/-- Decode of the assigned opcodes 0x100 to 0x124 (R143 to R150). -/
def decodeFloat (op : Nat) (w : Code) : Decoded :=
  match op with
  | 0x100 =>
    let f := FmtA.ofWord w
    chk (f.c == 0#10) .field <|
    chk (f.pol.extractLsb' 0 1 == 0#1) .policy <|
    chk (f.m.extractLsb' 3 3 == 0#3) .modifier <|
    coded (RMode.ofCode (f.m.extractLsb' 0 3)) .modifier fun rm =>
    chk rm.plain .modifier <|
    chk (guardOf f.g f.neg).wf .guard <|
    .ok (.fadd f.d (srcOf f.a (f.pol.extractLsb' 2 1)) (srcOf f.b (f.pol.extractLsb' 1 1)) rm (guardOf f.g f.neg))
  | 0x101 =>
    let f := FmtA.ofWord w
    chk (f.c == 0#10) .field <|
    chk (f.pol.extractLsb' 0 1 == 0#1) .policy <|
    chk (f.m.extractLsb' 3 3 == 0#3) .modifier <|
    coded (RMode.ofCode (f.m.extractLsb' 0 3)) .modifier fun rm =>
    chk rm.plain .modifier <|
    chk (guardOf f.g f.neg).wf .guard <|
    .ok (.fsub f.d (srcOf f.a (f.pol.extractLsb' 2 1)) (srcOf f.b (f.pol.extractLsb' 1 1)) rm (guardOf f.g f.neg))
  | 0x102 =>
    let f := FmtA.ofWord w
    chk (f.c == 0#10) .field <|
    chk (f.pol.extractLsb' 0 1 == 0#1) .policy <|
    chk (f.m.extractLsb' 3 3 == 0#3) .modifier <|
    coded (RMode.ofCode (f.m.extractLsb' 0 3)) .modifier fun rm =>
    chk rm.plain .modifier <|
    chk (guardOf f.g f.neg).wf .guard <|
    .ok (.fmul f.d (srcOf f.a (f.pol.extractLsb' 2 1)) (srcOf f.b (f.pol.extractLsb' 1 1)) rm (guardOf f.g f.neg))
  | 0x103 =>
    let f := FmtA.ofWord w
    chk (f.m.extractLsb' 3 3 == 0#3) .modifier <|
    coded (RMode.ofCode (f.m.extractLsb' 0 3)) .modifier fun rm =>
    chk rm.plain .modifier <|
    chk (guardOf f.g f.neg).wf .guard <|
    .ok (.ffma f.d (srcOf f.a (f.pol.extractLsb' 2 1)) (srcOf f.b (f.pol.extractLsb' 1 1)) (srcOf f.c (f.pol.extractLsb' 0 1)) rm (guardOf f.g f.neg))
  | 0x104 =>
    let f := FmtA.ofWord w
    chk (f.c == 0#10) .field <|
    chk (f.pol.extractLsb' 0 1 == 0#1) .policy <|
    chk (f.m.extractLsb' 0 6 == 0#6) .modifier <|
    chk (guardOf f.g f.neg).wf .guard <|
    .ok (.fmin f.d (srcOf f.a (f.pol.extractLsb' 2 1)) (srcOf f.b (f.pol.extractLsb' 1 1)) (guardOf f.g f.neg))
  | 0x105 =>
    let f := FmtA.ofWord w
    chk (f.c == 0#10) .field <|
    chk (f.pol.extractLsb' 0 1 == 0#1) .policy <|
    chk (f.m.extractLsb' 0 6 == 0#6) .modifier <|
    chk (guardOf f.g f.neg).wf .guard <|
    .ok (.fmax f.d (srcOf f.a (f.pol.extractLsb' 2 1)) (srcOf f.b (f.pol.extractLsb' 1 1)) (guardOf f.g f.neg))
  | 0x106 =>
    let f := FmtA.ofWord w
    chk (f.c == 0#10) .field <|
    chk (f.pol.extractLsb' 0 1 == 0#1) .policy <|
    chk (f.m.extractLsb' 3 3 == 0#3) .modifier <|
    coded (FCond.ofCode (f.m.extractLsb' 0 3)) .modifier fun c =>
    chk (guardOf f.g f.neg).wf .guard <|
    .ok (.fcmp f.d (srcOf f.a (f.pol.extractLsb' 2 1)) (srcOf f.b (f.pol.extractLsb' 1 1)) c (guardOf f.g f.neg))
  | 0x107 =>
    let f := FmtA.ofWord w
    chk (f.b == 0#10 && f.c == 0#10) .field <|
    chk (f.pol.extractLsb' 1 1 == 0#1 && f.pol.extractLsb' 0 1 == 0#1) .policy <|
    chk (f.m.extractLsb' 0 6 == 0#6) .modifier <|
    chk (guardOf f.g f.neg).wf .guard <|
    .ok (.fclass f.d (srcOf f.a (f.pol.extractLsb' 2 1)) (guardOf f.g f.neg))
  | 0x110 =>
    let f := FmtA.ofWord w
    chk (f.b == 0#10 && f.c == 0#10) .field <|
    chk (f.pol.extractLsb' 1 1 == 0#1 && f.pol.extractLsb' 0 1 == 0#1) .policy <|
    chk (f.m.extractLsb' 0 6 == 0#6) .modifier <|
    chk (guardOf f.g f.neg).wf .guard <|
    .ok (.frcp f.d (srcOf f.a (f.pol.extractLsb' 2 1)) (guardOf f.g f.neg))
  | 0x111 =>
    let f := FmtA.ofWord w
    chk (f.b == 0#10 && f.c == 0#10) .field <|
    chk (f.pol.extractLsb' 1 1 == 0#1 && f.pol.extractLsb' 0 1 == 0#1) .policy <|
    chk (f.m.extractLsb' 0 6 == 0#6) .modifier <|
    chk (guardOf f.g f.neg).wf .guard <|
    .ok (.frsq f.d (srcOf f.a (f.pol.extractLsb' 2 1)) (guardOf f.g f.neg))
  | 0x112 =>
    let f := FmtA.ofWord w
    chk (f.b == 0#10 && f.c == 0#10) .field <|
    chk (f.pol.extractLsb' 1 1 == 0#1 && f.pol.extractLsb' 0 1 == 0#1) .policy <|
    chk (f.m.extractLsb' 3 3 == 0#3) .modifier <|
    coded (RMode.ofCode (f.m.extractLsb' 0 3)) .modifier fun rm =>
    chk rm.plain .modifier <|
    chk (guardOf f.g f.neg).wf .guard <|
    .ok (.fsqrt f.d (srcOf f.a (f.pol.extractLsb' 2 1)) rm (guardOf f.g f.neg))
  | 0x113 =>
    let f := FmtA.ofWord w
    chk (f.b == 0#10 && f.c == 0#10) .field <|
    chk (f.pol.extractLsb' 1 1 == 0#1 && f.pol.extractLsb' 0 1 == 0#1) .policy <|
    chk (f.m.extractLsb' 0 6 == 0#6) .modifier <|
    chk (guardOf f.g f.neg).wf .guard <|
    .ok (.fex2 f.d (srcOf f.a (f.pol.extractLsb' 2 1)) (guardOf f.g f.neg))
  | 0x114 =>
    let f := FmtA.ofWord w
    chk (f.b == 0#10 && f.c == 0#10) .field <|
    chk (f.pol.extractLsb' 1 1 == 0#1 && f.pol.extractLsb' 0 1 == 0#1) .policy <|
    chk (f.m.extractLsb' 0 6 == 0#6) .modifier <|
    chk (guardOf f.g f.neg).wf .guard <|
    .ok (.flg2 f.d (srcOf f.a (f.pol.extractLsb' 2 1)) (guardOf f.g f.neg))
  | 0x115 =>
    let f := FmtA.ofWord w
    chk (f.b == 0#10 && f.c == 0#10) .field <|
    chk (f.pol.extractLsb' 1 1 == 0#1 && f.pol.extractLsb' 0 1 == 0#1) .policy <|
    chk (f.m.extractLsb' 0 6 == 0#6) .modifier <|
    chk (guardOf f.g f.neg).wf .guard <|
    .ok (.fsin f.d (srcOf f.a (f.pol.extractLsb' 2 1)) (guardOf f.g f.neg))
  | 0x116 =>
    let f := FmtA.ofWord w
    chk (f.b == 0#10 && f.c == 0#10) .field <|
    chk (f.pol.extractLsb' 1 1 == 0#1 && f.pol.extractLsb' 0 1 == 0#1) .policy <|
    chk (f.m.extractLsb' 0 6 == 0#6) .modifier <|
    chk (guardOf f.g f.neg).wf .guard <|
    .ok (.fcos f.d (srcOf f.a (f.pol.extractLsb' 2 1)) (guardOf f.g f.neg))
  | 0x120 =>
    let f := FmtA.ofWord w
    chk (f.c == 0#10) .field <|
    chk (f.pol.extractLsb' 0 1 == 0#1) .policy <|
    chk (f.m.extractLsb' 4 2 == 0#2) .modifier <|
    coded (RMode.ofCode (f.m.extractLsb' 0 3)) .modifier fun rm =>
    coded (PFmt.ofCode (f.m.extractLsb' 3 1)) .modifier fun fm =>
    chk rm.plain .modifier <|
    chk (guardOf f.g f.neg).wf .guard <|
    .ok (.padd2 f.d (srcOf f.a (f.pol.extractLsb' 2 1)) (srcOf f.b (f.pol.extractLsb' 1 1)) fm rm (guardOf f.g f.neg))
  | 0x121 =>
    let f := FmtA.ofWord w
    chk (f.c == 0#10) .field <|
    chk (f.pol.extractLsb' 0 1 == 0#1) .policy <|
    chk (f.m.extractLsb' 4 2 == 0#2) .modifier <|
    coded (RMode.ofCode (f.m.extractLsb' 0 3)) .modifier fun rm =>
    coded (PFmt.ofCode (f.m.extractLsb' 3 1)) .modifier fun fm =>
    chk rm.plain .modifier <|
    chk (guardOf f.g f.neg).wf .guard <|
    .ok (.pmul2 f.d (srcOf f.a (f.pol.extractLsb' 2 1)) (srcOf f.b (f.pol.extractLsb' 1 1)) fm rm (guardOf f.g f.neg))
  | 0x122 =>
    let f := FmtA.ofWord w
    chk (f.m.extractLsb' 4 2 == 0#2) .modifier <|
    coded (RMode.ofCode (f.m.extractLsb' 0 3)) .modifier fun rm =>
    coded (PFmt.ofCode (f.m.extractLsb' 3 1)) .modifier fun fm =>
    chk rm.plain .modifier <|
    chk (guardOf f.g f.neg).wf .guard <|
    .ok (.pfma2 f.d (srcOf f.a (f.pol.extractLsb' 2 1)) (srcOf f.b (f.pol.extractLsb' 1 1)) (srcOf f.c (f.pol.extractLsb' 0 1)) fm rm (guardOf f.g f.neg))
  | 0x123 =>
    let f := FmtA.ofWord w
    chk (f.m.extractLsb' 4 2 == 0#2) .modifier <|
    coded (RMode.ofCode (f.m.extractLsb' 0 3)) .modifier fun rm =>
    coded (PFmt.ofCode (f.m.extractLsb' 3 1)) .modifier fun fm =>
    chk rm.plain .modifier <|
    chk (guardOf f.g f.neg).wf .guard <|
    .ok (.pdot2 f.d (srcOf f.a (f.pol.extractLsb' 2 1)) (srcOf f.b (f.pol.extractLsb' 1 1)) (srcOf f.c (f.pol.extractLsb' 0 1)) fm rm (guardOf f.g f.neg))
  | 0x124 =>
    let f := FmtA.ofWord w
    chk (f.m.extractLsb' 3 3 == 0#3) .modifier <|
    chk (guardOf f.g f.neg).wf .guard <|
    .ok (.idot4 f.d (srcOf f.a (f.pol.extractLsb' 2 1)) (srcOf f.b (f.pol.extractLsb' 1 1)) (srcOf f.c (f.pol.extractLsb' 0 1)) (f.m.extractLsb' 0 1 == 1#1) (f.m.extractLsb' 1 1 == 1#1) (f.m.extractLsb' 2 1 == 1#1) (guardOf f.g f.neg))
  | _ => .ok (.unassignedOpcode w)

/-- Decode of the assigned opcodes 0x180 to 0x194 (R151 to R161). -/
def decodeLane (op : Nat) (w : Code) : Decoded :=
  match op with
  | 0x180 =>
    let f := FmtA.ofWord w
    chk (f.pol.extractLsb' 1 1 == 0#1) .policy <|
    coded (RMode.ofCode (f.m.extractLsb' 0 3)) .modifier fun rm =>
    chk (guardOf f.g f.neg).wf .guard <|
    coded (NumFmt.ofCode (f.b.extractLsb' 5 5)) .entry fun src =>
    coded (NumFmt.ofCode (f.b.extractLsb' 0 5)) .entry fun dst =>
    chk (dst.elems != 1 || (f.c == 0#10 && f.pol.extractLsb' 0 1 == 0#1)) .field <|
    chk (cvtOk src dst rm (f.m.extractLsb' 3 1 == 1#1) (f.m.extractLsb' 4 2)) .entry <|
    .ok (.cvt f.d (srcOf f.a (f.pol.extractLsb' 2 1)) (srcOf f.c (f.pol.extractLsb' 0 1)) src dst rm (f.m.extractLsb' 3 1 == 1#1) (f.m.extractLsb' 4 2) (guardOf f.g f.neg))
  | 0x181 =>
    let f := FmtA.ofWord w
    chk (f.b == 0#10 && f.c == 0#10) .field <|
    chk (f.pol.extractLsb' 1 1 == 0#1 && f.pol.extractLsb' 0 1 == 0#1) .policy <|
    chk (f.m.extractLsb' 2 4 == 0#4) .modifier <|
    chk (guardOf f.g f.neg).wf .guard <|
    .ok (.cbdec f.d (srcOf f.a (f.pol.extractLsb' 2 1)) (f.m.extractLsb' 0 1 == 1#1) (f.m.extractLsb' 1 1 == 1#1) (guardOf f.g f.neg))
  | 0x182 =>
    let f := FmtA.ofWord w
    chk (f.c == 0#10) .field <|
    chk (f.pol.extractLsb' 0 1 == 0#1) .policy <|
    chk (f.m.extractLsb' 4 2 == 0#2) .modifier <|
    coded (RMode.ofCode (f.m.extractLsb' 0 3)) .modifier fun rm =>
    chk rm.plain .modifier <|
    chk (guardOf f.g f.neg).wf .guard <|
    .ok (.scal f.d (srcOf f.a (f.pol.extractLsb' 2 1)) (srcOf f.b (f.pol.extractLsb' 1 1)) (f.m.extractLsb' 3 1 == 1#1) rm (guardOf f.g f.neg))
  | 0x190 =>
    let f := FmtA.ofWord w
    chk (f.c == 0#10) .field <|
    chk (f.pol.extractLsb' 0 1 == 0#1) .policy <|
    chk (f.m.extractLsb' 5 1 == 0#1) .modifier <|
    coded (ShflMode.ofCode (f.m.extractLsb' 0 2)) .modifier fun m =>
    coded (SegCode.ofCode (f.m.extractLsb' 2 3)) .modifier fun seg =>
    chk (guardOf f.g f.neg).wf .guard <|
    .ok (.shfl f.d (srcOf f.a (f.pol.extractLsb' 2 1)) (srcOf f.b (f.pol.extractLsb' 1 1)) m seg (guardOf f.g f.neg))
  | 0x191 =>
    let f := FmtA.ofWord w
    chk (f.b == 0#10 && f.c == 0#10) .field <|
    chk (f.pol.extractLsb' 1 1 == 0#1 && f.pol.extractLsb' 0 1 == 0#1) .policy <|
    chk (f.m.extractLsb' 3 3 == 0#3) .modifier <|
    coded (VoteMode.ofCode (f.m.extractLsb' 0 2)) .modifier fun m =>
    chk (guardOf f.g f.neg).wf .guard <|
    chk (!(f.m.extractLsb' 2 1 == 1#1) || m == .ballot) .entry <|
    .ok (.vote f.d (srcOf f.a (f.pol.extractLsb' 2 1)) m (f.m.extractLsb' 2 1 == 1#1) (guardOf f.g f.neg))
  | 0x192 =>
    let f := FmtA.ofWord w
    chk (f.b == 0#10 && f.c == 0#10) .field <|
    chk (f.pol.extractLsb' 1 1 == 0#1 && f.pol.extractLsb' 0 1 == 0#1) .policy <|
    chk (f.m.extractLsb' 2 4 == 0#4) .modifier <|
    chk (guardOf f.g f.neg).wf .guard <|
    .ok (.matchLanes f.d (srcOf f.a (f.pol.extractLsb' 2 1)) (f.m.extractLsb' 0 1 == 1#1) (f.m.extractLsb' 1 1 == 1#1) (guardOf f.g f.neg))
  | 0x193 =>
    let f := FmtA.ofWord w
    chk (f.b == 0#10 && f.c == 0#10) .field <|
    chk (f.pol.extractLsb' 1 1 == 0#1 && f.pol.extractLsb' 0 1 == 0#1) .policy <|
    chk (f.m.extractLsb' 4 2 == 0#2) .modifier <|
    coded (LaneOp.ofCode (f.m.extractLsb' 0 4)) .modifier fun o =>
    chk (guardOf f.g f.neg).wf .guard <|
    .ok (.lred f.d (srcOf f.a (f.pol.extractLsb' 2 1)) o (guardOf f.g f.neg))
  | 0x194 =>
    let f := FmtA.ofWord w
    chk (f.b == 0#10 && f.c == 0#10) .field <|
    chk (f.pol.extractLsb' 1 1 == 0#1 && f.pol.extractLsb' 0 1 == 0#1) .policy <|
    chk (f.m.extractLsb' 5 1 == 0#1) .modifier <|
    coded (LaneOp.ofCode (f.m.extractLsb' 0 4)) .modifier fun o =>
    chk (guardOf f.g f.neg).wf .guard <|
    .ok (.lscan f.d (srcOf f.a (f.pol.extractLsb' 2 1)) o (f.m.extractLsb' 4 1 == 1#1) (guardOf f.g f.neg))
  | _ => .ok (.unassignedOpcode w)

/-- Decode of the assigned opcodes 0x1C0 to 0x1E4 (R195 to R223). -/
def decodeMemory (op : Nat) (w : Code) : Decoded :=
  match op with
  | 0x1C8 =>
    let f := FmtA.ofWord w
    chk (f.c.extractLsb' 0 8 == 0#8) .field <|
    chk (f.pol.extractLsb' 0 1 == 0#1) .policy <|
    coded (AtomOp.ofCode (f.m.extractLsb' 2 4)) .modifier fun o =>
    coded (Ordering.ofCode (f.c.extractLsb' 8 2)) .modifier fun ord =>
    chk (o.wideOk (f.m.extractLsb' 1 1 == 1#1)) .modifier <|
    chk (guardOf f.g f.neg).wf .guard <|
    .ok (.atom f.d (srcOf f.a (f.pol.extractLsb' 2 1)) (srcOf f.b (f.pol.extractLsb' 1 1)) o (f.m.extractLsb' 1 1 == 1#1) (f.m.extractLsb' 0 1 == 1#1) ord (guardOf f.g f.neg))
  | 0x1C9 =>
    let f := FmtA.ofWord w
    chk (f.m.extractLsb' 2 2 == 0#2) .modifier <|
    coded (Ordering.ofCode (f.m.extractLsb' 4 2)) .modifier fun ord =>
    chk (guardOf f.g f.neg).wf .guard <|
    .ok (.acas f.d (srcOf f.a (f.pol.extractLsb' 2 1)) (srcOf f.b (f.pol.extractLsb' 1 1)) (srcOf f.c (f.pol.extractLsb' 0 1)) (f.m.extractLsb' 1 1 == 1#1) (f.m.extractLsb' 0 1 == 1#1) ord (guardOf f.g f.neg))
  | 0x1CA =>
    let f := FmtA.ofWord w
    chk (f.d == 0#10 && f.c.extractLsb' 0 8 == 0#8) .field <|
    chk (f.pol.extractLsb' 0 1 == 0#1) .policy <|
    coded (AtomOp.ofCode (f.m.extractLsb' 2 4)) .modifier fun o =>
    coded (Ordering.ofCode (f.c.extractLsb' 8 2)) .modifier fun ord =>
    chk (o.wideOk (f.m.extractLsb' 1 1 == 1#1) && ord.redOk) .modifier <|
    chk (guardOf f.g f.neg).wf .guard <|
    .ok (.red (srcOf f.a (f.pol.extractLsb' 2 1)) (srcOf f.b (f.pol.extractLsb' 1 1)) o (f.m.extractLsb' 1 1 == 1#1) (f.m.extractLsb' 0 1 == 1#1) ord (guardOf f.g f.neg))
  | 0x1CC =>
    let f := FmtA.ofWord w
    chk (f.d == 0#10 && f.a == 0#10 && f.b == 0#10 && f.c == 0#10) .field <|
    chk (f.pol.extractLsb' 2 1 == 0#1 && f.pol.extractLsb' 1 1 == 0#1 && f.pol.extractLsb' 0 1 == 0#1) .policy <|
    chk (f.m.extractLsb' 3 3 == 0#3) .modifier <|
    coded (FenceKind.ofCode (f.m.extractLsb' 0 2)) .modifier fun k =>
    coded (Scope.ofCode (f.m.extractLsb' 2 1)) .modifier fun sc =>
    chk (guardOf f.g f.neg).wf .guard <|
    .ok (.fence k sc (guardOf f.g f.neg))
  | 0x1E0 =>
    let f := FmtA.ofWord w
    chk (f.d == 0#10 && f.b == 0#10 && f.c == 0#10) .field <|
    chk (f.pol.extractLsb' 1 1 == 0#1 && f.pol.extractLsb' 0 1 == 0#1) .policy <|
    chk (f.m.extractLsb' 3 3 == 0#3) .modifier <|
    chk (guardOf f.g f.neg).wf .guard <|
    .ok (.csub (f.m.extractLsb' 0 3) (srcOf f.a (f.pol.extractLsb' 2 1)) (guardOf f.g f.neg))
  | 0x1E1 =>
    let f := FmtA.ofWord w
    chk (f.d == 0#10 && f.c == 0#10) .field <|
    chk (f.pol.extractLsb' 0 1 == 0#1) .policy <|
    chk (f.m.extractLsb' 0 6 == 0#6) .modifier <|
    chk (guardOf f.g f.neg).wf .guard <|
    .ok (.binit (srcOf f.a (f.pol.extractLsb' 2 1)) (srcOf f.b (f.pol.extractLsb' 1 1)) (guardOf f.g f.neg))
  | 0x1E2 =>
    let f := FmtA.ofWord w
    chk (f.d == 0#10 && f.c == 0#10) .field <|
    chk (f.pol.extractLsb' 0 1 == 0#1) .policy <|
    chk (f.m.extractLsb' 0 6 == 0#6) .modifier <|
    chk (guardOf f.g f.neg).wf .guard <|
    .ok (.barv (srcOf f.a (f.pol.extractLsb' 2 1)) (srcOf f.b (f.pol.extractLsb' 1 1)) (guardOf f.g f.neg))
  | 0x1E3 =>
    let f := FmtA.ofWord w
    chk (f.d == 0#10 && f.c == 0#10) .field <|
    chk (f.pol.extractLsb' 0 1 == 0#1) .policy <|
    chk (f.m.extractLsb' 0 6 == 0#6) .modifier <|
    chk (guardOf f.g f.neg).wf .guard <|
    .ok (.bwait (srcOf f.a (f.pol.extractLsb' 2 1)) (srcOf f.b (f.pol.extractLsb' 1 1)) (guardOf f.g f.neg))
  | 0x1E4 =>
    let f := FmtA.ofWord w
    chk (f.d == 0#10 && f.b == 0#10 && f.c == 0#10) .field <|
    chk (f.pol.extractLsb' 1 1 == 0#1 && f.pol.extractLsb' 0 1 == 0#1) .policy <|
    chk (f.m.extractLsb' 3 3 == 0#3) .modifier <|
    chk (guardOf f.g f.neg).wf .guard <|
    .ok (.wqry (f.m.extractLsb' 0 3) (srcOf f.a (f.pol.extractLsb' 2 1)) (guardOf f.g f.neg))
  | 0x1C0 =>
    let f := FmtM.ofWord w
    chk (f.pol.extractLsb' 0 2 == 0#2) .policy <|
    coded (Width.ofCode f.w) .modifier fun w =>
    coded (Ordering.ofCode f.o) .modifier fun o =>
    chk o.loadOk .modifier <|
    chk (guardOf f.g f.neg).wf .guard <|
    .ok (.ld f.d (srcOf f.a (f.pol.extractLsb' 2 1)) f.off w o (f.h == 1#1) (guardOf f.g f.neg))
  | 0x1C6 =>
    let f := FmtM.ofWord w
    chk (f.pol.extractLsb' 0 2 == 0#2) .policy <|
    coded (Width.ofCode f.w) .modifier fun w =>
    coded (Ordering.ofCode f.o) .modifier fun o =>
    chk o.loadOk .modifier <|
    chk (guardOf f.g f.neg).wf .guard <|
    .ok (.ldu f.d (srcOf f.a (f.pol.extractLsb' 2 1)) f.off w o (f.h == 1#1) (guardOf f.g f.neg))
  | 0x1C1 =>
    let f := FmtM.ofWord w
    chk (f.pol.extractLsb' 0 1 == 0#1) .policy <|
    coded (Width.ofCode f.w) .modifier fun w =>
    coded (Ordering.ofCode f.o) .modifier fun o =>
    chk o.storeOk .modifier <|
    chk (guardOf f.g f.neg).wf .guard <|
    .ok (.st (srcOf f.d (f.pol.extractLsb' 1 1)) (srcOf f.a (f.pol.extractLsb' 2 1)) f.off w o (f.h == 1#1) (guardOf f.g f.neg))
  | 0x1C2 =>
    let f := FmtM.ofWord w
    chk (f.pol.extractLsb' 0 2 == 0#2) .policy <|
    chk (f.h == 0#1) .modifier <|
    coded (Width.ofCode f.w) .modifier fun w =>
    coded (Ordering.ofCode f.o) .modifier fun o =>
    chk o.loadOk .modifier <|
    chk (guardOf f.g f.neg).wf .guard <|
    .ok (.ldl f.d (srcOf f.a (f.pol.extractLsb' 2 1)) f.off w o (guardOf f.g f.neg))
  | 0x1C3 =>
    let f := FmtM.ofWord w
    chk (f.pol.extractLsb' 0 1 == 0#1) .policy <|
    chk (f.h == 0#1) .modifier <|
    coded (Width.ofCode f.w) .modifier fun w =>
    coded (Ordering.ofCode f.o) .modifier fun o =>
    chk o.storeOk .modifier <|
    chk (guardOf f.g f.neg).wf .guard <|
    .ok (.stl (srcOf f.d (f.pol.extractLsb' 1 1)) (srcOf f.a (f.pol.extractLsb' 2 1)) f.off w o (guardOf f.g f.neg))
  | 0x1C4 =>
    let f := FmtM.ofWord w
    chk (f.pol.extractLsb' 0 2 == 0#2) .policy <|
    chk (f.o == 0#2) .modifier <|
    coded (Width.ofCode f.w) .modifier fun w =>
    chk (guardOf f.g f.neg).wf .guard <|
    .ok (.ldp f.d (srcOf f.a (f.pol.extractLsb' 2 1)) f.off w (f.h == 1#1) (guardOf f.g f.neg))
  | 0x1C5 =>
    let f := FmtM.ofWord w
    chk (f.pol.extractLsb' 0 1 == 0#1) .policy <|
    chk (f.o == 0#2) .modifier <|
    coded (Width.ofCode f.w) .modifier fun w =>
    chk (guardOf f.g f.neg).wf .guard <|
    .ok (.stp (srcOf f.d (f.pol.extractLsb' 1 1)) (srcOf f.a (f.pol.extractLsb' 2 1)) f.off w (f.h == 1#1) (guardOf f.g f.neg))
  | 0x1CD =>
    let f := FmtM.ofWord w
    chk (f.d == 0#10) .field <|
    chk (f.pol.extractLsb' 0 2 == 0#2) .policy <|
    chk (f.w.extractLsb' 1 2 == 0#2) .modifier <|
    chk (f.o == 0#2) .modifier <|
    chk (f.h == 0#1) .modifier <|
    chk (guardOf f.g f.neg).wf .guard <|
    .ok (.pref (srcOf f.a (f.pol.extractLsb' 2 1)) f.off (f.w.extractLsb' 0 1 == 1#1) (guardOf f.g f.neg))
  | _ => .ok (.unassignedOpcode w)

/-- Decode of the assigned opcodes 0x240 to 0x263 (R269 to R323). -/
def decodeQueue (op : Nat) (w : Code) : Decoded :=
  match op with
  | 0x240 =>
    let f := FmtA.ofWord w
    chk (f.c == 0#10) .field <|
    chk (f.pol.extractLsb' 0 1 == 0#1) .policy <|
    chk (f.m.extractLsb' 0 6 == 0#6) .modifier <|
    chk (guardOf f.g f.neg).wf .guard <|
    .ok (.qres f.d (srcOf f.a (f.pol.extractLsb' 2 1)) (srcOf f.b (f.pol.extractLsb' 1 1)) (guardOf f.g f.neg))
  | 0x241 =>
    let f := FmtA.ofWord w
    chk (f.m.extractLsb' 4 2 == 0#2) .modifier <|
    coded (SizeCode.ofCode (f.m.extractLsb' 0 3)) .modifier fun z =>
    chk (guardOf f.g f.neg).wf .guard <|
    .ok (.qput f.d (srcOf f.a (f.pol.extractLsb' 2 1)) (srcOf f.b (f.pol.extractLsb' 1 1)) (srcOf f.c (f.pol.extractLsb' 0 1)) z (f.m.extractLsb' 3 1 == 1#1) (guardOf f.g f.neg))
  | 0x242 =>
    let f := FmtA.ofWord w
    chk (f.m.extractLsb' 4 2 == 0#2) .modifier <|
    coded (SizeCode.ofCode (f.m.extractLsb' 0 3)) .modifier fun z =>
    chk (guardOf f.g f.neg).wf .guard <|
    .ok (.qrp f.d (srcOf f.a (f.pol.extractLsb' 2 1)) (srcOf f.b (f.pol.extractLsb' 1 1)) (srcOf f.c (f.pol.extractLsb' 0 1)) z (f.m.extractLsb' 3 1 == 1#1) (guardOf f.g f.neg))
  | 0x243 =>
    let f := FmtA.ofWord w
    chk ((f.m.extractLsb' 3 1 == 1#1) || (f.b == 0#10 && f.pol.extractLsb' 1 1 == 0#1)) .field <|
    chk ((f.m.extractLsb' 4 1 == 1#1) || f.c == 0#10) .field <|
    chk (f.pol.extractLsb' 0 1 == 0#1) .policy <|
    chk (f.m.extractLsb' 5 1 == 0#1) .modifier <|
    coded (SizeCode.ofCode (f.m.extractLsb' 0 3)) .modifier fun z =>
    chk (guardOf f.g f.neg).wf .guard <|
    .ok (.qget f.d (srcOf f.a (f.pol.extractLsb' 2 1)) (if (f.m.extractLsb' 3 1 == 1#1) then some (srcOf f.b (f.pol.extractLsb' 1 1)) else none) (if (f.m.extractLsb' 4 1 == 1#1) then some f.c else none) z (guardOf f.g f.neg))
  | 0x244 =>
    let f := FmtA.ofWord w
    chk ((f.m.extractLsb' 3 1 == 1#1) || (f.b == 0#10 && f.pol.extractLsb' 1 1 == 0#1)) .field <|
    chk (f.pol.extractLsb' 0 1 == 0#1) .policy <|
    chk (f.m.extractLsb' 4 2 == 0#2) .modifier <|
    coded (SizeCode.ofCode (f.m.extractLsb' 0 3)) .modifier fun z =>
    chk (guardOf f.g f.neg).wf .guard <|
    .ok (.qtry f.d (srcOf f.a (f.pol.extractLsb' 2 1)) (if (f.m.extractLsb' 3 1 == 1#1) then some (srcOf f.b (f.pol.extractLsb' 1 1)) else none) f.c z (guardOf f.g f.neg))
  | 0x245 =>
    let f := FmtA.ofWord w
    chk (f.b == 0#10 && f.c == 0#10) .field <|
    chk (f.pol.extractLsb' 1 1 == 0#1 && f.pol.extractLsb' 0 1 == 0#1) .policy <|
    chk (f.m.extractLsb' 0 6 == 0#6) .modifier <|
    chk (guardOf f.g f.neg).wf .guard <|
    .ok (.qcan f.d (srcOf f.a (f.pol.extractLsb' 2 1)) (guardOf f.g f.neg))
  | 0x246 =>
    let f := FmtA.ofWord w
    chk (f.b == 0#10 && f.c == 0#10) .field <|
    chk (f.pol.extractLsb' 1 1 == 0#1 && f.pol.extractLsb' 0 1 == 0#1) .policy <|
    chk (f.m.extractLsb' 1 5 == 0#5) .modifier <|
    chk (guardOf f.g f.neg).wf .guard <|
    .ok ((if (f.m.extractLsb' 0 1 == 1#1) then .qstatR f.d (srcOf f.a (f.pol.extractLsb' 2 1)) (guardOf f.g f.neg) else .qstatQ f.d (srcOf f.a (f.pol.extractLsb' 2 1)) (guardOf f.g f.neg)))
  | 0x248 =>
    let f := FmtA.ofWord w
    chk (f.a == 0#10 && f.b == 0#10 && f.c == 0#10) .field <|
    chk (f.pol.extractLsb' 2 1 == 0#1 && f.pol.extractLsb' 1 1 == 0#1 && f.pol.extractLsb' 0 1 == 0#1) .policy <|
    chk (f.m.extractLsb' 0 6 == 0#6) .modifier <|
    chk (guardOf f.g f.neg).wf .guard <|
    .ok (.gname f.d (guardOf f.g f.neg))
  | 0x249 =>
    let f := FmtA.ofWord w
    chk (f.d == 0#10 && f.a == 0#10 && f.b == 0#10 && f.c == 0#10) .field <|
    chk (f.pol.extractLsb' 2 1 == 0#1 && f.pol.extractLsb' 1 1 == 0#1 && f.pol.extractLsb' 0 1 == 0#1) .policy <|
    chk (f.m.extractLsb' 0 6 == 0#6) .modifier <|
    chk (guardOf f.g f.neg).wf .guard <|
    .ok (.gfree (guardOf f.g f.neg))
  | 0x24A =>
    let f := FmtA.ofWord w
    chk (f.m.extractLsb' 0 6 == 0#6) .modifier <|
    chk (guardOf f.g f.neg).wf .guard <|
    .ok (.rput f.d (srcOf f.a (f.pol.extractLsb' 2 1)) (srcOf f.b (f.pol.extractLsb' 1 1)) (srcOf f.c (f.pol.extractLsb' 0 1)) (guardOf f.g f.neg))
  | 0x24B =>
    let f := FmtA.ofWord w
    chk (f.b == 0#10 && f.c == 0#10) .field <|
    chk (f.pol.extractLsb' 1 1 == 0#1 && f.pol.extractLsb' 0 1 == 0#1) .policy <|
    chk (f.m.extractLsb' 2 4 == 0#4) .modifier <|
    chk (!((f.m.extractLsb' 0 1 == 1#1) && (f.m.extractLsb' 1 1 == 1#1))) .modifier <|
    chk (!(f.m.extractLsb' 1 1 == 1#1) || (f.a == 0#10 && f.pol.extractLsb' 2 1 == 0#1)) .field <|
    chk (guardOf f.g f.neg).wf .guard <|
    .ok (.await f.d (if (f.m.extractLsb' 1 1 == 1#1) then .all else if (f.m.extractLsb' 0 1 == 1#1) then .pair (srcOf f.a (f.pol.extractLsb' 2 1)) else .one (srcOf f.a (f.pol.extractLsb' 2 1))) (guardOf f.g f.neg))
  | 0x260 =>
    let f := FmtA.ofWord w
    chk (f.m.extractLsb' 4 2 == 0#2) .modifier <|
    .ok ((.recruit f.d (srcOf f.a (f.pol.extractLsb' 2 1)) (srcOf f.b (f.pol.extractLsb' 1 1)) (srcOf f.c (f.pol.extractLsb' 0 1)) (f.m.extractLsb' 0 4) (guardOf f.g f.neg)))
  | 0x261 =>
    let f := FmtA.ofWord w
    chk (f.d == 0#10 && f.a == 0#10 && f.b == 0#10 && f.c == 0#10) .field <|
    chk (f.pol.extractLsb' 2 1 == 0#1 && f.pol.extractLsb' 1 1 == 0#1 && f.pol.extractLsb' 0 1 == 0#1) .policy <|
    chk (f.m.extractLsb' 0 6 == 0#6) .modifier <|
    chk (guardOf f.g f.neg).wf .guard <|
    .ok (.hnext (guardOf f.g f.neg))
  | 0x262 =>
    let f := FmtA.ofWord w
    chk (f.d == 0#10 && f.a == 0#10 && f.b == 0#10 && f.c == 0#10) .field <|
    chk (f.pol.extractLsb' 2 1 == 0#1 && f.pol.extractLsb' 1 1 == 0#1 && f.pol.extractLsb' 0 1 == 0#1) .policy <|
    chk (f.m.extractLsb' 0 6 == 0#6) .modifier <|
    chk (guardOf f.g f.neg).wf .guard <|
    .ok (.hquit (guardOf f.g f.neg))
  | 0x263 =>
    let f := FmtA.ofWord w
    chk (f.b == 0#10 && f.c == 0#10) .field <|
    chk (f.pol.extractLsb' 1 1 == 0#1 && f.pol.extractLsb' 0 1 == 0#1) .policy <|
    chk (f.m.extractLsb' 0 6 == 0#6) .modifier <|
    chk (f.g == 0#4 && f.neg == 0#1) .guard <|
    .ok (.hjoin f.d (srcOf f.a (f.pol.extractLsb' 2 1)))
  | _ => .ok (.unassignedOpcode w)

/-- Decode of the assigned opcodes 0x2C0 to 0x305 (R344 to R359). -/
def decodeMatrix (op : Nat) (w : Code) : Decoded :=
  match op with
  | 0x2C0 =>
    let f := FmtA.ofWord w
    chk (f.d == 0#10 && f.c == 0#10) .field <|
    chk (f.pol.extractLsb' 0 1 == 0#1) .policy <|
    chk (f.m.extractLsb' 0 6 == 0#6) .modifier <|
    chk (guardOf f.g f.neg).wf .guard <|
    .ok (.mwin (srcOf f.a (f.pol.extractLsb' 2 1)) (srcOf f.b (f.pol.extractLsb' 1 1)) (guardOf f.g f.neg))
  | 0x2C1 =>
    let f := FmtA.ofWord w
    chk (f.a == 0#10 && f.b == 0#10 && f.c == 0#10) .field <|
    chk (f.pol.extractLsb' 2 1 == 0#1 && f.pol.extractLsb' 1 1 == 0#1 && f.pol.extractLsb' 0 1 == 0#1) .policy <|
    chk (f.m.extractLsb' 3 3 == 0#3) .modifier <|
    chk (guardOf f.g f.neg).wf .guard <|
    .ok (.mlend f.d (f.m.extractLsb' 0 3) (guardOf f.g f.neg))
  | 0x2C2 =>
    let f := FmtA.ofWord w
    chk (f.b == 0#10) .field <|
    chk (f.pol.extractLsb' 1 1 == 0#1 && f.pol.extractLsb' 0 1 == 0#1) .policy <|
    chk (f.m.extractLsb' 3 3 == 0#3) .modifier <|
    chk (guardOf f.g f.neg).wf .guard <|
    .ok (.mrd f.d (srcOf f.a (f.pol.extractLsb' 2 1)) f.c (f.m.extractLsb' 0 3) (guardOf f.g f.neg))
  | 0x2C3 =>
    let f := FmtA.ofWord w
    chk (f.b == 0#10 && f.c == 0#10) .field <|
    chk (f.pol.extractLsb' 0 1 == 0#1) .policy <|
    chk (f.m.extractLsb' 3 3 == 0#3) .modifier <|
    chk (guardOf f.g f.neg).wf .guard <|
    .ok (.mwr (srcOf f.d (f.pol.extractLsb' 1 1)) (srcOf f.a (f.pol.extractLsb' 2 1)) (f.m.extractLsb' 0 3) (guardOf f.g f.neg))
  | 0x300 =>
    let f := FmtA.ofWord w
    chk (f.pol.extractLsb' 0 2 == 0#2 && f.m.extractLsb' 4 2 == 0#2) .field <|
    chk (decide (f.g.toNat ≤ 8)) .modifier <|
    chk (f.g != 0#4 || (f.neg ++ f.pol.extractLsb' 2 1) == 0#2) .modifier <|
    coded (MmaKind.ofCode (f.m.extractLsb' 0 4)) .modifier fun kind =>
    .ok (.mma f.d f.a f.b f.c f.g (f.neg ++ f.pol.extractLsb' 2 1) kind)
  | 0x301 =>
    let f := FmtA.ofWord w
    chk (f.b == 0#10 && f.c == 0#10) .field <|
    chk (f.pol.extractLsb' 2 1 == 0#1 && f.pol.extractLsb' 1 1 == 0#1 && f.pol.extractLsb' 0 1 == 0#1) .policy <|
    chk (f.m.extractLsb' 4 2 == 0#2) .modifier <|
    chk (guardOf f.g f.neg).wf .guard <|
    .ok (.mscale f.d f.a (f.m.extractLsb' 0 1 == 1#1) (f.m.extractLsb' 1 1 == 1#1) (f.m.extractLsb' 2 1 == 1#1) (f.m.extractLsb' 3 1 == 1#1) (guardOf f.g f.neg))
  | 0x302 =>
    let f := FmtA.ofWord w
    chk (f.b == 0#10 && f.c == 0#10) .field <|
    chk (f.pol.extractLsb' 2 1 == 0#1 && f.pol.extractLsb' 1 1 == 0#1 && f.pol.extractLsb' 0 1 == 0#1) .policy <|
    chk (f.m.extractLsb' 2 4 == 0#4) .modifier <|
    coded (ClrVal.ofCode (f.m.extractLsb' 0 2)) .modifier fun v =>
    chk (guardOf f.g f.neg).wf .guard <|
    .ok (.mclr f.d f.a v (guardOf f.g f.neg))
  | 0x303 =>
    let f := FmtA.ofWord w
    chk (f.d == 0#10 && f.b == 0#10 && f.c == 0#10) .field <|
    chk (f.pol.extractLsb' 2 1 == 0#1 && f.pol.extractLsb' 1 1 == 0#1 && f.pol.extractLsb' 0 1 == 0#1) .policy <|
    chk (f.m.extractLsb' 2 4 == 0#4) .modifier <|
    chk (guardOf f.g f.neg).wf .guard <|
    .ok (.mtab f.a (f.m.extractLsb' 0 1 == 1#1) (f.m.extractLsb' 1 1 == 1#1) (guardOf f.g f.neg))
  | 0x304 =>
    let f := FmtA.ofWord w
    chk (f.d == 0#10 && f.c == 0#10) .field <|
    chk (f.pol.extractLsb' 2 1 == 0#1 && f.pol.extractLsb' 1 1 == 0#1 && f.pol.extractLsb' 0 1 == 0#1) .policy <|
    chk (f.m.extractLsb' 2 4 == 0#4) .modifier <|
    chk (guardOf f.g f.neg).wf .guard <|
    .ok (.msig f.a f.b (f.m.extractLsb' 0 1 == 1#1) (f.m.extractLsb' 1 1 == 1#1) (guardOf f.g f.neg))
  | 0x305 =>
    let f := FmtA.ofWord w
    chk (f.c == 0#10) .field <|
    chk (f.pol.extractLsb' 2 1 == 0#1 && f.pol.extractLsb' 1 1 == 0#1 && f.pol.extractLsb' 0 1 == 0#1) .policy <|
    chk (f.m.extractLsb' 4 2 == 0#2) .modifier <|
    coded (DrainCv.ofCode (f.m.extractLsb' 0 2)) .modifier fun cv =>
    chk (guardOf f.g f.neg).wf .guard <|
    .ok (.mdrn f.d f.a f.b cv (f.m.extractLsb' 2 1 == 1#1) (f.m.extractLsb' 3 1 == 1#1) (guardOf f.g f.neg))
  | _ => .ok (.unassignedOpcode w)

/-- Decode of a word by the family of its opcode (R86). -/
def decodeOp (op : Nat) (w : Code) : Decoded :=
  if op < 0x080 then decodeControl op w
  else if op < 0x100 then decodeInteger op w
  else if op < 0x180 then decodeFloat op w
  else if op < 0x1C0 then decodeLane op w
  else if op < 0x240 then decodeMemory op w
  else if op < 0x2C0 then decodeQueue op w
  else if op < 0x340 then decodeMatrix op w
  else .ok (.unassignedOpcode w)

/-- Decoding of one instruction word: bits 63:54 hold the opcode (R80). -/
def decode (w : Code) : Decoded := decodeOp (w.extractLsb' 54 10).toNat w

/-- The word of an instruction; the rows that are events of the device have none. -/
def encode : Instr → Option Code
  | .nop => some (FmtA.toWord ⟨0x001#10, 0#10, 0#10, 0#10, 0#10, 0#4, 0#1, 0#3, 0#6⟩)
  | .join => some (FmtA.toWord ⟨0x007#10, 0#10, 0#10, 0#10, 0#10, 0#4, 0#1, 0#3, 0#6⟩)
  | .regang => some (FmtA.toWord ⟨0x008#10, 0#10, 0#10, 0#10, 0#10, 0#4, 0#1, 0#3, 0#6⟩)
  | .exit g => some (FmtA.toWord ⟨0x00B#10, 0#10, 0#10, 0#10, 0#10, g.g, negBit g, 0#3, 0#6⟩)
  | .yield g => some (FmtA.toWord ⟨0x00D#10, 0#10, 0#10, 0#10, 0#10, g.g, negBit g, 0#3, 0#6⟩)
  | .tret => some (FmtA.toWord ⟨0x00F#10, 0#10, 0#10, 0#10, 0#10, 0#4, 0#1, 0#3, 0#6⟩)
  | .spawn a g => some (FmtA.toWord ⟨0x010#10, 0#10, a.r, 0#10, 0#10, g.g, negBit g, polBit a ++ 0#1 ++ 0#1, 0#6⟩)
  | .ltrig g => some (FmtA.toWord ⟨0x011#10, 0#10, 0#10, 0#10, 0#10, g.g, negBit g, 0#3, 0#6⟩)
  | .iadd d a b m g => some (FmtA.toWord ⟨0x080#10, d, a.r, b.r, 0#10, g.g, negBit g, polBit a ++ polBit b ++ 0#1, 0#4 ++ m.code⟩)
  | .isub d a b m g => some (FmtA.toWord ⟨0x081#10, d, a.r, b.r, 0#10, g.g, negBit g, polBit a ++ polBit b ++ 0#1, 0#4 ++ m.code⟩)
  | .addc d a b c g => some (FmtA.toWord ⟨0x082#10, d, a.r, b.r, c.r, g.g, negBit g, polBit a ++ polBit b ++ polBit c, 0#6⟩)
  | .subb d a b c g => some (FmtA.toWord ⟨0x083#10, d, a.r, b.r, c.r, g.g, negBit g, polBit a ++ polBit b ++ polBit c, 0#6⟩)
  | .imul d a b g => some (FmtA.toWord ⟨0x084#10, d, a.r, b.r, 0#10, g.g, negBit g, polBit a ++ polBit b ++ 0#1, 0#6⟩)
  | .imulh d a b u g => some (FmtA.toWord ⟨0x085#10, d, a.r, b.r, 0#10, g.g, negBit g, polBit a ++ polBit b ++ 0#1, 0#5 ++ BitVec.ofBool u⟩)
  | .imad d a b c g => some (FmtA.toWord ⟨0x086#10, d, a.r, b.r, c.r, g.g, negBit g, polBit a ++ polBit b ++ polBit c, 0#6⟩)
  | .imadw d a b c u g => some (FmtA.toWord ⟨0x087#10, d, a.r, b.r, c.r, g.g, negBit g, polBit a ++ polBit b ++ polBit c, 0#5 ++ BitVec.ofBool u⟩)
  | .imin d a b u g => some (FmtA.toWord ⟨0x088#10, d, a.r, b.r, 0#10, g.g, negBit g, polBit a ++ polBit b ++ 0#1, 0#5 ++ BitVec.ofBool u⟩)
  | .imax d a b u g => some (FmtA.toWord ⟨0x089#10, d, a.r, b.r, 0#10, g.g, negBit g, polBit a ++ polBit b ++ 0#1, 0#5 ++ BitVec.ofBool u⟩)
  | .iabs d a u g => some (FmtA.toWord ⟨0x08A#10, d, a.r, 0#10, 0#10, g.g, negBit g, polBit a ++ 0#1 ++ 0#1, 0#5 ++ BitVec.ofBool u⟩)
  | .ineg d a u g => some (FmtA.toWord ⟨0x08B#10, d, a.r, 0#10, 0#10, g.g, negBit g, polBit a ++ 0#1 ++ 0#1, 0#5 ++ BitVec.ofBool u⟩)
  | .and d a b g => some (FmtA.toWord ⟨0x08C#10, d, a.r, b.r, 0#10, g.g, negBit g, polBit a ++ polBit b ++ 0#1, 0#6⟩)
  | .or d a b g => some (FmtA.toWord ⟨0x08D#10, d, a.r, b.r, 0#10, g.g, negBit g, polBit a ++ polBit b ++ 0#1, 0#6⟩)
  | .xor d a b g => some (FmtA.toWord ⟨0x08E#10, d, a.r, b.r, 0#10, g.g, negBit g, polBit a ++ polBit b ++ 0#1, 0#6⟩)
  | .andn d a b g => some (FmtA.toWord ⟨0x08F#10, d, a.r, b.r, 0#10, g.g, negBit g, polBit a ++ polBit b ++ 0#1, 0#6⟩)
  | .shl d a b g => some (FmtA.toWord ⟨0x090#10, d, a.r, b.r, 0#10, g.g, negBit g, polBit a ++ polBit b ++ 0#1, 0#6⟩)
  | .shr d a b g => some (FmtA.toWord ⟨0x091#10, d, a.r, b.r, 0#10, g.g, negBit g, polBit a ++ polBit b ++ 0#1, 0#6⟩)
  | .sar d a b g => some (FmtA.toWord ⟨0x092#10, d, a.r, b.r, 0#10, g.g, negBit g, polBit a ++ polBit b ++ 0#1, 0#6⟩)
  | .rol d a b g => some (FmtA.toWord ⟨0x093#10, d, a.r, b.r, 0#10, g.g, negBit g, polBit a ++ polBit b ++ 0#1, 0#6⟩)
  | .bfx d a b u g => some (FmtA.toWord ⟨0x094#10, d, a.r, b.r, 0#10, g.g, negBit g, polBit a ++ polBit b ++ 0#1, 0#5 ++ BitVec.ofBool u⟩)
  | .bfi d a b c g => some (FmtA.toWord ⟨0x095#10, d, a.r, b.r, c.r, g.g, negBit g, polBit a ++ polBit b ++ polBit c, 0#6⟩)
  | .popc d a g => some (FmtA.toWord ⟨0x096#10, d, a.r, 0#10, 0#10, g.g, negBit g, polBit a ++ 0#1 ++ 0#1, 0#6⟩)
  | .clz d a g => some (FmtA.toWord ⟨0x097#10, d, a.r, 0#10, 0#10, g.g, negBit g, polBit a ++ 0#1 ++ 0#1, 0#6⟩)
  | .brev d a g => some (FmtA.toWord ⟨0x098#10, d, a.r, 0#10, 0#10, g.g, negBit g, polBit a ++ 0#1 ++ 0#1, 0#6⟩)
  | .icmp d a b c u g => some (FmtA.toWord ⟨0x099#10, d, a.r, b.r, 0#10, g.g, negBit g, polBit a ++ polBit b ++ 0#1, 0#2 ++ BitVec.ofBool u ++ c.code⟩)
  | .sel d a b c g => some (FmtA.toWord ⟨0x09A#10, d, a.r, b.r, c.r, g.g, negBit g, polBit a ++ polBit b ++ polBit c, 0#6⟩)
  | .mov d a u g => some (FmtA.toWord ⟨0x09B#10, d, a.r, 0#10, 0#10, g.g, negBit g, polBit a ++ 0#1 ++ 0#1, 0#5 ++ BitVec.ofBool u⟩)
  | .lea d a b sh u g => some (FmtA.toWord ⟨0x09D#10, d, a.r, b.r, 0#10, g.g, negBit g, polBit a ++ polBit b ++ 0#1, 0#2 ++ BitVec.ofBool u ++ sh⟩)
  | .fadd d a b rm g => some (FmtA.toWord ⟨0x100#10, d, a.r, b.r, 0#10, g.g, negBit g, polBit a ++ polBit b ++ 0#1, 0#3 ++ rm.code⟩)
  | .fsub d a b rm g => some (FmtA.toWord ⟨0x101#10, d, a.r, b.r, 0#10, g.g, negBit g, polBit a ++ polBit b ++ 0#1, 0#3 ++ rm.code⟩)
  | .fmul d a b rm g => some (FmtA.toWord ⟨0x102#10, d, a.r, b.r, 0#10, g.g, negBit g, polBit a ++ polBit b ++ 0#1, 0#3 ++ rm.code⟩)
  | .ffma d a b c rm g => some (FmtA.toWord ⟨0x103#10, d, a.r, b.r, c.r, g.g, negBit g, polBit a ++ polBit b ++ polBit c, 0#3 ++ rm.code⟩)
  | .fmin d a b g => some (FmtA.toWord ⟨0x104#10, d, a.r, b.r, 0#10, g.g, negBit g, polBit a ++ polBit b ++ 0#1, 0#6⟩)
  | .fmax d a b g => some (FmtA.toWord ⟨0x105#10, d, a.r, b.r, 0#10, g.g, negBit g, polBit a ++ polBit b ++ 0#1, 0#6⟩)
  | .fcmp d a b c g => some (FmtA.toWord ⟨0x106#10, d, a.r, b.r, 0#10, g.g, negBit g, polBit a ++ polBit b ++ 0#1, 0#3 ++ c.code⟩)
  | .fclass d a g => some (FmtA.toWord ⟨0x107#10, d, a.r, 0#10, 0#10, g.g, negBit g, polBit a ++ 0#1 ++ 0#1, 0#6⟩)
  | .frcp d a g => some (FmtA.toWord ⟨0x110#10, d, a.r, 0#10, 0#10, g.g, negBit g, polBit a ++ 0#1 ++ 0#1, 0#6⟩)
  | .frsq d a g => some (FmtA.toWord ⟨0x111#10, d, a.r, 0#10, 0#10, g.g, negBit g, polBit a ++ 0#1 ++ 0#1, 0#6⟩)
  | .fsqrt d a rm g => some (FmtA.toWord ⟨0x112#10, d, a.r, 0#10, 0#10, g.g, negBit g, polBit a ++ 0#1 ++ 0#1, 0#3 ++ rm.code⟩)
  | .fex2 d a g => some (FmtA.toWord ⟨0x113#10, d, a.r, 0#10, 0#10, g.g, negBit g, polBit a ++ 0#1 ++ 0#1, 0#6⟩)
  | .flg2 d a g => some (FmtA.toWord ⟨0x114#10, d, a.r, 0#10, 0#10, g.g, negBit g, polBit a ++ 0#1 ++ 0#1, 0#6⟩)
  | .fsin d a g => some (FmtA.toWord ⟨0x115#10, d, a.r, 0#10, 0#10, g.g, negBit g, polBit a ++ 0#1 ++ 0#1, 0#6⟩)
  | .fcos d a g => some (FmtA.toWord ⟨0x116#10, d, a.r, 0#10, 0#10, g.g, negBit g, polBit a ++ 0#1 ++ 0#1, 0#6⟩)
  | .padd2 d a b fm rm g => some (FmtA.toWord ⟨0x120#10, d, a.r, b.r, 0#10, g.g, negBit g, polBit a ++ polBit b ++ 0#1, 0#2 ++ fm.code ++ rm.code⟩)
  | .pmul2 d a b fm rm g => some (FmtA.toWord ⟨0x121#10, d, a.r, b.r, 0#10, g.g, negBit g, polBit a ++ polBit b ++ 0#1, 0#2 ++ fm.code ++ rm.code⟩)
  | .pfma2 d a b c fm rm g => some (FmtA.toWord ⟨0x122#10, d, a.r, b.r, c.r, g.g, negBit g, polBit a ++ polBit b ++ polBit c, 0#2 ++ fm.code ++ rm.code⟩)
  | .pdot2 d a b c fm rm g => some (FmtA.toWord ⟨0x123#10, d, a.r, b.r, c.r, g.g, negBit g, polBit a ++ polBit b ++ polBit c, 0#2 ++ fm.code ++ rm.code⟩)
  | .idot4 d a b c ua ub sat g => some (FmtA.toWord ⟨0x124#10, d, a.r, b.r, c.r, g.g, negBit g, polBit a ++ polBit b ++ polBit c, 0#3 ++ BitVec.ofBool sat ++ BitVec.ofBool ub ++ BitVec.ofBool ua⟩)
  | .cvt d a c src dst rm sat j g => some (FmtA.toWord ⟨0x180#10, d, a.r, src.code ++ dst.code, c.r, g.g, negBit g, polBit a ++ 0#1 ++ polBit c, j ++ BitVec.ofBool sat ++ rm.code⟩)
  | .cbdec d a w h g => some (FmtA.toWord ⟨0x181#10, d, a.r, 0#10, 0#10, g.g, negBit g, polBit a ++ 0#1 ++ 0#1, 0#4 ++ BitVec.ofBool h ++ BitVec.ofBool w⟩)
  | .scal d a b j rm g => some (FmtA.toWord ⟨0x182#10, d, a.r, b.r, 0#10, g.g, negBit g, polBit a ++ polBit b ++ 0#1, 0#2 ++ BitVec.ofBool j ++ rm.code⟩)
  | .shfl d a b m seg g => some (FmtA.toWord ⟨0x190#10, d, a.r, b.r, 0#10, g.g, negBit g, polBit a ++ polBit b ++ 0#1, 0#1 ++ seg.code ++ m.code⟩)
  | .vote d a m wide g => some (FmtA.toWord ⟨0x191#10, d, a.r, 0#10, 0#10, g.g, negBit g, polBit a ++ 0#1 ++ 0#1, 0#3 ++ BitVec.ofBool wide ++ m.code⟩)
  | .matchLanes d a wide pr g => some (FmtA.toWord ⟨0x192#10, d, a.r, 0#10, 0#10, g.g, negBit g, polBit a ++ 0#1 ++ 0#1, 0#4 ++ BitVec.ofBool pr ++ BitVec.ofBool wide⟩)
  | .lred d a o g => some (FmtA.toWord ⟨0x193#10, d, a.r, 0#10, 0#10, g.g, negBit g, polBit a ++ 0#1 ++ 0#1, 0#2 ++ o.code⟩)
  | .lscan d a o ex g => some (FmtA.toWord ⟨0x194#10, d, a.r, 0#10, 0#10, g.g, negBit g, polBit a ++ 0#1 ++ 0#1, 0#1 ++ BitVec.ofBool ex ++ o.code⟩)
  | .atom d a b o wide loc ord g => some (FmtA.toWord ⟨0x1C8#10, d, a.r, b.r, ord.code ++ 0#8, g.g, negBit g, polBit a ++ polBit b ++ 0#1, o.code ++ BitVec.ofBool wide ++ BitVec.ofBool loc⟩)
  | .acas d a b c wide loc ord g => some (FmtA.toWord ⟨0x1C9#10, d, a.r, b.r, c.r, g.g, negBit g, polBit a ++ polBit b ++ polBit c, ord.code ++ 0#2 ++ BitVec.ofBool wide ++ BitVec.ofBool loc⟩)
  | .red a b o wide loc ord g => some (FmtA.toWord ⟨0x1CA#10, 0#10, a.r, b.r, ord.code ++ 0#8, g.g, negBit g, polBit a ++ polBit b ++ 0#1, o.code ++ BitVec.ofBool wide ++ BitVec.ofBool loc⟩)
  | .fence k sc g => some (FmtA.toWord ⟨0x1CC#10, 0#10, 0#10, 0#10, 0#10, g.g, negBit g, 0#3, 0#3 ++ sc.code ++ k.code⟩)
  | .csub k a g => some (FmtA.toWord ⟨0x1E0#10, 0#10, a.r, 0#10, 0#10, g.g, negBit g, polBit a ++ 0#1 ++ 0#1, 0#3 ++ k⟩)
  | .binit a b g => some (FmtA.toWord ⟨0x1E1#10, 0#10, a.r, b.r, 0#10, g.g, negBit g, polBit a ++ polBit b ++ 0#1, 0#6⟩)
  | .barv a b g => some (FmtA.toWord ⟨0x1E2#10, 0#10, a.r, b.r, 0#10, g.g, negBit g, polBit a ++ polBit b ++ 0#1, 0#6⟩)
  | .bwait a b g => some (FmtA.toWord ⟨0x1E3#10, 0#10, a.r, b.r, 0#10, g.g, negBit g, polBit a ++ polBit b ++ 0#1, 0#6⟩)
  | .wqry k a g => some (FmtA.toWord ⟨0x1E4#10, 0#10, a.r, 0#10, 0#10, g.g, negBit g, polBit a ++ 0#1 ++ 0#1, 0#3 ++ k⟩)
  | .qres d a b g => some (FmtA.toWord ⟨0x240#10, d, a.r, b.r, 0#10, g.g, negBit g, polBit a ++ polBit b ++ 0#1, 0#6⟩)
  | .qput d a b c z mem g => some (FmtA.toWord ⟨0x241#10, d, a.r, b.r, c.r, g.g, negBit g, polBit a ++ polBit b ++ polBit c, 0#2 ++ BitVec.ofBool mem ++ z.code⟩)
  | .qrp d a b c z mem g => some (FmtA.toWord ⟨0x242#10, d, a.r, b.r, c.r, g.g, negBit g, polBit a ++ polBit b ++ polBit c, 0#2 ++ BitVec.ofBool mem ++ z.code⟩)
  | .qget d a x t z g => some (FmtA.toWord ⟨0x243#10, d, a.r, optSrc x, t.getD 0#10, g.g, negBit g, polBit a ++ optPol x ++ 0#1, 0#1 ++ BitVec.ofBool t.isSome ++ BitVec.ofBool x.isSome ++ z.code⟩)
  | .qtry d a x c z g => some (FmtA.toWord ⟨0x244#10, d, a.r, optSrc x, c, g.g, negBit g, polBit a ++ optPol x ++ 0#1, 0#2 ++ BitVec.ofBool x.isSome ++ z.code⟩)
  | .qcan d a g => some (FmtA.toWord ⟨0x245#10, d, a.r, 0#10, 0#10, g.g, negBit g, polBit a ++ 0#1 ++ 0#1, 0#6⟩)
  | .qstatQ d a g => some (FmtA.toWord ⟨0x246#10, d, a.r, 0#10, 0#10, g.g, negBit g, polBit a ++ 0#1 ++ 0#1, 0#6⟩)
  | .qstatR d a g => some (FmtA.toWord ⟨0x246#10, d, a.r, 0#10, 0#10, g.g, negBit g, polBit a ++ 0#1 ++ 0#1, 1#6⟩)
  | .gname d g => some (FmtA.toWord ⟨0x248#10, d, 0#10, 0#10, 0#10, g.g, negBit g, 0#3, 0#6⟩)
  | .gfree g => some (FmtA.toWord ⟨0x249#10, 0#10, 0#10, 0#10, 0#10, g.g, negBit g, 0#3, 0#6⟩)
  | .rput d a b c g => some (FmtA.toWord ⟨0x24A#10, d, a.r, b.r, c.r, g.g, negBit g, polBit a ++ polBit b ++ polBit c, 0#6⟩)
  | .await d w g => some (FmtA.toWord ⟨0x24B#10, d, w.reg, 0#10, 0#10, g.g, negBit g, w.polField, w.code⟩)
  | .recruit d a b c o g => some (FmtA.toWord ⟨0x260#10, d, a.r, b.r, c.r, g.g, negBit g, polBit a ++ polBit b ++ polBit c, 0#2 ++ o⟩)
  | .hnext g => some (FmtA.toWord ⟨0x261#10, 0#10, 0#10, 0#10, 0#10, g.g, negBit g, 0#3, 0#6⟩)
  | .hquit g => some (FmtA.toWord ⟨0x262#10, 0#10, 0#10, 0#10, 0#10, g.g, negBit g, 0#3, 0#6⟩)
  | .hjoin d a => some (FmtA.toWord ⟨0x263#10, d, a.r, 0#10, 0#10, 0#4, 0#1, polBit a ++ 0#1 ++ 0#1, 0#6⟩)
  | .mwin a b g => some (FmtA.toWord ⟨0x2C0#10, 0#10, a.r, b.r, 0#10, g.g, negBit g, polBit a ++ polBit b ++ 0#1, 0#6⟩)
  | .mlend d n g => some (FmtA.toWord ⟨0x2C1#10, d, 0#10, 0#10, 0#10, g.g, negBit g, 0#3, 0#3 ++ n⟩)
  | .mrd d a c n g => some (FmtA.toWord ⟨0x2C2#10, d, a.r, 0#10, c, g.g, negBit g, polBit a ++ 0#1 ++ 0#1, 0#3 ++ n⟩)
  | .mwr d a n g => some (FmtA.toWord ⟨0x2C3#10, d.r, a.r, 0#10, 0#10, g.g, negBit g, polBit a ++ polBit d ++ 0#1, 0#3 ++ n⟩)
  | .mma d a b c ring k kind => some (FmtA.toWord ⟨0x300#10, d, a, b, c, ring, k.extractLsb' 1 1, k.extractLsb' 0 1 ++ 0#2, 0#2 ++ kind.code⟩)
  | .mscale d a int clr acq die g => some (FmtA.toWord ⟨0x301#10, d, a, 0#10, 0#10, g.g, negBit g, 0#3, 0#2 ++ BitVec.ofBool die ++ BitVec.ofBool acq ++ BitVec.ofBool clr ++ BitVec.ofBool int⟩)
  | .mclr d a v g => some (FmtA.toWord ⟨0x302#10, d, a, 0#10, 0#10, g.g, negBit g, 0#3, 0#4 ++ v.code⟩)
  | .mtab a acq die g => some (FmtA.toWord ⟨0x303#10, 0#10, a, 0#10, 0#10, g.g, negBit g, 0#3, 0#4 ++ BitVec.ofBool die ++ BitVec.ofBool acq⟩)
  | .msig a b rel die g => some (FmtA.toWord ⟨0x304#10, 0#10, a, b, 0#10, g.g, negBit g, 0#3, 0#4 ++ BitVec.ofBool die ++ BitVec.ofBool rel⟩)
  | .mdrn d a b cv rel die g => some (FmtA.toWord ⟨0x305#10, d, a, b, 0#10, g.g, negBit g, 0#3, 0#2 ++ BitVec.ofBool die ++ BitVec.ofBool rel ++ cv.code⟩)
  | .bra t g => some (FmtB.toWord ⟨0x002#10, 0#10, t, g.g, negBit g, 0#3, 0#6⟩)
  | .brx a g => some (FmtB.toWord ⟨0x003#10, a.r, 0#30, g.g, negBit g, polBit a ++ 0#2, 0#6⟩)
  | .call l t g => some (FmtB.toWord ⟨0x004#10, l, t, g.g, negBit g, 0#3, 0#6⟩)
  | .callx l a g => some (FmtB.toWord ⟨0x005#10, a.r, l ++ 0#20, g.g, negBit g, polBit a ++ 0#2, 0#6⟩)
  | .ret a g => some (FmtB.toWord ⟨0x006#10, a.r, 0#30, g.g, negBit g, polBit a ++ 0#2, 0#6⟩)
  | .loop k a t => some (FmtB.toWord ⟨0x009#10, a.r, t, 0#4, 0#1, polBit a ++ 0#2, 0#4 ++ k⟩)
  | .endlp k t => some (FmtB.toWord ⟨0x00A#10, 0#10, t, 0#4, 0#1, 0#3, 0#4 ++ k⟩)
  | .exitS t x => some (FmtB.toWord ⟨0x00C#10, optSrc x, t, 0#4, 0#1, optPol x ++ 0#2, 0#5 ++ BitVec.ofBool x.isSome⟩)
  | .trap n g => some (FmtI.toWord ⟨0x00E#10, 0#10, 0#10, n, g.g, negBit g, 0#1, 0#8⟩)
  | .csrr d n g => some (FmtI.toWord ⟨0x012#10, d, 0#10, 0#8 ++ n, g.g, negBit g, 0#1, 0#8⟩)
  | .csrw n a g => some (FmtI.toWord ⟨0x013#10, 0#10, a.r, 0#8 ++ n, g.g, negBit g, polBit a, 0#8⟩)
  | .iaddImm d a imm m g => some (FmtI.toWord ⟨0x0C0#10, d, a.r, imm, g.g, negBit g, polBit a, 0#6 ++ m.code⟩)
  | .isubImm d a imm m g => some (FmtI.toWord ⟨0x0C1#10, d, a.r, imm, g.g, negBit g, polBit a, 0#6 ++ m.code⟩)
  | .imulImm d a imm g => some (FmtI.toWord ⟨0x0C4#10, d, a.r, imm, g.g, negBit g, polBit a, 0#8⟩)
  | .andImm d a imm g => some (FmtI.toWord ⟨0x0CC#10, d, a.r, imm, g.g, negBit g, polBit a, 0#8⟩)
  | .orImm d a imm g => some (FmtI.toWord ⟨0x0CD#10, d, a.r, imm, g.g, negBit g, polBit a, 0#8⟩)
  | .xorImm d a imm g => some (FmtI.toWord ⟨0x0CE#10, d, a.r, imm, g.g, negBit g, polBit a, 0#8⟩)
  | .andnImm d a imm g => some (FmtI.toWord ⟨0x0CF#10, d, a.r, imm, g.g, negBit g, polBit a, 0#8⟩)
  | .iminImm d a imm u g => some (FmtI.toWord ⟨0x0C8#10, d, a.r, imm, g.g, negBit g, polBit a, 0#7 ++ BitVec.ofBool u⟩)
  | .imaxImm d a imm u g => some (FmtI.toWord ⟨0x0C9#10, d, a.r, imm, g.g, negBit g, polBit a, 0#7 ++ BitVec.ofBool u⟩)
  | .shlImm d a k g => some (FmtI.toWord ⟨0x0D0#10, d, a.r, 0#15 ++ k, g.g, negBit g, polBit a, 0#8⟩)
  | .shrImm d a k g => some (FmtI.toWord ⟨0x0D1#10, d, a.r, 0#15 ++ k, g.g, negBit g, polBit a, 0#8⟩)
  | .sarImm d a k g => some (FmtI.toWord ⟨0x0D2#10, d, a.r, 0#15 ++ k, g.g, negBit g, polBit a, 0#8⟩)
  | .rolImm d a k g => some (FmtI.toWord ⟨0x0D3#10, d, a.r, 0#15 ++ k, g.g, negBit g, polBit a, 0#8⟩)
  | .bfxImm d a p l s g => some (FmtI.toWord ⟨0x0D4#10, d, a.r, 0#6 ++ l ++ 0#3 ++ p, g.g, negBit g, polBit a, 0#7 ++ BitVec.ofBool s⟩)
  | .icmpImm d a imm c u g => some (FmtI.toWord ⟨0x0D9#10, d, a.r, imm, g.g, negBit g, polBit a, 0#4 ++ BitVec.ofBool u ++ c.code⟩)
  | .leaImm d a imm sh u g => some (FmtI.toWord ⟨0x0DD#10, d, a.r, imm, g.g, negBit g, polBit a, 0#4 ++ BitVec.ofBool u ++ sh⟩)
  | .movi d imm g => some (FmtL.toWord ⟨0x09C#10, d, imm, g.g, negBit g, 0#7⟩)
  | .ld d a off w o str g => some (FmtM.toWord ⟨0x1C0#10, d, a.r, off, g.g, negBit g, polBit a ++ 0#2, w.code, o.code, BitVec.ofBool str⟩)
  | .ldu d a off w o str g => some (FmtM.toWord ⟨0x1C6#10, d, a.r, off, g.g, negBit g, polBit a ++ 0#2, w.code, o.code, BitVec.ofBool str⟩)
  | .st d a off w o str g => some (FmtM.toWord ⟨0x1C1#10, d.r, a.r, off, g.g, negBit g, polBit a ++ polBit d ++ 0#1, w.code, o.code, BitVec.ofBool str⟩)
  | .ldl d a off w o g => some (FmtM.toWord ⟨0x1C2#10, d, a.r, off, g.g, negBit g, polBit a ++ 0#2, w.code, o.code, 0#1⟩)
  | .stl d a off w o g => some (FmtM.toWord ⟨0x1C3#10, d.r, a.r, off, g.g, negBit g, polBit a ++ polBit d ++ 0#1, w.code, o.code, 0#1⟩)
  | .ldp d a off w str g => some (FmtM.toWord ⟨0x1C4#10, d, a.r, off, g.g, negBit g, polBit a ++ 0#2, w.code, 0#2, BitVec.ofBool str⟩)
  | .stp d a off w str g => some (FmtM.toWord ⟨0x1C5#10, d.r, a.r, off, g.g, negBit g, polBit a ++ polBit d ++ 0#1, w.code, 0#2, BitVec.ofBool str⟩)
  | .pref a off l2 g => some (FmtM.toWord ⟨0x1CD#10, 0#10, a.r, off, g.g, negBit g, polBit a ++ 0#2, 0#2 ++ BitVec.ofBool l2, 0#2, 0#1⟩)
  | .unassignedOpcode w => some w
  | .hjoinComplete _ _ _ | .mmaStep _ _ | .mmaStepCommit _ _ | .entryDieCheck _ | .launchForward _ |
      .forwardedCopyTake _ | .teamPlacement _ | .drainTarget _ | .trafficWindow _ | .groupExchange _ _ _ |
      .pendingExchange _ _ _ | .clauseStart _ | .groupEnd _ _ _ | .workDeal _ | .loadDataReturn _ _ |
      .atomicAtHomeSlice _ _ | .l2Eviction _ _ | .recordStart _ _ _ _ | .recordFinish _ _ _ _ |
      .reservationRequest _ | .putDataArrival _ | .getRequest _ | .cellarMoveComplete _ _ _ | .queueAnswer _ |
      .queueTimeout _ | .waiterResend _ | .ringDelivery _ _ _ | .registerPutLanding _ _ _ | .elementForward _
      | .portPutAnswer _ | .faultOverflowPut _ _ | .delupFrameReceive _ _ | .rekeyStart _ | .keyReadyReceive _
      _ | .keyConfirmReceive _ | .rekeyStop _ | .resume _ | .kill _ | .preempt _ | .release _ |
      .preemptStopBound _ _ _ | .contextSave _ _ | .teamResume _ | .pageWalkComplete _ _ _ |
      .helperIterationTimeout _ _ _ _ | .ack _ | .openConn _ | .put _ | .get _ | .write _ | .read _ | .close _
      | .retransmissionTimeout _ | .invalidateVa _ | .invalidateQid _ | .process _ | .slot _ | .share _ |
      .routes _ | .rowRepair _ _ | .rowRepairComplete _ _ | .laneSwap _ _ | .retireCore _ | .excludeDie _ |
      .renumber _ | .keyInstall _ | .linkReset _ | .selftest _ _ | .port _ | .linkTrainingComplete _ _ _ |
      .linkTrainingTimeout _ _ | .bringup _ | .hostPortTrainRetry _ | .targetedTestStart _ |
      .targetedTestComplete _ _ | .thermalReport _ | .thermalTrip | .linkDown _ _ | .powerDown | .droppedFrame
      _ | .refusedCommand _ => none

/-- The bytes of a word as the hardware stores them, lowest address first (R78). -/
def wordBytes (w : Code) : List Byte :=
  (List.range 8).map fun i => w.extractLsb' (8 * i) 8

/-- The word that eight little-endian bytes hold (R78). -/
def wordOfBytes (l : List Byte) : Code :=
  BitVec.ofNat 64 ((l.take 8).foldr (fun b acc => b.toNat + 256 * acc) 0)

/-- The decoder on bytes: the first eight bytes are the word, and the rest is handed back (R78). -/
def decodeBytes (l : List Byte) : Decoded × List Byte := (decode (wordOfBytes l), l.drop 8)

/-- The instruction the decoder reads from an instruction whose bits are `w`, bit 0 the least significant bit of the
first word: every instruction is one 64-bit word (R80), so bits at or above `nbits` are zero. -/
def decodeTableWord (nbits w : Nat) : Option Instr :=
  match decode (BitVec.ofNat 64 (w % 2 ^ nbits)) with
  | .ok i => some i
  | .error _ => none

end Sys2Proof
end

