-- ==== Sys2Proof/Machine/Fetch.lean ====
section
/-! DEFINITION. Fetching and decoding the next instruction of an agent (R78), which agents may issue (R47, R293, R297,
R304, R319, R343), and a team laid out around one instruction word for `State.withFetchWord`. -/

namespace Sys2Proof.Machine

/-- The class of an opcode (R87). -/
def opClass (op : Nat) : Nat :=
  if op < 0x080 then 4
  else if 0x110 ≤ op && op < 0x120 then 1
  else if op < 0x1C0 then 0
  else if op < 0x240 then 2
  else if op = 0x261 || op = 0x262 then 4
  else if op < 0x2C0 then 3
  else 5

/-- The transfer instructions (R76). -/
def opTransfer (op : Nat) : Bool :=
  [0x002, 0x003, 0x004, 0x005, 0x006, 0x009, 0x00A, 0x00B, 0x00C, 0x00E, 0x00F, 0x261, 0x262].contains op

/-- What the clause rules need of a word whose fields are rejected (R76, R85). -/
def opSpec (op : Nat) (ag : Agent) : Spec :=
  { cls := match ag with
      | .seq _ _ => if op = 0x1C2 || op = 0x1C3 then 5 else opClass op
      | .frag _ _ _ _ | .helper _ _ _ _ => opClass op
    any := op == 0x001, transfer := opTransfer op, first := op == 0x007 || op == 0x008 }

/-- Whether the registers of a CVT or VOTE that breaks its entry's own condition pass step 2 of R85. -/
def State.entryRegsOk (s : State) (ag : Agent) (w : Code) : Bool :=
  let src := fun lo => s.srcOk ag (⟨w.extractLsb' lo 10, false⟩, 1)
  let vote := bits w 63 54 = 0x191
  let narrow := ((NumFmt.ofCode (w.extractLsb' 24 5)).map fun x => decide (1 < x.elems)).getD false
  src 34 && s.dstOk ag (w.extractLsb' 44 10, if vote && w.getLsbD 2 then 2 else 1) && (vote || !narrow || src 14)

/-- The DETAIL of the ILLOP of a word with an assigned opcode that decoding rejects (R85, R291): the step that fails, or 0 for
the entry's own condition. -/
def State.rejectStep (s : State) (f : Fragment) (ag : Agent) (w : Code) (e : Reject) : Nat :=
  if !clauseRules f (opSpec (bits w 63 54) ag) then 1 else if e = .entry && s.entryRegsOk ag w then 0 else 2

/-- The lanes an ILLOP of a rejected word names (R291): the active lanes under its guard field, where that can be read, and the
fragment's mask otherwise. -/
def State.rejectLanes (s : State) (ag : Agent) (f : Fragment) (w : Code) : Mask :=
  let op := bits w 63 54
  let g := if op = 0x09C then guardOf (w.extractLsb' 8 4) (w.extractLsb' 7 1) else guardOf (w.extractLsb' 10 4) (w.extractLsb' 9 1)
  if opcodeAssigned op && s.guardOk ag g && !(s.rdTag ag (guardReg ag g.g)).empty then s.active ag f g else f.mask

/-- Whether a group stands in the active set of its partition (R47). -/
def State.isActive (s : State) (k : Nat) : Bool :=
  match s.group? k with
  | none => false
  | some g => (partSet (s.core (keyDie k) g.core).active g.part).contains k

/-- Whether an agent may issue now (R47, R51, R293, R297, R304, R319, R342, R343). -/
def State.mayIssue (s : State) (ag : Agent) (f : Fragment) : Bool :=
  let k := agKey ag
  let team := s.teamOf? k
  f.wait == .run && f.stopped == .no && s.phase == .up &&
  (match team with
    | none => false
    | some t => t.saved.isNone && !t.killed) &&
  match ag with
  | .frag _ _ _ e =>
    match s.group? k with
    | none => false
    | some g =>
      g.parked.isNone && g.held.isEmpty && !g.ended && s.isActive k &&
      (match g.handler with
        | some h => !h.held.contains e
        | none => true) &&
      (match g.recruit with
        | some r => r.entry == e && r.since != some s.clock
        | none => true)
  | .helper _ _ _ h =>
    !((s.helper? k h).map fun x => x.late s.clock).getD true &&
      ((s.group? k).bind fun g => g.recruit.map fun r => r.since != some s.clock).getD true
  | .seq _ _ =>
    match team.bind (·.seq) with
    | none => false
    | some q => !q.halted && !q.faulted && ((team.map fun t => t.preempt.isNone).getD false)

/-- The helpers that issue together with a helper (R317): those of its recruitment and its bank that may issue and stand at the same
instruction as it, or at the header of the same clause, in at most 8 slices. -/
def State.gangMates (s : State) (k h : Nat) (f : Fragment) : List (Nat × Helper) :=
  match (s.group? k).bind (·.recruit), s.helper? k h with
  | some r, some x =>
    let l := r.helpers.filter fun e =>
      e.2.life == .running && e.2.bank == x.bank && e.2.front.pc == f.pc && e.2.front.hdr.isSome == f.hdr.isSome &&
      s.mayIssue (.helper (keyDie k) (keySlot k) (keyG k) e.1) e.2.front
    let slices := (l.foldl (fun b e => if b.contains e.2.slice then b else b ++ [e.2.slice]) [x.slice]).take 8
    l.filter fun e => slices.contains e.2.slice
  | _, _ => []

/-- A gang of helpers takes its bank's partition in this clock (R317); none where another gang has it already. -/
def State.takeGang (s : State) (k h : Nat) (f : Fragment) (l : List (Nat × Helper)) : Option State :=
  match s.group? k, s.helper? k h with
  | some g, some x =>
    let d := keyDie k
    if ((aget (s.core d g.core).gangs x.bank).map fun y => y.clock == s.clock).getD false then none
    else
      let y : HelperGang := { clock := s.clock, key := k, pc := f.pc.toNat, helpers := l.map (·.1) }
      some (s.modCore d g.core fun c => { c with gangs := aput c.gangs x.bank y })
  | _, _ => none

/-- The instruction word at an agent's program counter, or the fault that stops its fetch (R78). -/
def State.agFetch (s : State) (ag : Agent) (f : Fragment) : Code ⊕ (Nat × Nat) :=
  s.fetchWord (keyDie (agKey ag)) (s.ptagOf (agKey ag)) f.pc

/-- The record of the team that `withFetchWord` places: a matrix team of four 16-lane groups, Nv 256, Ns 384, 16 KiB
of local memory, 256 private bytes per lane. -/
def demoRec : BitVec 1024 :=
  0x10040c3e60180000000000000000000000000000000000000000000000000400000000000000000000000000000000000000000000000000000000000000000000000000000000#1024

/-- The header of a one-instruction clause of a class (R74). -/
def demoHeader (cls : Nat) : Code := BitVec.ofNat 64 (15 * 2 ^ 60 + cls * 2 ^ 57 + 0x0FFFFFFF * 2 ^ 22)

/-- The word's eight bytes at address 0x10008 of process 1 on die 0, behind the header of a one-instruction clause, in a sector
without error. -/
def State.placeBytes (s : State) (w : Code) (cls : Nat) : State :=
  let sec := stackKey 0 0x10000 / 64
  { s with poison := nsErase s.poison sec, ue := nsErase s.ue sec }.stackWrite 0 0x10000 (wordBytes (demoHeader cls) ++ wordBytes w)

/-- A running team on die 0, slot 0 around the word: its group 0 stands at the word, or its sequencer does when the
opcode is the sequencer's. -/
def State.place (s : State) (w : Code) : State :=
  let op := bits w 63 54
  let cls := opClass op
  let isSeq := decide (0x300 ≤ op ∧ op ≤ 0x305)
  let ag : Agent := if isSeq then .seq 0 0 else .frag 0 0 0 0
  let f : Fragment := { clause := 0x10000#48, hdr := some (demoHeader cls), mask := fullMask 16 }
  let t : Team :=
    { recd := demoRec, ptag := 1#12, priv := true, index := 0#32, share := 0, privBase := 0#48, ctxBase := 0#48,
      cores := [0, 1], seq := some { front := { f with mask := 1#64 } } }
  let leaf : BitVec 64 := BitVec.ofNat 64 (2 ^ 63 + 2 ^ 62 + 2 * 2 ^ 60 + 2 ^ 59 + 0x10000)
  let s := s.placeBytes w cls
  { s with
    phase := .up
    agenda := [.issue ag]
    cur := none
    dieMap := [0]
    dies := aput s.dies 0 { live := true, coreMap := [0, 1], pairs := 1,
                            tlb := [(pageKey 1#12 0x10000, { leaf := leaf, level := 4 })] }
    cores := aput s.cores 0 { active := [(0, [0])] }
    teams := aput s.teams 0 t
    fresh := s.fresh + 2
    groups := aput s.groups 0 { uid := s.fresh + 1, core := 0, part := 0, frags := [(0, f)] } }

end Sys2Proof.Machine
end

