-- ==== Sys2Proof/Machine/Floating.lean ====
section
/-! DEFINITION. The floating, transcendental, packed, conversion and scale instructions (R143 to R156). -/

namespace Sys2Proof.Machine

/-- FADD (R143). -/
def execFadd (d : RegNo) (a b : Src) (rm : RMode) (g : Guard) (s : State) :=
  alu2 false d a b g (fun x y => w32 (f32.add rm x.toNat y.toNat)) s
/-- FSUB (R143). -/
def execFsub (d : RegNo) (a b : Src) (rm : RMode) (g : Guard) (s : State) :=
  alu2 false d a b g (fun x y => w32 (f32.sub rm x.toNat y.toNat)) s
/-- FMUL (R143). -/
def execFmul (d : RegNo) (a b : Src) (rm : RMode) (g : Guard) (s : State) :=
  alu2 false d a b g (fun x y => w32 (f32.mul rm x.toNat y.toNat)) s
/-- FFMA (R143). -/
def execFfma (d : RegNo) (a b c : Src) (rm : RMode) (g : Guard) (s : State) :=
  alu3 false d a b c g (fun x y z => w32 (f32.fma rm x.toNat y.toNat z.toNat)) s
/-- FMIN (R144). -/
def execFmin (d : RegNo) (a b : Src) (g : Guard) (s : State) :=
  alu2 false d a b g (fun x y => quiet (fminmax false x y)) s
/-- FMAX (R144). -/
def execFmax (d : RegNo) (a b : Src) (g : Guard) (s : State) :=
  alu2 false d a b g (fun x y => quiet (fminmax true x y)) s
/-- FCMP (R145). -/
def execFcmp (d : RegNo) (a b : Src) (c : FCond) (g : Guard) (s : State) :=
  alu2 false d a b g (fun x y => quiet (wordOfBool (fcondHolds c x y))) s
/-- FCLASS (R146). -/
def execFclass (d : RegNo) (a : Src) (g : Guard) (s : State) := alu1 false d a g (fun x => quiet (fclassW x)) s

/-- FRCP (R147, R148). -/
def frcpW (w : Word) : Word × Flags :=
  match fv32 w with
  | .nan => quiet nan32
  | .inf neg => (BitVec.ofNat 32 (f32.signBit neg), Flags.none)
  | .fin neg m e => if m = 0 then (BitVec.ofNat 32 (f32.inf neg), { dz := true }) else w32 (recip neg m e)

/-- FRSQ (R147, R148). -/
def frsqW (w : Word) : Word × Flags :=
  match fv32 w with
  | .nan => quiet nan32
  | .inf neg => if neg then (nan32, { inv := true }) else quiet 0#32
  | .fin neg m e =>
    if m = 0 then (BitVec.ofNat 32 (f32.inf neg), { dz := true })
    else if neg then (nan32, { inv := true })
    else w32 (rsqrtR m e)

/-- FSQRT (R147, R148). -/
def fsqrtW (rm : RMode) (w : Word) : Word × Flags :=
  match fv32 w with
  | .nan => quiet nan32
  | .inf neg => if neg then (nan32, { inv := true }) else quiet w
  | .fin neg m e => if m = 0 then quiet w else if neg then (nan32, { inv := true }) else w32 (sqrtR rm m e)

/-- FEX2 (R147, R148). -/
def fex2W (w : Word) : Word × Flags :=
  match fv32 w with
  | .nan => quiet nan32
  | .inf neg => if neg then quiet 0#32 else quiet w
  | .fin neg m e => w32 (exp2R neg m e)

/-- FLG2 (R147, R148). -/
def flg2W (w : Word) : Word × Flags :=
  match fv32 w with
  | .nan => quiet nan32
  | .inf neg => if neg then (nan32, { inv := true }) else quiet w
  | .fin neg m e =>
    if m = 0 then (BitVec.ofNat 32 (f32.inf true), { dz := true })
    else if neg then (nan32, { inv := true })
    else w32 (log2R m e)

/-- FSIN (R147, R148). -/
def fsinW (w : Word) : Word × Flags :=
  match fv32 w with
  | .nan => quiet nan32
  | .inf _ => (nan32, { inv := true })
  | .fin neg m e => if m = 0 then quiet w else w32 (sinR neg m e)

/-- FCOS (R147, R148). -/
def fcosW (w : Word) : Word × Flags :=
  match fv32 w with
  | .nan => quiet nan32
  | .inf _ => (nan32, { inv := true })
  | .fin _ m e => if m = 0 then quiet 0x3F800000#32 else w32 (cosR m e)

/-- An SFU-class instruction of one source (R75, R147). -/
def sfu (d : RegNo) (a : Src) (g : Guard) (f : Word → Word × Flags) (s : State) : Host.Outcome State Fault Refusal :=
  aluOp { cls := 1, guard := g, srcs := [(a, 1)], dsts := [(d, 1)] } d (fun x => ([(f (x 0 0)).1], (f (x 0 0)).2)) s

/-- FRCP. -/
def execFrcp (d : RegNo) (a : Src) (g : Guard) (s : State) := sfu d a g frcpW s
/-- FRSQ. -/
def execFrsq (d : RegNo) (a : Src) (g : Guard) (s : State) := sfu d a g frsqW s
/-- FSQRT. -/
def execFsqrt (d : RegNo) (a : Src) (rm : RMode) (g : Guard) (s : State) := sfu d a g (fsqrtW rm) s
/-- FEX2. -/
def execFex2 (d : RegNo) (a : Src) (g : Guard) (s : State) := sfu d a g fex2W s
/-- FLG2. -/
def execFlg2 (d : RegNo) (a : Src) (g : Guard) (s : State) := sfu d a g flg2W s
/-- FSIN. -/
def execFsin (d : RegNo) (a : Src) (g : Guard) (s : State) := sfu d a g fsinW s
/-- FCOS. -/
def execFcos (d : RegNo) (a : Src) (g : Guard) (s : State) := sfu d a g fcosW s

/-- The element format of a packed form (R149). -/
def pfmt : PFmt → FFmt
  | .f16 => Machine.f16
  | .bf16 => Machine.bf16

/-- Element `i` of a register of 16-bit elements (R100). -/
def half (w : Word) (i : Nat) : Nat := bits w (16 * i + 15) (16 * i)

/-- Two element results packed, their flags together (R149). -/
def pack2 (lo hi : Nat × Flags) : Word × Flags := (BitVec.ofNat 32 (hi.1 * 65536 + lo.1), lo.2.or hi.2)

/-- PADD2 (R149). -/
def execPadd2 (d : RegNo) (a b : Src) (f : PFmt) (rm : RMode) (g : Guard) (s : State) :=
  alu2 false d a b g (fun x y => pack2 ((pfmt f).add rm (half x 0) (half y 0)) ((pfmt f).add rm (half x 1) (half y 1))) s
/-- PMUL2 (R149). -/
def execPmul2 (d : RegNo) (a b : Src) (f : PFmt) (rm : RMode) (g : Guard) (s : State) :=
  alu2 false d a b g (fun x y => pack2 ((pfmt f).mul rm (half x 0) (half y 0)) ((pfmt f).mul rm (half x 1) (half y 1))) s
/-- PFMA2 (R149). -/
def execPfma2 (d : RegNo) (a b c : Src) (f : PFmt) (rm : RMode) (g : Guard) (s : State) :=
  alu3 false d a b c g (fun x y z => pack2 ((pfmt f).fma rm (half x 0) (half y 0) (half z 0))
    ((pfmt f).fma rm (half x 1) (half y 1) (half z 1))) s

/-- PDOT2 (R150): one group, one rounding to FP32. -/
def pdot2W (f : FFmt) (rm : RMode) (x y z : Word) : Word × Flags :=
  let v := [f.unpack (half x 0), f.unpack (half y 0), f.unpack (half x 1), f.unpack (half y 1), fv32 z]
  w32 (f32.sum rm [(f.unpack (half x 0)).mul (f.unpack (half y 0)), (f.unpack (half x 1)).mul (f.unpack (half y 1)), fv32 z]
    (v.any FV.isNan))

/-- PDOT2. -/
def execPdot2 (d : RegNo) (a b c : Src) (f : PFmt) (rm : RMode) (g : Guard) (s : State) :=
  alu3 false d a b c g (pdot2W (pfmt f) rm) s

/-- An 8-bit element of a register, signed or unsigned (R96, R100). -/
def byteElem (u : Bool) (w : Word) (i : Nat) : Int :=
  let x := bits w (8 * i + 7) (8 * i)
  if u || x < 128 then x else (x : Int) - 256

/-- IDOT4 (R150). -/
def idot4W (ua ub sat : Bool) (x y z : Word) : Word × Flags :=
  let t := [0, 1, 2, 3].foldl (fun acc i => acc + byteElem ua x i * byteElem ub y i) z.toInt
  if sat then ((clampS t).1, { sat := (clampS t).2 }) else (BitVec.ofInt 32 t, Flags.none)

/-- IDOT4. -/
def execIdot4 (d : RegNo) (a b c : Src) (ua ub sat : Bool) (g : Guard) (s : State) :=
  alu3 false d a b c g (idot4W ua ub sat) s

/-- The floating format of a CVT code; none for an integer (R151). -/
def nfFmt : NumFmt → Option FFmt
  | .f32 => some Machine.f32
  | .f16 => some Machine.f16
  | .bf16 => some Machine.bf16
  | .f8e4 => some Machine.f8e4
  | .f8e5 => some Machine.f8e5
  | .int8 | .uint8 | .int16 | .int32 | .uint32 => none

/-- The range of an integer format (R96). -/
def nfRange : NumFmt → Int × Int
  | .int8 => (-128, 127)
  | .uint8 => (0, 255)
  | .int16 => (-32768, 32767)
  | .int32 => (-(2 ^ 31), 2 ^ 31 - 1)
  | .uint32 => (0, 2 ^ 32 - 1)
  | .f32 | .f16 | .bf16 | .f8e4 | .f8e5 => (0, 0)

/-- Bits of an element (R100). -/
def nfWidth (f : NumFmt) : Nat := 32 / NumFmt.elems f

/-- Element `j` of a register (R152). -/
def nfElem (f : NumFmt) (w : Word) (j : Nat) : Nat := w.toNat / 2 ^ (nfWidth f * j) % 2 ^ nfWidth f

/-- An integer element's value (R96). -/
def nfInt (f : NumFmt) (x : Nat) : Int := if (x : Int) ≤ (nfRange f).2 then x else (x : Int) - 2 ^ nfWidth f

/-- An integer's bits in an integer format. -/
def nfOfInt (f : NumFmt) (x : Int) : Nat := (x % 2 ^ nfWidth f).toNat

/-- An integer clamped to an integer format, and whether it was (R153). -/
def nfClamp (f : NumFmt) (x : Int) : Nat × Bool :=
  if x < (nfRange f).1 then (nfOfInt f (nfRange f).1, true)
  else if (nfRange f).2 < x then (nfOfInt f (nfRange f).2, true)
  else (nfOfInt f x, false)

/-- A floating value converted to a floating format (R107, R153). -/
def cvtFF (t : FFmt) (rm : RMode) (sat : Bool) (x : FV) : Nat × Flags :=
  match x with
  | .nan => (t.nan, Flags.none)
  | .inf neg => if t.noInf then (t.nan, { inv := true }) else (t.inf neg, Flags.none)
  | .fin neg m e =>
    let r := t.round rm neg m e false
    if sat && r.2.ovf then (t.signBit neg + t.maxMag, r.2) else r

/-- A floating value converted to an integer format (R107, R153). -/
def cvtFI (t : NumFmt) (rm : RMode) (x : FV) : Nat × Flags :=
  match x with
  | .nan => (0, { inv := true })
  | .inf neg => (nfOfInt t (if neg then (nfRange t).1 else (nfRange t).2), { sat := true })
  | .fin neg m e =>
    if 40 < e + bitLen m then (nfOfInt t (if neg then (nfRange t).1 else (nfRange t).2), { sat := true })
    else
      let r := quantise rm neg m e false 0
      let c := nfClamp t (if neg then -(r.1 : Int) else r.1)
      (c.1, { sat := c.2, inx := r.2 && !c.2 })

/-- CVT of one element without stochastic rounding (R153). R153 gives .sat no effect from an integer to a floating format whose
range the value leaves: the model delivers the largest magnitude, as between floating formats (DESIGN CHOICE, log 55). -/
def cvtElem (src dst : NumFmt) (rm : RMode) (sat : Bool) (x : Nat) : Nat × Flags :=
  match nfFmt src, nfFmt dst with
  | some f, some t => cvtFF t rm sat (f.unpack x)
  | some f, none => cvtFI dst rm (f.unpack x)
  | none, some t =>
    let v := nfInt src x
    let r := t.round rm (decide (v < 0)) v.natAbs 0 false
    if sat && r.2.ovf then (t.signBit (decide (v < 0)) + t.maxMag, r.2) else r
  | none, none => ((nfClamp dst (nfInt src x)).1, { sat := (nfClamp dst (nfInt src x)).2 })

/-- The generator after one advance (R113). -/
def seedNext (x : Word) : Word := if x.getLsbD 0 then (x >>> 1) ^^^ 0x80200003#32 else x >>> 1

/-- Stochastic rounding of a finite FP32 value by the state's rotation for lane number `l` (R113). -/
def srRound (t : FFmt) (sat : Bool) (state : Word) (l : Nat) (neg : Bool) (m : Nat) (e : Int) : Nat × Flags :=
  let q := t.quantum m e
  let sh := (q - e).toNat
  let k := min sh 24
  let rem := m % 2 ^ sh
  let d := rem * 2 ^ k / 2 ^ sh
  let rnd := (state.rotateLeft (7 * l % 32)).toNat % 2 ^ k
  let n := (if q < e then m * 2 ^ (e - q).toNat else m / 2 ^ sh) + if 2 ^ k ≤ d + rnd then 1 else 0
  let x := t.encode n q
  if x.2 then (if sat then t.signBit neg + t.maxMag else t.overflow .sr neg, { ovf := true, inx := true })
  else (t.signBit neg + x.1, { inx := rem != 0, unf := rem != 0 && decide (x.1 < 2 ^ t.mb) })

/-- CVT.SR of one FP32 element (R113, R154). -/
def cvtSr (dst : NumFmt) (sat : Bool) (state : Word) (l : Nat) (x : Nat) : Nat × Flags :=
  match nfFmt dst with
  | none => (0, Flags.none)
  | some t =>
    match f32.unpack x with
    | .fin neg m e => if m = 0 then (t.signBit neg, Flags.none) else srRound t sat state l neg m e
    | .nan => cvtFF t .sr sat .nan
    | .inf neg => cvtFF t .sr sat (.inf neg)

/-- The partition an agent issues on: its group's, or its bank's (R317). -/
def State.partOf (s : State) (ag : Agent) : Nat :=
  match s.group? (agKey ag) with
  | none => 0
  | some g =>
    match ag with
    | .helper _ _ _ h => ((g.recruit.bind fun r => aget r.helpers h).map (·.bank)).getD g.part
    | .frag _ _ _ _ | .seq _ _ => g.part

/-- The state of a partition's generator at a clock; 0x0000_0001 at bring-up (R73). A write of ROUND_SEED acts from the clock after
it (R114, R135). -/
def Core.seed (c : Core) (now p : Nat) : Word :=
  match aget c.seedWrites p with
  | some w => if w.clock < now then w.value else sget 1#32 c.seeds p
  | none => sget 1#32 c.seeds p

/-- ROUND_SEED as group `k` reads it: its own write stands in its issue order (R135). -/
def Core.seedFor (c : Core) (now k p : Nat) : Word :=
  match aget c.seedWrites p with
  | some w => if w.key = k then w.value else c.seed now p
  | none => c.seed now p

/-- A generator with the write that has begun to act taken in. -/
def Core.takeSeed (c : Core) (now p : Nat) : Core :=
  match aget c.seedWrites p with
  | some w => if w.clock < now then { c with seeds := sset 1#32 c.seeds p w.value, seedWrites := adel c.seedWrites p } else c
  | none => c

/-- A partition's generator advanced once (R113). -/
def Core.stepSeed (c : Core) (now p : Nat) : Core × Word :=
  let w := seedNext (c.seed now p)
  let c := c.takeSeed now p
  ({ c with seeds := sset 1#32 c.seeds p w }, w)

/-- The generator's state for an issue of CVT.SR: advanced once for a fragment, and once for a gang of helpers, whose helpers
share it (R113, R317, R321). -/
def State.advanceSeed (s : State) (ag : Agent) : State × Word :=
  let k := agKey ag
  let d := keyDie k
  let c := ((s.group? k).map (·.core)).getD 0
  let p := s.partOf ag
  let r := (s.core d c).stepSeed s.clock p
  match ag with
  | .helper _ _ _ h =>
    match aget (s.core d c).gangs p with
    | some g =>
      if g.clock = s.clock && g.key = k && g.helpers.contains h then
        match g.seed with
        | some w => (s, w)
        | none => (s.modCore d c fun _ => { r.1 with gangs := aput r.1.gangs p { g with seed := some r.2 } }, r.2)
      else (s.modCore d c fun _ => r.1, r.2)
    | none => (s.modCore d c fun _ => r.1, r.2)
  | .frag _ _ _ _ | .seq _ _ => (s.modCore d c fun _ => r.1, r.2)

/-- The lane number whose rotation rounds (R113): e0, or the helper's number. -/
def srLane (ag : Agent) (l : Nat) : Nat :=
  match ag with
  | .helper _ _ _ h => h
  | .frag _ _ _ _ | .seq _ _ => l

/-- The result put into element `j` of the register, or the whole register (R152). -/
def nfPut (f : NumFmt) (old : Word) (j x : Nat) : Word :=
  if NumFmt.elems f = 1 then BitVec.ofNat 32 x
  else
    let m : Word := BitVec.ofNat 32 ((2 ^ nfWidth f - 1) * 2 ^ (nfWidth f * j))
    (old &&& ~~~m) ||| BitVec.ofNat 32 (x * 2 ^ (nfWidth f * j))

/-- The sources of CVT: A, and C when the destination has several elements (R152). -/
def cvtSrcs (a c : Src) (dst : NumFmt) : List (Src × Nat) := if NumFmt.elems dst = 1 then [(a, 1)] else [(a, 1), (c, 1)]

/-- CVT (R151 to R154). Of a CVT.SR whose sources and destination are one per group, R62 has one value computed and R103 and R113 go
lane by lane: the model rounds in each active lane, ORs the flags of all, and stores the lowest lane's value (log 65). -/
def execCvt (d : RegNo) (a c : Src) (src dst : NumFmt) (rm : RMode) (sat : Bool) (j : BitVec 2) (g : Guard) (s : State) :
    Host.Outcome State Fault Refusal :=
  let sp := aluSpec false g (cvtSrcs a c dst) d 1
  let js := if NumFmt.elems src = 1 then 0 else j.toNat
  issueWith s sp fun s ag act =>
    let r := if rm = .sr then s.advanceSeed ag else (s, 0#32)
    let x := s.vals ag sp.srcs
    let one := fun l =>
      if rm = .sr then cvtSr dst sat r.2 (srLane ag l) (nfElem src (x 0 0 l) js)
      else cvtElem src dst rm sat (nfElem src (x 0 0 l) js)
    let rs := (lanesOf act).map fun l => (l, one l)
    ((r.1.wrLanes ag d.toNat (rs.map fun y => (y.1, [nfPut dst (x 1 0 y.1) j.toNat y.2.1]))).addFlags ag
      (rs.foldl (fun f y => f.or y.2.2) Flags.none)).advance ag

/-- A decoded CB2 weight, twice the weight's value (R98). -/
def cb2Weight (table : Nat → Word) (w i : Nat) : Int :=
  let q := bits (table (nbits w 15 8)) (4 * i + 3) (4 * i) + w % 2
  let neg := if i < 7 then nbits w (i + 1) (i + 1) == 1
             else ((List.range 7).filter fun k => nbits w (k + 1) (k + 1) == 1).length % 2 == 1
  if neg then -(q : Int) else q

/-- The core of an agent's group. -/
def State.agCoreNo (s : State) (ag : Agent) : Nat := ((s.group? (agKey ag)).map (·.core)).getD 0

/-- The grist table copy as a group's CBDEC reads it: zero unless its team is the cluster's matrix team (R99). -/
def State.gristOf (s : State) (k : Nat) : Nat → Word :=
  let c := s.core (keyDie k) (((s.group? k).map (·.core)).getD 0)
  if ((s.teamOf? k).bind (·.seq)).isSome then fun i => sget 0#32 c.grist i else fun _ => 0#32

/-- The grist entries that a CBDEC reads, for a group of the cluster's matrix team (R98, R99). -/
def State.cbdecEntries (s : State) (ag : Agent) (sp : Spec) (w : Bool) : List Nat :=
  match s.front? ag with
  | none => []
  | some f =>
    if ((s.teamOf? (agKey ag)).bind (·.seq)).isNone then []
    else (lanesOf (s.active ag f sp.guard)).map fun l => nbits (half (s.vals ag sp.srcs 0 0 l) (if w then 1 else 0)) 15 8

/-- Whether a CBDEC meets a grist entry in error or under test (R382, R383). -/
def State.cbdecMeets (s : State) (sp : Spec) (w : Bool) : Bool :=
  match s.cur with
  | none => false
  | some ag =>
    let c := s.agCoreNo ag
    let l := s.cbdecEntries ag sp w
    s.gristBusy (keyDie (agKey ag)) c l || l.any ((s.core (keyDie (agKey ag)) c).gristPoison.contains)

/-- CBDEC (R155). An entry in error leaves the destination EMPTY, and MCHK is charged (R382). -/
def execCbdec (d : RegNo) (a : Src) (w h : Bool) (g : Guard) (s : State) : Host.Outcome State Fault Refusal :=
  let sp := aluSpec false g [(a, 1)] d 1
  if s.cbdecMeets sp w then
    issueWith s sp fun s ag act =>
      let die := keyDie (agKey ag)
      let l := s.cbdecEntries ag sp w
      if s.gristBusy die (s.agCoreNo ag) l then s.stallAt ag .issue
      else (s.gristMeet die (s.agCoreNo ag) l).1.chargeRegs ag sp act
  else
    let t := s.gristOf ((s.cur.map agKey).getD 0)
    alu1 false d a g (fun x =>
      let y := half x (if w then 1 else 0)
      let e := fun i => ((cb2Weight t y ((if h then 4 else 0) + i)) % 256).toNat
      quiet (BitVec.ofNat 32 (e 0 + e 1 * 2 ^ 8 + e 2 * 2 ^ 16 + e 3 * 2 ^ 24))) s

/-- The exact value of a UE8M4 scale: NaN, or m × 2^e (R97). -/
def ue8m4 (x : Nat) : FV :=
  let e := nbits x 11 4
  let m := nbits x 3 0
  if e = 255 then .nan else if e = 0 then .fin false m (-130) else .fin false (16 + m) ((e : Int) - 131)

/-- SCAL (R156). -/
def scalW (rm : RMode) (j : Bool) (x y : Word) : Word × Flags :=
  let a := fv32 x
  let sc := ue8m4 (half y (if j then 1 else 0))
  w32 (f32.value rm (a.mul sc) (a.isNan || sc.isNan))

/-- SCAL. -/
def execScal (d : RegNo) (a b : Src) (j : Bool) (rm : RMode) (g : Guard) (s : State) := alu2 false d a b g (scalW rm j) s

end Sys2Proof.Machine
end

