-- ==== Sys2Proof/Machine/Control.lean ====
section
/-! DEFINITION. Control: divergence and reconvergence (R52 to R54, R119 to R127), the end and restart of groups (R55, R57,
R128, R129), YIELD and the exchanges of R48 and R49, traps (R131), SPAWN (R132), LTRIG (R134), the status registers (R72,
R73, R135), NOP, and the start of a clause (R74, R77, R304, R398). -/

namespace Sys2Proof.Machine

/-- The free entries of a split table. -/
def Group.freeEntries (g : Group) : List Nat := (List.range Config.nFrags).filter fun e => (aget g.frags e).isNone
/-- The free entry a new fragment takes: R52 does not say which, so it is drawn at `k` (log 3). -/
def Group.freeEntry (g : Group) (k : Nat) : Option Nat := g.freeEntries[Config.freeNat k % g.freeEntries.length]?
/-- How many entries of a split table are free. -/
def Group.freeCount (g : Group) : Nat := g.freeEntries.length

/-- DETAIL of DIVDEPTH (R291). -/
def Group.divDetail (g : Group) : Nat := g.defer.length + g.freeCount * 256

/-- A divergent branch of fragment `e` whose lanes `t` take it (R52), with the free entry drawn
at `k`; none where DIVDEPTH is raised. -/
def Group.diverge (g : Group) (k e : Nat) (f : Fragment) (t : Mask) (target : Addr) : Option Group :=
  let rest := f.mask &&& ~~~t
  let new := fun j : Option Addr => { f.goto target with mask := t, join := j, stopped := .no }
  match f.joinAddr with
  | none =>
    (g.freeEntry k).map fun n =>
      { g with frags := aput (aput g.frags n (new none)) e { f.advance with mask := rest } }
  | some j =>
    if Config.deferDepth ≤ g.defer.length then none
    else
      let me := { f.advance with mask := rest, join := some j }
      match g.freeEntry k with
      | some n =>
        some { g with
          defer := g.defer ++ [{ join := j, outer := f.join, arm := none }]
          frags := aput (aput g.frags n (new (some j))) e me }
      | none =>
        some { g with
          defer := g.defer ++ [{ join := j, outer := f.join,
                                 arm := some { pc := target, mask := t, owner := e, swapped := false, arrived := 0#64 } }]
          frags := aput g.frags e me }

/-- Whether records lead from join address `j` to `a` by their outer addresses (R53). -/
def leadsTo (l : List DeferRec) (a : Addr) : Nat → Addr → Bool
  | 0, _ => false
  | n + 1, j => l.any fun r =>
      r.join == j && (match r.outer with
        | none => false
        | some o => o == a || leadsTo l a n o)

/-- Whether a fragment is bound for a join (R53). -/
def Group.boundFor (g : Group) (a : Addr) (f : Fragment) : Bool :=
  match f.join with
  | none => false
  | some j => j == a || leadsTo g.defer a (Config.deferDepth + 1) j

/-- Whether a fragment waits at the JOIN of the clause at `a`. -/
def Fragment.waitsAt (f : Fragment) (a : Addr) : Bool := f.wait == .join && f.clause == a

/-- Fragments fused into one: the masks, the program order and the orderings of `l` join `x`; every earlier access comes before
its later ones (R53, R54, R179, R181). -/
def fuseInto (x : Fragment) (l : List Fragment) (now : Nat) (pair : Bool) : Fragment :=
  { x with
    mask := l.foldl (fun m f => m ||| f.mask) x.mask
    past := l.foldl (fun p f => p ++ f.past.filter fun i => !p.contains i) x.past
    fenceAll := now
    fenceInv := pair || x.fenceInv || l.any (·.fenceInv) }

/-- Whether the handler's entry holds fragment `e` where it stands (R293, R330). -/
def Group.holds (g : Group) (e : Nat) : Bool := (g.handler.map fun h => h.held.contains e).getD false

/-- Fusion at `a` (R53), when every fragment bound for it waits there; a fragment that the handler's entry holds stands where it
stood until TRET (R330). Whether the handler's own fragments fuse at a JOIN where a held one waits, R53 and R330 leave open: the model
fuses none there until TRET (log 69). -/
def Group.fuseAt (g : Group) (a : Addr) (now : Nat) (pair : Bool) : Group :=
  let ws := g.frags.filter fun e => e.2.waitsAt a
  if !(g.frags.all fun e => e.2.waitsAt a || !g.boundFor a e.2) || ws.any (fun e => g.holds e.1) then g
  else match ws with
    | [] => g
    | x :: others =>
      let outer := ((g.defer.find? fun r => r.join == a).map (·.outer)).getD none
      let rest := g.frags.filter fun e => !e.2.waitsAt a
      { g with
        defer := g.defer.filter fun r => r.join != a
        frags := aput rest x.1 { (fuseInto x.2 (others.map (·.2)) now pair).advance with join := outer, stopped := .no } }

/-- Every fusion that is due (R53): at most one for each entry. -/
def Group.fuseAll (g : Group) (now : Nat) (pair : Bool) : Nat → Group
  | 0 => g
  | n + 1 =>
    let at_ := (g.frags.filter fun e => e.2.wait == .join).map fun e => e.2.clause
    Group.fuseAll (at_.foldl (fun g a => g.fuseAt a now pair) g) now pair n

/-- The newest DEFERRED record that fragment `e` owns, at `a` where one is given (R53): its place and its arm. -/
def Group.newestArm (g : Group) (e : Nat) (a : Option Addr) : Option (Nat × DeferRec × Deferred) :=
  (((List.range g.defer.length).reverse.filterMap fun i =>
    match g.defer[i]? with
    | none => none
    | some r =>
      match r.arm with
      | none => none
      | some d => if d.owner == e && (match a with
          | none => true
          | some a => r.join == a) then some (i, r, d) else none).head?)

/-- A record of the defer stack with its arm changed. -/
def Group.setArm (g : Group) (i : Nat) (r : DeferRec) (d : Deferred) : Group :=
  { g with defer := g.defer.set i { r with arm := some d } }

/-- A fragment whose mask EXIT has left empty (R53, R55): it takes a deferred arm it owns, or waits at its join with the
lanes that arrived, or ends. `hdrAt` reads the header of a clause. R53 does not say which record comes first where the fragment
owns several with different joins: the newest does, and past a removed one the next older (DESIGN CHOICE, log 52). -/
def Group.emptied (hdrAt : Addr → Option Code) (g : Group) (e : Nat) (f : Fragment) : Nat → Group
  | 0 => { g with frags := adel g.frags e }
  | n + 1 =>
    match g.newestArm e none with
    | none => { g with frags := adel g.frags e }
    | some (i, r, d) =>
      if !d.swapped then
        let g := g.setArm i r { d with swapped := true, arrived := 0#64 }
        { g with frags := aput g.frags e { f.goto d.pc with mask := d.mask, join := some r.join } }
      else if d.arrived = 0#64 then Group.emptied hdrAt { g with defer := g.defer.eraseIdx i } e f n
      else
        let f := { f.goto r.join with hdr := hdrAt r.join, mask := d.arrived, join := some r.join, wait := .join }
        { g with frags := aput g.frags e f }

/-- The group has ended when no lane and no DEFERRED record is left (R55). -/
def Group.checkEnd (g : Group) : Group :=
  if g.frags.isEmpty && g.defer.all fun r => r.arm.isNone then { g with ended := true } else g

/-- The header of a clause, for a fragment that takes its place there. -/
def State.hdrAt (s : State) (k : Nat) (a : Addr) : Option Code :=
  match s.fetchWord (keyDie k) (s.ptagOf k) a with
  | .inl w => some w
  | .inr _ => none

/-- Whether a group's team lies on a core pair. -/
def State.pairOf (s : State) (k : Nat) : Bool := recPair (s.recOf k)

/-- A group after a change of its fragments: due fusions are made, and it may have ended. -/
def State.settleGroup (s : State) (k : Nat) : State :=
  s.modGroup k fun g => (g.fuseAll s.fresh (s.pairOf k) Config.nFrags).checkEnd

/-- Why a direct target is not taken (R78, R119). -/
def State.directTarget (s : State) (ag : Agent) (a : Addr) : Option (Nat × Nat) :=
  match s.fetchWord (keyDie (agKey ag)) (s.ptagOf (agKey ag)) a with
  | .inr e => some e
  | .inl w => if isHeader w then none else some (6, 0)

/-- A fault of the fetch of code at an address; an error met by it is poisoned, tested and reported (R3, R78, R176). -/
def State.raiseFetch (s : State) (ag : Agent) (e : Nat × Nat) (a : Addr) (lanes : Mask) : State :=
  (s.fetchMet (keyDie (agKey ag)) (s.ptagOf (agKey ag)) a).raiseAt ag e.1 e.2 a lanes

/-- Whether the fetch of code at an address by an agent waits for a test or a repair (R383, R386). -/
def State.agFetchBusy (s : State) (ag : Agent) (a : Addr) : Bool :=
  s.fetchBusy (keyDie (agKey ag)) (s.ptagOf (agKey ag)) a

/-- A branch of an agent's fragment by lanes `t` to a checked target; none where DIVDEPTH is raised (R52, R119). -/
def State.takeBranch (s : State) (ag : Agent) (f : Fragment) (t : Mask) (target : Addr) : Option State :=
  if t = f.mask then some (s.modFront ag fun f => f.goto target)
  else match ag with
    | .frag _ _ _ e =>
      ((s.group? (agKey ag)).bind fun g => g.diverge s.tick e f t target).map fun g =>
        { s with groups := aput s.groups (agKey ag) g, tick := s.tick + 1 }
    | .helper _ _ _ _ | .seq _ _ => some (s.advance ag)

/-- The target of a direct transfer (R84). -/
def Fragment.target (f : Fragment) (t : BitVec 30) : Addr := f.pc + (t.signExtend 48 <<< 3)

/-- DIVDEPTH of an agent's group (R52, R120, R291). -/
def State.divDepth (s : State) (ag : Agent) (act : Mask) : State :=
  s.raiseAt ag 8 (((s.group? (agKey ag)).map Group.divDetail).getD 0) 0#48 act

/-- A direct branch, with `pre` done first when nothing stands in its way (R119, R122). Which of a bad target and DIVDEPTH is raised
where both would be, the spec says only of indirect transfers (R120): the model checks the target first. PAGE and PROT of the target,
which R119 has raised when it is fetched, are charged at the branch: no lane moves, and no link or loop counter is written (log 67). -/
def State.branch (s : State) (ag : Agent) (act : Mask) (tgt : BitVec 30) (pre : State → State) : State :=
  match s.front? ag with
  | none => s
  | some f =>
    if s.agFetchBusy ag (f.target tgt) then s.stallAt ag .issue
    else match s.directTarget ag (f.target tgt) with
    | some e => s.raiseFetch ag e (f.target tgt) act
    | none =>
      match s.takeBranch ag f act (f.target tgt) with
      | none => s.divDepth ag act
      | some s' => pre s'

/-- Distinct targets, ascending, with their lanes (R120). -/
def groupTargets (l : List (Nat × Nat)) : List (Nat × Mask) :=
  ((l.map (·.2)).foldl nsInsert []).map fun t => (t, maskOf ((l.filter fun x => x.2 == t).map (·.1)))

/-- The parts of an indirect transfer after the first, each split off in turn (R120), its entry drawn from `k` on. -/
def Group.splitParts (g : Group) (k e : Nat) : List (Nat × Mask) → Option Group
  | [] => some g
  | p :: t =>
    match aget g.frags e with
    | none => none
    | some f =>
      -- each part branches from the same clause: the fragment is put back at its transfer for the next part
      match g.diverge k e f p.2 (BitVec.ofNat 48 p.1) with
      | none => none
      | some g' => Group.splitParts { g' with frags := amod g'.frags e fun x => { x with clause := f.clause, idx := f.idx, hdr := f.hdr } } (k + 1) e t

/-- An indirect transfer (R120): N falls through, and each distinct target takes its lanes. -/
def State.indirectTo (s : State) (ag : Agent) (f : Fragment) (act : Mask) (tg : List (Nat × Nat)) : Option State :=
  let rest := f.mask &&& ~~~act
  let ts := groupTargets tg
  match ag with
  | .helper _ _ _ _ | .seq _ _ => some (s.modFront ag fun f => f.goto (BitVec.ofNat 48 ((ts.head?.map (·.1)).getD 0)))
  | .frag _ _ _ e =>
    let fall := f.advance.clause.toNat
    let parts := (if rest = 0#64 then [] else [(fall, rest)]) ++ ts
    match parts, s.group? (agKey ag) with
    | [], _ | _, none => none
    | p0 :: more, some g =>
      let need := more.length
      if need = 0 then some (s.modFront ag fun f => f.goto (BitVec.ofNat 48 p0.1))
      else
        let fits := match f.joinAddr with
          | none => decide (need ≤ g.freeCount)
          | some _ => decide (g.defer.length + need ≤ Config.deferDepth) && decide (need - 1 ≤ g.freeCount)
        if !fits then none
        else (g.splitParts s.tick e more).map fun g =>
          let g' := { g with frags := amod g.frags e fun x => x.goto (BitVec.ofNat 48 p0.1) }
          { s with groups := aput s.groups (agKey ag) g', tick := s.tick + need }

/-- The lanes whose indirect target fails its check (R121). -/
def State.badTargets (s : State) (ag : Agent) (tg : List (Nat × Nat)) : List (Nat × Nat) :=
  tg.filter fun x => !s.landingAt (keyDie (agKey ag)) (s.ptagOf (agKey ag)) (BitVec.ofNat 48 x.2)

/-- The errors that the checks of indirect targets meet (R3, R176). -/
def State.meetTargets (s : State) (ag : Agent) (tg : List (Nat × Nat)) : State :=
  tg.foldl (fun s x => s.fetchMet (keyDie (agKey ag)) (s.ptagOf (agKey ag)) (BitVec.ofNat 48 x.2)) s

/-- BRX, CALLX and RET: the targets are checked, then the lanes go (R120 to R123). -/
def State.indirect (s : State) (ag : Agent) (act : Mask) (tgt : Nat → Addr) (pre : State → State) : State :=
  match s.front? ag with
  | none => s
  | some f =>
    let tg := (lanesOf act).map fun l => (l, (tgt l).toNat)
    if tg.any fun x => s.agFetchBusy ag (BitVec.ofNat 48 x.2) then s.stallAt ag .issue
    else match s.badTargets ag tg with
    | b :: t => (s.meetTargets ag (b :: t)).raiseAt ag 6 0 (BitVec.ofNat 48 b.2) (maskOf ((b :: t).map (·.1)))
    | [] =>
      match s.indirectTo ag f act tg with
      | none => s.divDepth ag act
      | some s' => pre s'

/-- The issue of a transfer instruction (R76). -/
def ctlSpec (g : Guard) (srcs : List (Src × Nat)) : Spec := { cls := 4, transfer := true, guard := g, srcs := srcs }

/-- BRA (R119). -/
def execBra (tgt : BitVec 30) (g : Guard) (s : State) : Host.Outcome State Fault Refusal :=
  issueWith s { ctlSpec g [] with seq := true } fun s ag act => s.branch ag act tgt id

/-- BRX (R120, R121). -/
def execBrx (a : Src) (g : Guard) (s : State) : Host.Outcome State Fault Refusal :=
  issueWith s (ctlSpec g [(a, 2)]) fun s ag act =>
    let x := s.vals ag [(a, 2)]
    s.indirect ag act (fun l => addrOfPair (x 0 1 l) (x 0 0 l)) id

/-- The link: the header that follows the clause (R122). -/
def Fragment.link (f : Fragment) : List Word :=
  let a := f.advance.clause
  [loWord (a.setWidth 64), hiWord (a.setWidth 64)]

/-- The link written into the pair of every active lane (R62, R122). -/
def State.writeLink (s : State) (ag : Agent) (link : RegNo) (act : Mask) (w : List Word) : State :=
  s.wrLanes ag link.toNat ((lanesOf act).map fun l => (l, w))

/-- The link an agent's call writes. -/
def State.linkOf (s : State) (ag : Agent) : List Word := ((s.front? ag).map Fragment.link).getD []

/-- CALL (R122). -/
def execCall (link : RegNo) (tgt : BitVec 30) (g : Guard) (s : State) : Host.Outcome State Fault Refusal :=
  issueWith s { ctlSpec g [] with dsts := [(link, 2)], seq := true } fun s ag act =>
    let w := s.linkOf ag
    s.branch ag act tgt fun s => s.writeLink ag link act w

/-- CALLX (R120 to R122). -/
def execCallx (link : RegNo) (a : Src) (g : Guard) (s : State) : Host.Outcome State Fault Refusal :=
  issueWith s { ctlSpec g [(a, 2)] with dsts := [(link, 2)] } fun s ag act =>
    let x := s.vals ag [(a, 2)]
    let w := s.linkOf ag
    s.indirect ag act (fun l => addrOfPair (x 0 1 l) (x 0 0 l)) fun s => s.writeLink ag link act w

/-- RET (R123). -/
def execRet (a : Src) (g : Guard) (s : State) : Host.Outcome State Fault Refusal :=
  issueWith s { ctlSpec g [(a, 2)] with seq := true } fun s ag act =>
    let x := s.vals ag [(a, 2)]
    s.indirect ag act (fun l => addrOfPair (x 0 1 l) (x 0 0 l)) id

/-- JOIN by a fragment in the clause at its join address (R53). -/
def Group.joinAt (g : Group) (e : Nat) (f : Fragment) : Group :=
  let a := f.clause
  match g.newestArm e (some a) with
  | none => { g with frags := aput g.frags e { f with wait := .join, stall := .none } }
  | some (i, r, d) =>
    if !d.swapped then
      let g := g.setArm i r { d with swapped := true, arrived := f.mask }
      { g with frags := aput g.frags e { f.goto d.pc with mask := d.mask } }
    else { g with frags := aput g.frags e { f with mask := f.mask ||| d.arrived, wait := .join, stall := .none } }

/-- JOIN (R53, R125); in a helper it has no effect (R321). -/
def execJoin (s : State) : Host.Outcome State Fault Refusal :=
  issueWith s { cls := 4, first := true } fun s ag _ =>
    match ag, s.front? ag with
    | .frag _ _ _ e, some f =>
      if f.join ≠ some f.clause then s.advance ag
      else (s.modGroup (agKey ag) fun g => g.joinAt e f).settleGroup (agKey ag)
    | _, _ => s.advance ag

/-- REGANG (R54, R125): the fragments that stand at this clause with this join address join the executing one. -/
def Group.regang (g : Group) (e : Nat) (f : Fragment) (now : Nat) (pair : Bool) : Group :=
  let held := match g.handler with
    | some h => h.held
    | none => []
  let with_ := g.frags.filter fun x =>
    x.1 != e && x.2.clause == f.clause && x.2.idx == 0 && x.2.wait == .run && x.2.join == f.join && !held.contains x.1
  let rest := g.frags.filter fun x => !(with_.map (·.1)).contains x.1
  { g with frags := aput rest e (fuseInto f (with_.map (·.2)) now pair).advance }

/-- REGANG (R54, R125); in a helper it has no effect (R321). -/
def execRegang (s : State) : Host.Outcome State Fault Refusal :=
  issueWith s { cls := 4, first := true } fun s ag _ =>
    match ag, s.front? ag with
    | .frag _ _ _ e, some f =>
      (s.modGroup (agKey ag) fun g => g.regang e f s.fresh (s.pairOf (agKey ag))).settleGroup (agKey ag)
    | _, _ => s.advance ag

/-- A loop counter of an agent (R126, R321, R331). -/
def State.loopCount (s : State) (ag : Agent) (k : Nat) : Word :=
  match ag with
  | .frag _ _ _ _ => ((s.group? (agKey ag)).map fun g => sget 0#32 g.lc k).getD 0#32
  | .helper _ _ _ h =>
    ((s.group? (agKey ag)).bind fun g => g.recruit.bind fun r => (aget r.helpers h).map fun x => sget 0#32 x.lc k).getD 0#32
  | .seq d n => ((s.team? d n).bind fun t => t.seq.map fun q => sget 0#32 q.lc k).getD 0#32

/-- A loop counter written. -/
def State.setLoop (s : State) (ag : Agent) (k : Nat) (w : Word) : State :=
  match ag with
  | .frag _ _ _ _ => s.modGroup (agKey ag) fun g => { g with lc := sset 0#32 g.lc k w }
  | .helper _ _ _ h => s.modHelper (agKey ag) h fun x => { x with lc := sset 0#32 x.lc k w }
  | .seq d n => s.modSeq d n fun q => { q with lc := sset 0#32 q.lc k w }

/-- LOOP (R126): the exit target is checked when it is taken. -/
def execLoop (k : BitVec 2) (a : Src) (tgt : BitVec 30) (s : State) : Host.Outcome State Fault Refusal :=
  let sp := { ctlSpec ⟨0#4, false⟩ [(a, 1)] with seq := true, lone := [0] }
  issueWith s sp fun s ag act =>
    let n := s.vals ag sp.srcs 0 0 (lowLane act)
    if n = 0#32 then s.branch ag act tgt id else (s.setLoop ag k.toNat n).advance ag

/-- ENDLP (R126). -/
def execEndlp (k : BitVec 2) (tgt : BitVec 30) (s : State) : Host.Outcome State Fault Refusal :=
  issueWith s { ctlSpec ⟨0#4, false⟩ [] with seq := true } fun s ag act =>
    let n := s.loopCount ag k.toNat
    if n.toNat ≤ 1 then (s.setLoop ag k.toNat 0#32).advance ag
    else s.branch ag act tgt fun s => s.setLoop ag k.toNat (n - 1#32)

/-- EXIT of lanes `act` of a fragment (R55, R128). -/
def Group.exitLanes (hdrAt : Addr → Option Code) (g : Group) (e : Nat) (f : Fragment) (act : Mask) : Group :=
  let g := { g with retired := g.retired ||| act }
  if act = f.mask then g.emptied hdrAt e f (Config.deferDepth + 1)
  else { g with frags := aput g.frags e { f.advance with mask := f.mask &&& ~~~act } }

/-- EXIT (R55, R128); the sequencer halts (R343). -/
def execExit (g : Guard) (s : State) : Host.Outcome State Fault Refusal :=
  issueWith s { ctlSpec g [] with hlp := false, seq := true } fun s ag act =>
    match ag, s.front? ag with
    | .frag _ _ _ e, some f =>
      let h := s.hdrAt (agKey ag)
      (s.modGroup (agKey ag) fun g => g.exitLanes h e f act).settleGroup (agKey ag)
    | .seq d n, _ => s.modSeq d n fun q => { q with halted := true }
    | _, _ => s.advance ag

/-- The kept windows of EXIT.S: bits 79:0 of the quad (R129). -/
def keptWindows (x : Vals) (l : Nat) : BitVec 80 :=
  (x 0 2 l).extractLsb' 0 16 ++ (x 0 1 l) ++ (x 0 0 l)

/-- The window of a register (R74). -/
def windowOf (r : Nat) : Nat := if r < 256 then r / 8 else 32 + (r - 256) / 8

/-- Whether a window lies within the group's counts (R57, R74). -/
def windowIn (rec_ : BitVec 1024) (w : Nat) : Bool := if w < 32 then decide (8 * w < recNv rec_) else decide (8 * (w - 32) < recNs rec_)

/-- Whether a register's window is kept. -/
def keeps (rec_ : BitVec 1024) (k : BitVec 80) (r : Nat) : Bool := k.getLsbD (windowOf r) && windowIn rec_ (windowOf r)

/-- The group after EXIT.S (R57). -/
def Group.restart (g : Group) (rec_ : BitVec 1024) (k : BitVec 80) (e : Nat) (f : Fragment) (succ : Addr) : Group :=
  let tags := (g.tags.filter fun x => keeps rec_ k x.1).filterMap fun x =>
    if x.2.poison ≠ 0#64 then some (x.1, ({ poison := x.2.poison, ue := x.2.ue } : RegTag)) else none
  { g with
    v := g.v.filter fun x => keeps rec_ k (x.1 / 64)
    s := g.s.filter fun x => keeps rec_ k (256 + x.1)
    tags := tags
    lc := [], hrecs := [], sticky := 0#6, mchk := [], retired := 0#64
    frags := [(e, { f.goto succ with mask := fullMask (recW rec_), join := none })] }

/-- EXIT.S (R57, R129). -/
def execExitS (tgt : BitVec 30) (keep : Option Src) (s : State) : Host.Outcome State Fault Refusal :=
  let srcs := match keep with
    | some q => [(q, 4)]
    | none => []
  issueWith s { ctlSpec ⟨0#4, false⟩ srcs with hlp := false } fun s ag act =>
    let x := s.vals ag srcs
    let key := agKey ag
    let rec_ := s.recOf key
    match ag, s.front? ag, s.group? key with
    | .frag _ _ _ e, some f, some g =>
      let k := if keep.isSome then keptWindows x (lowLane act) else 0#80
      if g.frags.length ≠ 1 || !g.defer.isEmpty || f.mask ≠ fullMask (recW rec_) &&& ~~~g.retired then s.illop ag act
      else if s.agFetchBusy ag (f.target tgt) then s.stallAt ag .issue
      else
        match s.fetchWord (keyDie key) (s.ptagOf key) (f.target tgt) with
        | .inr e => s.raiseFetch ag e (f.target tgt) act
        | .inl w =>
          if !isLanding w then s.raiseAt ag 6 0 (f.target tgt) act
          else if g.ac ≠ [] || g.tags.any fun t => t.2.empty && keeps rec_ k t.1 then s.stallAt ag .issue
          else
            let s := (s.dropPrivate key).cancelResv key
            let forget := fun (y : Nat × Access) =>
              if y.2.uid == g.uid && agKey y.2.ag == key then (y.1, { y.2 with ndst := 0, cnt := none }) else y
            let s := { s with flight := s.flight.map forget }
            s.modGroup key fun g => g.restart rec_ k e f (f.target tgt)
    | _, _, _ => s.advance ag

/-- YIELD (R130); in a helper it has no effect (R321). -/
def execYield (g : Guard) (s : State) : Host.Outcome State Fault Refusal :=
  issueWith s { cls := 4, guard := g } fun s ag _ =>
    let s := s.advance ag
    match ag, s.group? (agKey ag) with
    | .frag _ _ _ _, some gr =>
      match s.oldestReady (keyDie (agKey ag)) gr.core gr.part with
      | some b => s.exchange (keyDie (agKey ag)) gr.core gr.part (agKey ag) b
      | none => s
    | _, _ => s

/-- TRAP (R131). -/
def execTrap (code : BitVec 20) (g : Guard) (s : State) : Host.Outcome State Fault Refusal :=
  issueWith s (ctlSpec g []) fun s ag act => s.raiseAt ag 1 code.toNat 0#48 act

/-- Whether an access that acts at once must wait: for an earlier acquire, or for an earlier access to one of its bytes (R180,
R181). -/
def State.behind (s : State) (ag : Agent) (f : Fragment) (space : Space) (p : Piece) : Bool :=
  (s.earlier ag f).any fun x => x.2.acq || (x.2.space == space && x.2.pieces.any fun y => !y.done && y.meets p)

/-- TRET (R296, R330). The load of the frame follows the group's earlier stores to it. -/
def execTret (s : State) : Host.Outcome State Fault Refusal :=
  issueWith s { ctlSpec ⟨0#4, false⟩ [] with hlp := false } fun s ag act =>
    let key := agKey ag
    match ag, s.front? ag, s.group? key with
    | .frag _ _ _ e, some f, some g =>
      match g.handler with
      | none => s.illop ag act
      | some h =>
        if g.frags.any fun x => x.1 != e && !h.held.contains x.1 then s.illop ag act
        else
          let a := s.frameAddr key g
          if s.xlateBusy (keyDie key) (s.ptagOf key) a.toNat then s.stallAt ag .issue
          else match s.chkNow (keyDie key) (s.ptagOf key) a.toNat 64 .read with
          | .bad c dt => s.raiseAt ag c dt a act
          | .mchk p => (s.metHome (keyDie key) p).raiseAt ag 36 0 a act
          | .miss => s.raiseAt ag 36 0 a act
          | .ok p cls =>
            let probe : Piece := pieceAt 64 0 0 (0, a.toNat, p, cls)
            if s.behind ag f .glob probe || s.coreBusy (keyDie key) (s.agCore ag) p false then s.stallAt ag .issue
            else
              let x := { s.newAccess ag f .load .glob with pieces := [probe] }
              match s.readPiece x probe with
              | (s, none) => s.raiseAt ag 36 0 a act
              | (s, some v) =>
                let s := s.acquireAct x
                let fr := frameIn (BitVec.ofNat 512 v)
                if s.agFetchBusy ag fr.clause then s.stallAt ag .issue
                else match s.tretCheck (keyDie key) (s.ptagOf key) h g fr with
                | some (c, adr) => (s.fetchMet (keyDie key) (s.ptagOf key) fr.clause).raiseAt ag c 0 adr act
                | none => (s.tretReturn key e h fr).settleGroup key
    | _, _, _ => s.advance ag

/-- Free slots of a die's launch queue (R36). -/
def launchRoom (d : Die) : Nat := 8192 - d.launchQ.length

/-- The launch-queue element of a SPAWN child (R37, R132). -/
def childElem (recd : BitVec 1024) (ptag : BitVec 12) (a : Nat) : LaunchElem :=
  { recd := recd, map := 0#256, origin := 1, entryDie := 0, privBit := false, ptag := ptag, recAddr := BitVec.ofNat 48 a,
    dirty := false }

/-- The record of a SPAWN child read at the home slice; none where it meets an error or poison (R132, R176). -/
def State.readRecord (s : State) (d p : Nat) : State × Option (BitVec 1024) :=
  let bad := s.meetHome d p != .clean || s.meetHome d (p + 64) != .clean
  let s := (s.metHome d p).metHome d (p + 64)
  (s, if bad then none else some (BitVec.ofNat 1024 (s.stackRead d p 128)))

/-- The children of a SPAWN enqueued in lane order; the lanes whose record could not be read are named instead. -/
def State.spawnAll (s : State) (d : Nat) (l : List (Nat × Nat × Nat × Nat)) : State × List LaunchElem × List (Nat × Nat) :=
  l.foldl (fun r x =>
    let y := r.1.readRecord d x.2.2.1
    match y.2 with
    | some rc => (y.1, r.2.1 ++ [childElem rc 0#12 x.2.1], r.2.2)
    | none => (y.1, r.2.1, r.2.2 ++ [(x.1, x.2.1)])) (s, [], [])

/-- The checks of a SPAWN record's address: a record on a CORE page fails as PROT (R133). -/
def State.chkSpawn (s : State) (d c : Nat) (ptag : BitVec 12) (a : Nat) : Chk :=
  match s.chkIssue d c ptag a 128 .read with
  | .ok p cls => if cls = 0 then .bad 34 1 else .ok p cls
  | .bad code dt => .bad code dt
  | .mchk p => .mchk p
  | .miss => .miss

/-- SPAWN (R132, R133). Its lanes meet errors each for itself: the children of the others are enqueued, and MCHK names the lanes whose
record could not be read (R176, log 66). -/
def execSpawn (a : Src) (g : Guard) (s : State) : Host.Outcome State Fault Refusal :=
  issueWith s { cls := 4, guard := g, srcs := [(a, 2)], hlp := false } fun s ag act =>
    let x := s.vals ag [(a, 2)]
    let key := agKey ag
    let d := keyDie key
    let ptag := s.ptagOf key
    match s.front? ag with
    | none => s
    | some f =>
      let chk := s.decideAll d ptag ((lanesOf act).map fun l =>
        let a := (addrOfPair (x 0 1 l) (x 0 0 l)).toNat
        (l, a, a, s.chkSpawn d (s.agCore ag) ptag a))
      State.afterCheck ag 0 0 act chk fun s l =>
        if !(s.earlier ag f).isEmpty || launchRoom (s.die d) < l.length || l.any fun c => s.stackBusy d c.2.2.1 then
          s.stallAt ag .issue
        else
          let r := s.spawnAll d l
          let s := (r.1.modDie d fun y => { y with launchQ := y.launchQ ++ r.2.1.map fun c => { c with ptag := ptag } }).advance ag
          match r.2.2 with
          | b :: t => s.groupFault key { code := 36, addr := BitVec.ofNat 48 b.2, lanes := maskOf ((b :: t).map (·.1)), pc := f.pc }
          | [] => s

/-- LTRIG (R134): a release, which it waits for, and the flag; shares that it triggers may go on (R41). -/
def execLtrig (g : Guard) (s : State) : Host.Outcome State Fault Refusal :=
  issueWith s { cls := 4, guard := g, hlp := false } fun s ag _ =>
    match s.front? ag with
    | none => s
    | some f =>
      if !(s.earlier ag f).isEmpty then s.stallAt ag .issue
      else ((s.modGroup (agKey ag) fun g => { g with ltrig := true }).settle (keyDie (agKey ag))).advance ag

/-- Access codes of R72. -/
inductive CsrAccess where
  | g | gr | pt | dr | pv | pw | none
  deriving DecidableEq, Repr

/-- The access code of a status register number; `none` where it is unassigned (R73). -/
def csrAccess (n : Nat) : CsrAccess :=
  if n ≤ 5 || n = 8 || (0x10 ≤ n && n ≤ 0x13) then .g
  else if n = 9 || n = 0xA || (0x14 ≤ n && n ≤ 0x1B) || (0x20 ≤ n && n ≤ 0x37) then .gr
  else if n = 0x100 then .pt
  else if 0x200 ≤ n && n ≤ 0x205 then .dr
  else if n = 0x316 then .pw
  else if 0x300 ≤ n && n ≤ 0x317 then .pv
  else .none

/-- Word `i` of a 128-bit map (R73). -/
def mapWord (m : BitVec 128) (i : Nat) : Word := m.extractLsb' (32 * i) 32

/-- A bit map of dies or cores from a list. -/
def mapOf (l : List Nat) : BitVec 128 := l.foldl (fun m i => m ||| (1#128 <<< i)) 0#128

/-- LOGICAL_MAP_VALUE (R24). -/
def mapValue (d : Die) (sel : Nat) : Word :=
  match d.coreMap[sel]? with
  | some c => 0x80000000#32 ||| BitVec.ofNat 32 c
  | none => 0#32

/-- GROUP_STATUS (R73). -/
def groupStatus (g : Group) (rec_ : BitVec 1024) (priv : Bool) : Word :=
  BitVec.ofNat 32 (g.frags.length + g.defer.length * 2 ^ 4 + g.resv.length * 2 ^ 9 + (if g.name.isSome then 2 ^ 12 else 0) +
    (if priv then 2 ^ 13 else 0) + (if recMatrix rec_ then 2 ^ 14 else 0) + recF rec_ 532 531 * 2 ^ 15)

/-- DEVICE_ID (R73). -/
def deviceId (f : Flash) : Word := BitVec.ofNat 32 (0x7C61 * 65536 + f.stepping.toNat * 256 + f.grade.toNat * 16)

/-- The value of a status register, for an agent of a group (R23, R24, R73, R321). -/
def State.csrRead (s : State) (ag : Agent) (g : Group) (n : Nat) : Word :=
  let k := agKey ag
  let d := keyDie k
  let die := s.die d
  let core := s.core d g.core
  let lo := fun (a : Addr) => loWord (a.setWidth 64)
  let hi := fun (a : Addr) => hiWord (a.setWidth 64)
  match n with
  | 0x000 => lo g.trapVec &&& ~~~7#32
  | 0x001 => hi g.trapVec
  | 0x002 => lo g.trapFrame
  | 0x003 => hi g.trapFrame
  | 0x004 => lo g.liveTab
  | 0x005 => hi g.liveTab
  | 0x008 => match ag with
    | .helper _ _ _ h => ((g.recruit.bind fun r => aget r.helpers h).map fun x => x.sticky.setWidth 32).getD 0#32
    | .frag _ _ _ _ | .seq _ _ => g.sticky.setWidth 32
  | 0x009 => groupStatus g (s.recOf k) (((s.teamOf? k).map (·.priv)).getD false)
  | 0x00A => (g.name.map (·.1)).getD 0#32
  | 0x100 => core.seedFor s.clock k g.part
  | 0x200 => BitVec.ofNat 32 s.dieMap.length
  | 0x201 => BitVec.ofNat 32 die.coreMap.length
  | 0x202 => BitVec.ofNat 32 die.pairs
  | 0x203 => core.split.setWidth 32
  | 0x204 => deviceId s.flash
  | 0x205 => sget 0#32 die.discards (s.ptagOf k).toNat
  | 0x314 => BitVec.ofNat 32 d
  | 0x315 => BitVec.ofNat 32 g.core
  | 0x316 => g.mapSel.setWidth 32
  | 0x317 => mapValue die g.mapSel.toNat
  | _ =>
    if 0x10 ≤ n && n ≤ 0x13 then s.loopCount ag (n - 0x10)
    else if 0x14 ≤ n && n ≤ 0x1B then (sget 0#16 g.ac (n - 0x14)).setWidth 32
    else if 0x20 ≤ n && n ≤ 0x37 then sget 0#32 g.hrecs (n - 0x20)
    else if 0x300 ≤ n && n ≤ 0x303 then mapWord s.flash.fuseDies (n - 0x300)
    else if 0x304 ≤ n && n ≤ 0x307 then mapWord s.exclNow (n - 0x304)
    else if 0x308 ≤ n && n ≤ 0x30B then mapWord (s.fusedCores d) (n - 0x308)
    else if 0x30C ≤ n && n ≤ 0x30F then mapWord die.retired (n - 0x30C)
    else if 0x310 ≤ n && n ≤ 0x313 then mapWord die.hold (n - 0x310)
    else 0#32

/-- An address register with its low or high half written; `low` bits read as zero (R73). -/
def putHalf (a : Addr) (hi : Bool) (low : Nat) (w : Word) : Addr :=
  if hi then (w.extractLsb' 0 16 ++ a.extractLsb' 0 32 : BitVec 48)
  else (a.extractLsb' 32 16 ++ ((w >>> low) <<< low) : BitVec 48)

/-- A status register written by its group (R73, R135). -/
def State.csrWrite (s : State) (ag : Agent) (g : Group) (n : Nat) (w : Word) : State :=
  let k := agKey ag
  let up := fun f => s.modGroup k f
  match n with
  | 0x000 => up fun g => { g with trapVec := putHalf g.trapVec false 3 w }
  | 0x001 => up fun g => { g with trapVec := putHalf g.trapVec true 3 w }
  | 0x002 => up fun g => { g with trapFrame := putHalf g.trapFrame false 6 w }
  | 0x003 => up fun g => { g with trapFrame := putHalf g.trapFrame true 6 w }
  | 0x004 => up fun g => { g with liveTab := putHalf g.liveTab false 4 w }
  | 0x005 => up fun g => { g with liveTab := putHalf g.liveTab true 4 w }
  | 0x008 => up fun g => { g with sticky := w.setWidth 6 }
  | 0x316 => up fun g => { g with mapSel := w.setWidth 7 }
  | 0x100 => s.modCore (keyDie k) g.core fun c =>
      { c.takeSeed s.clock g.part with
        seedWrites := aput c.seedWrites g.part { clock := s.clock, key := k, value := if w = 0#32 then 1#32 else w } }
  | _ => if 0x10 ≤ n && n ≤ 0x13 then s.setLoop ag (n - 0x10) w else s

/-- Whether the launch of an agent's group is privileged (R24). -/
def State.privileged (s : State) (ag : Agent) : Bool := ((s.teamOf? (agKey ag)).map (·.priv)).getD false

/-- CSRR (R72, R135). -/
def execCsrr (d : RegNo) (num : BitVec 12) (g : Guard) (s : State) : Host.Outcome State Fault Refusal :=
  let n := num.toNat
  let c := csrAccess n
  issueWith s { cls := 4, guard := g, dsts := [(d, 1)], illop := c == .none } fun s ag act =>
    if (c == .pv || c == .pw) && !s.privileged ag then s.raiseAt ag 34 Need.read.bits (BitVec.ofNat 48 n) act
    else
      match s.group? (agKey ag) with
      | none => s
      | some gr =>
        let w := s.csrRead ag gr n
        (s.wrLanes ag d.toNat ((lanesOf act).map fun l => (l, [w]))).advance ag

/-- CSRW (R72, R135). -/
def execCsrw (num : BitVec 12) (a : Src) (g : Guard) (s : State) : Host.Outcome State Fault Refusal :=
  let n := num.toNat
  let c := csrAccess n
  issueWith s { cls := 4, guard := g, srcs := [(a, 1)], hlp := false, lone := [0], illop := c == .none || c == .gr || c == .dr }
    fun s ag act =>
    if c == .pv || (c == .pw && !s.privileged ag) then s.raiseAt ag 34 Need.write.bits (BitVec.ofNat 48 n) act
    else
      match s.group? (agKey ag) with
      | none => s
      | some gr => (s.csrWrite ag gr n (s.vals ag [(a, 1)] 0 0 (lowLane act))).advance ag

/-- NOP (R76, R136). -/
def execNop (s : State) : Host.Outcome State Fault Refusal :=
  issueWith s { cls := 4, any := true, seq := true } fun s ag _ => s.advance ag

/-- A word whose opcode R87 does not assign (R85, R86): ILLOP at step 1. -/
def execUnassignedOpcode (_w : Code) (s : State) : Host.Outcome State Fault Refusal :=
  match s.cur with
  | none => .fault .noAgent
  | some ag =>
    match s.front? ag with
    | none => .fault .noAgent
    | some f => .next (s.raiseAt ag 2 1 0#48 f.mask)

/-- A fault at the start of a clause: it names the header (R74, R78). -/
def State.headerFault (s : State) (ag : Agent) (f : Fragment) (code detail : Nat) (addr : Addr) : State :=
  s.raise ag { code := code, detail := BitVec.ofNat 32 detail, addr := addr, lanes := f.mask, pc := f.clause }

/-- The async counters a header's wait mask names that are not zero (R74, R77). -/
def State.counterWait (s : State) (ag : Agent) (w : Code) : Bool :=
  match s.group? (agKey ag) with
  | none => false
  | some g => (List.range 8).any fun k => w.getLsbD (14 + k) && g.counter k != 0

/-- Whether a header is an illegal operation of the sequencer (R88, R398). -/
def seqHeaderBad (w : Code) : Bool :=
  badHeader w || bits w 21 14 != 0 || (bits w 59 57 != 0 && bits w 59 57 != 4 && bits w 59 57 != 5)

/-- Whether a fragment stops before a clause for a pre-emption: at a safe point, or at the 2^20-clock bound (R304). -/
def State.stopBefore (s : State) (ag : Agent) (w : Code) : Option Stopped :=
  match ag with
  | .frag _ _ _ _ =>
    if !s.preemptAsked (agKey ag) then none
    else if w.getLsbD 51 then some .safe
    else if ((s.group? (agKey ag)).map (·.bound)).getD false then some .other
    else none
  | .helper _ _ _ _ | .seq _ _ => none

/-- An agent at a clause header that may go on (R47, R293, R319) reads it and begins the clause, waits for its counters, or stops for a
pre-emption (R74, R77, R78, R304, R398). -/
def State.startClause (s : State) (ag : Agent) (f : Fragment) : State :=
  if f.hdr.isSome || !s.mayIssue ag f || s.agFetchBusy ag f.clause then s
  else match s.fetchWord (keyDie (agKey ag)) (s.ptagOf (agKey ag)) f.clause with
    | .inr e => (s.fetchMet (keyDie (agKey ag)) (s.ptagOf (agKey ag)) f.clause).headerFault ag f e.1 e.2 f.clause
    | .inl w =>
      let bad := !isHeader w || match ag with
        | .seq _ _ => seqHeaderBad w
        | .frag _ _ _ _ | .helper _ _ _ _ => badHeader w
      if bad then s.headerFault ag f 2 0 0#48
      else match s.stopBefore ag w with
        | some x => s.modFront ag fun f => { f with stopped := x, stall := .none }
        | none =>
          if s.counterWait ag w && !(match ag with
            | .seq _ _ => true
            | .frag _ _ _ _ | .helper _ _ _ _ => false) then s.stallAt ag .issue
          else s.modFront ag fun f => { f with hdr := some w, idx := 0, stall := .none }

/-- CLAUSE_START: an agent at a clause header begins the clause; helpers that stand at one header, those of a gang together (R317). -/
def execClauseStart (ag : Agent) (s : State) : Host.Outcome State Fault Refusal :=
  match s.front? ag with
  | none => .fault .noAgent
  | some f =>
    match ag with
    | .helper d n g h =>
      if f.hdr.isSome || !s.mayIssue ag f then .next s
      else .next ((s.gangMates (groupKey d n g) h f).foldl (fun s e => s.startClause (.helper d n g e.1) e.2.front) s)
    | .frag _ _ _ _ | .seq _ _ => .next (s.startClause ag f)

/-- Whether a request of a killed group that may open or move a reservation still awaits its answer (R272). -/
def State.resvPending (s : State) (k : Nat) : Bool :=
  s.pends.any fun e => e.2.key == k && (e.2.form == 0 || e.2.form == 1 || e.2.form == 3)

/-- GROUP_END: an ended group whose accesses are performed and whose counters are zero is released (R55). -/
def execGroupEnd (die slot g : Nat) (s : State) : Host.Outcome State Fault Refusal :=
  let k := groupKey die slot g
  match s.group? k with
  | none => .next s
  | some gr => if gr.ended && gr.ac = [] && !s.inFlight k && !s.resvPending k then .next (s.groupGone k) else .next s

/-- Whether a global load of a group is in flight to a register; a private load is not one (R48, R65; log 11). -/
def State.loadTo (s : State) (k : Nat) (g : Group) (r : Nat) : Bool :=
  s.flight.any fun e =>
    e.2.uid == g.uid && agKey e.2.ag == k && e.2.space == .glob && e.2.kind == .load && !e.2.chunked &&
    decide (e.2.dst ≤ r) && decide (r < e.2.dst + e.2.ndst)

/-- Whether a get sleeps: accepted, not served at once, and not answered yet (R48, R246, R247). -/
def State.getSleeps (s : State) (id : Nat) : Bool :=
  (aget s.answers id).isNone && ((aget s.msgs id).map (·.accepted)).getD false

/-- Whether a fragment waits on a long stall (R48). -/
def State.longStall (s : State) (k : Nat) (g : Group) (f : Fragment) : Bool :=
  (match f.wait with
    | .get id => s.getSleeps id
    | .bar _ _ => true
    | .run | .join | .answer _ | .hjoin => false) ||
  (match f.stall with
    | .armed _ | .armedDst | .barrier => true
    | .load r => s.loadTo k g r
    | .none | .issue => false)

/-- GROUP_EXCHANGE: a blocked group of the active set with a fragment on a long stall is exchanged with the oldest ready
group of the pending set (R48). -/
def execGroupExchange (die slot g : Nat) (s : State) : Host.Outcome State Fault Refusal :=
  let k := groupKey die slot g
  match s.group? k with
  | none => .next s
  | some gr =>
    if s.isActive k && !s.groupReady k && gr.frags.any fun e => s.longStall k gr e.2 then
      match s.oldestReady die gr.core gr.part with
      | some b => .next (s.exchange die gr.core gr.part k b)
      | none => .next s
    else .next s

/-- A pending group enters the active set where it has room (R50; log 11). -/
def State.enterActive (s : State) (k : Nat) (g : Group) : State :=
  (s.modCore (keyDie k) g.core fun c => (c.leave g.part k).join g.part k).modGroup k fun g => { g with readySince := none }

/-- PENDING_EXCHANGE: a pending group ready for 512 clocks is exchanged with the group that entered the active set earliest
(R49); it enters directly where the set has room. -/
def execPendingExchange (die slot g : Nat) (s : State) : Host.Outcome State Fault Refusal :=
  let k := groupKey die slot g
  match s.group? k with
  | none => .next s
  | some gr =>
    let c := s.core die gr.core
    let since := match gr.readySince with
      | some t => decide (t + Config.pendingClocks ≤ s.clock)
      | none => false
    if (partSet c.pending gr.part).contains k && s.groupReady k && since then
      match partSet c.active gr.part with
      | a :: t =>
        if t.length < 7 then .next (s.enterActive k gr) else .next (s.exchange die gr.core gr.part a k)
      | [] => .next (s.enterActive k gr)
    else .next s

end Sys2Proof.Machine
end

