-- ==== Sys2Proof/Machine/Engine.lean ====
section
/-! DEFINITION. The copy engine of a core: command records, their checks, transfers and finishes (R213 to R222, R396). -/

namespace Sys2Proof.Machine

/-- A command record's 512 bits (R213). -/
abbrev RecBits := BitVec 512

/-- KIND (R213). -/
def RecBits.kind (f : RecBits) : Nat := bits f 7 0
/-- SRC_LOCAL (R213). -/
def RecBits.srcLocal (f : RecBits) : Bool := f.getLsbD 11
/-- DST_LOCAL (R213). -/
def RecBits.dstLocal (f : RecBits) : Bool := f.getLsbD 12
/-- ROW_BYTES (R213). -/
def RecBits.rowBytes (f : RecBits) : Nat := bits f 287 256
/-- ROWS (R213). -/
def RecBits.rows (f : RecBits) : Nat := bits f 319 288
/-- SUCC0, SUCC1 and BARRIER (R213). -/
def RecBits.succs (f : RecBits) : List Nat := [bits f 63 32, bits f 95 64]
/-- BARRIER (R213). -/
def RecBits.barrier (f : RecBits) : Nat := bits f 127 96
/-- The base of SRC or DST: a local address, or a global one with bits 63:48 ignored. -/
def recBase (x : BitVec 64) (loc : Bool) : Int := if loc then (bits x 31 0 : Int) else (bits x 47 0 : Int)
/-- Row `r` of SRC or DST, computed exactly; a COPY ignores its strides (R214). -/
def RecBits.row (f : RecBits) (src : Bool) (r : Nat) : Int :=
  if src then recBase (f.extractLsb' 128 64) f.srcLocal + (if f.kind = 0 then 0 else r * (f.extractLsb' 320 64).toInt)
  else recBase (f.extractLsb' 192 64) f.dstLocal + (if f.kind = 0 then 0 else r * (f.extractLsb' 384 64).toInt)

/-- No link (R213). -/
def noLink : Nat := 0xFFFFFFFF

/-- A link address that passes: a successor record or a barrier object inside local memory, aligned (R218). -/
def linkOk (limit size a : Nat) : Bool := a == noLink || (a % size == 0 && decide (a + size ≤ limit))

/-- links_ok (R217). -/
def RecBits.linksOk (f : RecBits) (limit : Nat) : Bool := f.succs.all (linkOk limit 64) && linkOk limit 16 f.barrier

/-- Step 1 of R218: whether a record is malformed. -/
def RecBits.malformed (f : RecBits) (limit : Nat) (pair : Bool) : Bool :=
  decide (4 ≤ f.kind) || bits f 15 13 != 0 || bits f 511 480 != 0 ||
  (f.srcLocal && f.kind != 3 && bits f 191 160 != 0) || (f.dstLocal && bits f 255 224 != 0) ||
  (f.kind == 0 && f.rows != 1) || (f.kind == 3 && f.srcLocal) || (f.kind == 2 && (!f.dstLocal || !pair)) ||
  !f.linksOk limit

/-- The bytes a record counts (R214); a malformed kind has no count of its own, and the value is free (log 3). -/
def RecBits.count (f : RecBits) (t : Nat) : Nat :=
  (match f.kind with
    | 0 => f.rowBytes
    | 1 | 3 => f.rowBytes * f.rows
    | 2 => 2 * f.rowBytes * f.rows
    | _ => Config.freeNat t) % 2 ^ 32

/-- A byte's place: an exact local or global address. -/
structure Spot where
  loc  : Bool
  at_  : Int
  deriving DecidableEq, Repr

/-- One byte a record writes: where from, or the pattern byte of a FILL, and where to (R214). -/
structure Move where
  src  : Option Spot
  fill : Byte
  dst  : Spot
  deriving DecidableEq, Repr

/-- The moves of row `r` (R214); `h` is the lower half of a pair team's local memory. -/
def RecBits.rowMoves (f : RecBits) (h r : Nat) : List Move :=
  (List.range f.rowBytes).flatMap fun (i : Nat) =>
    let src := if f.kind = 3 then none else some { loc := f.srcLocal, at_ := f.row true r + (i : Int) : Spot }
    let m : Move := { src := src, fill := byteOf (bits f 191 128) (i % 8), dst := { loc := f.dstLocal, at_ := f.row false r + (i : Int) } }
    if f.kind = 2 then [m, { m with dst := { m.dst with at_ := m.dst.at_ + h } }] else [m]

/-- Every byte a record moves. -/
def RecBits.moves (f : RecBits) (h : Nat) : List Move := (List.range f.rows).flatMap (f.rowMoves h)

/-- Whether an exact address lies where its space has bytes (R214). -/
def Spot.inside (p : Spot) (limit : Nat) : Bool :=
  decide (0 ≤ p.at_) && decide (p.at_ < if p.loc then (limit : Int) else 2 ^ 48)

/-- Step 2 of R218. -/
def RecBits.rangeOk (f : RecBits) (limit h : Nat) : Bool :=
  (f.moves h).all fun m =>
    m.dst.inside limit && (m.src.map fun p => p.inside limit).getD true

/-- MCAST: each row's lower copy lies below H (R218). -/
def RecBits.lowerOk (f : RecBits) (h : Nat) : Bool :=
  f.kind != 2 || (List.range f.rows).all fun r => f.rowBytes == 0 || decide (f.row false r + f.rowBytes ≤ h)

/-- The place of a byte, or the STATUS code its page gives (R166, R215, R218). Where the walk meets an uncorrectable error, of which
the spec gives no STATUS, the code is MCHK, with the table's place (DESIGN CHOICE, log 21). -/
def State.place? (s : State) (d : Nat) (ptag : BitVec 12) (p : Spot) (n : Need) : Except (Nat × Option Nat) Place :=
  if p.loc then .ok { loc := true, addr := p.at_.toNat, cls := 0 }
  else match s.chkNow d ptag p.at_.toNat 1 n with
    | .ok a c => .ok { loc := false, addr := a, cls := c }
    | .bad 32 _ => .error (4, none)
    | .bad 33 _ => .error (5, none)
    | .bad _ _ => .error (6, none)
    | .mchk a => .error (7, some a)
    | .miss => .error (7, none)

/-- What a byte's place meets: of DIE and REPL pages at the home slice, of CORE pages through L1 (R176, R222). -/
def State.placeMeets (s : State) (d n c : Nat) (p : Place) : Meet :=
  if p.loc then ((s.team? d n).map fun t => t.meetLocal p.addr).getD .clean
  else if p.cls = 0 then s.meetStack d c p.addr
  else s.meetHome d p.addr

/-- Whether a read or a write of the engine at a place waits for a test or a repair; a write reaches the L1's copy too (R170, R383,
R386). -/
def State.placeBusy (s : State) (d n c : Nat) (wr : Bool) (p : Place) : Bool :=
  if p.loc then s.localBusy d n p.addr
  else if p.cls = 0 || wr then s.coreBusy d c p.addr (p.cls != 0)
  else s.stackBusy d p.addr

/-- An error that a place holds is met: its block is poisoned, and the error reported (R176). -/
def State.placeMet (s : State) (d n c : Nat) (p : Place) : State :=
  if s.placeMeets d n c p != .fresh then s
  else if p.loc then s.poisonLocal d n p.addr
  else if p.cls = 0 then s.poisonCore d c p.addr else s.poisonStack d p.addr

/-- A place's poison cleared by a write of its whole block; of a CORE page an L1 line in error goes, since every byte is written
anew (R176). -/
def State.placeClear (s : State) (d n c : Nat) (p : Place) : State :=
  if p.loc then s.clearLocal d n p.addr
  else
    let s := s.clearStack d p.addr
    if p.cls = 0 && s.l1Bad d c p.addr then s.modCore d c fun k => { k with l1 := adel k.l1 (p.addr / 64) } else s

/-- A clean L1 copy in error, of a CORE page that an engine reads or writes, is fetched again (R176). -/
def State.placeFresh (s : State) (d c : Nat) (p : Place) : State :=
  if p.loc || p.cls != 0 then s else s.l1Refetch d c p.addr

/-- The byte at a place as it stands. -/
def State.placeByte (s : State) (d n c : Nat) (p : Place) : Byte :=
  if p.loc then ((s.team? d n).map fun t => t.localByte p.addr).getD 0#8
  else if p.cls = 0 then BitVec.ofNat 8 (s.coreRead d c p.addr 1 0).2
  else s.stackByte d p.addr

/-- A byte written at a place (R222). -/
def State.placePut (s : State) (d n c : Nat) (p : Place) (b : Byte) : State :=
  if p.loc then s.modTeam d n fun t => t.localPoke p.addr [b] else s.coreWrite d c p.addr p.cls [b]

/-- Whether two places lie in one aligned unit of `n` bytes. -/
def Place.near (n : Nat) (p q : Place) : Bool := p.loc == q.loc && p.addr / n == q.addr / n

/-- What a record does to a byte, with the places checked and the source byte's value before the record (R214). -/
def State.moveAt (s : State) (d n c : Nat) (ptag : BitVec 12) (m : Move) : Except (Nat × Option Nat) EngMove :=
  match m.src with
  | none => (s.place? d ptag m.dst .write).map fun q => { src := none, byte := m.fill, dst := q }
  | some p =>
    match s.place? d ptag p .read with
    | .error c => .error c
    | .ok p => (s.place? d ptag m.dst .write).map fun q => { src := some p, byte := s.placeByte d n c p, dst := q }

/-- Step 3 of R218: the places of every byte, or the first page that fails, in row order and source first (log 21). -/
def State.placesOf (s : State) (d n c : Nat) (ptag : BitVec 12) : List Move → Except (Nat × Option Nat) (List EngMove)
  | [] => .ok []
  | m :: t =>
    match s.moveAt d n c ptag m with
    | .error e => .error e
    | .ok x => (State.placesOf s d n c ptag t).map fun l => x :: l

/-- Whether destinations name all 64 bytes of a place's block. -/
def coversPlace (dsts : List Place) (p : Place) : Bool :=
  (List.range 64).all fun i => dsts.any fun q => q.loc == p.loc && q.addr == p.addr / 64 * 64 + i

/-- A list with its elements in a freely chosen order. -/
def freeOrder {α : Type} (t : Nat) : Nat → List α → List α
  | 0, l => l
  | n + 1, l =>
    let i := Config.freeNat t % max 1 l.length
    match l[i]? with
    | none => l
    | some x => x :: freeOrder (t + 1) n (l.eraseIdx i)

/-- Moves whose bytes overlap: a destination that is a source, or named twice (R214). -/
def overlaps (l : List EngMove) : Bool :=
  let dsts := l.map (·.dst)
  l.any fun x => (x.src.map fun p => dsts.contains p).getD false || (dsts.filter (· == x.dst)).length > 1

/-- The byte a move writes: what stands at its source, or, where the record's bytes overlap, freely that or the value before the
record (R214). -/
def State.moveByte (s : State) (d n c : Nat) (ov : Bool) (x : EngMove) (t : Nat) : Byte :=
  match x.src with
  | some p => if ov && Config.freeNat t % 2 = 0 then x.byte else s.placeByte d n c p
  | none => x.byte

/-- What moves to local memory replace is remembered before any of them is made (R354). -/
def State.rememberMoves (s : State) (d n : Nat) (l : List EngMove) : State :=
  s.modTeam d n fun t => l.foldl (fun u x => if x.dst.loc then { u with seq := u.remember x.dst.addr 1 } else u) t

/-- Moves made together: every source byte is read, then every destination byte written (R178, R214). -/
def State.putMoves (s : State) (d n c : Nat) (ov : Bool) (l : List EngMove) : State :=
  let vals := (l.zip (List.range l.length)).map fun x => (x.1.dst, s.moveByte d n c ov x.1 (s.tick + x.2))
  vals.foldl (fun s x => s.placePut d n c x.1 x.2) { s.rememberMoves d n l with tick := s.tick + l.length }

/-- The moves that are made together with move `m`, one for each destination byte: those into its aligned 8 bytes, or into its
whole block where that is in error or poisoned and what is left of the record covers it (R176, R178). -/
def State.moveSet (s : State) (d n c : Nat) (todo : List EngMove) (m : EngMove) : List EngMove :=
  let hard := s.placeMeets d n c m.dst != .clean && coversPlace (todo.map (·.dst)) m.dst
  let near := todo.filter fun x => x.dst != m.dst && x.dst.near (if hard then 64 else 8) m.dst
  m :: near.foldl (fun l x => if l.any fun y => y.dst == x.dst then l else l ++ [x]) []

/-- Moves taken out of what is left. -/
def dropMoves (todo sel : List EngMove) : List EngMove := sel.foldl List.erase todo

/-- Bytes of a running record are moved (R178, R214, R217, R383): those of one aligned 8 bytes of its destination at once. Where a
source or the destination meets an error or poison, none of them moves, and the record finishes MCHK (R215). -/
def State.transfer (s : State) (d n c : Nat) (r : RunRec) (i : Nat) : State × RunRec :=
  match r.todo[i]? with
  | none => (s, r)
  | some m =>
    let sel := s.moveSet d n c r.todo m
    let srcs := sel.filterMap (·.src)
    if srcs.any (s.placeBusy d n c false) || (sel.map (·.dst)).any (s.placeBusy d n c true) then (s, r)
    else
      let s := (srcs ++ sel.map (·.dst)).foldl (fun s p => s.placeFresh d c p) s
      let hard := s.placeMeets d n c m.dst != .clean
      let whole := coversPlace (sel.map (·.dst)) m.dst
      if srcs.any (fun p => s.placeMeets d n c p != .clean) || (hard && !whole) then
        let met := if hard && !whole then srcs ++ [m.dst] else srcs
        (met.foldl (fun s p => s.placeMet d n c p) s, { r with result := 7 })
      else
        let s := if hard then s.placeClear d n c m.dst else s
        (s.putMoves d n c r.overlap sel, { r with todo := dropMoves r.todo sel })

/-- The team's local size and lower half, whether it is a pair team, and its process, for a submission. -/
def State.subTeam (s : State) (u : Submission) : Nat × Nat × Bool × BitVec 12 :=
  let k := groupKey u.die u.slot u.g
  let r := s.recOf k
  (recL r, halfOf (recL r), recPair r, s.ptagOf k)

/-- The spots of the moves that lie in global memory. -/
def globSpots (l : List Move) : List Nat :=
  l.flatMap fun m => ((m.src.toList ++ [m.dst]).filter fun p => !p.loc).map fun p => p.at_.toNat

/-- Whether step 3 of R218 waits, for a record that comes to it: for a test or a repair of a table that the walk of one of its pages
reads (R383, R386). -/
def State.pagesBusy (s : State) (u : Submission) (f : RecBits) : Bool :=
  let t := s.subTeam u
  bits f 479 448 != 2 && !f.malformed t.1 t.2.2.1 && f.rangeOk t.1 t.2.1 && f.lowerOk t.2.1 &&
    (globSpots (f.moves t.2.1)).any fun a => s.xlateBusy u.die t.2.2.2 a

/-- A started record (R217, R218): its STATUS so far, and the bytes it has to move; its acquire is made. -/
def State.runRecord (s : State) (c rec_ : Nat) (u : Submission) (f : RecBits) : State × RunRec :=
  let t := s.subTeam u
  let fails := fun (code : Nat) => ({ addr := rec_, fields := f, result := code } : RunRec)
  if bits f 479 448 = 2 then (s, fails (if f.linksOk t.1 then 2 else 3))
  else if f.malformed t.1 t.2.2.1 then (s, fails 3)
  else if !(f.rangeOk t.1 t.2.1 && f.lowerOk t.2.1) then (s, fails 6)
  else match s.placesOf u.die u.slot c t.2.2.2 (f.moves t.2.1) with
    | .error e => ((e.2.map fun a => s.metHome u.die a).getD s, fails e.1)
    | .ok l =>
      let wide := f.getLsbD 10 || t.2.2.1
      (if f.getLsbD 8 && wide then s.l1Inval u.die c (· != 0) else s, { fails 1 with
          todo := l, overlap := overlaps l
          pages := (globSpots (f.moves t.2.1)).foldl (fun b a => nsInsert b (pageKey t.2.2.2 a)) [] })

/-- A RECORD notice that names the submitting group (R218, R396). -/
def State.recordNotice (s : State) (u : Submission) (rec_ cause detail : Nat) : State :=
  let k := groupKey u.die u.slot u.g
  s.notice u.die (s.ptagOf k) (s.groupNotice k { code := 66, cause := cause, source := 2, addr := rec_, detail := detail })

/-- A local write of the engine; one that is not performed sends a RECORD notice (R396). -/
def State.engineSet (s : State) (u : Submission) (rec_ a : Nat) (l : List Byte) : State × Bool :=
  match s.localSet u.die u.slot a l with
  | (s, true) => (s, true)
  | (s, false) => (s.recordNotice u rec_ 7 a, false)

/-- A submission of a core changed. -/
def State.modSub (s : State) (d c sub : Nat) (f : Submission → Submission) : State :=
  s.modCore d c fun y => { y with subs := amod y.subs sub f }

/-- A successor's decrement, with ABANDONED written first when the record did not finish DONE; one that reaches 0 starts,
unless its team has been killed (R217, R219, R221). -/
def State.decrement (s : State) (c sub : Nat) (u : Submission) (rec_ res a : Nat) : State :=
  let s := if res = 1 then s else (s.engineSet u rec_ (a + 56) (bytesOf 4 2)).1
  match s.localGet u.die u.slot (a + 2) 2 with
  | (s, none) => s.recordNotice u rec_ 7 (a + 2)
  | (s, some v) =>
    let n := (v + 65535) % 65536
    let r := s.engineSet u rec_ (a + 2) (bytesOf 2 n)
    let killed := ((r.1.team? u.die u.slot).map (·.killed)).getD true
    if r.2 && n = 0 && !killed then r.1.modSub u.die c sub fun x => { x with ready := x.ready ++ [(a, false)] } else r.1

/-- A submission with no record left completes: the engine lowers aK (R221), after the last arrival and not in one step with it
(log 2). -/
def State.subSettle (s : State) (d c sub : Nat) : State :=
  match aget (s.core d c).subs sub with
  | none => s
  | some u =>
    if u.ready.isEmpty && u.running.isEmpty then
      let s := s.modCore d c fun y => { y with subs := adel y.subs sub }
      let k := groupKey u.die u.slot u.g
      (s.modGroup k fun g => if g.uid = u.uid then g.lower u.k else g).wake k
    else s

/-- finish(rec, f, c) (R217): STATUS, the successors, the arrival; a failed record's notice (R218). -/
def State.finishRecord (s : State) (c sub rec_ : Nat) (u : Submission) (f : RecBits) (res : Nat) : State :=
  let t := s.subTeam u
  let s := if res = 1 || res = 2 then s else s.recordNotice u rec_ res 0
  let s := (s.engineSet u rec_ (rec_ + 56) (bytesOf 4 res)).1
  let s := (f.succs.filter fun a => a != noLink && linkOk t.1 64 a).foldl (fun s a => s.decrement c sub u rec_ res a) s
  let s :=
    if f.barrier = noLink || !linkOk t.1 16 f.barrier then s
    else match s.arriveAt u.die u.slot f.barrier (f.count s.tick) (res != 1) with
      | (s, true) => s
      | (s, false) => s.recordNotice u rec_ 7 f.barrier
  s.draw

/-- Every submission of the panel with no record left completes (R221). -/
def State.settleSubs (s : State) : State :=
  s.cores.foldl (fun s e =>
    e.2.subs.foldl (fun s x => s.subSettle (e.1 / Config.nCores) (e.1 % Config.nCores) x.1) s) s

/-- Records the engine of a core runs (R220). -/
def Core.runningCount (c : Core) : Nat := (c.subs.map fun e => e.2.running.length).sum

/-- The fields of a record without links, for one whose block cannot be read (log 21). -/
def noFields : RecBits := BitVec.ofNat 512 ((2 ^ 96 - 1) * 2 ^ 32)

/-- A record begins to run. -/
def State.addRunning (s : State) (d c sub : Nat) (r : RunRec) : State :=
  s.modSub d c sub fun x => { x with running := aput x.running x.nextRec r, nextRec := x.nextRec + 1 }

/-- RECORD_START (R217, R218, R220): the engine reads a ready record and checks it; its bytes move from then on, each aligned 8 of
them on a turn of its own (R178). A root whose PRED_COUNT is not zero finishes at once (R216). -/
def execRecordStart (die core sub rec : Nat) (s : State) : Host.Outcome State Fault Refusal :=
  match aget (s.core die core).subs sub with
  | none => .next s
  | some u =>
    match u.ready.find? fun e => e.1 == rec with
    | none => .next s
    | some e =>
      if 4 ≤ (s.core die core).runningCount || ((s.team? die u.slot).map (·.killed)).getD true || s.localBusy die u.slot rec ||
          s.pagesBusy u (BitVec.ofNat 512 (((s.team? die u.slot).map fun t => t.localRead rec 64).getD 0)) then
        .next s
      else
        let s := s.modSub die core sub fun x => { x with ready := x.ready.erase e }
        match s.localGet die u.slot rec 64 with
        | (s, none) => .next (s.addRunning die core sub { addr := rec, fields := noFields, result := 7 })
        | (s, some v) =>
          let f := BitVec.ofNat 512 v
          if e.2 && bits f 31 16 != 0 then .next (s.finishRecord core sub rec u f 3)
          else
            let r := s.runRecord core rec u f
            .next (r.1.addRunning die core sub r.2)

/-- A turn of the copy engine: bytes of a running record move (R214, R220). -/
def State.engineTurn (s : State) (die core sub rec i : Nat) : State :=
  match aget (s.core die core).subs sub with
  | none => s
  | some u =>
    match aget u.running rec with
    | none => s
    | some r =>
      let x := s.transfer die u.slot core r i
      x.1.modSub die core sub fun u => { u with running := aput u.running rec x.2 }

/-- Whether the finish of a record waits for a test of a row it writes (R383). -/
def State.finishBusy (s : State) (u : Submission) (r : RunRec) : Bool :=
  (r.addr :: RecBits.barrier r.fields :: RecBits.succs r.fields).any fun a => a != noLink && s.localBusy u.die u.slot a

/-- RECORD_FINISH (R217, R219, R221): a running record of a submission finishes, once its bytes have moved or it has failed. -/
def execRecordFinish (die core sub rec : Nat) (s : State) : Host.Outcome State Fault Refusal :=
  match aget (s.core die core).subs sub with
  | none => .next s
  | some u =>
    match aget u.running rec with
    | none => .next s
    | some r =>
      if (r.result = 1 && !r.todo.isEmpty) || s.finishBusy u r then .next s
      else
        let s := s.modSub die core sub fun x => { x with running := adel x.running rec }
        .next (s.finishRecord core sub r.addr u r.fields r.result)

end Sys2Proof.Machine
end

