-- ==== Sys2Proof/Machine/Helpers.lean ====
section
/-! DEFINITION. Helper recruitment: RECRUIT, HNEXT, HQUIT and HJOIN, the completion of a join and the timeout of an iteration
(R316 to R328). -/

namespace Sys2Proof.Machine

/-- The identity of a join operation (R323). -/
def JoinOp.identity : JoinOp → Word
  | .none | .add | .umax | .or => 0#32
  | .fadd => 0x80000000#32
  | .min => 0x7FFFFFFF#32
  | .max => 0x80000000#32
  | .umin | .and => 0xFFFFFFFF#32
  | .fmin => 0x7F800000#32
  | .fmax => 0xFF800000#32

/-- A join operation (R323). -/
def JoinOp.apply (o : JoinOp) (x y : Word) : Word :=
  match o with
  | .none => x
  | .add => x + y
  | .fadd => BitVec.ofNat 32 (f32.add .rne x.toNat y.toNat).1
  | .min => if x.toInt ≤ y.toInt then x else y
  | .max => if y.toInt ≤ x.toInt then x else y
  | .umin => if x.toNat ≤ y.toNat then x else y
  | .umax => if y.toNat ≤ x.toNat then x else y
  | .fmin => fminmax false x y
  | .fmax => fminmax true x y
  | .or => x ||| y
  | .and => x &&& y

/-- Helper slices of a core in use, by bank and slice: a slice frees once all its helpers have retired (R316, R322). -/
def State.slicesUsed (s : State) (d c : Nat) : List (Nat × Nat) :=
  s.groups.flatMap fun e =>
    if keyDie e.1 = d && e.2.core = c then
      ((e.2.recruit.map (·.helpers)).getD []).filterMap fun h => if h.2.life = .retired then none else some (h.2.bank, h.2.slice)
    else []

/-- Free helper slices in the order a recruitment from partition `p` takes them (R316). -/
def State.slicesFree (s : State) (d c p : Nat) : List (Nat × Nat) :=
  let used := s.slicesUsed d c
  ((List.range 6).flatMap fun i => (List.range 16).map fun j => ((p + i) % 6, j)).filter fun x => !used.contains x

/-- Whether an instruction has a further one in its clause. -/
def Fragment.hasNext (f : Fragment) : Bool := (f.hdr.map fun h => decide (f.idx < bits h 56 53)).getD false

/-- The A operand of the HJOIN that follows an instruction in its clause, if one does (R318). A next word that cannot be read, because
of an error, is none (log 74). -/
def State.hjoinNext (s : State) (ag : Agent) (f : Fragment) : Option Src :=
  if !f.hasNext then none
  else match s.fetchWord (keyDie (agKey ag)) (s.ptagOf (agKey ag)) (f.pc + 8#48) with
    | .inr _ => none
    | .inl w =>
      match decode w with
      | .ok (.hjoin _ a) => some a
      | _ => none

/-- Helper `h` at the start of its recruitment (R318, R320). -/
def newHelper (op : JoinOp) (entry : Addr) (f : Fragment) (iter : BitVec 28) (now : Nat) (at_ : Nat × Nat) : Helper :=
  { v := sset 0#32 [] 0 (JoinOp.identity op)
    front := { clause := entry, mask := f.mask, fenceAll := f.fenceAll, fenceRd := f.fenceRd, fenceInv := f.fenceInv, past := f.past }
    iter := iter, dealt := now, ckpt := JoinOp.identity op, bank := at_.1, slice := at_.2 }

/-- Whether a register of the group is EMPTY because of an in-flight write of its own, e14 and e15 included (R318); one that an
MCHK has left EMPTY awaits no write (R293). -/
def Group.writesOut (g : Group) : Bool :=
  !g.wq.isEmpty || g.tags.any fun e => e.2.empty && e.2.arm == 0#64 && !g.mchk.any fun m => m.reg == e.1

/-- RECRUIT once its checks have passed (R318). -/
def State.doRecruit (s : State) (ag : Agent) (f : Fragment) (g : Group) (e : Nat) (d : RegNo) (op : JoinOp) (lo hi : BitVec 28)
    (most : Nat) (entry : Addr) : State :=
  let key := agKey ag
  let lane := lowLane f.mask
  let free := s.slicesFree (keyDie key) g.core g.part
  let drain := s.preemptAsked key || ((s.teamOf? key).map (·.killed)).getD false
  let n := if hi.toNat ≤ lo.toNat || drain then 0 else min most (min (hi.toNat - lo.toNat) (4 * free.length))
  let status := if hi.toNat ≤ lo.toNat then 3 else if drain then 2 else if n = 0 then 1 else 0
  let hs := (List.range n).map fun h =>
    (h, newHelper op entry f (lo + BitVec.ofNat 28 h) s.clock ((free[h / 4]?).getD (0, 0)))
  let r : Recruit :=
    { op := op, lo := lo, hi := hi, next := lo + BitVec.ofNat 28 n, dealing := decide (0 < n), g := n, entry := e, lane := lane,
      target := entry, helpers := hs, dst := d.toNat, since := some s.clock }
  let s := s.wrReg ag d.toNat lane (BitVec.ofNat 32 (status * 2 ^ 28 + n))
  (s.modGroup key fun g => { g with hrecs := [], recruit := some r }).advance ag

/-- RECRUIT (R318, R319): its guard field and its operation code are checked after the nesting check. -/
def execRecruit (d : RegNo) (a b c : Src) (op : BitVec 4) (g : Guard) (s : State) : Host.Outcome State Fault Refusal :=
  let sp : Spec := { cls := 3, srcs := [(a, 2), (b, 2), (c, 1)], dsts := [(d, 1)] }
  issueWith s sp fun s ag act =>
    let x := s.vals ag sp.srcs
    match ag, s.front? ag, s.group? (agKey ag) with
    | .frag _ _ _ e, some f, some gr =>
      let l := lowLane f.mask
      let entry := addrOfPair (x 1 1 l) (x 1 0 l)
      if f.hasNext && s.agFetchBusy ag (f.pc + 8#48) then s.stallAt ag .issue
      else match s.hjoinNext ag f, JoinOp.ofCode op with
      | none, _ => (if f.hasNext then s.fetchMet (keyDie (agKey ag)) (s.ptagOf (agKey ag)) (f.pc + 8#48) else s).illop ag act
      | _, none => s.illop ag act
      | some j, some op =>
        if g.g ≠ 0#4 || g.neg then s.illop ag act
        else if popMask f.mask ≠ 1 then s.raiseAt ag 9 0 0#48 f.mask
        else if bits (x 2 0 l) 5 0 = 0 then s.illop ag act
        else if s.agFetchBusy ag entry then s.stallAt ag .issue
        else if !s.landingAt (keyDie (agKey ag)) (s.ptagOf (agKey ag)) entry then s.raiseFetch ag (6, 0) entry act
        else if gr.writesOut then s.stallAt ag .issue
        else if j.r.toNat < 640 && ((s.rdTag ag j.r.toNat).empty || (s.rdTag ag j.r.toNat).arm != 0#64) then s.waitAt ag (.armed [j.r.toNat]) true
        else s.doRecruit ag f gr e d op ((x 0 0 l).setWidth 28) ((x 0 1 l).setWidth 28) (bits (x 2 0 l) 5 0) entry
    | .helper _ _ _ _, some f, _ => s.raiseAt ag 10 0 0#48 f.mask
    | _, _, _ => s.advance ag

/-- A pre-emption requested in the clock of a RECRUIT (R329): it is answered DRAINING, with no helpers. -/
def State.unrecruit (s : State) (k : Nat) : State :=
  match (s.group? k).bind (·.recruit) with
  | none => s
  | some r =>
    if r.since = some s.clock && decide (r.lo.toNat < r.hi.toNat) then
      (s.modRecruit k fun r => { r with helpers := [], g := 0, dealing := false, next := r.lo }).wrReg
        (.frag (keyDie k) (keySlot k) (keyG k) r.entry) r.dst r.lane (BitVec.ofNat 32 (2 * 2 ^ 28))
    else s.modRecruit k fun r => { r with dealing := false }

/-- The lowest iteration that overran, with one more (R324). -/
def lowIter (t : Option (BitVec 28)) (i : BitVec 28) : Option (BitVec 28) :=
  match t with
  | some j => if j.toNat ≤ i.toNat then some j else some i
  | none => some i

/-- An overrun iteration: the helper stops, dealing stops and a record with CODE 14 is written, of the clock at which it overran (R326,
R328). -/
def State.timeOut (s : State) (k h : Nat) : State :=
  match s.helper? k h with
  | none => s
  | some x =>
    if x.life = .running && x.late s.clock then
      let s := s.helperRecord k h (x.dealt + Config.iterationClocks) x.iter { code := 14, pc := x.front.pc, detail := x.iter.setWidth 32 }
      (s.modRecruit k fun r => { r with timeout := lowIter r.timeout x.iter, dealing := false }).helperLeaves k h .stopped
    else s

/-- The helpers of a group. -/
def State.helpersOf (s : State) (k : Nat) : List (Nat × Helper) := (((s.group? k).bind (·.recruit)).map (·.helpers)).getD []

/-- A helper put among others in the order in which their iterations were dealt. -/
def byDealt (h : Nat × Helper) : List (Nat × Helper) → List (Nat × Helper)
  | [] => [h]
  | x :: t => if h.2.dealt < x.2.dealt then h :: x :: t else x :: byDealt h t

/-- Every overrun iteration of the panel stops: of a group in the order in which they overran (R326, R328). -/
def State.timeOuts (s : State) : State :=
  s.groups.foldl (fun s e => ((s.helpersOf e.1).foldl (fun l h => byDealt h l) []).foldl (fun s h => s.timeOut e.1 h.1) s) s

/-- A helper at the start of its next iteration (R322): the accesses of its earlier ones do not stand before it in program order; those
the recruiter made before the RECRUIT do (R185). -/
def Fragment.nextIter (f recruiter : Fragment) (target : Addr) : Fragment :=
  { f.goto target with
    past := recruiter.past, fenceAll := recruiter.fenceAll, fenceRd := recruiter.fenceRd,
    fenceInv := f.fenceInv || recruiter.fenceInv }

/-- HNEXT and HQUIT complete an iteration (R322): v0 is the checkpoint; the helper takes the next iteration or retires. R322 names no
wait where v0 awaits a load: the value that stands in it is recorded (DESIGN CHOICE, log 62). -/
def State.iterationEnds (s : State) (k h : Nat) (again : Bool) : State :=
  let s := s.modHelper k h fun x => { x with ckpt := sget 0#32 x.v 0 }
  let rec? := (s.group? k).bind fun g => g.recruit.map fun r => (r, ((aget g.frags r.entry).getD { clause := r.target, mask := 0#64 }))
  match rec? with
  | none => s
  | some (r, fr) =>
    if again && r.dealing && decide (r.next.toNat < r.hi.toNat) then
      (s.modRecruit k fun r => { r with next := r.next + 1#28 }).modHelper k h fun x =>
        { x with iter := r.next, dealt := s.clock, front := x.front.nextIter fr r.target }
    else s.helperLeaves k h .retired

/-- HNEXT or HQUIT reached by a helper: after the iteration's 65,536 clocks (R326), with a v0 in error, which is a helper fault (R327,
R382), or in time. -/
def State.reached (s : State) (ag : Agent) (h : Nat) (again : Bool) : State :=
  let k := agKey ag
  match aget (s.helpersOf k) h with
  | none => s
  | some x =>
    if x.late s.clock then s.timeOut k h
    else if (s.rdTag ag 0).poison ≠ 0#64 then
      (s.meetReg ag 0 x.front.mask).helperFault k h { code := 36, lanes := x.front.mask, pc := x.front.pc }
    else s.iterationEnds k h again

/-- The issue of HNEXT and HQUIT: a transfer instruction of a helper. -/
def helperSpec (g : Guard) : Spec := { cls := 4, transfer := true, guard := g, grp := false }

/-- HNEXT (R322). -/
def execHnext (g : Guard) (s : State) : Host.Outcome State Fault Refusal :=
  issueWith s (helperSpec g) fun s ag _ =>
    match ag with
    | .helper _ _ _ h => s.reached ag h true
    | .frag _ _ _ _ | .seq _ _ => s.advance ag

/-- HQUIT (R322). -/
def execHquit (g : Guard) (s : State) : Host.Outcome State Fault Refusal :=
  issueWith s (helperSpec g) fun s ag _ =>
    match ag with
    | .helper _ _ _ h => s.reached ag h false
    | .frag _ _ _ _ | .seq _ _ => s.advance ag

/-- HJOIN (R323): A is read, the pair D is EMPTY, and the fragment is held until the helpers are done. R323 and R382 do not say what
becomes of the recruitment where A holds an error: HJOIN holds its fragment all the same, and MCHK follows (DESIGN CHOICE,
log 62). Where HJOIN raises ILLOP as it issues, R319 leaves open what becomes of the recruitment: it stays open, its helpers run, and the
handler's code in the same entry issues (log 80). -/
def execHjoin (d : RegNo) (a : Src) (s : State) : Host.Outcome State Fault Refusal :=
  let sp : Spec := { cls := 3, srcs := [(a, 1)], dsts := [(d, 2)], hlp := false, ownErr := true }
  issueWith s sp fun s ag act =>
    match ag, s.front? ag, (s.group? (agKey ag)).bind (·.recruit) with
    | .frag _ _ _ e, some f, some r =>
      if r.entry ≠ e then s.illop ag act
      else
        let v := s.vals ag sp.srcs 0 0 r.lane
        let bad := decide (a.r.toNat < 640) && (s.rdTag ag a.r.toNat).poison &&& act != 0#64
        let s := (if bad then s.meetReg ag a.r.toNat act else s).setEmpty ag d.toNat true 2
        (s.modRecruit (agKey ag) fun r => { r with hjoin := some (d, v, f.pc), hjoinBad := bad }).modFront ag fun f =>
          { f with wait := .hjoin, stall := .none }
    | _, _, _ => s.illop ag act

/-- The status bits of HJOIN (R324). -/
def Recruit.status (r : Recruit) : Nat :=
  (if r.next.toNat < r.hi.toNat then 1 else 0) + (if r.recs.isEmpty then 0 else 2) + (if r.timeout.isSome then 4 else 0) +
  (if r.exceeded then 8 else 0)

/-- The fault HJOIN raises, with its DETAIL (R324). -/
def Recruit.failure (r : Recruit) : Option (Nat × Nat) :=
  if r.exceeded then some (13, 4)
  else match r.timeout with
    | some i => some (14, i.toNat)
    | none => if r.recs.isEmpty then none else some (12, r.recs.length)

/-- Whether a join's order can be seen in its result (R323). -/
def JoinOp.ordered : JoinOp → Bool
  | .fadd | .fmin | .fmax => true
  | .none | .add | .min | .max | .umin | .umax | .or | .and => false

/-- The value of a join: the checkpoints combined in an unspecified order (R323). -/
def Recruit.total (r : Recruit) (a : Word) (t : Nat) : Word :=
  let cs := r.helpers.map fun h => h.2.ckpt
  (if JoinOp.ordered r.op then freeOrder t cs.length cs else cs).foldl (JoinOp.apply r.op) a

/-- Whether an agent is a helper of a group. -/
def isHelperOf (k : Nat) (ag : Agent) : Bool :=
  match ag with
  | .helper _ _ _ _ => agKey ag == k
  | .frag _ _ _ _ | .seq _ _ => false

/-- Whether every helper of a group has retired or stopped and its accesses are performed (R323). -/
def State.helpersDone (s : State) (k : Nat) (g : Group) (r : Recruit) : Bool :=
  r.helpers.all (fun h => h.2.life != .running) &&
  !(s.flight.any fun e => isHelperOf k e.2.ag && e.2.uid == g.uid)

/-- The fusion that the completion of HJOIN is (R185): every access of every helper comes before what the recruiter does next, and the
recruiter runs again. -/
def State.joinHelpers (s : State) (k : Nat) (ag : Agent) (inv : Bool) : State :=
  let now := s.fresh
  let wide := inv || s.pairOf k
  ((s.modGroup k fun g => { g with recruit := none }).modFront ag fun f =>
    { f with wait := .run, fenceAll := now, fenceInv := f.fenceInv || wide })

/-- HJOIN_COMPLETE (R323, R324, R185). Where A held an error, the pair D stays EMPTY and MCHK is charged (R382, log 62). -/
def execHjoinComplete (die slot g : Nat) (s : State) : Host.Outcome State Fault Refusal :=
  let k := groupKey die slot g
  match s.group? k with
  | none => .next s
  | some gr =>
    match gr.recruit with
    | none => .next s
    | some r =>
      match r.hjoin with
      | none => .next s
      | some (d, a, pc) =>
        if !s.helpersDone k gr r || s.regsBusy (.frag die slot g r.entry) d.toNat 2 then .next s
        else
          let ag : Agent := .frag die slot g r.entry
          let inv := r.helpers.any fun h => h.2.front.fenceInv
          let s := { s with pends := s.pends.filter fun e => !isHelperOf k e.2.ag }
          if r.hjoinBad then
            let s := ((s.joinHelpers k ag inv).emptyDsts ag [d.toNat, d.toNat + 1] (laneBit r.lane)).advance ag
            .next ((s.raise ag { code := 36, pc := pc, lanes := laneBit r.lane }).wake k)
          else
            let w := [r.total a s.tick, BitVec.ofNat 32 (r.status * 2 ^ 28 + r.next.toNat)]
            let s := { s with tick := s.tick + r.helpers.length }.wrWords ag d.toNat r.lane w
            let s := (s.setEmpty ag d.toNat false 2).joinHelpers k ag inv
            match r.failure with
            | none => .next ((s.advance ag).wake k)
            | some (c, dt) =>
              .next ((s.raise ag { code := c, detail := BitVec.ofNat 32 dt, pc := pc, lanes := laneBit r.lane }).wake k)

/-- HELPER_ITERATION_TIMEOUT: an iteration that has not reached HNEXT or HQUIT within 65,536 clocks (R326). -/
def execHelperIterationTimeout (die slot g h : Nat) (s : State) : Host.Outcome State Fault Refusal :=
  .next (s.timeOut (groupKey die slot g) h)

end Sys2Proof.Machine
end

