-- ==== Sys2Proof/Machine/Matrix.lean ====
section
/-! DEFINITION. The matrix system: the tun (R333, R348), the group-side instructions (R344 to R347), MMA and its steps (R332,
R334 to R337, R349 to R354, R108 to R110), and the other sequencer instructions (R355 to R359, R112). -/

namespace Sys2Proof.Machine

/-- Whether the agent about to issue belongs to a matrix team (R29). -/
def State.curMatrix (s : State) : Bool :=
  ((s.cur.bind fun ag => s.teamOf? (agKey ag)).bind (·.seq)).isSome

/-- The pair row and word of element (m, n) of the tile at base `c` (R333). -/
def tilePlace (c m n : Nat) : Nat × Nat :=
  if m < 32 then (c + 4 * m + n / 16, n % 16) else (1024 + c + 4 * (m - 32) + n / 16, n % 16)

/-- The elements of a tile in row order. -/
def tileElems : List (Nat × Nat) := (List.range 64).flatMap fun m => (List.range 64).map fun n => (m, n)

/-- The pair rows of a tile (R333). -/
def tileRows (c : Nat) : List Nat := (List.range 128).map (c + ·) ++ (List.range 128).map (1024 + c + ·)

/-- A tile written whole, its rows' poison cleared. -/
def State.tilePut (s : State) (d : Nat) (t : Team) (c : Nat) (ws : List Word) : State :=
  let s := (tileElems.zip ws).foldl (fun s x =>
    let p := tilePlace c x.1.1 x.1.2
    s.tunPut d t p.1 p.2 x.2) s
  (tileRows c).foldl (fun s r => s.tunClear d t r) s

/-- A group's tun window: base and limit (R344). -/
def Team.window (t : Team) (g : Nat) : Nat × Nat := agetD t.windows g (0, 0)

/-- The issue of a group-side matrix instruction: its first source, a row or a window, is read once for the group (R345, R347;
log 70). -/
def mtxSpec (s : State) (g : Guard) (srcs : List (Src × Nat)) (dsts : List (RegNo × Nat)) (illop : Bool) : Spec :=
  { cls := 5, guard := g, srcs := srcs, dsts := dsts, hlp := false, illop := !s.curMatrix || illop, lone := [0] }

/-- MWIN (R345). -/
def execMwin (a b : Src) (g : Guard) (s : State) : Host.Outcome State Fault Refusal :=
  let sp := { mtxSpec s g [(a, 1), (b, 1)] [] false with lone := [0, 1] }
  issueWith s sp fun s ag act =>
    let x := s.vals ag sp.srcs
    let l := lowLane act
    let key := agKey ag
    let tgt := bits (x 0 0 l) 3 0
    let base := bits (x 1 0 l) 15 0
    let limit := bits (x 1 0 l) 31 16
    if keyG key ≠ 0 || recGroups (s.recOf key) ≤ tgt || limit < base || 2048 < limit then s.illop ag act
    else (s.modTeam (keyDie key) (keySlot key) fun t => { t with windows := aput t.windows tgt (base, limit) }).advance ag

/-- `n` consecutive registers, each an operand of its own: no alignment applies (R346, R347). -/
def regRun (r : RegNo) (n : Nat) : List RegNo := (List.range n).map fun i => r + BitVec.ofNat 10 i

/-- Whether vD to v(D + N − 1) are v registers of the group. -/
def runOk (rec_ : BitVec 1024) (d : RegNo) (n : Nat) : Bool := decide (d.toNat < 256) && decide (d.toNat + n ≤ recNv rec_)

/-- The launch record of the group about to issue. -/
def State.matRec (s : State) : BitVec 1024 := (s.cur.map fun ag => s.recOf (agKey ag)).getD 0#1024

/-- The index of the group about to issue. -/
def State.curG (s : State) : Nat := (s.cur.map fun ag => keyG (agKey ag)).getD 0

/-- MLEND (R69, R346). -/
def execMlend (d : RegNo) (n : BitVec 3) (g : Guard) (s : State) : Host.Outcome State Fault Refusal :=
  let k := n.toNat + 1
  let sp := { mtxSpec s g [] ((regRun d k).map fun r => (r, 1)) (decide (4 ≤ s.curG) || !runOk s.matRec d k) with writes := false }
  issueWith s sp fun s ag _ =>
    (s.modGroup (agKey ag) fun g => g.modTags d.toNat (fun t => { t with lent := true }) k).advance ag

/-- The first row of a run outside a window (R344). -/
def outside (w : Nat × Nat) (r0 n : Nat) : Option Nat :=
  if r0 < w.1 || w.2 ≤ r0 then some r0 else if w.2 < r0 + n then some w.2 else none

/-- WINDOW (R344). -/
def State.windowFault (s : State) (ag : Agent) (act : Mask) (w : Nat × Nat) (r : Nat) : State :=
  s.raiseAt ag 7 (w.1 + w.2 * 65536) (BitVec.ofNat 48 r) act

/-- The rows of the tun that an MRD or MWR names, as a piece of an access (R347, R360). -/
def tunPiece (r0 rows : Nat) (act : Mask) : Piece := pieceAt (64 * rows) 0 0 (lowLane act, r0, 64 * r0, 0)

/-- MRD (R347, R348): its destinations are EMPTY until its data return (R65). -/
def execMrd (d : RegNo) (a : Src) (c : RegNo) (n : BitVec 3) (g : Guard) (s : State) : Host.Outcome State Fault Refusal :=
  let k := n.toNat + 1
  let bad := !runOk s.matRec d k || (decide (d.toNat ≤ c.toNat) && decide (c.toNat < d.toNat + k))
  let sp := mtxSpec s g [(a, 1)] ((regRun d k).map (fun r => (r, 1)) ++ [(c, 1)]) bad
  issueWith s sp fun s ag act =>
    let key := agKey ag
    let r0 := (s.vals ag sp.srcs 0 0 (lowLane act)).toNat
    let rows := k * s.width ag / 16
    s.withMem ag false fun s f =>
      match s.teamOf? key with
      | none => s
      | some t =>
        let win := t.window (keyG key)
        match outside win r0 rows with
        | some r => s.windowFault ag act win r
        | none =>
          s.issueAccess ag
            { s.newAccess ag f .load .tun with
              pieces := [tunPiece r0 rows act], dst := d.toNat, ndst := k, cnt := some c.toNat, act := act } .rlx

/-- MWR (R347, R348). -/
def execMwr (d : Src) (a : Src) (n : BitVec 3) (g : Guard) (s : State) : Host.Outcome State Fault Refusal :=
  let k := n.toNat + 1
  let sp := mtxSpec s g ((a, 1) :: (regRun d.r k).map fun r => (⟨r, d.pol⟩, 1)) [] (!runOk s.matRec d.r k)
  issueWith s sp fun s ag act =>
    let key := agKey ag
    let x := s.vals ag sp.srcs
    let r0 := (x 0 0 (lowLane act)).toNat
    let w := s.width ag
    let rows := k * w / 16
    s.withNow ag fun s f =>
      match s.teamOf? key with
      | none => s
      | some t =>
        let win := t.window (keyG key)
        match outside win r0 rows with
        | some r => s.windowFault ag act win r
        | none =>
          if s.behind ag f .tun (tunPiece r0 rows act) || s.tunBusy (keyDie key) t ((List.range rows).map (r0 + ·)) then
            s.stallAt ag .issue
          else
          let s := (List.range k).foldl (fun s j => (lanesOf act).foldl (fun s l =>
            let i := j * w + l
            s.tunPut (keyDie key) t (r0 + i / 16) (i % 16) (x (j + 1) 0 l)) s) s
          let whole := (List.range rows).filter fun r =>
            (List.range 16).all fun i => act.getLsbD ((16 * r + i) % w)
          (whole.foldl (fun s r => s.tunClear (keyDie key) t (r0 + r)) s).advance ag

/-- How a kind reads its elements (R334). -/
inductive MmaForm where
  | plus (a b : FFmt) | int8 | cb2 | minPlus (f : FFmt) | maxTimes | orAnd
  deriving DecidableEq, Repr

/-- The form of a kind (R334). -/
def mmaForm : MmaKind → MmaForm
  | .bf16 => .plus Machine.bf16 Machine.bf16
  | .f16 => .plus Machine.f16 Machine.f16
  | .e4e4 => .plus f8e4 f8e4
  | .e4e5 => .plus f8e4 f8e5
  | .e5e4 => .plus f8e5 f8e4
  | .e5e5 => .plus f8e5 f8e5
  | .i8 => .int8
  | .cb2 => .cb2
  | .mpbf16 => .minPlus Machine.bf16
  | .mpf16 => .minPlus Machine.f16
  | .mtbf16 => .maxTimes
  | .orand => .orAnd

/-- The bytes of a format's element. -/
def FFmt.bytes (f : FFmt) : Nat := (f.eb + f.mb + 1) / 8

/-- ABYTES (R337). -/
def aBytes : MmaForm → Nat
  | .plus a _ => 16 * a.bytes
  | .int8 | .cb2 => 16
  | .minPlus _ | .maxTimes => 32
  | .orAnd => 2

/-- The bytes of a B quarter (R335). -/
def quarterBytes : MmaForm → Nat
  | .plus _ b => 256 * b.bytes
  | .int8 => 256
  | .cb2 => 64
  | .minPlus _ | .maxTimes => 512
  | .orAnd => 32

/-- Q (R335). -/
def quarterRegs (f : MmaForm) (w : Nat) : Nat := (quarterBytes f + 4 * w - 1) / (4 * w)

/-- The identity of a kind's accumulator (R334). -/
def mmaIdentity : MmaForm → Word
  | .plus _ _ | .int8 | .cb2 | .orAnd => 0#32
  | .minPlus _ => 0x7F800000#32
  | .maxTimes => 0xFF800000#32

/-- The least clocks from a step's start to its commit (R334, R352). -/
def mmaClocks : MmaForm → Nat
  | .plus a _ => if a.bytes = 2 then 32 else 16
  | .int8 => 16
  | .cb2 => 8
  | .minPlus _ | .maxTimes => 32
  | .orAnd => 2

/-- The signed value of a byte. -/
def signed8 (x : Nat) : Int := if x < 128 then (x : Int) else (x : Int) - 256

/-- An element of `n` bytes, element `i` of a number's bytes. -/
def elemAt (x n i : Nat) : Nat := x / 256 ^ (n * i) % 256 ^ n

/-- A sum of min-plus (R110). -/
def minPlusSum (f : FFmt) (a b : Nat) : Word :=
  let x := f.unpack a
  let y := f.unpack b
  if x = .inf false || y = .inf false then 0x7F800000#32
  else BitVec.ofNat 32 (f32.sum .rne [x, y] (x.isNan || y.isNan)).1

/-- The minimum or maximum of FP32 words, NaN where one is (R110). -/
def extreme (big : Bool) (c : Word) (l : List Word) : Word :=
  if (c :: l).any fun x => (fv32 x).isNan then nan32 else l.foldl (fminmax big) c

/-- one_group (R108 to R110, R351): `a` holds a row's 16 elements, `b` a quarter, `col` the column in it. -/
def oneGroup (f : MmaForm) (grist : Nat → Word) (acc : Word) (a b col : Nat) : Word :=
  let ks := List.range 16
  match f with
  | .plus fa fb =>
    let ps := ks.map fun k => (fa.unpack (elemAt a fa.bytes k)).mul (fb.unpack (elemAt b fb.bytes (16 * col + k)))
    BitVec.ofNat 32 (f32.sum .rne (fv32 acc :: ps) false).1
  | .int8 =>
    ks.foldl (fun c k => c + BitVec.ofInt 32 (signed8 (elemAt a 1 k) * signed8 (elemAt b 1 (16 * col + k)))) acc
  | .cb2 =>
    ks.foldl (fun c k =>
      let i := 16 * col + k
      c + BitVec.ofInt 32 (signed8 (elemAt a 1 k) * cb2Weight grist (elemAt b 2 (i / 8)) (i % 8))) acc
  | .minPlus g => extreme false acc (ks.map fun k => minPlusSum g (elemAt a 2 k) (elemAt b 2 (16 * col + k)))
  | .maxTimes =>
    extreme true acc (ks.map fun k =>
      let x := bf16.unpack (elemAt a 2 k)
      let y := bf16.unpack (elemAt b 2 (16 * col + k))
      BitVec.ofNat 32 (f32.value .rne (x.mul y) (x.isNan || y.isNan)).1)
  | .orAnd => wordOfBool (acc != 0#32 || ks.any fun k => a.testBit k && b.testBit (16 * col + k))

/-- The issue of a sequencer's matrix instruction. -/
def seqSpec (g : Guard) (srcs : List (RegNo × Nat)) : Spec :=
  { cls := 5, guard := g, srcs := srcs.map fun x => (⟨x.1, false⟩, x.2), grp := false, hlp := false, seq := true }

/-- CONSUMED, SCOPE, REL, ACQ and INIT of a control word (R349). -/
def ctlBit (c : Word) (i : Nat) : Bool := c.getLsbD i

/-- Step 1 of R350: what R349 rejects, and the bounds on the tile and the B registers. -/
def mmaIllegal (ctl : Word) (tile b ring q nv n : Nat) : Bool :=
  bits ctl 31 27 != 0 || bits ctl 21 16 != 0 || n == 0 || (ctlBit ctl 24 && !ctlBit ctl 26) || decide (255 < b) ||
  decide (9 ≤ ring) || decide (896 < tile) || decide (nv < b + (if ring = 0 then n else ring) * q)

/-- arow(m, s) (R337). -/
def Mma.arow (x : Mma) (m s : Nat) : Nat := (if m < 32 then x.a0 + m * x.rs else x.a1 + (m - 32) * x.rs) + s * x.ks

/-- Step 2 of R350. -/
def Mma.misaligned (x : Mma) (ab : Nat) : Bool :=
  [x.a0, x.a1, x.rs, x.ks].any (fun v => v % ab != 0) || (ctlBit x.ctl 26 && x.barrier % 16 != 0)

/-- The local address that a fault of step 2 names: that of the first misaligned one of m(a), m(a + 1), and the barrier object, or
of the second row or step where RS or KS is misaligned (DESIGN CHOICE, log 54). -/
def Mma.misalignedAt (x : Mma) (ab : Nat) : Nat :=
  if x.a0 % ab ≠ 0 then x.a0 else if x.a1 % ab ≠ 0 then x.a1 else if x.rs % ab ≠ 0 then x.a0 + x.rs
  else if x.ks % ab ≠ 0 then x.a0 + x.ks else x.barrier

/-- The first step at which tile row `m` runs past `top`, of rows that the last step takes there. -/
def Mma.firstPast (x : Mma) (ab m top : Nat) : Nat :=
  if top < x.arow m 0 + ab then 0 else (top - ab - x.arow m 0) / x.ks + 1

/-- The steps and addresses at which tile rows lie outside their half (R350). -/
def Mma.badRows (x : Mma) (ab h l : Nat) : List (Nat × Nat) :=
  (List.range 64).filterMap fun m =>
    if m < 32 then
      if h < x.arow m (x.n - 1) + ab then some (x.firstPast ab m h, x.arow m (x.firstPast ab m h)) else none
    else if x.arow m 0 < h then some (0, x.arow m 0)
    else if l < x.arow m (x.n - 1) + ab then some (x.firstPast ab m l, x.arow m (x.firstPast ab m l)) else none

/-- The local address that a fault of step 3 names: that of the lowest row outside its half in the first step that has one, or
the barrier object's (DESIGN CHOICE, log 54). -/
def Mma.outAt (x : Mma) (ab h l : Nat) : Nat :=
  match (x.badRows ab h l).foldl (fun b e =>
    match b with
    | none => some e
    | some c => if e.1 < c.1 then some e else some c) none with
  | some e => e.2
  | none => x.barrier

/-- Step 3 of R350: since RS and KS are unsigned, the last step bounds the rows above and the first below. -/
def Mma.outOfRange (x : Mma) (ab h l : Nat) : Bool :=
  (List.range 64).any (fun m =>
    if m < 32 then decide (h < x.arow m (x.n - 1) + ab) else decide (x.arow m 0 < h) || decide (l < x.arow m (x.n - 1) + ab)) ||
  (ctlBit x.ctl 26 && decide (l < x.barrier + 16))

/-- MMA (R349, R350): its operands are read and checked, and its steps are the sequencer's to perform (R341). -/
def execMma (d a b c : RegNo) (ring : BitVec 4) (k : BitVec 2) (kind : MmaKind) (s : State) :
    Host.Outcome State Fault Refusal :=
  let sp := seqSpec ⟨0#4, false⟩ [(d, 2), (a, 4), (c, 1)]
  issueWith s sp fun s ag act =>
    match ag, s.front? ag with
    | .seq dn sn, some f =>
      let v := fun i j => (s.vals ag sp.srcs i j 0).toNat
      let r := s.recOf (agKey ag)
      let fm := mmaForm kind
      let ctl := s.vals ag sp.srcs 2 0 0
      let x : Mma :=
        { pc := f.pc, kind := kind, tile := v 0 0, barrier := v 0 1, a0 := v 1 0, a1 := v 1 1, rs := v 1 2, ks := v 1 3,
          n := bits ctl 15 0, bBase := b.toNat, ring := ring.toNat, lcAt := (s.loopCount ag k.toNat).toNat, ctl := ctl,
          before := (s.earlier ag f).map (·.1) }
      if mmaIllegal ctl x.tile x.bBase x.ring (quarterRegs fm (recW r)) (recNv r) x.n then s.illop ag act
      else if x.misaligned (aBytes fm) then s.raiseAt ag 5 0 (BitVec.ofNat 48 (x.misalignedAt (aBytes fm))) act
      else if x.outOfRange (aBytes fm) (halfOf (recL r)) (recL r) then
        s.raiseAt ag 34 0 (BitVec.ofNat 48 (x.outAt (aBytes fm) (halfOf (recL r)) (recL r))) act
      else (s.modSeq dn sn fun q => { q with mmas := q.mmas ++ [x] }).advance ag
    | _, _ => s

/-- The B slot of a step (R351). -/
def Mma.slot (x : Mma) (s : Nat) : Nat := if x.ring = 0 then s else (x.lcAt + x.ring * s - s) % x.ring

/-- The words of a quarter in registers `b` on of a group (R335). -/
def Group.quarter (g : Group) (f : MmaForm) (w b : Nat) : List Word :=
  (List.range (quarterBytes f / 4)).map fun i => g.rd (b + i / w) (i % w)

/-- The lanes of register `i` of a quarter that it reaches (R335). -/
def quarterReach (f : MmaForm) (w i : Nat) : Mask := maskOf ((List.range w).filter fun l => decide (i * w + l < quarterBytes f / 4))

/-- Whether registers `b` to `b + q - 1` are lent in a group that has not ended (R336, R351). -/
def Group.lends (g : Group) (b q : Nat) : Bool := !g.ended && (List.range q).all fun i => (g.tag (b + i)).lent

/-- The quarter of one crew group: one kept, or read from its lent registers, which are returned (R336, R351); none where a
lane that it reaches is poisoned (R335, R342). -/
def State.readQuarter (s : State) (f : MmaForm) (w b q k : Nat) (kept : Option (List Word)) : State × Option (List Word) :=
  match kept, s.group? k with
  | some ws, _ => (s, some ws)
  | none, none => (s, none)
  | none, some g =>
    let s' := (s.modGroup k fun g => g.modTags b (fun t => { t with lent := false }) q).wake k
    if (List.range q).any fun i => (g.tag (b + i)).poison &&& quarterReach f w i != 0#64 then
      ((List.range q).foldl (fun s i => s.meetReg (.frag (keyDie k) (keySlot k) (keyG k) 0) (b + i) (quarterReach f w i)) s', none)
    else (s', some (g.quarter f w b))

/-- The quarter that a step keeps of crew group `i` (R353). -/
def Mma.keptAt (x : Mma) (i : Nat) : Option (List Word) := ((x.kept)[i]?).getD none

/-- The quarters of a step, of each crew group (R351); none where the step waits for lends or for a test of a register's row
(R383). A quarter kept waits for no lend (R353). -/
def State.readQuarters (s : State) (d n : Nat) (f : MmaForm) (w b q : Nat) (x : Mma) : Option (State × List (Option (List Word))) :=
  let ready := (List.range 4).all fun i =>
    (x.keptAt i).isSome ||
    (((s.group? (groupKey d n i)).map fun g => g.lends b q).getD false &&
      !s.regsBusy (.frag d n i 0) b q)
  if !ready then none
  else some ((List.range 4).foldl (fun r i =>
    let y := r.1.readQuarter f w b q (groupKey d n i) (x.keptAt i)
    (y.1, r.2 ++ [y.2])) (s, []))

/-- A row of A read from local memory; none, with the address, where it meets an error or poison. -/
def State.readRows (s : State) (d n ab : Nat) : List Nat → State × Except Nat (List Nat)
  | [] => (s, .ok [])
  | a :: t =>
    match s.localGet d n a ab with
    | (s, none) => (s, .error a)
    | (s, some v) =>
      match State.readRows s d n ab t with
      | (s, .error e) => (s, .error e)
      | (s, .ok l) => (s, .ok (v :: l))

/-- The number that words, lowest first, hold. -/
def natOfWords : List Word → Nat
  | [] => 0
  | w :: t => w.toNat + 2 ^ 32 * natOfWords t

/-- The new words of a tile (R351): the accumulators as they stand at the commit (R348). -/
def State.stepWords (s : State) (d : Nat) (t : Team) (x : Mma) (rows : List Nat) (qs : List (List Word)) : List Word :=
  let f := mmaForm x.kind
  let init := ctlBit x.ctl 22 && x.step == 0
  let b := qs.map natOfWords
  let grist := fun (m : Nat) (i : Nat) => sget 0#32 (s.core d ((t.cores[m / 32]?).getD 0)).grist i
  tileElems.map fun e =>
    let p := tilePlace x.tile e.1 e.2
    let acc := if init then mmaIdentity f else s.tunWord d t p.1 p.2
    oneGroup f (grist e.1) acc ((rows[e.1]?).getD 0) ((b[e.2 / 16]?).getD 0) (e.2 % 16)

/-- The values an MMA may read at a 16-bit place: what stands there, and what stood there before stores made since it issued
(R354). -/
def Mma.choices (x : Mma) (t : Team) (h : Nat) : List Nat :=
  t.localRead (2 * h) 2 :: (x.older.filter fun e => e.1 == h).map (·.2)

/-- Element `i` of the row of A at an address, `u` bits wide: one of the values it may have, freely chosen (R354). -/
def Mma.elemSeen (x : Mma) (t : Team) (a u i k : Nat) : Nat :=
  let c := x.choices t ((8 * a + u * i) / 16)
  let v := if c.length ≤ 1 then t.localRead (2 * ((8 * a + u * i) / 16)) 2 else ((c)[Config.freeNat k % c.length]?).getD 0
  v / 2 ^ (u * i % 16) % 2 ^ u

/-- Row `m` of A as a step reads it: `v` where no store has been made since the MMA issued (R354). -/
def Mma.rowSeen (x : Mma) (t : Team) (m tick v : Nat) : Nat :=
  if x.older = [] then v
  else
    let u := aBytes (mmaForm x.kind) / 2
    ((List.range 16).map fun i => x.elemSeen t (x.arow m x.step) u i (tick + 16 * m + i) * 2 ^ (u * i)).sum

/-- The rows of A that a step reads, from the values that stand there. -/
def Mma.rowsSeen (x : Mma) (t : Team) (tick : Nat) (rows : List Nat) : List Nat :=
  (rows.zip (List.range rows.length)).map fun e => x.rowSeen t e.2 tick e.1

/-- The oldest MMA of a sequencer changed. -/
def State.modMma (s : State) (d n : Nat) (f : Mma → Mma) : State :=
  s.modSeq d n fun q =>
    match q.mmas with
    | [] => q
    | x :: t => { q with mmas := f x :: t }

/-- A sequencer fault at an MMA, which performs its acquire again when it goes on (R342, R353). -/
def State.mmaFault (s : State) (d n : Nat) (x : Mma) (addr : Nat) : State :=
  (s.modMma d n fun x => { x with acqDone := false }).seqFault d n { code := 36, pc := x.pc, addr := BitVec.ofNat 48 addr }

/-- The consumed arrival (R351): made once; a failure is a sequencer fault (R396). -/
def State.consumed (s : State) (d n : Nat) (x : Mma) : State :=
  if !ctlBit x.ctl 26 || x.arrived then s
  else match s.arriveAt d n x.barrier (x.n * 64 * aBytes (mmaForm x.kind) % 2 ^ 32) false with
    | (s, true) => s.modMma d n fun x => { x with arrived := true }
    | (s, false) => s.mmaFault d n x x.barrier

/-- Whether the release before a consumed arrival is complete: the sequencer's accesses before the MMA are performed,
and the row of the barrier object is not under test (R383). -/
def State.consumedReady (s : State) (d n : Nat) (x : Mma) : Bool :=
  !ctlBit x.ctl 26 || x.arrived ||
  (!s.rangeBusy d n x.barrier 16 && (!ctlBit x.ctl 24 || !(s.flight.any fun e => x.before.contains e.1)))

/-- An MMA whose last step has committed and whose arrival is made leaves the queue. -/
def State.mmaDone (s : State) (d n : Nat) : State :=
  s.modSeq d n fun q =>
    match q.mmas with
    | [] => q
    | x :: t => if x.n ≤ x.step && (x.arrived || !ctlBit x.ctl 26) then { q with mmas := t } else q

/-- Whether a team's sequencer may start a step: not stopped by a fault, a pre-emption or a kill (R342, R343). -/
def Team.stepsRun (t : Team) (q : Seq) : Bool := !q.faulted && t.preempt.isNone && t.saved.isNone && !t.killed

/-- What holds back a step's reads (R180, R181, R341, R383): an earlier acquire of the sequencer, or with ACQ an earlier read, not
performed; an earlier store to a row of A; a row of A or of the tile under test. -/
def State.stepWaits (s : State) (d n : Nat) (t : Team) (x : Mma) : Bool :=
  let ab := aBytes (mmaForm x.kind)
  let rows := (List.range 64).map fun m => x.arow m x.step
  (s.flight.any fun e =>
    x.before.contains e.1 &&
    (e.2.acq || (ctlBit x.ctl 23 && e.2.kind.reads) ||
      (e.2.space == .loc && e.2.pieces.any fun p => !p.done && rows.any fun a => p.meets (pieceAt ab 0 0 (0, a, a, 0))))) ||
  rows.any (s.localBusy d n) || s.tunBusy d t (tileRows x.tile)

/-- The grist entries that the quarters of a CB2 step read. -/
def quarterEntries (f : MmaForm) (qs : List (List Word)) : List Nat :=
  if f = .cb2 then (qs.flatten.flatMap fun w => [bits w 15 8, bits w 31 24]).foldl nsInsert [] else []

/-- The reads of a step that has its quarters, and its start (R351); a step that fails keeps them (R353). The consumed arrival of
the last step comes now or after its commit: R351 admits both, and with REL it comes after the commit (R360). -/
def State.startStep (s : State) (d n : Nat) (t : Team) (x : Mma) (qs : List (List Word)) : State :=
  let f := mmaForm x.kind
  let keep := fun (s : State) => s.modMma d n fun x => { x with kept := qs.map some }
  let init := ctlBit x.ctl 22 && x.step == 0
  match s.readRows d n (aBytes f) ((List.range 64).map fun m => x.arow m x.step) with
  | (s, .error a) => (keep s).mmaFault d n x a
  | (s, .ok rows) =>
    let r := if init then (s, true) else s.tunMeet d t (tileRows x.tile)
    let g := t.cores.foldl (fun r c =>
      let y := r.1.gristMeet d c (quarterEntries f qs)
      (y.1, r.2 && y.2)) r
    if !g.2 then (keep g.1).mmaFault d n x 0
    else
      let s := g.1.modMma d n fun y => { y with kept := [], busy := some ⟨g.1.clock, qs, x.rowsSeen t s.tick rows⟩ }
      let s := if x.older = [] then s else { s with tick := s.tick + 1024 }
      if ctlBit x.ctl 26 && !ctlBit x.ctl 24 && x.step + 1 == x.n && s.consumedReady d n x then
        if Config.freeNat s.tick % 2 = 0 then s.draw.consumed d n x else s.draw
      else s

/-- MMA_STEP (R351, R352): the oldest MMA's next step starts, once its quarters are lent and the previous step has committed. -/
def execMmaStep (die slot : Nat) (s : State) : Host.Outcome State Fault Refusal :=
  match s.team? die slot with
  | none => .next s
  | some t =>
    match t.seq with
    | none => .next s
    | some q =>
      match q.mmas with
      | [] => .next s
      | x :: _ =>
        if !t.stepsRun q || x.busy.isSome then .next s
        else if x.n ≤ x.step then
          if s.consumedReady die slot x then .next ((s.consumed die slot x).mmaDone die slot) else .next s
        else if s.stepWaits die slot t x then .next s
        else
          let f := mmaForm x.kind
          let w := recW t.recd
          let s := if ctlBit x.ctl 23 && !x.acqDone then
              (s.l1Inval die (s.agCore (.seq die slot)) (· != 0)).modMma die slot fun x => { x with acqDone := true }
            else s
          match s.readQuarters die slot f w (x.bBase + x.slot x.step * quarterRegs f w) (quarterRegs f w) x with
          | none => .next s
          | some (s, qs) =>
            if qs.any (·.isNone) then .next ((s.modMma die slot fun x => { x with kept := qs }).mmaFault die slot x 0)
            else .next (s.startStep die slot t x (qs.filterMap id))

/-- MMA_STEP_COMMIT (R348, R351, R352): the step's words enter the tile at once, and STEP_COUNT rises. Where a store has been made
since the MMA issued, and its consumed arrival has not, the step may have read A at any moment until now (R354). -/
def execMmaStepCommit (die slot : Nat) (s : State) : Host.Outcome State Fault Refusal :=
  match s.team? die slot with
  | none => .next s
  | some t =>
    match t.seq with
    | none => .next s
    | some q =>
      match q.mmas with
      | [] => .next s
      | x :: _ =>
        match x.busy with
        | none => .next s
        | some y =>
          if s.clock < y.since + mmaClocks (mmaForm x.kind) then .next s
          else
            let late := !x.arrived && x.older != []
            let now := (List.range 64).map fun m => t.localRead (x.arow m x.step) (aBytes (mmaForm x.kind))
            let rows := if late then x.rowsSeen t s.tick now else y.rows
            let s := s.tilePut die t x.tile (s.stepWords die t x rows y.quarters)
            let s := if late then { s with tick := s.tick + 1024 } else s
            let s := s.modSeq die slot fun q => { q with stepCount := q.stepCount + 1#32 }
            let s := s.modMma die slot fun x => { x with step := x.step + 1, busy := none }
            .next (s.mmaDone die slot)

/-- Whether every earlier MMA has committed its last step (R341). -/
def State.mmasDone (s : State) (ag : Agent) : Bool :=
  match ag with
  | .seq d n => (((s.team? d n).bind (·.seq)).map fun q => q.mmas.all fun x => decide (x.n ≤ x.step)).getD true
  | .frag _ _ _ _ | .helper _ _ _ _ => true

/-- The issue of MSCALE, MCLR, MTAB, MSIG and MDRN: fences and earlier MMAs first (R341). -/
def seqOp (sp : Spec) (s : State) (k : State → Agent → Fragment → (Nat → Nat → Nat) → Team → State) :
    Host.Outcome State Fault Refusal :=
  issueWith s sp fun s ag _ =>
    let v := fun i j => (s.vals ag sp.srcs i j 0).toNat
    match s.front? ag, s.teamOf? (agKey ag) with
    | some f, some t => if !s.mmasDone ag then s.stallAt ag .issue else k s ag f v t
    | _, _ => s

/-- ALIGN or PROT of a sequencer instruction on a local range (R342). -/
def State.seqRange (s : State) (ag : Agent) (a size align limit : Nat) (k : State) : State :=
  if a % align ≠ 0 then s.raiseAt ag 5 0 (BitVec.ofNat 48 a) 0#64
  else if limit < a + size then s.raiseAt ag 34 0 (BitVec.ofNat 48 a) 0#64
  else k

/-- MCHK at a sequencer instruction (R342). -/
def State.seqMchk (s : State) (ag : Agent) (a : Nat) : State := s.raiseAt ag 36 0 (BitVec.ofNat 48 a) 0#64

/-- An acquire of the sequencer: its team lies on a core pair (R171). -/
def State.seqAcquire (s : State) (ag : Agent) (acq : Bool) : State :=
  if acq then s.l1Inval (keyDie (agKey ag)) (s.agCore ag) (· != 0) else s

/-- mscale (R112). -/
def mscaleW (c : Word) (p : FV) (a b : FV) : Word :=
  if p.isNan || (fv32 c).isNan || a.isNan || b.isNan then nan32
  else BitVec.ofNat 32 (f32.sum .rne [fv32 c, (p.mul a).mul b] false).1

/-- The exact value of a partial sum: an INT32 or an FP32 word (R112, R355). -/
def partialVal (int : Bool) (w : Word) : FV := if int then .fin (decide (w.toInt < 0)) w.toInt.natAbs 0 else fv32 w

/-- MSCALE (R355). R355 gives no order between the vectors of sA and sB: the model checks sA, its alignment and its range, before
sB, and reads it first (log 64). -/
def execMscale (d a : RegNo) (int clr acq _die : Bool) (g : Guard) (s : State) : Host.Outcome State Fault Refusal :=
  seqOp (seqSpec g [(d, 2), (a, 2)]) s fun s ag _ v t =>
    let dn := keyDie (agKey ag)
    let sn := keySlot (agKey ag)
    let c := v 0 0
    let p := v 0 1
    let l := recL t.recd
    if 896 < c || 896 < p then s.illop ag 0#64
    else if !(s.earlierOf ag).isEmpty || s.tunBusy dn t (tileRows p ++ tileRows c) then s.stallAt ag .issue
    else s.seqRange ag (v 1 0) 128 2 l (s.seqRange ag (v 1 1) 128 2 l (
      if s.rangeBusy dn sn (v 1 0) 128 || s.rangeBusy dn sn (v 1 1) 128 then s.stallAt ag .issue else
      let s := s.seqAcquire ag acq
      match s.readRows dn sn 2 ((List.range 64).map (v 1 0 + 2 * ·) ++ (List.range 64).map (v 1 1 + 2 * ·)) with
      | (s, .error e) => s.seqMchk ag e
      | (s, .ok sc) =>
        match s.tunMeet dn t (tileRows p ++ tileRows c) with
        | (s, false) => s.seqMchk ag 0
        | (s, true) =>
          let old := s
          let s := tileElems.foldl (fun s e =>
            let pp := tilePlace p e.1 e.2
            let cp := tilePlace c e.1 e.2
            let w := mscaleW (old.tunWord dn t cp.1 cp.2) (partialVal int (old.tunWord dn t pp.1 pp.2))
              (ue8m4 ((sc[e.1]?).getD 0)) (ue8m4 ((sc[64 + e.2]?).getD 0))
            let s := s.tunPut dn t cp.1 cp.2 w
            if clr && p != c then s.tunPut dn t pp.1 pp.2 0#32 else s) s
          s.advance ag))

/-- The word MCLR writes (R356). -/
def clrWord : ClrVal → Word
  | .zero => 0#32
  | .pinf => 0x7F800000#32
  | .ninf => 0xFF800000#32

/-- MCLR (R356). -/
def execMclr (d a : RegNo) (w : ClrVal) (g : Guard) (s : State) : Host.Outcome State Fault Refusal :=
  seqOp (seqSpec g [(d, 1), (a, 1)]) s fun s ag _ v t =>
    let dn := keyDie (agKey ag)
    let n := v 1 0
    if n = 0 || 2048 < v 0 0 + n then s.illop ag 0#64
    else if (s.earlierOf ag).any (fun e => e.2.acq) || s.tunBusy dn t ((List.range n).map (v 0 0 + ·)) then s.stallAt ag .issue
    else
      ((List.range n).foldl (fun s i =>
        ((List.range 16).foldl (fun s j => s.tunPut dn t (v 0 0 + i) j (clrWord w)) s).tunClear dn t (v 0 0 + i)) s).advance ag

/-- MTAB (R99, R357). -/
def execMtab (a : RegNo) (acq _die : Bool) (g : Guard) (s : State) : Host.Outcome State Fault Refusal :=
  seqOp (seqSpec g [(a, 1)]) s fun s ag _ v t =>
    let dn := keyDie (agKey ag)
    if !(s.earlierOf ag).isEmpty then s.stallAt ag .issue
    else s.seqRange ag (v 0 0) 1024 64 (recL t.recd) (
      if s.rangeBusy dn (keySlot (agKey ag)) (v 0 0) 1024 then s.stallAt ag .issue else
      let s := s.seqAcquire ag acq
      match s.readRows dn (keySlot (agKey ag)) 4 ((List.range 256).map (v 0 0 + 4 * ·)) with
      | (s, .error e) => s.seqMchk ag e
      | (s, .ok ws) =>
        let put := fun (s : State) (c : Nat) => s.modCore dn c fun x =>
          { x with gristPoison := [], gristUe := [], grist := ((List.range 256).zip ws).foldl (fun m e => sset 0#32 m e.1 (BitVec.ofNat 32 e.2)) [] }
        (t.cores.foldl put s).advance ag)

/-- MSIG (R358): it waits for every earlier instruction of the sequencer, then arrives. -/
def execMsig (a b : RegNo) (_rel _die : Bool) (g : Guard) (s : State) : Host.Outcome State Fault Refusal :=
  seqOp (seqSpec g [(a, 1), (b, 1)]) s fun s ag _ v t =>
    let idle := ((t.seq.map fun q => q.mmas.isEmpty).getD true) && (s.earlierOf ag).isEmpty
    s.seqRange ag (v 0 0) 16 16 (recL t.recd) (
      if !idle || s.rangeBusy (keyDie (agKey ag)) (keySlot (agKey ag)) (v 0 0) 16 then s.stallAt ag .issue
      else match s.arriveAt (keyDie (agKey ag)) (keySlot (agKey ag)) (v 0 0) (v 1 0) false with
        | (s, true) => s.advance ag
        | (s, false) => s.seqMchk ag (v 0 0))

/-- The bytes one tun word drains to (R359). -/
def drainBytes (cv : DrainCv) (w : Word) : List Byte :=
  match cv with
  | .f32 => bytesOf 4 w.toNat
  | .bf16 => bytesOf 2 (bf16.value .rne (fv32 w) true).1
  | .f16 => bytesOf 2 (f16.value .rne (fv32 w) true).1

/-- Bytes cut at the boundaries of 64-byte blocks, `n` pieces at most. -/
def blockCuts (a : Nat) (l : List Byte) : Nat → List (Nat × List Byte)
  | 0 => []
  | n + 1 =>
    let k := 64 - a % 64
    if l.isEmpty then [] else (a, l.take k) :: blockCuts (a + k) (l.drop k) n

/-- Local writes made in turn; the address of the first that is not performed. -/
def State.putCuts (s : State) (d n : Nat) : List (Nat × List Byte) → State × Option Nat
  | [] => (s, none)
  | c :: t =>
    match s.localSet d n c.1 c.2 with
    | (s, false) => (s, some c.1)
    | (s, true) => State.putCuts s d n t

/-- MDRN (R359). -/
def execMdrn (d a b : RegNo) (cv : DrainCv) (_rel _die : Bool) (g : Guard) (s : State) : Host.Outcome State Fault Refusal :=
  seqOp (seqSpec g [(d, 1), (a, 1), (b, 1)]) s fun s ag _ v t =>
    let dn := keyDie (agKey ag)
    let n := v 2 0
    let rb := if cv = .f32 then 64 else 32
    if n = 0 || 2048 < v 0 0 + n then s.illop ag 0#64
    else if !(s.earlierOf ag).isEmpty || s.tunBusy dn t ((List.range n).map (v 0 0 + ·)) then s.stallAt ag .issue
    else s.seqRange ag (v 1 0) (n * rb) 32 (recL t.recd) (
      if s.rangeBusy dn (keySlot (agKey ag)) (v 1 0) (n * rb) then s.stallAt ag .issue else
      match s.tunMeet dn t ((List.range n).map (v 0 0 + ·)) with
      | (s, false) => s.seqMchk ag 0
      | (s, true) =>
        let bytes := (List.range n).flatMap fun i => (List.range 16).flatMap fun j => drainBytes cv (s.tunWord dn t (v 0 0 + i) j)
        match s.putCuts dn (keySlot (agKey ag)) (blockCuts (v 1 0) bytes (n + 2)) with
        | (s, none) => s.advance ag
        | (s, some e) => s.seqMchk ag e)

end Sys2Proof.Machine
end

