-- ==== Sys2Proof/Machine/Launch.lean ====
section
/-! DEFINITION. From launch queue to core: the entry die's checks (R33 to R35), forwarding (R36, R37), shares and their
predecessors (R40, R41), placement (R28, R29, R31, R38, R42 to R45, R338), drains (R44) and traffic windows (R46). -/

namespace Sys2Proof.Machine

/-- DIE of a map entry (R34). -/
def mapDie (m : BitVec 256) : Nat := bits m 71 64

/-- The predecessors a record names: TAG and whether only LTRIG is awaited (R33). -/
def recPreds (r : BitVec 1024) : List (Word × Bool) :=
  (if r.getLsbD 521 then [(r.extractLsb' 416 32, r.getLsbD 520)] else []) ++
  (if r.getLsbD 519 then [(r.extractLsb' 448 32, r.getLsbD 518)] else [])

/-- The placement map's entries read on the entry die, `n` of them from address `a`; none where one is not readable or not
homed there (R35). -/
def State.readMap (s : State) (d : Nat) (ptag : BitVec 12) (a : Nat) : Nat → State × Option (List (BitVec 256))
  | 0 => (s, some [])
  | n + 1 =>
    match s.chkNow d ptag a 32 .read with
    | .ok p _ =>
      if s.meetHome d p != .clean then (s.metHome d p, none)
      else
        let e := BitVec.ofNat 256 (s.stackRead d p 32)
        let r := State.readMap s d ptag (a + 32) n
        (r.1, r.2.map fun l => e :: l)
    | .mchk p => (s.metHome d p, none)
    | .bad _ _ | .miss => (s, none)

/-- The team index after the last entry when each FIRST continues the entry before it (R34). -/
def mapChain (n : Nat) : List (BitVec 256) → Option Nat
  | [] => some n
  | e :: t => if mapFirst e = n then mapChain (n + mapCount e) t else none

/-- Whether a map entry's reserved bits are zero and its bases aligned (R34). -/
def mapEntryOk (m : BitVec 256) : Bool :=
  bits m 127 72 == 0 && bits m 255 240 == 0 && bits m 191 176 == 0 && bits m 207 192 == 0 && bits m 143 128 == 0

/-- Whether the ranges obey R34. -/
def mapOk (es : List (BitVec 256)) (teams dieCount : Nat) : Bool :=
  mapChain 0 es == some teams && decide (es.map mapDie).Nodup && es.all fun m => decide (mapDie m < dieCount) && mapEntryOk m

/-- Groups of a team that lie on its core, or on its lower or upper core (R28). -/
def recOnCore (r : BitVec 1024) (upper : Bool) : List Nat :=
  (List.range (recGroups r)).filter fun g => !recPair r || (g % 2 == 1) == upper

/-- Whether the register files of an empty core could take a core's groups of the team, spread over six partitions (R28, R31). -/
def recFitsEmpty (r : BitVec 1024) : Bool :=
  decide (((recOnCore r false).length + 5) / 6 * footprint r ≤ Config.regFileBytes)

/-- Whether a core may be offered: not held (R43, R394). -/
def Die.offered (d : Die) (c : Nat) : Bool := !d.hold.getLsbD c

/-- The cores a team of a record may be offered on a die: live cores, or logical clusters with neither core held, with
their logical number (R43, R394). -/
def Die.candidates (d : Die) (r : BitVec 1024) : List (Nat × List Nat) :=
  let core := fun i => (d.coreMap[i]?).getD 0
  if recPair r then
    ((List.range d.pairs).map fun q => (q, [core (2 * q), core (2 * q + 1)])).filter fun x => x.2.all d.offered
  else ((List.range d.coreMap.length).map fun i => (i, [core i])).filter fun x => x.2.all d.offered

/-- Whether a die could host one team even when empty (R35, reason 10). -/
def Die.couldHost (d : Die) (r : BitVec 1024) : Bool := !(d.candidates r).isEmpty && recFitsEmpty r

/-- Checks 1 to 5 of R35: the reason of the first that fails. -/
def recReason (r : BitVec 1024) : Option Nat :=
  if recF r 532 531 = 3 then some 1
  else if recF r 530 529 = 3 then some 2
  else if 48 < recF r 547 542 || Config.regFileBytes < footprint r then some 3
  else if splitLocal (recF r 530 529) < localPerCore r then some 4
  else if recMatrix r && (!recPair r || decide (recGroups r < 4) || recF r 127 64 == 0) then some 5
  else none

/-- Check 7 of R35. -/
def rangeBad (r : BitVec 1024) : Bool :=
  let x := recF r 367 352
  let y := recF r 383 368
  (x == 0) != (y == 0) || (x != 0 && y != 0 && decide (1 < recF r 583 576))

/-- Check 8 of R35: reserved fields of the record and of its element. -/
def reservedBad (e : LaunchElem) : Bool :=
  e.dirty || recF e.recd 1023 640 != 0 || recF e.recd 639 584 != 0 || recF e.recd 517 512 != 0 ||
  [319, 255, 191, 127, 63].any fun h => recF e.recd h (h - 15) != 0

/-- A code address of the record: its low 48 bits. -/
def recAddr (r : BitVec 1024) (lo : Nat) : Addr := r.extractLsb' lo 48

/-- What the checks of R35 decide: the code and reason of a refusal, or the map. -/
inductive Entry where
  | refused (code reason : Nat)
  | ok (map : List (BitVec 256))
  deriving DecidableEq, Repr

/-- Whether a predecessor of a record was refused on a die (R41). -/
def State.predRefused (s : State) (d : Nat) (ptag : BitVec 12) (r : BitVec 1024) : Bool :=
  (recPreds r).any fun p => ((s.shareByTag d ptag p.1).map fun x => x.2.life == .refused).getD false

/-- Whether a map names an excluded die with teams (R22). -/
def State.namesExcluded (s : State) (es : List (BitVec 256)) : Bool :=
  es.any fun m => decide (0 < mapCount m) && ((s.physDie? (mapDie m)).map fun p => s.exclNow.getLsbD p).getD false

/-- Whether what the entry die reads for a launch waits for a test or a repair (R383, R386). -/
def State.launchBusy (s : State) (d : Nat) (e : LaunchElem) : Bool :=
  let r := e.recd
  let at_ := fun (a : Nat) => s.xlateBusy d e.ptag a || match s.chkNow d e.ptag a 8 .read with
    | .ok p _ => s.stackBusy d p
    | .bad _ _ | .mchk _ | .miss => false
  ((List.range (min 128 (recF r 583 576))).any fun i => at_ ((recAddr r 192).toNat + 32 * i)) ||
  s.fetchBusy d e.ptag (recAddr r 0) || (recMatrix r && s.fetchBusy d e.ptag (recAddr r 64))

/-- The checks of R35 in their order; an error that the reading of the code meets is reported (R3, R176). -/
def State.checkLaunch (s : State) (d : Nat) (e : LaunchElem) : State × Entry :=
  let r := e.recd
  match recReason r with
  | some n => (s, .refused 64 n)
  | none =>
    let n := recF r 583 576
    if n = 0 || 128 < n then (s, .refused 64 6)
    else match s.readMap d e.ptag (recAddr r 192).toNat n with
      | (s, none) => (s, .refused 64 6)
      | (s, some es) =>
        let host := fun m => mapCount m == 0 || ((s.physDie? (mapDie m)).map fun p => (s.die p).couldHost r).getD false
        let codeOk := fun lo => s.landingAt d e.ptag (recAddr r lo)
        let v : Entry :=
          if !mapOk es (recF r 351 320) s.dieMap.length then .refused 64 6
          else if s.namesExcluded es then .refused 65 0
          else if rangeBad r then .refused 64 7
          else if reservedBad e then .refused 64 8
          else if s.predRefused d e.ptag r then .refused 64 9
          else if !es.all host then .refused 64 10
          else if !codeOk 0 || (recMatrix r && !codeOk 64) then .refused 64 11
          else .ok es
        let met := fun (s : State) (lo : Nat) => s.fetchMet d e.ptag (recAddr r lo)
        (if v = .refused 64 11 then (if codeOk 0 then met s 64 else met s 0) else s, v)

/-- A notice of the launch scheduler (R291, R298). -/
def State.launchNotice (s : State) (d : Nat) (e : LaunchElem) (code reason : Nat) (addr : Addr) : State :=
  let tag := (recTag e.recd).toNat
  s.notice d e.ptag { code := code, cause := reason, source := 1, tag := tag, detail := tag, addr := addr.toNat }

/-- The share of a launch on a die, its predecessors resolved (R40, R41). -/
def State.newShare (s : State) (d : Nat) (e : LaunchElem) (map : BitVec 256) (priv : Bool) (life : ShareLife) : State :=
  let preds := (recPreds e.recd).filterMap fun p => (s.shareByTag d e.ptag p.1).map fun x => (x.1, p.2)
  let x : Share := { recd := e.recd, map := map, ptag := e.ptag, priv := priv, preds := preds, life := life, recAddr := e.recAddr }
  { s.modDie d (fun v => { v with shares := aput v.shares s.fresh x }) with fresh := s.fresh + 1 }

/-- The copies an entry die forwards, in ascending logical die order (R36). -/
def State.addForwards (s : State) (d : Nat) (e : LaunchElem) (priv : Bool) : List (BitVec 256) → State
  | [] => s
  | m :: t =>
    let c : LaunchElem :=
      { e with map := m, origin := 2, entryDie := s.logDie d, privBit := priv, recAddr := 0#48, dirty := false }
    State.addForwards { s.modDie d (fun v => { v with forwards := aput v.forwards s.fresh c }) with fresh := s.fresh + 1 } d e priv t

/-- ENTRY_DIE_CHECK: the oldest element of a die's launch queue is checked, refused or made a share and forwarded (R35 to
R37). -/
def execEntryDieCheck (die : Nat) (s : State) : Host.Outcome State Fault Refusal :=
  match (s.die die).launchQ with
  | [] => .next s
  | e :: rest =>
    if e.origin = 2 || s.launchBusy die e then .next s
    else
      let s := s.modDie die fun v => { v with launchQ := rest }
      match s.checkLaunch die e with
      | (s, .refused code reason) =>
        .next ((s.newShare die e 0#256 false .refused).launchNotice die e code reason (if e.origin = 1 then e.recAddr else 0#48))
      | (s, .ok es) =>
        let priv := e.recd.getLsbD 525 && e.origin == 0
        let here := s.logDie die
        let s := match es.find? fun m => mapDie m == here with
          | some m => s.newShare die e m priv .waiting
          | none => s
        let away := (List.range s.dieMap.length).filterMap fun ld => if ld = here then none else es.find? fun m => mapDie m == ld
        .next ((s.addForwards die e priv away).settle die)

/-- LAUNCH_FORWARD: the first copy that waits at an entry die enters its target's launch queue when that has a free slot and
the way there is up (R36, R377). -/
def execLaunchForward (die : Nat) (s : State) : Host.Outcome State Fault Refusal :=
  match (s.die die).forwards with
  | [] => .next s
  | (k, e) :: _ =>
    match s.physDie? (mapDie e.map) with
    | none => .next s
    | some p =>
      if launchRoom (s.die p) = 0 || !s.routeUp die p then .next s
      else
        let s := s.modDie die fun v => { v with forwards := adel v.forwards k }
        .next (s.modDie p fun v => { v with launchQ := v.launchQ ++ [e] })

/-- FORWARDED_COPY_TAKE: a forwarded copy becomes this die's share, or is refused under the per-die check (R37, R41). -/
def execForwardedCopyTake (die : Nat) (s : State) : Host.Outcome State Fault Refusal :=
  match (s.die die).launchQ with
  | [] => .next s
  | e :: rest =>
    if e.origin ≠ 2 then .next s
    else
      let s := s.modDie die fun v => { v with launchQ := rest }
      if s.predRefused die e.ptag e.recd then
        .next ((s.newShare die e e.map e.privBit .refused).launchNotice die e 64 9 0#48)
      else .next ((s.newShare die e e.map e.privBit .waiting).settle die)

/-- The resident groups of a core (R31). -/
def State.groupsOn (s : State) (d c : Nat) : List (Nat × Group) :=
  s.groups.filter fun e => keyDie e.1 == d && e.2.core == c && ((s.teamOf? e.1).map fun t => t.cores.contains c).getD false

/-- The resident teams of a core. -/
def State.teamsOn (s : State) (d c : Nat) : List (Nat × Team) :=
  s.teams.filter fun e => e.1 / Config.nSlots == d && e.2.cores.contains c

/-- Free resident-group slots of a core over its six partitions (R43). -/
def State.freeSlots (s : State) (d c : Nat) : Nat := 96 - (s.groupsOn d c).length

/-- The partitions that `n` groups of a team take on a core, in order (R28). -/
def Core.parts (x : Core) (n : Nat) : List Nat := (List.range n).map fun k => (x.start + k) % 6

/-- Whether a core takes `n` groups of a team under R31, and has the split or is empty (R31, R44). -/
def State.coreTakes (s : State) (d c n : Nat) (r : BitVec 1024) : Bool :=
  let x := s.core d c
  let split := recF r 530 529
  let on := s.groupsOn d c
  let parts := x.parts n
  let ts := s.teamsOn d c
  (x.split.toNat == split || ts.isEmpty) && decide (ts.length < 16) &&
  decide ((ts.map fun t => localPerCore t.2.recd).sum + localPerCore r ≤ splitLocal split) &&
  (List.range 6).all fun p =>
    let there := on.filter fun e => e.2.part == p
    let new := (parts.filter (· == p)).length
    decide (there.length + new ≤ 16) &&
    decide ((there.map fun e => footprint (s.recOf e.1)).sum + new * footprint r ≤ Config.regFileBytes)

/-- Whether a core or cluster can take the groups `gs` of a team now (R29, R31, R43, R44). `slot` names a pre-empted team that
may use the target drained for it. -/
def State.placeTakes (s : State) (d : Nat) (r : BitVec 1024) (gs : List Nat) (slot : Option Nat) (cores : List Nat) : Bool :=
  let x := s.die d
  let draining := match x.drain with
    | some l => cores.any l.contains && !(l.all (s.coreEmpty d) && x.drainFor.isSome && x.drainFor == slot)
    | none => false
  !draining &&
  (!recMatrix r || cores.all fun c => (s.teamsOn d c).all fun t => !recMatrix t.2.recd) &&
  match cores with
  | [lo, hi] =>
    s.coreTakes d lo (gs.filter fun g => g % 2 == 0).length r && s.coreTakes d hi (gs.filter fun g => g % 2 == 1).length r
  | l => l.all fun c => s.coreTakes d c gs.length r

/-- Whether a candidate comes before another in the order of R43: a matching split, then free slots, then the number. -/
def State.offeredBefore (s : State) (d : Nat) (r : BitVec 1024) (x y : Nat × List Nat) : Bool :=
  let m := fun (z : Nat × List Nat) => z.2.all fun c => (s.core d c).split.toNat == recF r 530 529
  let f := fun (z : Nat × List Nat) => (z.2.map (s.freeSlots d)).sum
  if m x != m y then m x
  else if f x != f y then decide (f y < f x)
  else decide (x.1 ≤ y.1)

/-- The core or cluster a team goes to (R43): the first in the order that takes it; `avoid` are cores it may not return to. -/
def State.findPlace (s : State) (d : Nat) (r : BitVec 1024) (gs : List Nat) (slot : Option Nat) (avoid : List Nat) :
    Option (List Nat) :=
  let ok := ((s.die d).candidates r).filter fun x => !(x.2.any avoid.contains) && s.placeTakes d r gs slot x.2
  match ok with
  | [] => none
  | x :: t => some (t.foldl (fun b y => if s.offeredBefore d r b y then b else y) x).2

/-- The place of the next team of a launch. -/
def State.findNew (s : State) (d : Nat) (r : BitVec 1024) : Option (List Nat) := s.findPlace d r (List.range (recGroups r)) none []

/-- The place of a pre-empted team: its groups that have not ended, and the cores it may return to (R309). -/
def State.findBack (s : State) (d n : Nat) (t : Team) : Option (List Nat) :=
  s.findPlace d t.recd ((s.groupsOf d n).map keyG) (some n) t.avoid

/-- PRIORITY (R33). -/
def recPriority (r : BitVec 1024) : Nat := recF r 528 526

/-- Whether a process's shares are held back (R46). -/
def Die.heldBack (x : Die) (ptag : BitVec 12) : Bool := ((aget x.traffic ptag.toNat).map (·.held)).getD false

/-- The shares with a team to place that are placeable, oldest of the highest priority first (R40). -/
def State.placeable (s : State) (d : Nat) : List (Nat × Share) :=
  let ok := (s.die d).shares.filter fun e =>
    e.2.life == .waiting && decide (e.2.placed < mapCount e.2.map) && s.depsMet d e.2 && !(s.die d).heldBack e.2.ptag
  (List.range 8).reverse.flatMap fun p => ok.filter fun e => recPriority e.2.recd == p

/-- Pre-empted teams of a die that wait for a place: saved, and not held (R309). -/
def State.waitingTeams (s : State) (d : Nat) : List (Nat × Team) :=
  s.teams.filter fun e => e.1 / Config.nSlots == d && ((e.2.saved.map fun x => !x.1).getD false)

/-- Whether a waiting pre-empted team at a priority or above can take a place now, and so goes first (R309). -/
def State.resumeFirst (s : State) (d p : Nat) : Bool :=
  (s.waitingTeams d).any fun e =>
    decide (p ≤ recPriority e.2.recd) && (s.findBack d (e.1 % Config.nSlots) e.2).isSome

/-- The lowest free team slot (R38). -/
def State.freeSlot (s : State) (d : Nat) : Option Nat := (List.range Config.nSlots).find? fun n => (s.team? d n).isNone

/-- A core takes a split: dirty CORE sectors are written back and L1 is invalidated (R44, R172). -/
def State.takeSplit (s : State) (d c split : Nat) : State :=
  if (s.core d c).split.toNat = split then s
  else (s.l1WriteBackCore d c).modCore d c fun x => { x with split := BitVec.ofNat 2 split, l1 := [] }

/-- The cores of a matrix team with tun and grist at zero (R99, R338). -/
def State.zeroMatrix (s : State) (d : Nat) (cores : List Nat) : State :=
  cores.foldl (fun s c => s.modCore d c fun x => { x with grist := [], gristPoison := [], gristUe := [], tun := [], tunPoison := [], tunUe := [] }) s

/-- The partition on which group `g` of a team begins, with the core's start pointer moved on (R28). -/
def State.takePart (s : State) (d c : Nat) : State × Nat :=
  let p := (s.core d c).start
  (s.modCore d c fun x => { x with start := (p + 1) % 6 }, p)

/-- The physical core of group `g` (R28). -/
def coreOf (cores : List Nat) (g : Nat) : Nat :=
  match cores with
  | [lo, hi] => if g % 2 = 0 then lo else hi
  | l => l.headD 0

/-- Groups placed on their cores and partitions, each joining a set (R28, R45, R47). Where bits 2:0 of the record's TRAP_VECTOR are not
zero, R73 gives both that the vector starts as the record's and that these bits read as zero: they are dropped (log 75). -/
def State.placeGroups (s : State) (d n : Nat) (t : Team) : List Nat → State
  | [] => s
  | g :: rest =>
    let c := coreOf t.cores g
    let r := s.takePart d c
    let k := groupKey d n g
    let x : Group :=
      { uid := r.1.fresh, core := c, part := r.2, trapVec := (recAddr t.recd 256 >>> 3) <<< 3
        frags := [(0, { clause := recAddr t.recd 0, mask := fullMask (recW t.recd) })]
        privBase := t.privBase + BitVec.ofNat 48 ((16 * n + g) * recW t.recd * recP t.recd) }
    let s := { r.1 with groups := aput r.1.groups k x, fresh := r.1.fresh + 1 }.modCore d c fun y => y.join r.2 k
    State.placeGroups s d n t rest

/-- The sequencer of a matrix team at its start (R338). -/
def newSeq (r : BitVec 1024) (index : Word) : Seq :=
  let m := [index, BitVec.ofNat 32 (halfOf (recL r)), BitVec.ofNat 32 (recL r), BitVec.ofNat 32 (recGroups r),
            BitVec.ofNat 32 (recNv r), BitVec.ofNat 32 (recW r)]
  { m := (m.zip (List.range 6)).foldl (fun l x => sset 0#32 l x.2 x.1) []
    front := { clause := recAddr r 64, mask := 1#64 } }

/-- A team placed on cores (R28, R38, R42, R44, R45, R251, R338). -/
def State.placeTeam (s : State) (d n id : Nat) (x : Share) (cores : List Nat) : State :=
  let r := x.recd
  let index := BitVec.ofNat 32 (mapFirst x.map + x.placed)
  let t : Team :=
    { recd := r, ptag := x.ptag, priv := x.priv, index := index, share := id, privBase := x.map.extractLsb' 192 48
      ctxBase := x.map.extractLsb' 128 48, cores := cores, seq := if recMatrix r then some (newSeq r index) else none }
  let s := cores.foldl (fun s c => (s.takeSplit d c (recF r 530 529)).l1InvalDieRepl d c) s
  let s := if recMatrix r then s.zeroMatrix d cores else s
  let s := { s with teams := aput s.teams (teamKey d n) t }
  let s := s.placeGroups d n t (List.range (recGroups r))
  let s := s.modDie d fun v =>
    { v with noCore := if (v.noCore.map (·.1)) = some id then none else v.noCore, shares := amod v.shares id fun y => { y with placed := y.placed + 1 } }
  s.bindLandings d n t (x.placed == 0)

/-- The share whose next team is placed now, its slot and its cores (R22, R40, R43, R309). -/
def State.nextPlacement (s : State) (d : Nat) : Option (Nat × Share × Nat × List Nat) :=
  if s.exclNow.getLsbD d || !(s.die d).live then none
  else match s.freeSlot d with
    | none => none
    | some n =>
      (s.placeable d).findSome? fun e =>
        if s.resumeFirst d (recPriority e.2.recd) then none
        else (s.findNew d e.2.recd).map fun c => (e.1, e.2, n, c)

/-- TEAM_PLACEMENT (R43). -/
def execTeamPlacement (die : Nat) (s : State) : Host.Outcome State Fault Refusal :=
  match s.nextPlacement die with
  | none => .next s
  | some (id, x, n, cores) => .next (s.placeTeam die n id x cores)

/-- The count of R44 kept: since when the oldest placeable share, and each waiting team, has found no place. -/
def State.countWaits (s : State) (d : Nat) : State :=
  let since := match s.placeable d with
    | [] => none
    | e :: _ =>
      if (s.findNew d e.2.recd).isSome then none
      else match (s.die d).noCore with
        | some (id, t) => if id = e.1 then some (id, t) else some (e.1, s.clock)
        | none => some (e.1, s.clock)
  let s := s.modDie d fun v => { v with noCore := since }
  (s.waitingTeams d).foldl (fun s e =>
    let n := e.1 % Config.nSlots
    s.modTeam d n fun t =>
      if (s.findBack d n t).isSome then { t with waitSince := none }
      else { t with waitSince := some (t.waitSince.getD s.clock) }) s

/-- The drain target for a team: of the candidates that are not empty and could host it once empty, the one with the fewest
resident groups and then the highest number (R44). -/
def State.drainChoice (s : State) (d : Nat) (r : BitVec 1024) (avoid : List Nat) : Option (List Nat) :=
  let load := fun (z : Nat × List Nat) => (z.2.map fun c => (s.groupsOn d c).length).sum
  let ok := ((s.die d).candidates r).filter fun x =>
    recFitsEmpty r && !(x.2.any avoid.contains) && !(x.2.all (s.coreEmpty d))
  match ok with
  | [] => none
  | x :: t => some (t.foldl (fun b y => if load y ≤ load b then y else b) x).2

/-- Whether 65,536 clocks have passed since a clock. -/
def State.drainDue (s : State) (t : Nat) : Bool := decide (t + Config.drainClocks ≤ s.clock)

/-- DRAIN_TARGET: a team that has found no place for 65,536 clocks drains a core or cluster, one at a time on a die (R44). -/
def execDrainTarget (die : Nat) (s : State) : Host.Outcome State Fault Refusal :=
  if (s.die die).drain.isSome then .next s
  else
    let s := s.countWaits die
    match (s.waitingTeams die).find? fun e => (e.2.waitSince.map s.drainDue).getD false with
    | some (k, t) =>
      let n := k % Config.nSlots
      let s := s.modTeam die n fun t => { t with waitSince := some s.clock }
      match s.drainChoice die t.recd t.avoid with
      | none => .next s
      | some l => .next (s.modDie die fun v => { v with drain := some l, drainFor := some n })
    | none =>
      match (s.die die).noCore, s.placeable die with
      | some (id, t), e :: _ =>
        if !s.drainDue t then .next s
        else
          let s := s.modDie die fun v => { v with noCore := some (id, s.clock) }
          match s.drainChoice die e.2.recd [] with
          | none => .next s
          | some l => .next (s.modDie die fun v => { v with drain := some l, drainFor := none })
      | _, _ => .next s

/-- The traffic window that ended, if one has, closed: the processes over their share in it are held back for the next, and
counting begins anew; windows in which nothing was counted hold nothing back (R46). -/
def State.closeWindow (s : State) (d : Nat) : State :=
  let w := (s.dieClock d).toNat / Config.trafficClocks
  s.modDie d fun v =>
    if v.window = w then v
    else
      { v with
        window := w
        traffic := v.traffic.map fun e =>
          (e.1, { e.2 with held := v.window + 1 == w && e.2.share != 0 && decide (e.2.share * 4096 < e.2.count), count := 0 }) }

/-- TRAFFIC_WINDOW: the clock count of the die has passed a multiple of 65,536 (R46). -/
def execTrafficWindow (die : Nat) (s : State) : Host.Outcome State Fault Refusal := .next (s.closeWindow die)

end Sys2Proof.Machine
end

