-- ==== Sys2Proof/Machine/Preempt.lean ====
section
/-! DEFINITION. The host's answers to parked groups, kills and pre-emption: the resume queue (R300), RESUME (R301), KILL (R302),
PREEMPT and RELEASE (R303, R313), the stop of a team, its save and its resume (R304 to R309, R343). -/

namespace Sys2Proof.Machine

/-- An element of a resume queue (R300). -/
abbrev ResumeElem := BitVec 128

/-- COMMAND (R300). -/
def ResumeElem.cmd (x : ResumeElem) : Nat := bits x 7 0
/-- SLOT (R300). -/
def ResumeElem.slot (x : ResumeElem) : Nat := bits x 63 53
/-- GROUP (R300). -/
def ResumeElem.grp (x : ResumeElem) : Nat := bits x 67 64
/-- PTAG (R300). -/
def ResumeElem.ptag (x : ResumeElem) : BitVec 12 := x.extractLsb' 100 12
/-- FILL_ZERO, HOLD and ALL (R300). -/
def ResumeElem.fill (x : ResumeElem) : Bool := x.getLsbD 8
/-- HOLD (R300). -/
def ResumeElem.hold (x : ResumeElem) : Bool := x.getLsbD 9
/-- ALL (R300). -/
def ResumeElem.all (x : ResumeElem) : Bool := x.getLsbD 10

/-- Whether a RESUME names a group parked at its count (R300). -/
def State.namesParked (s : State) (d : Nat) (x : ResumeElem) : Bool :=
  match s.group? (groupKey d x.slot x.grp) with
  | some g => g.parked.isSome && bits x 127 112 == g.parkCount.toNat
  | none => false

/-- Whether an element is acted on, and not discarded (R300). -/
def State.resumeOk (s : State) (d : Nat) (x : ResumeElem) : Bool :=
  decide (1 ≤ x.cmd ∧ x.cmd ≤ 4) && bits x 99 68 == 0 && bits x 52 40 == 0 && bits x 31 11 == 0 &&
  some (bits x 39 32) == s.logDie? d &&
  (x.cmd == 3 || !(x.all || x.hold)) && (x.cmd == 1 || !x.fill) &&
  ((x.cmd == 3 && x.all) || (match s.team? d x.slot with
    | some t => t.ptag == x.ptag
    | none => false)) &&
  (x.cmd != 1 || s.namesParked d x)

/-- The oldest element of a resume queue taken when it is of a command; elements before it that are discarded change
nothing (R300). -/
def State.takeResume (s : State) (d cmd : Nat) (k : State → ResumeElem → State) : State :=
  let q := (s.die d).resumeQ.dropWhile fun x => !s.resumeOk d x
  match q with
  | [] => s.modDie d fun v => { v with resumeQ := [] }
  | x :: t =>
    if ResumeElem.cmd x = cmd then k (s.modDie d fun v => { v with resumeQ := t }) x
    else s.modDie d fun v => { v with resumeQ := q }

/-- One fragment stopped by a request at once where it waits on an armed source or in a BWAIT (R212, R313). -/
def Fragment.cut (f : Fragment) : Fragment :=
  if f.stopped != .no then f
  else match f.wait with
    | .bar _ _ => f.stopHere
    | .run => if f.stall.yields then f.stopHere else f
    | .join | .get _ | .answer _ | .hjoin => f

/-- The sleeping gets of a group withdrawn (R248). -/
def State.cutGets (s : State) (k : Nat) : State :=
  ((s.pends.filter fun e => e.2.key == k && e.2.form == 6).map (·.1)).foldl State.getWithdraw s

/-- A pre-emption requested of a team; a further request changes only HOLD (R303, R325). -/
def State.requestPreempt (s : State) (d n : Nat) (hold : Bool) : State :=
  match s.team? d n with
  | none => s
  | some t =>
    if t.killed then s
    else match t.saved, t.preempt with
      | some x, _ => (s.modTeam d n fun t => { t with saved := some (x.1 || hold, x.2) }).coresLeft d
      | none, some p => s.modTeam d n fun t => { t with preempt := some { p with hold := p.hold || hold } }
      | none, none =>
        let s := s.modTeam d n fun t => { t with preempt := some { hold := hold, since := s.clock }, again := none }
        (s.groupsOf d n).foldl (fun s k =>
          ((s.cutGets k).unrecruit k).modGroup k fun g =>
            { g with
              activeClocks := 0, bound := false
              frags := g.frags.map fun e => (e.1, e.2.cut) }) s

/-- A register that an MCHK left EMPTY becomes FULL, with zero where its read failed (R301). -/
def Group.fillZero (g : Group) (m : MchkReg) : Group :=
  let t := g.tag m.reg
  if !t.empty || t.arm ≠ 0#64 then g
  else
    let lanes := if 256 ≤ m.reg then (if m.bad = 0#64 then [] else [0]) else lanesOf m.bad
    (lanes.foldl (fun g l => g.wr m.reg l 0#32) g).modTag m.reg fun t =>
      { t.clean (if 256 ≤ m.reg then BitVec.allOnes 64 else m.bad) with empty := false }

/-- A parked group goes on (R301): its registers filled where that is asked, the sequencer let go on where the park stood for
its fault (R342), a withdrawn pre-emption requested again (R308), and the held faults delivered (R293). -/
def State.resumeGroup (s : State) (d n g : Nat) (fill : Bool) : State :=
  let k := groupKey d n g
  match (s.group? k).bind (·.parked) with
  | none => s
  | some p =>
    let s := s.modGroup k fun g =>
      let g := { g with parked := none }
      if fill then { g.mchk.foldl Group.fillZero g with mchk := [] } else g
    let s := if p.fault.cause = 255 then s.modSeq d n fun q => { q with faulted := false } else s
    let s := (s.wake k).deliverHeld k (((s.group? k).map fun g => g.held.length).getD 0)
    if p.fault.source = 4 then
      match (s.team? d n).bind (·.again) with
      | some h => s.requestPreempt d n h
      | none => s
    else s

/-- RESUME (R301): acted on at once, or held for a pre-empted team. -/
def execResume (die : Nat) (s : State) : Host.Outcome State Fault Refusal :=
  .next (s.takeResume die 1 fun s x =>
    if ((s.team? die x.slot).map fun t => t.saved.isSome).getD false then
      s.modTeam die x.slot fun t => { t with heldResume := t.heldResume ++ [x] }
    else s.resumeGroup die x.slot x.grp x.fill)

/-- A waiting get or try of a killed group: removed where it sleeps, and served without effect where it has not arrived
(R248, R302). -/
def State.killGet (s : State) (id : Nat) : State :=
  match aget s.msgs id with
  | none => { s with pends := adel s.pends id }
  | some m =>
    let s := { s with pends := adel s.pends id }
    if (aget s.answers id).isSome then s
    else if m.out then s.withdrawFar m
    else if m.accepted then { s.dropWaiter id with msgs := adel s.msgs id }
    else { s with msgs := aput s.msgs id { m with dead := true } }

/-- Every group of a killed team ends at once: no lane, helper, held fault or park is left (R302). -/
def State.killGroup (s : State) (k : Nat) : State :=
  let s := ((s.pends.filter fun e => e.2.key == k && (e.2.form == 6 || e.2.form == 7)).map (·.1)).foldl State.killGet s
  s.modGroup k fun g =>
    { g with
      frags := [], defer := [], ended := true, parked := none, handler := none, held := [], recruit := none, mchk := []
      readySince := none }

/-- The submissions of a killed team start no further record (R221). -/
def State.killSubs (s : State) (d n : Nat) (cores : List Nat) : State :=
  cores.foldl (fun s c =>
    (((s.core d c).subs.filter fun e => e.2.slot == n).map (·.1)).foldl (fun s i =>
      (s.modSub d c i fun u => { u with ready := [] }).subSettle d c i) s) s

/-- KILL of a team (R302, R343): its groups end; one that is off the cores frees its slot at once. -/
def State.killTeam (s : State) (d n : Nat) : State :=
  match s.team? d n with
  | none => s
  | some t =>
    let s := s.modTeam d n fun t =>
      { t with killed := true, heldResume := [], seq := t.seq.map fun q => { q with halted := true, mmas := [] } }
    let s := (s.groupsOf d n).foldl State.killGroup s
    if t.saved.isSome then (s.groupsOf d n).foldl State.groupGone s else s.killSubs d n t.cores

/-- KILL (R302). -/
def execKill (die : Nat) (s : State) : Host.Outcome State Fault Refusal :=
  .next (s.takeResume die 2 fun s x => s.killTeam die x.slot)

/-- PREEMPT (R303): of one team, or of every team of the process on the die. -/
def execPreempt (die : Nat) (s : State) : Host.Outcome State Fault Refusal :=
  .next (s.takeResume die 3 fun s x =>
    if x.all then
      ((s.teams.filter fun e => e.1 / Config.nSlots == die && e.2.ptag == x.ptag).map fun e => e.1 % Config.nSlots).foldl
        (fun s n => s.requestPreempt die n x.hold) s
    else s.requestPreempt die x.slot x.hold)

/-- RELEASE (R309): a held team re-enters placement. -/
def execRelease (die : Nat) (s : State) : Host.Outcome State Fault Refusal :=
  .next (s.takeResume die 4 fun s x =>
    s.modTeam die x.slot fun t =>
      { t with saved := t.saved.map fun y => (false, y.2), preempt := t.preempt.map fun p => { p with hold := false } })

/-- PREEMPT_STOP_BOUND: a group that has spent 2^20 clocks in the active set since the request stops before its next clause
(R304). -/
def execPreemptStopBound (die slot g : Nat) (s : State) : Host.Outcome State Fault Refusal :=
  let k := groupKey die slot g
  match s.group? k with
  | none => .next s
  | some x =>
    if s.preemptAsked k && !x.bound && decide (Config.stopClocks ≤ x.activeClocks) then
      .next ((s.modGroup k fun g => { g with bound := true }).wake k)
    else .next s

/-- Whether a fragment has stopped: before a clause, at a JOIN, or held by a park or a handler (R304, R313). -/
def Group.fragStopped (g : Group) (e : Nat) (f : Fragment) : Bool :=
  f.stopped != .no || f.wait == .join ||
  (f.wait == .run && (g.parked.isSome || (match g.handler with
    | some h => h.held.contains e
    | none => false)))

/-- Whether a group has stopped and everything of R305 is settled for it. -/
def State.groupSettled (s : State) (k : Nat) : Bool :=
  match s.group? k with
  | none => true
  | some g =>
    !g.ended && (g.parked.isSome || g.held.isEmpty) && g.frags.all (fun e => g.fragStopped e.1 e.2) && g.recruit.isNone && g.wq.isEmpty && g.ac.isEmpty &&
    !s.inFlight k && !(s.pends.any fun e => e.2.key == k)

/-- Whether a matrix team's sequencer stands at an instruction or step boundary with every LDL complete, but for one that met an
error (R342, R343). -/
def State.seqSettled (s : State) (d n : Nat) (t : Team) : Bool :=
  match t.seq with
  | none => true
  | some q => q.mmas.all (fun x => x.busy.isNone) && !(s.flight.any fun e => e.2.ag == Agent.seq d n && e.2.bad == 0#64)

/-- Whether a team asked to stop may be saved now (R304, R305). -/
def State.teamSettled (s : State) (d n : Nat) (t : Team) : Bool :=
  t.preempt.isSome && t.saved.isNone && !t.killed && (s.groupsOf d n).all s.groupSettled && s.seqSettled d n t

/-- A 16-byte device read of a group's live table, with the errors it meets reported; none where it cannot be read (R306). -/
def State.liveRead (s : State) (d : Nat) (ptag : BitVec 12) (a : Nat) : State × Option (BitVec 128) :=
  match s.chkNow d ptag a 16 .read with
  | .ok p _ => if s.meetHome d p != .clean then (s.metHome d p, none) else (s, some (BitVec.ofNat 128 (s.stackRead d p 16)))
  | .mchk p => (s.metHome d p, none)
  | .bad _ _ | .miss => (s, none)

/-- The live masks of clauses found in a table's entries from address `a` on (R93), in the table's order: of two entries for one clause,
which R93 leaves open, the first counts (log 32). -/
def State.liveScan (s : State) (d : Nat) (ptag : BitVec 12) (a : Nat) (want : List Nat) : Nat → State × Option (List (Nat × BitVec 80))
  | 0 => (s, some [])
  | n + 1 =>
    match s.liveRead d ptag a with
    | (s, none) => (s, none)
    | (s, some x) =>
      let r := State.liveScan s d ptag (a + 16) want n
      let c := bits x 127 80
      (r.1, r.2.map fun l => if want.contains c then (c, x.extractLsb' 0 80) :: l else l)

/-- Every window of a group (R74). -/
def allWindows (r : BitVec 1024) : BitVec 80 :=
  BitVec.ofNat 80 (2 ^ (recNv r / 8) - 1 + (2 ^ (recNs r / 8) - 1) * 2 ^ 32)

/-- The windows that hold an EMPTY, armed or lent register (R306). -/
def Group.busyWindows (g : Group) : BitVec 80 :=
  g.tags.foldl (fun m e => if e.2.empty || e.2.arm ≠ 0#64 || e.2.lent then m ||| (1#80 <<< windowOf e.1) else m) 0#80

/-- Whether a group saves every window, with no table read (R306). -/
def Group.savesAll (g : Group) : Bool :=
  g.parked.isSome || g.bound || g.liveTab == 0#48 || g.frags.any fun e => e.2.stopped != .safe

/-- The windows a group saves (R306). -/
def State.saveWindows (s : State) (k : Nat) (g : Group) : State × BitVec 80 :=
  let r := s.recOf k
  let d := keyDie k
  let all_ := allWindows r
  let stops := g.frags.map fun e => e.2.clause.toNat
  if g.savesAll then (s, all_)
  else match s.liveRead d (s.ptagOf k) g.liveTab.toNat with
    | (s, none) => (s, all_)
    | (s, some c) =>
      match s.liveScan d (s.ptagOf k) (g.liveTab.toNat + 16) stops (bits c 31 0) with
      | (s, none) => (s, all_)
      | (s, some l) =>
        if stops.all fun c => (aget l c).isSome then
          (s, (stops.foldl (fun m c => m ||| agetD l c 0#80) g.busyWindows) &&& all_)
        else (s, all_)

/-- Whether one of `n` reads of a live table from an address on waits for a test or a repair (R383, R386). -/
def State.liveBusy (s : State) (d : Nat) (ptag : BitVec 12) (a : Nat) : Nat → Bool
  | 0 => false
  | n + 1 =>
    s.xlateBusy d ptag a ||
    match s.chkNow d ptag a 16 .read with
    | .ok p _ => s.stackBusy d p || (s.meetHome d p == .clean && State.liveBusy s d ptag (a + 16) n)
    | .bad _ _ | .mchk _ | .miss => false

/-- Whether the choice of a group's windows waits for a test or a repair of its live table (R306, R383, R386). -/
def State.windowsBusy (s : State) (k : Nat) (g : Group) : Bool :=
  !g.savesAll &&
  s.liveBusy (keyDie k) (s.ptagOf k) g.liveTab.toNat
    (((s.liveRead (keyDie k) (s.ptagOf k) g.liveTab.toNat).2.map fun c => bits c 31 0).getD 0 + 1)

/-- A piece of a context block: its offset, its bytes, and whether it is written poisoned (R307, R308). -/
structure CtxPiece where
  off  : Nat
  data : List Byte
  bad  : Bool := false
  deriving DecidableEq, Repr

/-- A 64-byte block of the device's own form (R307). -/
def sealBlock (num off : Nat) : CtxPiece := { off := off, data := (List.range 64).map fun i => Config.sealByte num (off + i) }

/-- Blocks of the device's own form from an offset on. -/
def sealBlocks (num off n : Nat) : List CtxPiece := (List.range n).map fun i => sealBlock num (off + 64 * i)

/-- Bytes cut into 64-byte pieces from an offset on. -/
def cutPieces (off : Nat) (l : List Byte) : List CtxPiece :=
  if l.length < 64 then [{ off := off, data := l }]
  else (List.range (l.length / 64)).map fun i => { off := off + 64 * i, data := (l.drop (64 * i)).take 64 }

/-- The offset of a window in a group's register area (R307). -/
def windowOff (w g i : Nat) : Nat :=
  0x40000 + 0x20000 * g + (if i < 32 then 32 * w * i else 0x10000 + 32 * (i - 32))

/-- The bytes of a window of a group (R307). -/
def Group.windowBytes (g : Group) (w i : Nat) : List Byte :=
  if i < 32 then (List.range 8).flatMap fun j => (List.range w).flatMap fun l => bytesOf 4 (g.rd (8 * i + j) l).toNat
  else (List.range 8).flatMap fun j => bytesOf 4 (g.rd (256 + 8 * (i - 32) + j) 0).toNat

/-- The pieces of one group: its state record and the windows it saves (R306, R307). -/
def Group.pieces (g : Group) (num w gi : Nat) (m : BitVec 80) : List CtxPiece :=
  sealBlocks num (0x1000 + 0x100 * gi) 4 ++
  ((List.range 80).filter fun i => m.getLsbD i).flatMap fun i => cutPieces (windowOff w gi i) (g.windowBytes w i)

/-- A pair row of a team's tun, and whether it is poisoned. -/
def State.tunPiece (s : State) (d : Nat) (t : Team) (r : Nat) : CtxPiece :=
  { off := 0x2E0000 + 64 * r
    data := (List.range 16).flatMap fun i => bytesOf 4 (s.tunWord d t r i).toNat
    bad := (s.core d (t.tunCore r)).tunPoison.contains (r % 1024) }

/-- Every piece a save writes (R306, R307). -/
def State.savePieces (s : State) (d n num : Nat) (t : Team) (ms : List (Nat × BitVec 80)) : List CtxPiece :=
  sealBlocks num 0 64 ++
  (s.groupsOf d n).flatMap (fun k =>
    ((s.group? k).map fun g => g.pieces num (recW t.recd) (keyG k) (agetD ms (keyG k) 0#80)).getD []) ++
  (List.range (recL t.recd / 64)).map (fun b =>
    { off := 0x240000 + 64 * b, data := bytesOf 64 (t.localRead (64 * b) 64), bad := t.localPoison.contains b }) ++
  (if t.seq.isSome then (List.range 2048).map (s.tunPiece d t) ++ sealBlocks num 0x300000 1024 else [])

/-- The address of an offset of a team's context block (R307). -/
def ctxVa (n : Nat) (t : Team) (off : Nat) : Nat := (t.ctxBase + BitVec.ofNat 48 (Config.contextBytes * n + off)).toNat

/-- The stack offset of a place in a context block, or the code, DETAIL and address of the failure (R308). -/
def State.ctxAt (s : State) (d n : Nat) (t : Team) (off : Nat) (need : Need) : Except (Nat × Nat × Nat) Nat :=
  let a := ctxVa n t off
  match s.chkNow d t.ptag a 1 need with
  | .ok p _ => .ok p
  | .bad c dt => .error (c, dt + 2 ^ 31, a)
  | .mchk _ | .miss => .error (36, 2, a)

/-- Whether a piece can be written: its check, and no error or poison where it covers only part of a sector (R176, R308). -/
def State.pieceFails (s : State) (d n : Nat) (t : Team) (x : CtxPiece) : Option (Nat × Nat × Nat) :=
  match s.ctxAt d n t x.off .write with
  | .error e => some e
  | .ok p =>
    if x.data.length < 64 && s.meetHome d p != .clean then
      some (36, 2, ctxVa n t x.off)
    else none

/-- Pieces written at the home slice, poisoned ones poisoned (R308). -/
def State.putPieces (s : State) (d n : Nat) (t : Team) : List CtxPiece → State
  | [] => s
  | x :: l =>
    let s := match s.ctxAt d n t x.off .write with
      | .error _ => s
      | .ok p =>
        let s := if x.data.length < 64 then s else s.clearStack d p
        let s := s.stackWrite d p x.data
        if x.bad then { s with poison := nsInsert s.poison (sectorOf d p) } else s
    State.putPieces s d n t l

/-- Some of a save's pieces, each drawn from `k` on: R308 does not say which have been written when a save is abandoned
(log 3). -/
def somePieces : Nat → List CtxPiece → List CtxPiece
  | _, [] => []
  | k, x :: l => if Config.freeNat k % 2 = 0 then x :: somePieces (k + 1) l else somePieces (k + 1) l

/-- What an abandoned save has written: some of the pieces whose check passes (R308, log 3). -/
def State.putSome (s : State) (d n : Nat) (t : Team) (ps : List CtxPiece) : State :=
  { s.putPieces d n t (somePieces s.tick (ps.filter fun x => (s.pieceFails d n t x).isNone)) with
    tick := s.tick + ps.length, fresh := s.fresh + 1 }

/-- A save abandoned (R308): the request is withdrawn, the team goes on, and its lowest live group parks at its stopped
point. -/
def State.abandonSave (s : State) (d n : Nat) (t : Team) (e : Nat × Nat × Nat) : State :=
  let s := s.modTeam d n fun y => { y with preempt := none, again := t.preempt.map (·.hold) }
  let go := fun (f : Fragment) => { f with stopped := Stopped.no, stall := f.stall.kept }
  let s := (s.groupsOf d n).foldl (fun s k =>
    s.modGroup k fun g => { g with bound := false, frags := g.frags.map fun e => (e.1, go e.2) }) s
  match s.groupsOf d n with
  | [] => s
  | k :: _ =>
    let pc := (((s.group? k).bind fun g => g.frags.head?).map fun f => f.2.pc).getD 0#48
    s.groupFault k { code := e.1, detail := BitVec.ofNat 32 e.2.1, addr := BitVec.ofNat 48 e.2.2, pc := pc, source := 4 }

/-- Errors no access has met in a team's local memory, tun and grist table and in the registers that it saves are met by the save,
reported and tested (R308). -/
def State.meetSaved (s : State) (d n : Nat) (t : Team) (ms : List (Nat × BitVec 80)) : State :=
  let s := t.localUe.foldl (fun s b => s.poisonLocal d n (64 * b)) s
  let s := if t.seq.isSome then
      let s := (s.tunMeet d t (List.range 2048)).1
      ((t.cores.head?).map fun c => (s.gristMeet d c (List.range 256)).1).getD s
    else s
  (s.groupsOf d n).foldl (fun s k =>
    (((s.group? k).map fun g => (g.tags.filter fun e => e.2.ue != 0#64 && (agetD ms (keyG k) 0#80).getLsbD (windowOf e.1)).map (·.1)).getD []).foldl
      (fun s r => s.meetReg (.frag d n (keyG k) 0) r (BitVec.allOnes 64)) s) s

/-- A team off its cores: its groups leave the partitions, and what was saved is no longer on the core (R306, R309). Of a matrix team the
lower core's copy of the grist table is saved, with the marks of its entries in error, of which R308 does not speak (log 76). -/
def State.leaveCores (s : State) (d n num : Nat) (t : Team) (ms : List (Nat × BitVec 80)) : State :=
  let lower := ((t.cores.head?).map fun c => s.core d c).getD {}
  let s := (s.groupsOf d n).foldl (fun s k =>
    match s.group? k with
    | none => s
    | some g =>
      (s.modCore d g.core fun c => c.leave g.part k).modGroup k fun g =>
        { g with v := [], s := [], readySince := none, activeClocks := 0 }) s
  s.modTeam d n fun y =>
    { y with
      cores := [], localMem := [], localPoison := [], localUe := [], preempt := none, waitSince := none, savedWin := ms
      saved := some (((t.preempt.map (·.hold)).getD false), num), seq := y.seq.map fun q => { q with grist := lower.grist, gristPoison := lower.gristPoison } }

/-- The windows each group of a team saves. -/
def State.teamWindows (s : State) : List Nat → State × List (Nat × BitVec 80)
  | [] => (s, [])
  | k :: t =>
    match s.group? k with
    | none => State.teamWindows s t
    | some g =>
      let r := s.saveWindows k g
      let l := State.teamWindows r.1 t
      (l.1, (keyG k, r.2) :: l.2)

/-- The settling of R305 and R172 at the moment of the save: dirty CORE sectors written back, reservations cancelled. -/
def State.settleSave (s : State) (d n : Nat) (t : Team) : State :=
  (s.groupsOf d n).foldl State.cancelResv (t.cores.foldl (fun s c => s.l1WriteBackCore d c) s)

/-- The error of a walk that a check of a context block met is poisoned and reported (R3, R312). -/
def State.ctxMet (s : State) (d n : Nat) (t : Team) (off : Nat) (need : Need) : State :=
  match s.chkNow d t.ptag (ctxVa n t off) 1 need with
  | .ok p _ => s.metHome d p
  | .mchk p => s.metHome d p
  | .bad _ _ | .miss => s

/-- Whether a save or a restore of blocks waits: a row of the stack is under test or repair, or one of the team's cores is under
test (R383, R386). -/
def State.ctxBusy (s : State) (d n : Nat) (t : Team) (cores offs : List Nat) : Bool :=
  ((s.die d).tests.any fun x => x.running && cores.contains x.unit && [0, 1, 4, 9].contains x.struct_) ||
  offs.any fun o => s.xlateBusy d t.ptag (ctxVa n t o) || match s.ctxAt d n t o .read with
    | .ok p => s.stackBusy d p
    | .error _ => false

/-- The groups of a team whose state records would hold an uncorrectable error (R308), by the offset of the record. -/
def State.badRecords (s : State) (d n : Nat) : List Nat :=
  (s.groupsOf d n).filterMap fun k => (s.group? k).bind fun g => if g.stateUe then some (0x1000 + 0x100 * keyG k) else none

/-- The errors of state records met: reported, tested, and met no more (R308). -/
def State.meetRecords (s : State) (d n : Nat) : State :=
  (s.groupsOf d n).foldl (fun s k =>
    match s.group? k with
    | some g => if g.stateUe then (s.modGroup k fun g => { g with stateUe := false }).reportError d 9 g.core (regLoc k 1023) 0 1 else s
    | none => s) s

/-- CONTEXT_SAVE (R305 to R308). -/
def execContextSave (die slot : Nat) (s : State) : Host.Outcome State Fault Refusal :=
  match s.team? die slot with
  | none => .next s
  | some t =>
    if !s.teamSettled die slot t then .next s
    else
      let s0 := s
      if (s.groupsOf die slot).any fun k => ((s.group? k).map (s.windowsBusy k)).getD false then .next s else
      let r := (s.settleSave die slot t).teamWindows (s.groupsOf die slot)
      let bad := r.1.badRecords die slot
      let s := (r.1.meetSaved die slot t r.2).meetRecords die slot
      let num := s.fresh
      match s.team? die slot with
      | none => .next s0
      | some t =>
        let ps := s.savePieces die slot num t r.2
        let fail := (ps.findSome? (s.pieceFails die slot t)).or (bad.head?.map fun o => (36, 2, ctxVa slot t o))
        if s0.ctxBusy die slot t t.cores (ps.map (·.off)) then .next s0
        else match fail with
        | some e => .next (((s.putSome die slot t ps).ctxMet die slot t ((e.2.2 - ctxVa slot t 0) % 2 ^ 22) .write).abandonSave die slot t e)
        | none =>
          let s := { s.putPieces die slot t ps with fresh := s.fresh + 1 }
          .next ((s.leaveCores die slot num t r.2).coresLeft die)

/-- What one 64-byte block or less of a context block holds; an error when its check fails, and whether it is poisoned (R308). -/
def State.ctxRead (s : State) (d n : Nat) (t : Team) (off len : Nat) : State × Except (Nat × Nat × Nat) (List Byte × Bool) :=
  match s.ctxAt d n t off .read with
  | .error e => (s.ctxMet d n t off .read, .error e)
  | .ok p => (s.metHome d p, .ok (bytesOf len (s.stackRead d p len), s.meetHome d p != .clean))

/-- The blocks of a context block that a check word seals: offsets of the team record and of the state records of the live groups
(R307). -/
def State.sealOffs (s : State) (d n : Nat) : List Nat :=
  (List.range 64).map (64 * ·) ++
  (s.groupsOf d n).flatMap (fun k => (List.range 4).map fun i => 0x1000 + 0x100 * keyG k + 64 * i)

/-- The records of a context block checked (R307, R308): the first failing access, or a broken seal (code 36, DETAIL 1). -/
def State.checkSeal (s : State) (d n num : Nat) (t : Team) : List Nat → State × Option (Nat × Nat × Nat)
  | [] => (s, none)
  | o :: l =>
    match s.ctxRead d n t o 64 with
    | (s, .error e) => (s, some e)
    | (s, .ok (_, true)) => (s, some (36, 2, ctxVa n t o))
    | (s, .ok (b, false)) => if b = (sealBlock num o).data then State.checkSeal s d n num t l else (s, some (36, 1, 0))

/-- The offset and length of every register, local-memory, tun and sequencer block a restore reads. -/
def State.bodyOffs (s : State) (d n : Nat) (t : Team) : List (Nat × Nat) :=
  (s.groupsOf d n).flatMap (fun k =>
    ((List.range 80).filter fun i => (agetD t.savedWin (keyG k) 0#80).getLsbD i).flatMap fun i =>
      let o := windowOff (recW t.recd) (keyG k) i
      if i < 32 then (List.range (recW t.recd / 2)).map fun j => (o + 64 * j, 64) else [(o, 32)]) ++
  (List.range (recL t.recd / 64)).map (fun b => (0x240000 + 64 * b, 64)) ++
  (if t.seq.isSome then ((List.range 2048).map fun r => (0x2E0000 + 64 * r, 64)) ++ (List.range 1024).map fun r => (0x300000 + 64 * r, 64) else [])

/-- Every block of a restore read: the first failed check, or offset, bytes and poison of each. -/
def State.readBody (s : State) (d n : Nat) (t : Team) : List (Nat × Nat) → State × Except (Nat × Nat × Nat) (List (Nat × List Byte × Bool))
  | [] => (s, .ok [])
  | o :: l =>
    match s.ctxRead d n t o.1 o.2 with
    | (s, .error e) => (s, .error e)
    | (s, .ok b) =>
      match State.readBody s d n t l with
      | (s, .error e) => (s, .error e)
      | (s, .ok r) => (s, .ok ((o.1, b.1, b.2) :: r))

/-- The words of little-endian bytes. -/
def wordsOfBytes (l : List Byte) : List Word := (List.range (l.length / 4)).map fun i => BitVec.ofNat 32 (fieldAt l (4 * i) 4)

/-- A register of a group restored, or left poisoned. -/
def Group.restoreReg (g : Group) (r lane : Nat) (w : Word) (bad : Bool) : Group :=
  let g := g.wr r lane w
  if bad then g.modTag r fun t => { t with poison := t.poison ||| regMark r lane } else g

/-- One block of a group's register area restored (R307, R309); `o` is its offset within the area. -/
def Group.restoreBlock (g : Group) (w o : Nat) (l : List Byte) (bad : Bool) : Group :=
  let ws := wordsOfBytes l
  (ws.zip (List.range ws.length)).foldl (fun g x =>
    let i := o / 4 + x.2
    if o < 0x10000 then g.restoreReg (i / w) (i % w) x.1 bad
    else g.restoreReg (256 + (i - 0x4000)) 0 x.1 bad) g

/-- One block restored to its place (R307, R309). The sequencer's area comes back as it was saved: no rule gives its layout, or
what an error or a changed byte there does (log 7). -/
def State.restoreOne (s : State) (d n : Nat) (x : Nat × List Byte × Bool) : State :=
  if x.1 < 0x240000 then
    let g := (x.1 - 0x40000) / 0x20000
    let w := ((s.team? d n).map fun t => recW t.recd).getD 16
    s.modGroup (groupKey d n g) fun y => y.restoreBlock w ((x.1 - 0x40000) % 0x20000) x.2.1 x.2.2
  else if x.1 < 0x2E0000 then
    let a := x.1 - 0x240000
    s.modTeam d n fun t =>
      { t with
        localMem := localPut t.localMem a x.2.1
        localPoison := if x.2.2 then nsInsert t.localPoison (a / 64) else t.localPoison }
  else if 0x300000 ≤ x.1 then s
  else
    match s.team? d n with
    | none => s
    | some t =>
      let r := (x.1 - 0x2E0000) / 64
      let ws := wordsOfBytes x.2.1
      let s := (ws.zip (List.range 16)).foldl (fun s y => s.tunPut d t r y.2 y.1) s
      if x.2.2 then s.modCore d (t.tunCore r) fun c => { c with tunPoison := nsInsert c.tunPoison (r % 1024) } else s

/-- The groups of a resumed team on their new cores and partitions (R28, R47, R309): tags of windows that were not saved are
FULL, a fragment at a JOIN issues it again, and a parked group stands in the pending set. -/
def State.seatGroups (s : State) (d n : Nat) (t : Team) (cores : List Nat) : List Nat → State
  | [] => s
  | k :: rest =>
    let c := coreOf cores (keyG k)
    let r := s.takePart d c
    let m := agetD t.savedWin (keyG k) 0#80
    let go := fun (f : Fragment) =>
      { f with stopped := Stopped.no, stall := f.stall.kept, wait := if f.wait == .join then .run else f.wait }
    let s := r.1.modGroup k fun g =>
      { g with
        core := c, part := r.2, bound := false, activeClocks := 0, readySince := none
        tags := g.tags.filter fun e => m.getLsbD (windowOf e.1)
        frags := g.frags.map fun e => (e.1, go e.2) }
    let parked := ((s.group? k).map fun g => g.parked.isSome).getD false
    let s := s.modCore d c fun y =>
      if parked then { y with pending := aput y.pending r.2 (partSet y.pending r.2 ++ [k]) } else y.join r.2 k
    State.seatGroups s d n t cores rest

/-- A team killed because its context cannot be restored, with a notice (R307, R308). -/
def State.restoreFail (s : State) (d n : Nat) (t : Team) (e : Nat × Nat × Nat) : State :=
  let tag := (recTag t.recd).toNat
  (s.killTeam d n).notice d t.ptag
    { code := e.1, detail := e.2.1, addr := e.2.2, source := 4, tag := tag, team := t.index.toNat, slot := n }

/-- RESUME elements that were held for a pre-empted team (R301). -/
def State.heldResumes (s : State) (d n : Nat) (l : List ResumeElem) : State :=
  l.foldl (fun s x => if s.namesParked d x then s.resumeGroup d n (ResumeElem.grp x) (ResumeElem.fill x) else s) s

/-- A pre-empted team restored on cores (R309). -/
def State.restoreTeam (s : State) (d n : Nat) (t : Team) (cores : List Nat) (body : List (Nat × List Byte × Bool)) : State :=
  let s := cores.foldl (fun s c =>
    (((s.takeSplit d c (recF t.recd 530 529)).l1WriteBackCore d c).l1InvalCore d c).l1InvalDieRepl d c) s
  let s := s.modTeam d n fun y => { y with cores := cores, saved := none, savedWin := [], heldResume := [], waitSince := none }
  let s := if t.seq.isSome then
      let s := s.zeroMatrix d cores
      let g := ((t.seq.map fun q => (q.grist, q.gristPoison)).getD ([], []))
      (cores.foldl (fun s c => s.modCore d c fun x => { x with grist := g.1, gristPoison := g.2 }) s).modSeq d n fun q =>
        { q with grist := [], gristPoison := [], front := { q.front with stall := .none } }
    else s
  let s := s.seatGroups d n t cores (s.groupsOf d n)
  let s := body.foldl (fun s x => s.restoreOne d n x) s
  let s := s.modDie d fun v =>
    { v with
      drainFor := if v.drainFor = some n then none else v.drainFor
      drain := if (v.drain.getD []).any cores.contains then none else v.drain }
  (s.coresLeft d).heldResumes d n t.heldResume

/-- The waiting pre-empted team that resumes next and its place (R40, R309): of the highest priority, then of the lowest slot;
a placeable share of a higher priority goes first. An excluded die receives no placement (R22). -/
def State.nextResume (s : State) (d : Nat) : Option (Nat × Team × List Nat) :=
  let ws := if s.exclNow.getLsbD d then [] else s.waitingTeams d
  let order := (List.range 8).reverse.flatMap fun p => ws.filter fun e => recPriority e.2.recd == p
  order.findSome? fun e =>
    let higher := (s.placeable d).any fun x =>
      decide (recPriority e.2.recd < recPriority x.2.recd) && (s.findNew d x.2.recd).isSome
    if higher then none
    else (s.findBack d (e.1 % Config.nSlots) e.2).map fun c => (e.1 % Config.nSlots, e.2, c)

/-- TEAM_RESUME (R309). -/
def execTeamResume (die : Nat) (s : State) : Host.Outcome State Fault Refusal :=
  match s.nextResume die with
  | none => .next s
  | some (n, t, cores) =>
    let num := ((t.saved).map (·.2)).getD 0
    if s.ctxBusy die n t cores (s.sealOffs die n ++ (s.bodyOffs die n t).map (·.1)) then .next s
    else match s.checkSeal die n num t (s.sealOffs die n) with
    | (s, some e) => .next (s.restoreFail die n t e)
    | (s, none) =>
      match s.readBody die n t (s.bodyOffs die n t) with
      | (s, .error e) => .next (s.restoreFail die n t e)
      | (s, .ok body) => .next (s.restoreTeam die n t cores body)

end Sys2Proof.Machine
end

