-- ==== Sys2Proof/Machine/HostPort.lean ====
section
/-! DEFINITION. The host port: frames received and dropped (R364, R365), connections (R366, R367), and the requests of the host:
PUT, GET, WRITE and READ, the system queues, and the closing of connections (R368 to R371). -/

namespace Sys2Proof

/-- ACK of a frame's header (R365). -/
def HostFrame.ack (f : HostFrame) : BitVec 32 := BitVec.ofNat 32 (Machine.fieldAt f.data 12 4)
/-- SEQUENCE (R365). -/
def HostFrame.seq (f : HostFrame) : BitVec 32 := BitVec.ofNat 32 (Machine.fieldAt f.data 8 4)
/-- CONNECTION (R365). -/
def HostFrame.conn (f : HostFrame) : BitVec 16 := BitVec.ofNat 16 (Machine.fieldAt f.data 6 2)
/-- PTAG (R365). -/
def HostFrame.ptag (f : HostFrame) : BitVec 12 := BitVec.ofNat 12 (Machine.fieldAt f.data 4 2 / 16)
/-- The reserved bits of the header (R365). -/
def HostFrame.rsv (f : HostFrame) : BitVec 4 := BitVec.ofNat 4 (Machine.fieldAt f.data 4 1)
/-- DIE (R365). -/
def HostFrame.die (f : HostFrame) : BitVec 8 := BitVec.ofNat 8 (Machine.fieldAt f.data 3 1)
/-- TYPE (R365). -/
def HostFrame.typ (f : HostFrame) : BitVec 8 := BitVec.ofNat 8 (Machine.fieldAt f.data 2 1)
/-- VERSION (R365). -/
def HostFrame.ver (f : HostFrame) : BitVec 2 := BitVec.ofNat 2 (Machine.fieldAt f.data 0 2 / 2 ^ 14)
/-- LENGTH (R365). -/
def HostFrame.len (f : HostFrame) : BitVec 14 := BitVec.ofNat 14 (Machine.fieldAt f.data 0 2)
/-- The LENGTH bytes of payload that follow the header (R365); a short Ethernet frame may carry more bytes after them. -/
def HostFrame.payload (f : HostFrame) : List Byte := (f.data.drop 16).take f.len.toNat

end Sys2Proof

namespace Sys2Proof.Machine

/-- Clocks of a microsecond at the 800 MHz arithmetic clock. -/
def usClocks : Nat := 800

/-- Whether the port drops a frame (R364 to R366): not for it, not a Caphor frame of this form, or of a type the host does
not send. -/
def State.frameBad (s : State) (f : HostFrame) : Bool :=
  f.mac != s.flash.mac || f.etype != s.etherNow || f.ver != 1#2 || f.rsv != 0#4 ||
  !([0, 1, 3, 4, 6, 7, 9] : List Nat).contains f.typ.toNat || decide (8192 < f.len.toNat) || decide (f.data.length < 16 + f.len.toNat) ||
  (f.typ != 1#8 && ((aget s.conns f.conn.toNat).map fun x => decide (x.room < f.len.toNat)).getD false)

/-- A frame dropped and counted (R364). -/
def State.dropFrame (s : State) : State := { s with dropped := s.dropped + 1 }

/-- Frames taken from the backlog into the window and sent (R367). -/
def State.pumpConn (s : State) (c : Nat) : Nat → State
  | 0 => s
  | n + 1 =>
    match aget s.conns c with
    | none => s
    | some x =>
      match x.backlog with
      | [] => s
      | f :: t =>
        if x.window ≤ x.unacked.length then s
        else
          let f := { f with ack := x.rxSeq }
          State.pumpConn ({ s with conns := aput s.conns c { x with unacked := x.unacked ++ [f], backlog := t } }.putOut c [f]) c n

/-- A cumulative acknowledgement: the frames before its number leave the window (R367). -/
def State.takeAck (s : State) (c : Nat) (ack : BitVec 32) : State :=
  match aget s.conns c with
  | none => s
  | some x =>
    match x.unacked with
    | [] => s
    | f :: _ =>
      let n := (ack - f.seq).toNat
      if n = 0 || x.unacked.length < n then s
      else
        let gone := (x.unacked.take n).map fun g => g.seq.toNat
        let x := { x with
          unacked := x.unacked.drop n, retries := 0, lastAck := s.clock
          elemsOut := x.elemsOut.filter fun e => !gone.contains e.1 }
        { s with conns := aput s.conns c x }.pumpConn c x.backlog.length

/-- A sequenced frame of a connection: only the one expected is taken; any other is answered by an ACK (R367). -/
def State.sequenced (s : State) (f : HostFrame) (k : State → Nat → State) : State :=
  let c := f.conn.toNat
  let s := s.takeAck c f.ack
  match aget s.conns c with
  | none => s
  | some x =>
    if f.seq ≠ x.rxSeq then s.sendAck c
    else k { s with conns := aput s.conns c { x with rxSeq := x.rxSeq + 1#32 } } c

/-- A frame of a type as the host port takes it; `k` does what the type asks. -/
def hostFrame (f : HostFrame) (typ : Nat) (s : State) (k : State → Nat → State) : Host.Outcome State Fault Refusal :=
  if !s.portUp || f.typ.toNat ≠ typ && !s.frameBad f then .next s
  else if s.frameBad f then .next s.dropFrame
  else .next (s.sequenced f k)

/-- DROPPED_FRAME (R364, R365). -/
def execDroppedFrame (f : HostFrame) (s : State) : Host.Outcome State Fault Refusal :=
  if s.portUp && s.frameBad f then .next s.dropFrame else .next s

/-- ACK (R367). -/
def execAck (f : HostFrame) (s : State) : Host.Outcome State Fault Refusal :=
  if !s.portUp || f.typ ≠ 0#8 && !s.frameBad f then .next s
  else if s.frameBad f then .next s.dropFrame
  else .next (s.takeAck f.conn.toNat f.ack)

/-- The bits of a list of flags as bytes. -/
def flagBytes (n : Nat) (l : List Bool) : List Byte :=
  bytesOf n ((l.zip (List.range l.length)).map fun x => if x.1 then 2 ^ x.2 else 0).sum

/-- The logical die pairs whose route is down (R377). -/
def State.lostPairs (s : State) : List (Nat × Nat) :=
  let n := s.dieMap.length
  (List.range n).flatMap fun a => ((List.range n).filter fun b =>
    match s.physDie? a, s.physDie? b with
    | some x, some y => !s.routeUp x y
    | _, _ => false).map fun b => (a, b)

/-- The die-to-die links of the panel by die and port, in ascending order: 480 of them (R379). -/
def panelLinks : List Nat := (List.range (4 * Config.nDies)).filter fun k => portHasLink (k / 4) (k % 4)

/-- The READY summary (R379); the order of its parts is the model's (log 24). -/
def State.readySummary (s : State) : List Byte :=
  bytesOf 4 s.dieMap.length ++ bytesOf 16 s.flash.fuseDies.toNat ++ bytesOf 16 s.exclNow.toNat ++
  s.dieMap.flatMap (fun d => bytesOf 2 (s.die d).coreMap.length ++ bytesOf 2 (s.die d).pairs) ++
  flagBytes 4 ((List.range 32).map fun l => (s.manager l).isSome && ((aget s.links l).map (·.up)).getD false) ++
  flagBytes 60 (panelLinks.map fun k => !s.d2dDown.contains k) ++
  s.lostPairs.flatMap fun p => bytesOf 1 p.1 ++ bytesOf 1 p.2

/-- A value brought into a range. -/
def clampTo (lo hi x : Nat) : Nat := max lo (min hi x)

/-- A free connection number, of 16 bits, searched from one drawn at `State.tick` on: R366 does not say which OPEN gives
(log 3). It is none that a request still under way bears. -/
def State.freeConn (s : State) : Option Nat :=
  let used := fun (c : Nat) => (aget s.conns c).isSome || s.msgs.any fun e => match e.2.sender with
    | .host c' _ _ => c' == c
    | .group _ _ _ | .port _ _ | .far _ _ => false
  ((List.range (s.conns.length + s.msgs.length + 1)).map fun i => (Config.freeNat s.tick + i) % 2 ^ 16).find? fun c => !used c

/-- Bytes sent in frames of a type as large as the connection allows (R365). -/
def State.sendBytes (s : State) (c typ : Nat) (ptag : BitVec 12) (die room : Nat) (l : List Byte) : Nat → State
  | 0 => s
  | n + 1 =>
    if l.isEmpty then s
    else State.sendBytes (s.sendFrame c typ ptag die (l.take room) 0) c typ ptag die room (l.drop room) n

/-- OPEN (R366, R367, R378, R379): a connection is added, and OPENED is its first frame; what of it exceeds a frame follows in further
OPENED frames (R365; log 24). -/
def execOpenConn (f : HostFrame) (s : State) : Host.Outcome State Fault Refusal :=
  if !s.portUp || f.typ ≠ 1#8 && !s.frameBad f then .next s
  else if s.frameBad f || f.payload.length < 8 then .next s.dropFrame
  else match s.freeConn with
    | none => .next s
    | some c =>
      let w := clampTo 1 4096 (fieldAt f.payload 0 2)
      let z := clampTo 1518 9216 (fieldAt f.payload 2 2)
      let t := clampTo 10 100000 (fieldAt f.payload 4 4)
      let x : Conn := { window := w, frame := z, timeout := t }
      let s := { s with conns := aput s.conns c x, tick := s.tick + 1 }
      let die := ((s.manager 0).map s.logDie).getD 255
      let l := bytesOf 2 w ++ bytesOf 2 z ++ bytesOf 4 t ++ s.readySummary
      .next (s.sendBytes c 2 f.ptag die x.room l l.length)

/-- The records of a PUT: element bytes and tag, `z` bytes to a record; none where a prefix is not as R366 gives. -/
def putRecords (l : List Byte) (z : Nat) : Nat → Option (List Elem)
  | 0 => some []
  | n + 1 =>
    if (fieldAt l 2 6) ≠ 0 then none
    else (putRecords (l.drop z) z n).map fun t =>
      { data := (l.drop 8).take (z - 8), tag := BitVec.ofNat 16 (fieldAt l 0 2) } :: t

/-- The elements of a PUT: none for a payload that is not laid out as R366 gives. -/
def putElems (p : List Byte) : Option (List Elem) :=
  let k := fieldAt p 4 2
  let body := p.length - 8
  if p.length < 8 || fieldAt p 6 2 ≠ 0 then none
  else if k = 0 then (if body = 0 then some [] else none)
  else if body % k ≠ 0 || body / k < 9 then none
  else putRecords (p.drop 8) (body / k) k

/-- The size code of an element size (R229); 7 for none. -/
def sizeCodeOf (n : Nat) : BitVec 3 :=
  if n = 16 then 0#3 else if n = 32 then 1#3 else if n = 64 then 2#3 else if n = 128 then 3#3 else if n = 256 then 4#3 else 7#3

/-- The die and number of a system qid, or none where it names no queue of a die (R370). -/
def sysQueue (q : BitVec 32) (logDie : Nat) : Option Nat :=
  if bits q 29 15 = 0 && bits q 14 8 = logDie && bits q 7 0 < 4 then some (bits q 7 0) else none

/-- A host's launch element (R37, R370). -/
def launchOf (ptag : BitVec 12) (e : Elem) : LaunchElem :=
  { recd := BitVec.ofNat 1024 (fieldAt e.data 0 128), map := 0#256, origin := 0, entryDie := 0, privBit := false, ptag := ptag,
    recAddr := 0#48, dirty := fieldAt e.data 128 128 != 0 }

/-- A host PUT to a system queue of a die: the state and the DONE status (R370). -/
def State.sysPut (s : State) (d : Nat) (ptag : BitVec 12) (q : BitVec 32) (es : List Elem) : State × Nat :=
  let sized := fun (n : Nat) => es.all fun e => e.data.length == n
  match sysQueue q (s.logDie d) with
  | none => (s, 3)
  | some 0 =>
    if !sized 256 then (s, 6)
    else if launchRoom (s.die d) < es.length then (s, 1)
    else (s.modDie d fun v => { v with launchQ := v.launchQ ++ es.map (launchOf ptag) }, 0)
  | some 1 =>
    if !sized 16 then (s, 6)
    else (s.modDie d fun v => { v with resumeQ := v.resumeQ ++ es.map fun e => BitVec.ofNat 128 (natOfBytes e.data) }, 0)
  | some 2 =>
    if !sized 64 then (s, 6) else (s.modDie d fun v => { v with cmdQ := v.cmdQ ++ es.map (·.data) }, 0)
  | some _ => (s, 4)

/-- Whether a die can be reached from the host port, and the port from it (R377). -/
def State.hostReach (s : State) (d : Nat) : Bool :=
  match s.manager 0 with
  | some m => s.routeUp m d && s.routeUp d m
  | none => false

/-- Whether every request of a connection so far is performed (R368). -/
def State.connIdle (s : State) (c : Nat) : Bool := !s.connBusy c fun _ => true

/-- Whether a PUT or GET asks at a queue's home port, where its translation allows it: a PUT with elements, or a GET that cancels
nothing. -/
def frameAsks (f : HostFrame) : Bool :=
  if f.typ = 3#8 then ((putElems f.payload).map fun l => !l.isEmpty).getD false
  else decide (7 ≤ f.payload.length) && decide (fieldAt f.payload 6 1 ≤ 1) && decide (fieldAt f.payload 4 2 ≠ 0)

/-- Whether a PUT or GET can be taken now: the way to its die is up and the table row it reads is not under test; one that goes to a
home port has room in its stream (R241), and one that is answered here is taken once every earlier request of its connection is
performed (R368). -/
def State.hostReady (s : State) (f : HostFrame) (r : Right) (kinds : List Nat) : Bool :=
  let q := BitVec.ofNat 32 (fieldAt f.payload 0 4)
  match s.physDie? f.die.toNat with
  | none => s.connIdle f.conn.toNat
  | some d =>
    s.hostReach d && !s.qBusy d f.ptag (qidEntry q) &&
    match s.transQ d f.ptag q r false kinds, frameAsks f with
    | .ok _, true => s.streamRoom (.host f.conn.toNat 0#32 false) f.ptag q
    | _, _ => s.connIdle f.conn.toNat

/-- What translation cannot answer is refused here: an error that its read of the table met is reported (R3, R230). -/
def State.hostRefused (s : State) (d : Nat) (f : HostFrame) (c : Nat) (q : BitVec 32) (cause : Nat) : State :=
  (if cause = 1 then s.qMet d f.ptag (qidEntry q) else s).sendDone c f.ptag f.die.toNat f.seq (doneStatus cause) 0

/-- A PUT performed, or sent to its queue's home port as a QRP is (R368 to R370). -/
def State.hostPut (s : State) (f : HostFrame) (c : Nat) : State :=
  let done := fun (s : State) (x : Nat) => s.sendDone c f.ptag f.die.toNat f.seq x 0
  let q := BitVec.ofNat 32 (fieldAt f.payload 0 4)
  match s.physDie? f.die.toNat, putElems f.payload with
  | some d, some es =>
    if qidKind q = 2 then let r := s.sysPut d f.ptag q es; done r.1 r.2
    else match s.transQ d f.ptag q .produce false [0] with
      | .error e => s.hostRefused d f c q e
      | .ok (h, gen) =>
        let z := sizeCodeOf ((es.head?.map fun e => e.data.length).getD 16)
        if es.isEmpty then done s 0 else (s.post (.host c f.seq false) d f.ptag q h gen (.qrp (some z) es) none).1
  | _, _ => done s 11

/-- PUT (R366, R368 to R370). -/
def execPut (f : HostFrame) (s : State) : Host.Outcome State Fault Refusal :=
  if !s.hostReady f .produce [0] then .next s else hostFrame f 3 s fun s c => s.hostPut f c

/-- The bytes of a RAS element (R385). -/
def RasElem.bytes (e : RasElem) : List Byte :=
  bytesOf 64 (e.kind % 256 + e.sev % 256 * 2 ^ 32 + e.cls % 256 * 2 ^ 40 + e.struct_ % 256 * 2 ^ 48 + e.phys % 256 * 2 ^ 56 +
    e.unit % 2 ^ 32 * 2 ^ 96 + e.detail % 2 ^ 32 * 2 ^ 288 + e.lost % 2 ^ 32 * 2 ^ 320 + e.count % 2 ^ 32 * 2 ^ 352 +
    e.addr % 2 ^ 64 * 2 ^ 384 + e.time % 2 ^ 64 * 2 ^ 448)

/-- RAS elements sent to a connection, oldest first, `n` at most: the state and how many (R369, R385). -/
def State.rasTake (s : State) (d c : Nat) (ptag : BitVec 12) (n : Nat) : State × Nat :=
  let es := (s.die d).rasQ.take n
  let s := s.modDie d fun v => { v with rasQ := v.rasQ.drop es.length }
  (es.foldl (fun s e => s.sendElem c ptag (s.logDie d) { data := e.bytes, tag := 0#16 }) s, es.length)

/-- The standing GETs of RAS queues served, each taking one element in turn, while the way to the host port is up (R369, R377). -/
def State.serveRas (s : State) (d : Nat) : Nat → State
  | 0 => s
  | n + 1 =>
    match (s.die d).rasWaiters, (s.die d).rasQ, s.hostWay d with
    | w :: t, _ :: _, true =>
      State.serveRas ((s.rasTake d w.1 w.2 1).1.modDie d fun v => { v with rasWaiters := t ++ [w] }) d n
    | _, _, _ => s

/-- A connection's standing GET of a queue cancelled: unlinked at its home here; at another panel it is withdrawn there first, and
where an element is on its way to the host that goes first: `fin` is answered after it, and the flag says so (R369). -/
def State.cancelStanding (s : State) (c : Nat) (q : BitVec 32) (p : BitVec 12) (fin : BitVec 32) : State × Bool :=
  match s.msgs.find? fun e => e.2.qid == q && e.2.ptag == p && (match e.2.sender with
      | .host c' _ st => c' == c && st
      | .group _ _ _ | .port _ _ | .far _ _ => false) with
  | none => (s, false)
  | some (id, m) =>
    let last := { s with msgs := aput s.msgs id { m with sender := .host c fin false } }
    if (aget s.answers id).isSome then (last, true)
    else if m.out then (last.withdrawFar m, true)
    else if m.home.panel = s.panelNo then ({ s.dropWaiter id with msgs := adel s.msgs id }, false)
    else ({ s with msgs := aput s.msgs id { m with sender := .host c fin false, dead := true } }, false)

/-- A GET of the RAS queue of a die, whose window has 256 slots (R369, R370, R385). -/
def State.rasGet (s : State) (d c : Nat) (f : HostFrame) (n : Nat) (standing : Bool) : State :=
  let done := fun (s : State) (x : Nat) => s.sendDone c f.ptag f.die.toNat f.seq 0 x
  if n = 0 then done (s.modDie d fun v => { v with rasWaiters := v.rasWaiters.filter (· != (c, f.ptag)) }) 0
  else if !standing && 256 < n then s.sendDone c f.ptag f.die.toNat f.seq 6 0
  else if standing then
    (done (s.modDie d fun v => { v with rasWaiters := v.rasWaiters ++ [(c, f.ptag)] }) 0).serveRas d (s.die d).rasQ.length
  else if !(s.die d).rasWaiters.isEmpty then done s 0
  else let r := s.rasTake d c f.ptag n; done r.1 r.2

/-- A GET performed, or sent to its queue's home port as a QTRY or, standing, a QGET of one element is (R368 to R370). -/
def State.hostGet (s : State) (f : HostFrame) (c : Nat) : State :=
  let done := fun (s : State) (x : Nat) => s.sendDone c f.ptag f.die.toNat f.seq x 0
  let q := BitVec.ofNat 32 (fieldAt f.payload 0 4)
  let n := fieldAt f.payload 4 2
  let flags := fieldAt f.payload 6 1
  match s.physDie? f.die.toNat with
  | none => done s 11
  | some d =>
    if f.payload.length < 7 || 1 < flags then done s 11
    else if qidKind q = 2 then
      match sysQueue q (s.logDie d) with
      | none => done s 3
      | some 3 => s.rasGet d c f n (flags == 1)
      | some _ => done s 4
    else if n = 0 then
      match s.cancelStanding c q f.ptag f.seq with
      | (s, true) => s
      | (s, false) => done s 0
    else match s.transQ d f.ptag q .consume false [0, 1] with
      | .error e => s.hostRefused d f c q e
      | .ok (h, gen) =>
        (s.post (.host c f.seq (flags == 1)) d f.ptag q h gen (.get 7#3 (if flags = 1 then 1 else n) (flags != 1)) none).1

/-- GET (R366, R368 to R370). -/
def execGet (f : HostFrame) (s : State) : Host.Outcome State Fault Refusal :=
  if !s.hostReady f .consume [0, 1] then .next s else hostFrame f 4 s fun s c => s.hostGet f c

/-- The stack offset of an address of a bulk transfer, or the DONE status (R371). -/
def State.bulkAt (s : State) (d : Nat) (ptag : BitVec 12) (space a n : Nat) : Except Nat Nat :=
  if space = 1 then (if a + n ≤ Config.stackBytes then .ok a else .error 9)
  else match s.xlate d ptag (a % 2 ^ 48) with
    | .fail f => .error (if f.mchk then 10 else 7)
    | .ok e =>
      if e.cls ≠ 2 && some e.home ≠ s.logDie? d then .error 8
      else if e.cls = 3 then .error 9
      else .ok (e.phys (a % 2 ^ 48))

/-- Every sector of a bulk transfer: its stack offset and length, or the status of the first that fails. -/
def State.bulkPlan (s : State) (d : Nat) (ptag : BitVec 12) (space : Nat) : List (Nat × Nat) → Except Nat (List (Nat × Nat))
  | [] => .ok []
  | x :: t =>
    match s.bulkAt d ptag space x.1 x.2 with
    | .error e => .error e
    | .ok p => (State.bulkPlan s d ptag space t).map fun l => (p, x.2) :: l

/-- The error of a walk that stops a bulk transfer is poisoned and reported (R3, R312). -/
def State.bulkMet (s : State) (d : Nat) (ptag : BitVec 12) (space : Nat) (cuts : List (Nat × Nat)) : State :=
  match cuts.find? fun x => s.bulkAt d ptag space x.1 x.2 matches .error 10 with
  | none => s
  | some x => s.walkMet d ptag (x.1 % 2 ^ 48)

/-- Whether a bulk transfer can go on now: the way to its die is up, every earlier request of its connection is performed, and no row
it reaches is under test or repair (R368, R377, R383, R386). -/
def State.bulkReady (s : State) (f : HostFrame) (n : Nat) : Bool :=
  match s.physDie? f.die.toNat with
  | none => s.connIdle f.conn.toNat
  | some d =>
    s.hostReach d && s.connIdle f.conn.toNat &&
    !(fieldAt f.payload 0 1 == 0 && (spanCuts (fieldAt f.payload 8 8) n n).any fun x => s.xlateBusy d f.ptag (x.1 % 2 ^ 48)) &&
    match s.bulkPlan d f.ptag (fieldAt f.payload 0 1) (spanCuts (fieldAt f.payload 8 8) n n) with
    | .error _ => true
    | .ok plan => !s.bulkBusy d plan

/-- A WRITE performed: the bytes reach the L2, and its completion releases them (R186, R371). -/
def State.hostWrite (s : State) (f : HostFrame) (c : Nat) : State :=
  let done := fun (s : State) (x : Nat) => s.sendDone c f.ptag f.die.toNat f.seq x 0
  let space := fieldAt f.payload 0 1
  let l := f.payload.drop 16
  match s.physDie? f.die.toNat with
  | none => done s 11
  | some d =>
    if f.payload.length < 16 || 1 < space then done s 11
    else if space = 1 && decide (Config.stackBytes ≤ fieldAt f.payload 8 8) then done s 9
    else match s.bulkPlan d f.ptag space (spanCuts (fieldAt f.payload 8 8) l.length l.length) with
      | .error e => done (s.bulkMet d f.ptag space (spanCuts (fieldAt f.payload 8 8) l.length l.length)) e
      | .ok plan =>
        let r := s.bulkPut d l plan
        done r.1 (if r.2 then 0 else 10)

/-- WRITE (R366, R368, R371). -/
def execWrite (f : HostFrame) (s : State) : Host.Outcome State Fault Refusal :=
  if !s.bulkReady f (f.payload.length - 16) then .next s else hostFrame f 6 s fun s c => s.hostWrite f c

/-- A READ performed (R371). -/
def State.hostRead (s : State) (f : HostFrame) (c : Nat) : State :=
  let done := fun (s : State) (x : Nat) => s.sendDone c f.ptag f.die.toNat f.seq x 0
  let space := fieldAt f.payload 0 1
  let n := fieldAt f.payload 16 4
  match s.physDie? f.die.toNat with
  | none => done s 11
  | some d =>
    if f.payload.length < 20 || 1 < space || 2 ^ 20 < n then done s 11
    else if space = 1 && decide (Config.stackBytes ≤ fieldAt f.payload 8 8) then done s 9
    else match s.bulkPlan d f.ptag space (spanCuts (fieldAt f.payload 8 8) n n) with
      | .error e => done (s.bulkMet d f.ptag space (spanCuts (fieldAt f.payload 8 8) n n)) e
      | .ok plan =>
        match s.bulkMeet d plan with
        | (s, false) => done s 10
        | (s, true) =>
          let l := plan.flatMap fun x => (List.range x.2).map fun i => s.stackByte d (x.1 + i)
          let room := ((aget s.conns c).map (·.room)).getD 1484
          done (s.sendBytes c 5 f.ptag f.die.toNat room l l.length) 0

/-- READ (R366, R368, R371). -/
def execRead (f : HostFrame) (s : State) : Host.Outcome State Fault Refusal :=
  if !s.bulkReady f (min (2 ^ 20) (fieldAt f.payload 16 4)) then .next s else hostFrame f 7 s fun s c => s.hostRead f c

/-- The standing GETs of a connection cancelled (R367). -/
def State.dropStanding (s : State) (c : Nat) : State :=
  let dropD := fun (e : Nat × Die) => (e.1, { e.2 with rasWaiters := e.2.rasWaiters.filter fun w => w.1 != c })
  let s := { s with dies := s.dies.map dropD }
  (s.msgs.filter fun e => match e.2.sender with
    | .host c' _ st => c' == c && st
    | .group _ _ _ | .port _ _ | .far _ _ => false).foldl (fun s e => (s.cancelStanding c e.2.qid e.2.ptag 0#32).1) s

/-- A connection ends: its standing GETs are cancelled, and the elements DATA has carried without acknowledgement are lost and
counted (R367). -/
def State.closeConn (s : State) (c : Nat) (report : Bool) : State :=
  match aget s.conns c with
  | none => s
  | some x =>
    let lost := (x.elemsOut.map (·.2)).sum
    let s := { s.dropStanding c with hostLost := s.hostLost + lost }
    let s := { s with conns := adel s.conns c }
    match s.manager 0 with
    | some d =>
      if report || 0 < lost then (s.modDie d fun v => { v with rasLost := v.rasLost + lost }).rasPut d { kind := 4 } else s
    | none => s

/-- CLOSE (R366, R367). -/
def execClose (f : HostFrame) (s : State) : Host.Outcome State Fault Refusal :=
  hostFrame f 9 s fun s c => s.closeConn c false

/-- RETRANSMISSION_TIMEOUT: every unacknowledged frame is sent again, oldest first; after 64 times without progress the connection
closes and is reported (R367). -/
def execRetransmissionTimeout (conn : Nat) (s : State) : Host.Outcome State Fault Refusal :=
  match aget s.conns conn with
  | none => .next s
  | some x =>
    if x.unacked.isEmpty || s.clock < x.lastAck + x.timeout * usClocks then .next s
    else if 64 ≤ x.retries then .next (s.closeConn conn true)
    else
      let fs := x.unacked.map fun f => { f with ack := x.rxSeq }
      .next ({ s with conns := aput s.conns conn { x with unacked := fs, retries := x.retries + 1, lastAck := s.clock } }.putOut conn fs)

end Sys2Proof.Machine
end

