-- ==== Sys2Proof/Machine/Commands.lean ====
section
/-! DEFINITION. The commands of the host (R372 to R375) and what each does (R22, R228, R238, R312, R373, R386 to R391). -/

namespace Sys2Proof.Machine

/-- The operand bytes a command lists (R374): offset and length of each. -/
def listed (code : Nat) : List (Nat × Nat) :=
  match code with
  | 1 => [(0x08, 2), (0x10, 8), (0x18, 4)]
  | 2 => [(0x08, 2), (0x0C, 4), (0x10, 4)]
  | 3 => [(0x08, 2), (0x10, 8), (0x18, 8), (0x20, 4)]
  | 4 => [(0x08, 1), (0x0A, 10), (0x18, 8), (0x20, 1), (0x24, 18)]
  | 5 => [(0x08, 2), (0x0C, 4)]
  | 6 => [(0x08, 1), (0x10, 8)]
  | 7 => [(0x08, 1), (0x0C, 4), (0x10, 1)]
  | 8 => [(0x08, 4)]
  | 9 => [(0x08, 1)]
  | 10 => [(0x08, 1)]
  | 12 => [(0x08, 2), (0x0C, 4), (0x10, 8)]
  | 13 => [(0x08, 2)]
  | 14 => [(0x08, 1), (0x0C, 4), (0x10, 8), (0x18, 4)]
  | 15 => [(0x08, 2)]
  | _ => []

/-- Whether the reserved bytes of an element and its operand bytes that are not listed are zero (R372, R374). -/
def cmdZero (c : List Byte) : Bool :=
  let l := listed (fieldAt c 0 1)
  fieldAt c 1 3 == 0 && fieldAt c 6 2 == 0 &&
  ((List.range 56).map (· + 8)).all fun o => fieldAt c o 1 == 0 || l.any fun x => decide (x.1 ≤ o) && decide (o < x.1 + x.2)

/-- The bytes of space 1 that a command reads: ROUTES' table and KEY_INSTALL's key (R373). -/
def cmdReads (c : List Byte) : List (Nat × Nat) :=
  let n := if fieldAt c 0 1 = 6 then 256 else if fieldAt c 0 1 = 12 then 32 else 0
  spanCuts (fieldAt c 0x10 8) n n

/-- Whether a command waits for a test or a repair of a row that it reads, or of the tables that map a SLOT's cellar (R383, R386). -/
def State.cmdBusyRows (s : State) (d : Nat) (c : List Byte) : Bool :=
  s.bulkBusy d (cmdReads c) ||
  (fieldAt c 0 1 == 4 &&
    (List.range (fieldAt c 0x12 2)).any fun i => s.xlateBusy d (BitVec.ofNat 12 (fieldAt c 0x0C 2)) (fieldAt c 0x18 8 + 65536 * i))

/-- The oldest command of a die begun when it has a code and no other is in progress: `k` is its effect, and one with a bad
element completes REFUSED (R372, R374, R375). -/
def State.command (s : State) (d code : Nat) (k : State → List Byte → State) : Host.Outcome State Fault Refusal :=
  match (s.die d).cmdQ with
  | [] => .next s
  | c :: rest =>
    if (s.die d).cmdBusy.isSome || fieldAt c 0 1 ≠ code || s.cmdBusyRows d c then .next s
    else
      let s := s.modDie d fun v => { v with cmdQ := rest }
      if cmdZero c then .next (k s c) else .next (s.cmdDone d c 1)

/-- A command whose operands are in range has its effect; another is REFUSED (R374). -/
def State.cmdIf (s : State) (d : Nat) (c : List Byte) (ok : Bool) (k : State → State) : State :=
  if ok then (k s).cmdDone d c 0 else s.cmdDone d c 1

/-- REFUSED_COMMAND: a code that is not assigned (R373). -/
def execRefusedCommand (die : Nat) (s : State) : Host.Outcome State Fault Refusal :=
  match (s.die die).cmdQ with
  | [] => .next s
  | c :: rest =>
    let code := fieldAt c 0 1
    if (s.die die).cmdBusy.isSome || (1 ≤ code && code ≤ 15) then .next s
    else .next ((s.modDie die fun v => { v with cmdQ := rest }).cmdDone die c 1)

/-- The 64 KiB pages, by number, of an INVALIDATE_VA: first and count. -/
def vaRange (c : List Byte) : Nat × Nat := (fieldAt c 0x10 8 / 65536, fieldAt c 0x18 4)

/-- Whether a page of `n` 64 KiB, named by its key, lies in part in the range of an INVALIDATE_VA. -/
def inVa (c : List Byte) (key n : Nat) : Bool :=
  let r := vaRange c
  decide (key / 2 ^ 32 = fieldAt c 0x08 2) && decide (r.1 < key % 2 ^ 32 + n) && decide (key % 2 ^ 32 < r.1 + r.2)

/-- Translations left when a range is invalidated (R312). -/
def tlbOutside (c : List Byte) (l : List (Nat × TlbEntry)) : List (Nat × TlbEntry) :=
  l.filter fun e => !inVa c e.1 (pageSize e.2.level / 65536)

/-- A core of a die with the translations of an invalidated range gone (R312). -/
def coreOutside (die : Nat) (c : List Byte) (e : Nat × Core) : Nat × Core :=
  if e.1 / Config.nCores = die then (e.1, { e.2 with tlb := tlbOutside c e.2.tlb }) else e

/-- Whether an access that an old translation may have served is still in flight on a die, or a record that the copy engine runs by
one (R312): the translation may have been of a page of 1 GiB, so those of the whole GiB are waited for. -/
def State.vaBusy (s : State) (d : Nat) (c : List Byte) : Bool :=
  (s.flight.any fun e =>
    keyDie (agKey e.2.ag) == d && e.2.space == .glob &&
    e.2.pieces.any fun p => !p.done && inVa c (pageKey (s.ptagOf (agKey e.2.ag)) (p.va / 2 ^ 30 * 2 ^ 30)) 16384) ||
  s.cores.any fun e => e.1 / Config.nCores == d && e.2.subs.any fun u => u.2.running.any fun r =>
    !r.2.todo.isEmpty && r.2.pages.any fun p => inVa c (p / 16384 * 16384) 16384

/-- INVALIDATE_VA (R312, R373): the cached translations go, and the command completes once every access translated by them is
performed. -/
def execInvalidateVa (die : Nat) (s : State) : Host.Outcome State Fault Refusal :=
  match (s.die die).cmdBusy with
  | some c => if fieldAt c 0 1 = 1 && !s.vaBusy die c then .next (s.cmdDone die c 0) else .next s
  | none =>
    s.command die 1 fun s c =>
      let ok := decide (fieldAt c 0x08 2 < 4096) && fieldAt c 0x10 8 % 65536 == 0 && decide (fieldAt c 0x10 8 < 2 ^ 48) &&
        decide (1 ≤ fieldAt c 0x18 4)
      if !ok then s.cmdDone die c 1
      else
        let s := s.modDie die fun v => { v with tlb := tlbOutside c v.tlb, walkFails := v.walkFails.filter fun e => !inVa c e.1 1 }
        let s := { s with cores := s.cores.map (coreOutside die c) }
        if s.vaBusy die c then s.modDie die fun v => { v with cmdBusy := some c } else s.cmdDone die c 0

/-- INVALIDATE_QID (R228, R373). -/
def execInvalidateQid (die : Nat) (s : State) : Host.Outcome State Fault Refusal :=
  s.command die 2 fun s c =>
    let p := fieldAt c 0x08 2
    let a := fieldAt c 0x0C 4
    let n := fieldAt c 0x10 4
    s.cmdIf die c (decide (p < 4096) && decide (a < 2 ^ 30) && decide (1 ≤ n)) fun s =>
      s.modDie die fun v => { v with qcache := v.qcache.filter fun e =>
        !(decide (e.1 / 2 ^ 30 = p) && decide (a ≤ e.1 % 2 ^ 30) && decide (e.1 % 2 ^ 30 < a + n)) }

/-- PROCESS (R255, R311, R373). -/
def execProcess (die : Nat) (s : State) : Host.Outcome State Fault Refusal :=
  s.command die 3 fun s c =>
    let p := fieldAt c 0x08 2
    let root := fieldAt c 0x10 8
    let tab := fieldAt c 0x18 8
    let n := fieldAt c 0x20 4
    let ok := decide (p < 4096) && root % 256 == 0 && tab % 8 == 0 && decide (1 ≤ n) && decide (n ≤ 2 ^ 30) &&
      decide (root + 4096 ≤ Config.stackBytes) && decide (tab + 8 * n ≤ Config.stackBytes)
    s.cmdIf die c ok fun s =>
      s.modDie die fun v =>
        { v with procs := aput v.procs p { root := root, qtab := tab, qlen := n }, discards := sset 0#32 v.discards p 0#32 }

/-- Bytes of one slot of a queue's window (R238). -/
def slotBytes (kind size : Nat) : Nat := if kind = 1 then 512 else 16 * 2 ^ size

/-- Bytes of the windows of a port's queues, but for one (R238). -/
def State.windowBytes (s : State) (port but : Nat) : Nat :=
  ((s.queues.filter fun e => e.1 / 4096 == port && e.1 != but).map fun e => e.2.window * slotBytes e.2.kind e.2.size.toNat).sum

/-- Whether every page of a cellar is mapped and a DIE page homed on the die (R238). -/
def State.cellarOk (s : State) (d : Nat) (ptag : BitVec 12) (base n : Nat) : Bool :=
  (List.range n).all fun i =>
    match s.xlate d ptag (base + 65536 * i) with
    | .ok e => e.cls == 1 && some e.home == s.logDie? d
    | .fail _ => false

/-- The landing binding of a SLOT command (R249, R374): none inside where it is out of range. -/
def slotLanding (c : List Byte) : Option (Option Landing) :=
  if fieldAt c 0x20 1 = 0 then (if fieldAt c 0x24 18 = 0 then some none else none)
  else
    let r1 := fieldAt c 0x30 4
    if fieldAt c 0x20 1 ≠ 1 || fieldAt c 0x2C 4 % 64 ≠ 0 || (r1 ≠ 0xFFFFFFFF && r1 % 64 ≠ 0) || fieldAt c 0x34 2 = 0 then none
    else
      some (some
        { tag := BitVec.ofNat 32 (fieldAt c 0x24 4), team := BitVec.ofNat 32 (fieldAt c 0x28 4), ring0 := fieldAt c 0x2C 4
          ring1 := if r1 = 0xFFFFFFFF then none else some r1, slots := fieldAt c 0x34 2 })

/-- Whether the fields of a SLOT command are in their ranges (R238, R374). -/
def slotRange (c : List Byte) : Bool :=
  let ks := fieldAt c 0x0F 1
  let base := fieldAt c 0x18 8
  decide (fieldAt c 0x08 1 < 4) && decide (fieldAt c 0x0A 2 < 4096) && decide (fieldAt c 0x0C 2 < 4096) && decide (fieldAt c 0x0E 1 < 64) &&
  ks / 4 % 4 == 0 && decide (ks % 4 < 3) && decide (ks / 16 < 5) && base % 65536 == 0 && decide (base < 2 ^ 48) && (slotLanding c).isSome

/-- Whether the queue of a SLOT command has room: its depth, and its window among those of its port (R238, R239). -/
def State.slotFits (s : State) (k : Nat) (c : List Byte) : Bool :=
  let n := slotBytes (fieldAt c 0x0F 1 % 4) (fieldAt c 0x0F 1 / 16)
  let win := fieldAt c 0x10 2
  decide (win + fieldAt c 0x12 2 * 65536 / n < 2 ^ 31) && decide (s.windowBytes (k / 4096) k + win * n ≤ 4128768)

/-- The queue a SLOT command configures, none where it is refused (R238, R374). -/
def State.slotQueue (s : State) (d k : Nat) (c : List Byte) : Option Queue :=
  let kind := fieldAt c 0x0F 1 % 4
  let size := fieldAt c 0x0F 1 / 16
  let win := fieldAt c 0x10 2
  let pages := fieldAt c 0x12 2
  let base := fieldAt c 0x18 8
  let owner := BitVec.ofNat 12 (fieldAt c 0x0C 2)
  if !slotRange c || !s.slotFits k c then none
  else if !s.cellarOk d owner base pages then none
  else (slotLanding c).map fun l =>
    { owner := owner, gen := BitVec.ofNat 6 (fieldAt c 0x0E 1), kind := kind, size := BitVec.ofNat 3 size, window := win
      cellarBase := BitVec.ofNat 48 base, cellarPages := pages, landing := l }

/-- The waiters of a slot that is re-created or removed: each get stands next again (R248). R248 speaks of groups: a host's standing
GET is dropped, with no DONE (log 60). -/
def State.clearWaiters (s : State) (k : Nat) : State :=
  (((aget s.queues k).map (·.waiters)).getD []).foldl (fun s w =>
    match aget s.msgs w with
    | none => s
    | some m =>
      match m.sender with
      | .far p uid => { s with msgs := adel s.msgs w }.wireAnswer m p uid 0x46 0 0#32 []
      | .group _ _ _ | .port _ _ | .host _ _ _ => s.getForget w) s

/-- A slot configured: its binding is looked at for the teams that are placed (R251). R251 speaks of a count from the team's
placement only: for a team that runs already, the model counts from 0 at the SLOT command, whatever DELIVERED its ring holds
(log 77). -/
def State.newSlot (s : State) (d k : Nat) (q : Queue) : State :=
  let s := (s.clearWaiters k).putQueue k q
  match q.landing.bind fun l => s.shareByTag d q.owner l.tag with
  | none => s
  | some (id, _) =>
    let ts := s.teamsOf d id
    (ts.zip (List.range ts.length)).foldl (fun s x => s.bindSlot k d (x.1.1 % Config.nSlots) x.1.2 (x.2 == 0)) s

/-- An error met by the walks for a SLOT command's cellar, which end at the first that fails (R3, R382). -/
def State.cellarMet (s : State) (d : Nat) (c : List Byte) : State :=
  let owner := BitVec.ofNat 12 (fieldAt c 0x0C 2)
  match (List.range (fieldAt c 0x12 2)).find? fun i => s.xlate d owner (fieldAt c 0x18 8 + 65536 * i) matches .fail _ with
  | none => s
  | some i => s.walkMet d owner (fieldAt c 0x18 8 + 65536 * i)

/-- SLOT (R238, R248, R251, R373). -/
def execSlot (die : Nat) (s : State) : Host.Outcome State Fault Refusal :=
  s.command die 4 fun s c =>
    let port := fieldAt c 0x08 1
    let slot := fieldAt c 0x0A 2
    let k := queueKey die port slot
    if !slotRange c then s.cmdDone die c 1
    else if fieldAt c 0x10 2 = 0 then
      { s.clearWaiters k with queues := adel s.queues k }.cmdDone die c 0
    else match s.slotQueue die k c with
      | none => (if s.slotFits k c then s.cellarMet die c else s).cmdDone die c 1
      | some q => (s.newSlot die k q).cmdDone die c 0

/-- SHARE (R46, R373). -/
def execShare (die : Nat) (s : State) : Host.Outcome State Fault Refusal :=
  s.command die 5 fun s c =>
    let p := fieldAt c 0x08 2
    s.cmdIf die c (decide (p < 4096)) fun s =>
      s.modDie die fun v => { v with traffic := aput v.traffic p { agetD v.traffic p {} with share := fieldAt c 0x0C 4 } }

/-- Whether a launch is resident on the panel (R22). -/
def State.launchResident (s : State) : Bool :=
  !s.teams.isEmpty ||
  s.dies.any fun e => !e.2.launchQ.isEmpty || !e.2.forwards.isEmpty || e.2.shares.any fun x => x.2.life == .waiting

/-- `n` bytes of space 1 that a die controller reads: none outside the stack, or where an error or poison is met. -/
def State.ctlRead (s : State) (d a n : Nat) : State × Option (List Byte) :=
  if Config.stackBytes < a + n then (s, none)
  else match s.bulkMeet d (spanCuts a n n) with
    | (s, false) => (s, none)
    | (s, true) => (s, some ((List.range n).map fun i => s.stackByte d (a + i)))

/-- ROUTES (R22, R23, R390). -/
def execRoutes (die : Nat) (s : State) : Host.Outcome State Fault Refusal :=
  s.command die 6 fun s c =>
    let p := BitVec.ofNat 8 (fieldAt c 0x08 1)
    match s.ctlRead die (fieldAt c 0x10 8) 256 with
    | (s, none) => s.cmdDone die c 1
    | (s, some t) =>
      s.cmdIf die c (t.all (fun b => bits b 6 5 == 0) && (p == s.panelNo || !s.launchResident)) fun s =>
        { s with routes := some t, panelNo := p }

/-- The key of a pseudo-channel's repairs by a method. -/
def repairKey (d : Nat) (c : List Byte) : Nat := (d * 96 + fieldAt c 0x08 1) * 2 + fieldAt c 0x10 1

/-- ROW_REPAIR begins (R386): REFUSED with no spare left; `spare` says whether the stack has one for post-package repair. -/
def execRowRepair (die : Nat) (spare : Bool) (s : State) : Host.Outcome State Fault Refusal :=
  s.command die 7 fun s c =>
    let ok := decide (fieldAt c 0x08 1 < 96) && decide (fieldAt c 0x0C 4 < 2 ^ 24) && decide (fieldAt c 0x10 1 < 2)
    let room := if fieldAt c 0x10 1 = 1 then decide ((agetD s.flash.remaps (repairKey die c) []).length < 256) else spare
    if ok && room then s.modDie die fun v => { v with cmdBusy := some c } else s.cmdDone die c 1

/-- Whether a sector of a die lies in the row a ROW_REPAIR names. -/
def inRow (d : Nat) (c : List Byte) (sector : Nat) : Bool :=
  decide (sector * 64 / 2 ^ 36 = d) &&
  decide (stackPlace (sector * 64 % 2 ^ 36) = fieldAt c 0x08 1 * 2 ^ 24 + fieldAt c 0x0C 4)

/-- ROW_REPAIR completes (R386): the row is redirected, its errors arrive poisoned, those of an L2 copy not among them, and its lasting
defects are gone; FAILED where the row still fails its test. -/
def execRowRepairComplete (die : Nat) (ok : Bool) (s : State) : Host.Outcome State Fault Refusal :=
  match (s.die die).cmdBusy with
  | none => .next s
  | some c =>
    if fieldAt c 0 1 ≠ 7 then .next s
    else
      let k := repairKey die c
      let s := (s.ue.filter fun x => inRow die c x && !s.ueL2.contains x).foldl (fun s x => s.poisonStack die (x * 64 % 2 ^ 36)) s
      let fl := { s.flash with remaps := aput s.flash.remaps k (agetD s.flash.remaps k [] ++ [fieldAt c 0x0C 4]) }
      let s := { s with flash := fl, ueLasting := if ok then s.ueLasting.filter fun x => !inRow die c x else s.ueLasting }
      .next ((s.cmdDone die c (if ok then 0 else 2)).wakeDie die)

/-- Whether a link that a command names exists and belongs to a die (R373, R378). -/
def State.linkOwned (s : State) (d kind link : Nat) : Bool :=
  if kind = 0 then decide (link < 4) && portHasLink d link
  else kind == 1 && decide (link < 32) && s.manager link == some d && (aget s.links link).isSome

/-- LANE_SWAP (R381, R387): the link pauses and retrains with the spare in the lane's place, a Delup link in the session in force; the
command completes with the training. A training under way goes on, with the spare, in the session it has begun (R380). `ok` is false where the lane that takes over fails its test at once. -/
def execLaneSwap (die : Nat) (ok : Bool) (s : State) : Host.Outcome State Fault Refusal :=
  s.command die 8 fun s c =>
    let kind := fieldAt c 0x08 1
    let link := fieldAt c 0x09 1
    let grp := fieldAt c 0x0A 1
    let lane := fieldAt c 0x0B 1
    let key := if kind = 0 then (die * 4 + link) * 8 + grp else 2 ^ 16 + link
    let used := agetD s.flash.spares key []
    if !s.linkOwned die kind link || (if kind = 0 then 8 ≤ grp else grp ≠ 0 || 18 ≤ lane) || (if kind = 0 then 1 else 2) ≤ used.length then
      s.cmdDone die c 1
    else
      let s := { s with flash := { s.flash with spares := aput s.flash.spares key (used ++ [lane]) } }
      if ok then
        let s := s.modDie die fun v => { v with cmdBusy := some c }
        if kind = 0 then
          { s with d2dDown := nsInsert s.d2dDown (linkKey die link), d2dTrain := nsInsert s.d2dTrain (linkKey die link) }
        else { s with links := amod s.links link fun x => { x with up := false, training := some (x.training.getD (s.clock, !x.txKey.isEmpty)) } }
      else if kind = 0 then
        ({ s with d2dDown := nsInsert s.d2dDown (linkKey die link) }.rasPut die { kind := 3, struct_ := 7, unit := link }).cmdDone die c 2
      else ({ s with links := amod s.links link fun x => { x with up := false } }.linkRas link 0 0).cmdDone die c 2

/-- RETIRE_CORE (R22, R388, R394): the core is held and its teams are asked to pre-empt; the command completes when the core is
empty. -/
def execRetireCore (die : Nat) (s : State) : Host.Outcome State Fault Refusal :=
  s.command die 9 fun s c =>
    let k := fieldAt c 0x08 1
    let x := s.die die
    if 128 ≤ k || (s.fusedCores die).getLsbD k || x.retired.getLsbD k || x.hold.getLsbD k then s.cmdDone die c 1
    else
      let bit : BitVec 128 := 1#128 <<< k
      let s := s.modDie die fun v => { v with hold := v.hold ||| bit, cmdBusy := some c }
      let s := { s with flash := { s.flash with retCores := sset 0#128 s.flash.retCores die (sget 0#128 s.flash.retCores die ||| bit) } }
      let s := (s.teamsOn die k).foldl (fun s e =>
        (s.modTeam die (e.1 % Config.nSlots) fun t => { t with avoid := nsInsert t.avoid k }).requestPreempt die (e.1 % Config.nSlots) false) s
      s.coresLeft die

/-- EXCLUDE_DIE (R22, R389). -/
def execExcludeDie (die : Nat) (s : State) : Host.Outcome State Fault Refusal :=
  s.command die 10 fun s c =>
    let bit : BitVec 128 := 1#128 <<< die
    s.cmdIf die c (fieldAt c 0x08 1 == die) fun s =>
      { s with exclNow := s.exclNow ||| bit, flash := { s.flash with exclDies := s.flash.exclDies ||| bit } }

/-- RENUMBER (R20, R22): the die numbering built anew while no launch is resident. -/
def execRenumber (die : Nat) (s : State) : Host.Outcome State Fault Refusal :=
  s.command die 11 fun s c =>
    s.cmdIf die c (!s.launchResident) fun s =>
      let keep := fun (d : Nat) => (s.die d).live && !s.exclNow.getLsbD d && !(s.die d).coreMap.isEmpty
      let cut := fun (e : Nat × Die) => (e.1, { e.2 with live := keep e.1 })
      { s with dieMap := (List.range Config.nDies).filter keep, dies := s.dies.map cut }

/-- A Delup link goes down and trains again: its session is over, and a new one begins with the training (R261, R380). -/
def Link.retrain (x : Link) (now : Nat) : Link :=
  { x with up := false, training := some (now, false), txStopped := false, txKey := [], rxKey := [] }

/-- KEY_INSTALL (R261, R373, R374). -/
def execKeyInstall (die : Nat) (s : State) : Host.Outcome State Fault Refusal :=
  s.command die 12 fun s c =>
    let l := fieldAt c 0x08 1
    let dir := fieldAt c 0x09 1
    let a := fieldAt c 0x10 8
    if !s.linkOwned die 1 l || 2 ≤ dir || a % 32 ≠ 0 then s.cmdDone die c 1
    else match s.ctlRead die a 32 with
      | (s, none) => s.cmdDone die c 1
      | (s, some key) =>
        let fl := { s.flash with keys := aput s.flash.keys (l * 2 + dir) { key := key, const := BitVec.ofNat 32 (fieldAt c 0x0C 4) } }
        let s := { s.stackWrite die a (List.replicate 32 0#8) with flash := fl }
        { s with links := amod s.links l fun x => x.retrain s.clock }.cmdDone die c 0

/-- LINK_RESET (R373, R380). -/
def execLinkReset (die : Nat) (s : State) : Host.Outcome State Fault Refusal :=
  s.command die 13 fun s c =>
    let kind := fieldAt c 0x08 1
    let link := fieldAt c 0x09 1
    s.cmdIf die c (s.linkOwned die kind link) fun s =>
      if kind = 0 then
        { s with d2dDown := nsInsert s.d2dDown (linkKey die link), d2dTrain := nsInsert s.d2dTrain (linkKey die link) }
      else { s with links := amod s.links link fun x => { x.retrain s.clock with txStopped := x.txStopped } }

/-- The class of a test's result (R384): three errors of the location within one second make it LASTING. -/
def testClass (r : TestResult) (e : ErrCount) : Nat :=
  let second := 800000000
  let three := match e.times with
    | [a, _, c] => decide (a < c + second)
    | _ => false
  match r with
  | .fail => 2
  | .unfinished => if three then 2 else 3
  | .pass => if three then 2 else 1

/-- Whether UNIT, ADDRESS and DETAIL name a location of a structure as a RAS element would (R374, R385): a core, slice, port or link of
the die, one it manages where it is a Delup link (R375); of the stack an offset, a pseudo-channel and a row; of a link a lane. How many
rows an SRAM has, and how many lanes a die-to-die link, the spec does not give. -/
def State.selftestOk (s : State) (d st unit addr detail : Nat) : Bool :=
  match st with
  | 0 | 1 | 4 | 5 => decide (unit < Config.nCores) && detail == 0
  | 2 => decide (unit < 32) && detail == 0
  | 3 => decide (unit < 4) && detail == 0
  | 6 => unit == 0 && decide (addr < Config.stackBytes) && decide (detail / 2 ^ 24 < 96)
  | 7 => s.linkOwned d 0 unit && addr == 0
  | 8 => s.linkOwned d 1 unit && addr == 0 && decide (detail < 18)
  | 9 => detail == 0
  | _ => false

/-- SELFTEST (R373, R383, R384): the test is run, classified and reported. -/
def execSelftest (die : Nat) (r : TestResult) (s : State) : Host.Outcome State Fault Refusal :=
  s.command die 14 fun s c =>
    let st := fieldAt c 0x08 1
    let unit := fieldAt c 0x0C 4
    let addr := fieldAt c 0x10 8
    if !s.selftestOk die st unit addr (fieldAt c 0x18 4) then s.cmdDone die c 1
    else
      let e := agetD (s.die die).errCounts (locKey st unit addr) { n := 0, times := [] }
      (s.rasPut die { kind := 1, sev := 2, cls := testClass r e, struct_ := st, unit := unit, detail := fieldAt c 0x18 4,
                      addr := addr, count := e.n }).cmdDone die c (if r = .fail then 2 else 0)

/-- PORT (R364, R373): the EtherType is stored for the next bring-up. -/
def execPort (die : Nat) (s : State) : Host.Outcome State Fault Refusal :=
  s.command die 15 fun s c =>
    s.cmdIf die c (s.manager 0 == some die) fun s =>
      { s with flash := { s.flash with etherType := BitVec.ofNat 16 (fieldAt c 0x08 2) } }

end Sys2Proof.Machine
end

