-- ==== Sys2Proof/Machine/Power.lean ====
section
/-! DEFINITION. Bring-up (R19, R20, R22, R376 to R378), targeted tests (R383, R384), and power and heat (R392, R393). -/

namespace Sys2Proof.Machine

/-- Whether a die takes part from bring-up (R19): not fused off, not excluded, its firmware loaded, its home stack initialised. -/
def State.takesPart (s : State) (b : BringupInfo) (d : Nat) : Bool :=
  !s.flash.fuseDies.getLsbD d && !s.flash.exclDies.getLsbD d && !b.darkDies.contains d && !b.deadStacks.contains d

/-- A die as bring-up makes it: its cores numbered (R20); it is live with at least one live core (R19). -/
def State.bringDie (s : State) (b : BringupInfo) (d : Nat) : Die :=
  let gone := sget 0#128 s.flash.retCores d
  let r := numberCores (gone ||| s.fusedCores d)
  let base : Die := { retired := gone, coreMap := r.1, pairs := r.2 }
  { base with live := s.takesPart b d && !r.1.isEmpty }

/-- A Delup link that begins to train (R376, R380). -/
def freshLink : Link := { training := some (0, false) }

/-- Everything of the panel but its flash, its schedule and the counters of the model begins anew: nothing else outlives the loss
of power (R392, R393). -/
def State.blank (s : State) : State :=
  { State.reset with flash := s.flash, agenda := s.agenda, tick := s.tick, fresh := s.fresh }

/-- The dies, their numbering and the maps of a panel that comes up (R19, R20, R22, R376). -/
def State.numberPanel (s : State) (b : BringupInfo) : State :=
  let dies := (List.range Config.nDies).map fun d => (d, s.bringDie b d)
  let dark := (b.darkDies.filter fun d => decide (d < Config.nDies)).foldl (fun (m : BitVec 128) d => m ||| (1#128 <<< d)) 0#128
  { s with
    phase := .up
    dies := dies
    dieMap := (dies.filter fun e => e.2.live).map (·.1)
    exclNow := s.flash.exclDies ||| dark
    etherNow := s.flash.etherType
    d2dDown := (b.d2dDown.filter fun e => decide (e.1 < Config.nDies) && decide (e.2 < 4) && portHasLink e.1 e.2).foldl
      (fun l e => nsInsert l (linkKey e.1 e.2)) [] }

/-- The Delup links of the router dies that are up begin to train (R376, R378). -/
def State.startLinks (s : State) : State :=
  { s with links := ((List.range 32).filter fun l => (s.manager l).isSome).map fun l => (l, freshLink) }

/-- What bring-up reports: each dark die on the RAS queue of the lowest live die, and each die-to-die link that did not train on
its own die's (R376, R385). -/
def State.bringReport (s : State) (b : BringupInfo) : State :=
  let s := match s.dieMap with
    | [] => s
    | d :: _ => (b.darkDies.filter fun x => decide (x < Config.nDies)).foldl (fun s x => s.rasPut d { kind := 6, unit := x }) s
  s.d2dDown.foldl (fun s k => s.rasPut (k / 4) { kind := 3, struct_ := 7, unit := k % 4 }) s

/-- BRINGUP: the rails have reached range (R376). The Delup links and then the host port go on to train. -/
def execBringup (b : BringupInfo) (s : State) : Host.Outcome State Fault Refusal :=
  if s.phase = .up then .next s else .next (((s.blank.numberPanel b).startLinks).bringReport b)

/-- HOST_PORT_TRAIN_RETRY: once the Delup links have trained or failed, the host port trains; it is tried again until it succeeds
(R364, R376); with router die 0 down there is no port (R378). -/
def execHostPortTrainRetry (ok : Bool) (s : State) : Host.Outcome State Fault Refusal :=
  if s.phase = .up && !s.hostPort && ok && (s.manager 0).isSome && s.links.all fun e => e.2.training.isNone then .next { s with hostPort := true }
  else .next s

/-- The first pending test begun. -/
def startTest : List Test → List Test
  | [] => []
  | t :: l => if t.running then t :: startTest l else { t with running := true } :: l

/-- TARGETED_TEST_START (R383). -/
def execTargetedTestStart (die : Nat) (s : State) : Host.Outcome State Fault Refusal :=
  .next (s.modDie die fun v => { v with tests := startTest v.tests })

/-- TARGETED_TEST_COMPLETE: the oldest test that runs classifies its error, which is reported (R384, R385). -/
def execTargetedTestComplete (die : Nat) (r : TestResult) (s : State) : Host.Outcome State Fault Refusal :=
  match (s.die die).tests.find? (·.running) with
  | none => .next s
  | some t =>
    let s := s.modDie die fun v => { v with tests := v.tests.filter (· != t) }
    let e := agetD (s.die die).errCounts (locKey t.struct_ t.unit t.addr) { n := 0, times := [] }
    .next ((s.errorElem die t.struct_ t.unit t.addr t.detail t.sev (testClass r e) t.time).wakeDie die)

/-- THERMAL_REPORT: a junction of the die has reached 100 degrees (R392, R385). -/
def execThermalReport (die : Nat) (s : State) : Host.Outcome State Fault Refusal :=
  if (s.die die).live then .next (s.rasPut die { kind := 5 }) else .next s

/-- THERMAL_TRIP: the power stage removes every rail, and all state is lost (R392, R393). -/
def execThermalTrip (s : State) : Host.Outcome State Fault Refusal := .next s.blank

/-- POWER_DOWN: the rails go in reverse order, and all state is lost (R393). -/
def execPowerDown (s : State) : Host.Outcome State Fault Refusal := .next s.blank

end Sys2Proof.Machine
end

