-- ==== Sys2Proof/Machine/Clock.lean ====
section
/-! DEFINITION. What the passing of arithmetic clocks changes (R44, R48, R49, R304, R312, R369), and physical errors from outside
(R176, R382), and the caches of translations (R312). -/

namespace Sys2Proof.Machine

/-- A group's counts after `n` clocks: those as an active-set member under a pre-emption request (R304), and since when it is
ready in the pending set (R49). -/
def State.groupClock (s : State) (n : Nat) (k : Nat) (g : Group) : Group :=
  let ready := s.groupReady k
  let active := s.isActive k
  { g with
    activeClocks := if active && s.preemptAsked k then g.activeClocks + n else g.activeClocks
    readySince := if active || !ready then none else some (g.readySince.getD s.clock) }

/-- Clocks pass. -/
def State.passClocks (s : State) (n : Nat) : State :=
  let group := fun (e : Nat × Group) => (e.1, s.groupClock n e.1 e.2)
  let die := fun (e : Nat × Die) => (e.1, { e.2 with walkFails := [] })
  let s := { s with groups := s.groups.map group, clock := s.clock + n, dies := s.dies.map die }
  let s := s.settleSubs.workQueues.timeOuts
  s.dieMap.foldl (fun s d => ((s.closeWindow d).serveRas d ((s.die d).rasQ.length)).countWaits d) s

/-- A register whose value now holds an uncorrectable error, a v register's in a lane (R382). -/
def State.regError (s : State) (ag : Agent) (r lane : Nat) : State :=
  let m := match ag with
    | .frag _ _ _ _ => regMark r lane
    | .helper _ _ _ _ | .seq _ _ => BitVec.allOnes 64
  s.modTag ag r fun t => { t with poison := t.poison ||| m, ue := t.ue ||| m }

/-- An uncorrectable error in a queue window: the element becomes a void, the discard is counted and noticed, and the error is
tested and reported (R382). -/
def State.windowError (s : State) (k i : Nat) : State :=
  match aget s.queues k with
  | none => s
  | some q =>
    match q.pos[i]? with
    | none => s
    | some p =>
      if !p.inWin || ((p.elem.map (·.void)).getD true) then s
      else ((s.voidLost k i).reportError (k / 16384) 3 (k % 16384 / 4096) (k % 4096) 0 1).workQueue k

/-- A physical error comes about: it is met later (R176, R382), or it is corrected, counted and tested (R383). -/
def State.upset (s : State) (u : Upset) : State :=
  match u with
  | .stack d x lasting =>
    { s with ue := nsInsert s.ue (stackKey d 0 / 64 + x), ueLasting := if lasting then nsInsert s.ueLasting (stackKey d 0 / 64 + x) else s.ueLasting }
  | .locMem d n b => s.modTeam d n fun t => { t with localUe := nsInsert t.localUe b }
  | .tun d c r => s.modCore d c fun x => { x with tunUe := nsInsert x.tunUe r }
  | .reg d n g r l => s.regError (.frag d n g 0) r l
  | .helperReg d n g h r => s.regError (.helper d n g h) r 0
  | .mreg d n r => s.regError (.seq d n) r 0
  | .groupState d n g => s.modGroup (groupKey d n g) fun x => { x with stateUe := true }
  | .window d p n i => s.windowError (queueKey d p n) i
  | .grist d c e => s.modCore d c fun x => { x with gristPoison := nsInsert x.gristPoison e, gristUe := nsInsert x.gristUe e }
  | .l1 d c line => s.modCore d c fun x => { x with l1 := amod x.l1 line fun y => { y with ue := true } }
  | .l2 d x =>
    if s.l2Holds d (x / 4) then
      { s with ue := nsInsert s.ue (stackKey d 0 / 64 + x), ueL2 := nsInsert s.ueL2 (stackKey d 0 / 64 + x) }
    else s
  | .corrected d st u a dt => s.reportError d st u a dt 0

/-- A translation taken up by the die's TLB and a core's, from the die's TLB or a walk (R312): of two full TLBs, what goes is free.
A walk of tables under test or repair waits (R383, R386). -/
def State.tlbFill (s : State) (d c : Nat) (ptag : BitVec 12) (va : Nat) : State :=
  if s.xlateBusy d ptag va then s
  else match s.xlate d ptag va with
  | .fail _ => s
  | .ok e =>
    let key := pageKey ptag (va / pageSize e.level * pageSize e.level)
    let s1 := s.modDie d fun x => { x with tlb := tlbPut Config.dieTlb s.tick x.tlb key e }
    (s1.modCore d c fun x => { x with tlb := tlbPut Config.coreTlb (s.tick + 1) x.tlb key e }).draw.draw

/-- A TLB gives up an entry: a core's, or the die's (R312). -/
def State.tlbDrop (s : State) (d : Nat) (core : Option Nat) (key : Nat) : State :=
  match core with
  | some c => s.modCore d c fun x => { x with tlb := adel x.tlb key }
  | none => s.modDie d fun x => { x with tlb := adel x.tlb key }

end Sys2Proof.Machine
end

