-- ==== Sys2Proof/Machine/Lanes.lean ====
section
/-! DEFINITION. The cross-lane instructions (R157 to R161). -/

namespace Sys2Proof.Machine

/-- The width of the group that issues now. -/
def State.curWidth (s : State) : Nat := (s.cur.map s.width).getD 0

/-- S of SHFL (R158). -/
def segWidth (w : Nat) : SegCode → Nat
  | .whole => w
  | .s4 => 4
  | .s8 => 8
  | .s16 => 16
  | .s32 => 32
  | .s64 => 64

/-- The source lane of SHFL in lane `l` for the value `b` of B; none where the mode gives no valid lane (R158). -/
def shflSrc (m : ShflMode) (seg l b : Nat) : Option Nat :=
  let base := l - l % seg
  match m with
  | .idx => some (base + b % seg)
  | .up => if b < seg && base + b ≤ l then some (l - b) else none
  | .down => if b < seg && l + b < base + seg then some (l + b) else none
  | .xor => some (base + ((l - base) ^^^ (b % seg)))

/-- SHFL (R158). -/
def execShfl (d : RegNo) (a b : Src) (m : ShflMode) (seg : SegCode) (g : Guard) (s : State) :
    Host.Outcome State Fault Refusal :=
  let w := s.curWidth
  let n := segWidth w seg
  aluLanes { aluSpec false g [(a, 1), (b, 1)] d 1 with illop := decide (w < n) } d (fun x act l =>
    let from_ := match shflSrc m n l (x 1 0 l).toNat with
      | some y => if y < 64 && act.getLsbD y then y else l
      | none => l
    ([x 0 0 from_], Flags.none)) s

/-- The lanes of a mask whose value has bit 0 set (R159). -/
def ballot (act : Mask) (v : Nat → Word) : Mask := maskOf ((lanesOf act).filter fun l => (v l).getLsbD 0)

/-- A mask as one word, or as a pair (R159, R160). -/
def maskWords (wide : Bool) (m : Mask) : List Word := if wide then [loWord m, hiWord m] else [loWord m]

/-- VOTE (R159). -/
def execVote (d : RegNo) (a : Src) (m : VoteMode) (wide : Bool) (g : Guard) (s : State) :
    Host.Outcome State Fault Refusal :=
  aluLanes { aluSpec false g [(a, 1)] d (if wide then 2 else 1) with
             illop := (wide && m != .ballot) || (m == .ballot && !wide && s.curWidth == 64) } d (fun x act _ =>
    let b := ballot act (x 0 0)
    (match m with
      | .all => [wordOfBool (b == act)]
      | .any => [wordOfBool (b != 0#64)]
      | .eq => [wordOfBool (b == act || b == 0#64)]
      | .ballot => maskWords wide b, Flags.none)) s

/-- MATCH (R160): `wide` writes a pair, `pair` compares 64-bit values. -/
def execMatchLanes (d : RegNo) (a : Src) (wide pair : Bool) (g : Guard) (s : State) :
    Host.Outcome State Fault Refusal :=
  aluLanes { aluSpec false g [(a, if pair then 2 else 1)] d (if wide then 2 else 1) with
             illop := !wide && s.curWidth == 64 } d (fun x act l =>
    (maskWords wide (maskOf ((lanesOf act).filter fun k =>
      x 0 0 k == x 0 0 l && (!pair || x 0 1 k == x 0 1 l))), Flags.none)) s

/-- One step of a reduction (R161). -/
def laneStep (op : LaneOp) (a b : Word) : Word × Flags :=
  match op with
  | .add => quiet (a + b)
  | .min => quiet (minI false a b)
  | .max => quiet (maxI false a b)
  | .umin => quiet (minI true a b)
  | .umax => quiet (maxI true a b)
  | .and => quiet (a &&& b)
  | .or => quiet (a ||| b)
  | .xor => quiet (a ^^^ b)
  | .fadd => w32 (f32.add .rne a.toNat b.toNat)
  | .fmin => quiet (fminmax false a b)
  | .fmax => quiet (fminmax true a b)

/-- The identity of a reduction (R161). -/
def laneIdentity : LaneOp → Word
  | .add | .umax | .or | .xor => 0#32
  | .min => 0x7FFFFFFF#32
  | .max => 0x80000000#32
  | .umin | .and => 0xFFFFFFFF#32
  | .fadd => 0x80000000#32
  | .fmin => 0x7F800000#32
  | .fmax => 0xFF800000#32

/-- A fold in the order given, its flags gathered (R161). -/
def laneFold (op : LaneOp) (acc : Word × Flags) : List Word → Word × Flags
  | [] => acc
  | w :: t => laneFold op ((laneStep op acc.1 w).1, acc.2.or (laneStep op acc.1 w).2) t

/-- LRED's value (R161). -/
def lredW (op : LaneOp) : List Word → Word × Flags
  | [] => quiet (laneIdentity op)
  | w :: t => laneFold op (quiet w) t

/-- LRED (R161). -/
def execLred (d : RegNo) (a : Src) (op : LaneOp) (g : Guard) (s : State) : Host.Outcome State Fault Refusal :=
  aluLanes (aluSpec false g [(a, 1)] d 1) d (fun x act _ =>
    let r := lredW op ((lanesOf act).map (x 0 0))
    ([r.1], r.2)) s

/-- LSCAN (R161): the prefix before lane `l`, or up to it; the flags are those of the whole fold. -/
def execLscan (d : RegNo) (a : Src) (op : LaneOp) (excl : Bool) (g : Guard) (s : State) :
    Host.Outcome State Fault Refusal :=
  aluLanes (aluSpec false g [(a, 1)] d 1) d (fun x act l =>
    let id_ := quiet (laneIdentity op)
    let upTo := (lanesOf act).filter fun k => if excl then decide (k < l) else decide (k ≤ l)
    ([(laneFold op id_ (upTo.map (x 0 0))).1], (laneFold op id_ ((lanesOf act).map (x 0 0))).2)) s

end Sys2Proof.Machine
end

