-- ==== Sys2Proof/Machine/Dispatch.lean ====
section
/-! DEFINITION. Every instruction and event with its meaning: one arm per constructor of `Instr`. -/

namespace Sys2Proof.Machine

def exec (i : Instr) (s : State) : Host.Outcome State Fault Refusal :=
  match i with
  | .nop => Sys2Proof.Machine.execNop s
  | .bra tgt g => Sys2Proof.Machine.execBra tgt g s
  | .brx a g => Sys2Proof.Machine.execBrx a g s
  | .call link tgt g => Sys2Proof.Machine.execCall link tgt g s
  | .callx link a g => Sys2Proof.Machine.execCallx link a g s
  | .ret a g => Sys2Proof.Machine.execRet a g s
  | .join => Sys2Proof.Machine.execJoin s
  | .regang => Sys2Proof.Machine.execRegang s
  | .loop k a tgt => Sys2Proof.Machine.execLoop k a tgt s
  | .endlp k tgt => Sys2Proof.Machine.execEndlp k tgt s
  | .exit g => Sys2Proof.Machine.execExit g s
  | .exitS tgt keep => Sys2Proof.Machine.execExitS tgt keep s
  | .yield g => Sys2Proof.Machine.execYield g s
  | .trap code g => Sys2Proof.Machine.execTrap code g s
  | .tret => Sys2Proof.Machine.execTret s
  | .spawn a g => Sys2Proof.Machine.execSpawn a g s
  | .ltrig g => Sys2Proof.Machine.execLtrig g s
  | .csrr d num g => Sys2Proof.Machine.execCsrr d num g s
  | .csrw num a g => Sys2Proof.Machine.execCsrw num a g s
  | .iadd d a b m g => Sys2Proof.Machine.execIadd d a b m g s
  | .iaddImm d a imm m g => Sys2Proof.Machine.execIaddImm d a imm m g s
  | .isub d a b m g => Sys2Proof.Machine.execIsub d a b m g s
  | .isubImm d a imm m g => Sys2Proof.Machine.execIsubImm d a imm m g s
  | .addc d a b c g => Sys2Proof.Machine.execAddc d a b c g s
  | .subb d a b c g => Sys2Proof.Machine.execSubb d a b c g s
  | .imul d a b g => Sys2Proof.Machine.execImul d a b g s
  | .imulImm d a imm g => Sys2Proof.Machine.execImulImm d a imm g s
  | .imulh d a b u g => Sys2Proof.Machine.execImulh d a b u g s
  | .imad d a b c g => Sys2Proof.Machine.execImad d a b c g s
  | .imadw d a b c u g => Sys2Proof.Machine.execImadw d a b c u g s
  | .imin d a b u g => Sys2Proof.Machine.execImin d a b u g s
  | .iminImm d a imm u g => Sys2Proof.Machine.execIminImm d a imm u g s
  | .imax d a b u g => Sys2Proof.Machine.execImax d a b u g s
  | .imaxImm d a imm u g => Sys2Proof.Machine.execImaxImm d a imm u g s
  | .iabs d a sat g => Sys2Proof.Machine.execIabs d a sat g s
  | .ineg d a sat g => Sys2Proof.Machine.execIneg d a sat g s
  | .and d a b g => Sys2Proof.Machine.execAnd d a b g s
  | .andImm d a imm g => Sys2Proof.Machine.execAndImm d a imm g s
  | .or d a b g => Sys2Proof.Machine.execOr d a b g s
  | .orImm d a imm g => Sys2Proof.Machine.execOrImm d a imm g s
  | .xor d a b g => Sys2Proof.Machine.execXor d a b g s
  | .xorImm d a imm g => Sys2Proof.Machine.execXorImm d a imm g s
  | .andn d a b g => Sys2Proof.Machine.execAndn d a b g s
  | .andnImm d a imm g => Sys2Proof.Machine.execAndnImm d a imm g s
  | .shl d a b g => Sys2Proof.Machine.execShl d a b g s
  | .shlImm d a amt g => Sys2Proof.Machine.execShlImm d a amt g s
  | .shr d a b g => Sys2Proof.Machine.execShr d a b g s
  | .shrImm d a amt g => Sys2Proof.Machine.execShrImm d a amt g s
  | .sar d a b g => Sys2Proof.Machine.execSar d a b g s
  | .sarImm d a amt g => Sys2Proof.Machine.execSarImm d a amt g s
  | .rol d a b g => Sys2Proof.Machine.execRol d a b g s
  | .rolImm d a amt g => Sys2Proof.Machine.execRolImm d a amt g s
  | .bfx d a b sgn g => Sys2Proof.Machine.execBfx d a b sgn g s
  | .bfxImm d a pos len sgn g => Sys2Proof.Machine.execBfxImm d a pos len sgn g s
  | .bfi d a b c g => Sys2Proof.Machine.execBfi d a b c g s
  | .popc d a g => Sys2Proof.Machine.execPopc d a g s
  | .clz d a g => Sys2Proof.Machine.execClz d a g s
  | .brev d a g => Sys2Proof.Machine.execBrev d a g s
  | .icmp d a b c u g => Sys2Proof.Machine.execIcmp d a b c u g s
  | .icmpImm d a imm c u g => Sys2Proof.Machine.execIcmpImm d a imm c u g s
  | .sel d a b c g => Sys2Proof.Machine.execSel d a b c g s
  | .mov d a wide g => Sys2Proof.Machine.execMov d a wide g s
  | .movi d imm g => Sys2Proof.Machine.execMovi d imm g s
  | .lea d a b sh u g => Sys2Proof.Machine.execLea d a b sh u g s
  | .leaImm d a imm sh u g => Sys2Proof.Machine.execLeaImm d a imm sh u g s
  | .fadd d a b rm g => Sys2Proof.Machine.execFadd d a b rm g s
  | .fsub d a b rm g => Sys2Proof.Machine.execFsub d a b rm g s
  | .fmul d a b rm g => Sys2Proof.Machine.execFmul d a b rm g s
  | .ffma d a b c rm g => Sys2Proof.Machine.execFfma d a b c rm g s
  | .fmin d a b g => Sys2Proof.Machine.execFmin d a b g s
  | .fmax d a b g => Sys2Proof.Machine.execFmax d a b g s
  | .fcmp d a b c g => Sys2Proof.Machine.execFcmp d a b c g s
  | .fclass d a g => Sys2Proof.Machine.execFclass d a g s
  | .frcp d a g => Sys2Proof.Machine.execFrcp d a g s
  | .frsq d a g => Sys2Proof.Machine.execFrsq d a g s
  | .fsqrt d a rm g => Sys2Proof.Machine.execFsqrt d a rm g s
  | .fex2 d a g => Sys2Proof.Machine.execFex2 d a g s
  | .flg2 d a g => Sys2Proof.Machine.execFlg2 d a g s
  | .fsin d a g => Sys2Proof.Machine.execFsin d a g s
  | .fcos d a g => Sys2Proof.Machine.execFcos d a g s
  | .padd2 d a b f rm g => Sys2Proof.Machine.execPadd2 d a b f rm g s
  | .pmul2 d a b f rm g => Sys2Proof.Machine.execPmul2 d a b f rm g s
  | .pfma2 d a b c f rm g => Sys2Proof.Machine.execPfma2 d a b c f rm g s
  | .pdot2 d a b c f rm g => Sys2Proof.Machine.execPdot2 d a b c f rm g s
  | .idot4 d a b c ua ub sat g => Sys2Proof.Machine.execIdot4 d a b c ua ub sat g s
  | .cvt d a c src dst rm sat j g => Sys2Proof.Machine.execCvt d a c src dst rm sat j g s
  | .cbdec d a w h g => Sys2Proof.Machine.execCbdec d a w h g s
  | .scal d a b j rm g => Sys2Proof.Machine.execScal d a b j rm g s
  | .shfl d a b m seg g => Sys2Proof.Machine.execShfl d a b m seg g s
  | .vote d a m wide g => Sys2Proof.Machine.execVote d a m wide g s
  | .matchLanes d a wide pair g => Sys2Proof.Machine.execMatchLanes d a wide pair g s
  | .lred d a op g => Sys2Proof.Machine.execLred d a op g s
  | .lscan d a op excl g => Sys2Proof.Machine.execLscan d a op excl g s
  | .ld d a off w o str g => Sys2Proof.Machine.execLd d a off w o str g s
  | .st d a off w o str g => Sys2Proof.Machine.execSt d a off w o str g s
  | .ldl d a off w o g => Sys2Proof.Machine.execLdl d a off w o g s
  | .stl d a off w o g => Sys2Proof.Machine.execStl d a off w o g s
  | .ldp d a off w str g => Sys2Proof.Machine.execLdp d a off w str g s
  | .stp d a off w str g => Sys2Proof.Machine.execStp d a off w str g s
  | .ldu d a off w o str g => Sys2Proof.Machine.execLdu d a off w o str g s
  | .pref a off l2 g => Sys2Proof.Machine.execPref a off l2 g s
  | .atom d a b op wide loc o g => Sys2Proof.Machine.execAtom d a b op wide loc o g s
  | .acas d a b c wide loc o g => Sys2Proof.Machine.execAcas d a b c wide loc o g s
  | .red a b op wide loc o g => Sys2Proof.Machine.execRed a b op wide loc o g s
  | .fence k sc g => Sys2Proof.Machine.execFence k sc g s
  | .binit a b g => Sys2Proof.Machine.execBinit a b g s
  | .barv a b g => Sys2Proof.Machine.execBarv a b g s
  | .bwait a b g => Sys2Proof.Machine.execBwait a b g s
  | .csub k a g => Sys2Proof.Machine.execCsub k a g s
  | .wqry k a g => Sys2Proof.Machine.execWqry k a g s
  | .qres d a b g => Sys2Proof.Machine.execQres d a b g s
  | .qput d a b c z mem g => Sys2Proof.Machine.execQput d a b c z mem g s
  | .qrp d a b c z mem g => Sys2Proof.Machine.execQrp d a b c z mem g s
  | .qget d a x t z g => Sys2Proof.Machine.execQget d a x t z g s
  | .qtry d a x c z g => Sys2Proof.Machine.execQtry d a x c z g s
  | .qcan d a g => Sys2Proof.Machine.execQcan d a g s
  | .qstatQ d a g => Sys2Proof.Machine.execQstatQ d a g s
  | .qstatR d a g => Sys2Proof.Machine.execQstatR d a g s
  | .gname d g => Sys2Proof.Machine.execGname d g s
  | .gfree g => Sys2Proof.Machine.execGfree g s
  | .rput d a b c g => Sys2Proof.Machine.execRput d a b c g s
  | .await d f g => Sys2Proof.Machine.execAwait d f g s
  | .recruit d a b c op g => Sys2Proof.Machine.execRecruit d a b c op g s
  | .hnext g => Sys2Proof.Machine.execHnext g s
  | .hquit g => Sys2Proof.Machine.execHquit g s
  | .hjoin d a => Sys2Proof.Machine.execHjoin d a s
  | .hjoinComplete die slot g => Sys2Proof.Machine.execHjoinComplete die slot g s
  | .mwin a b g => Sys2Proof.Machine.execMwin a b g s
  | .mlend d n g => Sys2Proof.Machine.execMlend d n g s
  | .mrd d a c n g => Sys2Proof.Machine.execMrd d a c n g s
  | .mwr d a n g => Sys2Proof.Machine.execMwr d a n g s
  | .mma d a b c ring k kind => Sys2Proof.Machine.execMma d a b c ring k kind s
  | .mscale d a int clr acq die g => Sys2Proof.Machine.execMscale d a int clr acq die g s
  | .mclr d a v g => Sys2Proof.Machine.execMclr d a v g s
  | .mtab a acq die g => Sys2Proof.Machine.execMtab a acq die g s
  | .msig a b rel die g => Sys2Proof.Machine.execMsig a b rel die g s
  | .mdrn d a b cv rel die g => Sys2Proof.Machine.execMdrn d a b cv rel die g s
  | .mmaStep die slot => Sys2Proof.Machine.execMmaStep die slot s
  | .mmaStepCommit die slot => Sys2Proof.Machine.execMmaStepCommit die slot s
  | .entryDieCheck die => Sys2Proof.Machine.execEntryDieCheck die s
  | .launchForward die => Sys2Proof.Machine.execLaunchForward die s
  | .forwardedCopyTake die => Sys2Proof.Machine.execForwardedCopyTake die s
  | .teamPlacement die => Sys2Proof.Machine.execTeamPlacement die s
  | .drainTarget die => Sys2Proof.Machine.execDrainTarget die s
  | .trafficWindow die => Sys2Proof.Machine.execTrafficWindow die s
  | .groupExchange die slot g => Sys2Proof.Machine.execGroupExchange die slot g s
  | .pendingExchange die slot g => Sys2Proof.Machine.execPendingExchange die slot g s
  | .clauseStart ag => Sys2Proof.Machine.execClauseStart ag s
  | .groupEnd die slot g => Sys2Proof.Machine.execGroupEnd die slot g s
  | .workDeal die => Sys2Proof.Machine.execWorkDeal die s
  | .loadDataReturn id lanes => Sys2Proof.Machine.execLoadDataReturn id lanes s
  | .atomicAtHomeSlice id lane => Sys2Proof.Machine.execAtomicAtHomeSlice id lane s
  | .l2Eviction die line => Sys2Proof.Machine.execL2Eviction die line s
  | .recordStart die core sub rec => Sys2Proof.Machine.execRecordStart die core sub rec s
  | .recordFinish die core sub rec => Sys2Proof.Machine.execRecordFinish die core sub rec s
  | .reservationRequest msg => Sys2Proof.Machine.execReservationRequest msg s
  | .putDataArrival msg => Sys2Proof.Machine.execPutDataArrival msg s
  | .getRequest msg => Sys2Proof.Machine.execGetRequest msg s
  | .cellarMoveComplete die port slot => Sys2Proof.Machine.execCellarMoveComplete die port slot s
  | .queueAnswer id => Sys2Proof.Machine.execQueueAnswer id s
  | .queueTimeout id => Sys2Proof.Machine.execQueueTimeout id s
  | .waiterResend msg => Sys2Proof.Machine.execWaiterResend msg s
  | .ringDelivery die port slot => Sys2Proof.Machine.execRingDelivery die port slot s
  | .registerPutLanding die port slot => Sys2Proof.Machine.execRegisterPutLanding die port slot s
  | .elementForward msg => Sys2Proof.Machine.execElementForward msg s
  | .portPutAnswer id => Sys2Proof.Machine.execPortPutAnswer id s
  | .faultOverflowPut die ptag => Sys2Proof.Machine.execFaultOverflowPut die ptag s
  | .delupFrameReceive link f => Sys2Proof.Machine.execDelupFrameReceive link f s
  | .rekeyStart link => Sys2Proof.Machine.execRekeyStart link s
  | .keyReadyReceive link f => Sys2Proof.Machine.execKeyReadyReceive link f s
  | .keyConfirmReceive c => Sys2Proof.Machine.execKeyConfirmReceive c s
  | .rekeyStop link => Sys2Proof.Machine.execRekeyStop link s
  | .resume die => Sys2Proof.Machine.execResume die s
  | .kill die => Sys2Proof.Machine.execKill die s
  | .preempt die => Sys2Proof.Machine.execPreempt die s
  | .release die => Sys2Proof.Machine.execRelease die s
  | .preemptStopBound die slot g => Sys2Proof.Machine.execPreemptStopBound die slot g s
  | .contextSave die slot => Sys2Proof.Machine.execContextSave die slot s
  | .teamResume die => Sys2Proof.Machine.execTeamResume die s
  | .pageWalkComplete die ptag page => Sys2Proof.Machine.execPageWalkComplete die ptag page s
  | .helperIterationTimeout die slot g h => Sys2Proof.Machine.execHelperIterationTimeout die slot g h s
  | .ack f => Sys2Proof.Machine.execAck f s
  | .openConn f => Sys2Proof.Machine.execOpenConn f s
  | .put f => Sys2Proof.Machine.execPut f s
  | .get f => Sys2Proof.Machine.execGet f s
  | .write f => Sys2Proof.Machine.execWrite f s
  | .read f => Sys2Proof.Machine.execRead f s
  | .close f => Sys2Proof.Machine.execClose f s
  | .retransmissionTimeout conn => Sys2Proof.Machine.execRetransmissionTimeout conn s
  | .invalidateVa die => Sys2Proof.Machine.execInvalidateVa die s
  | .invalidateQid die => Sys2Proof.Machine.execInvalidateQid die s
  | .process die => Sys2Proof.Machine.execProcess die s
  | .slot die => Sys2Proof.Machine.execSlot die s
  | .share die => Sys2Proof.Machine.execShare die s
  | .routes die => Sys2Proof.Machine.execRoutes die s
  | .rowRepair die spare => Sys2Proof.Machine.execRowRepair die spare s
  | .rowRepairComplete die ok => Sys2Proof.Machine.execRowRepairComplete die ok s
  | .laneSwap die ok => Sys2Proof.Machine.execLaneSwap die ok s
  | .retireCore die => Sys2Proof.Machine.execRetireCore die s
  | .excludeDie die => Sys2Proof.Machine.execExcludeDie die s
  | .renumber die => Sys2Proof.Machine.execRenumber die s
  | .keyInstall die => Sys2Proof.Machine.execKeyInstall die s
  | .linkReset die => Sys2Proof.Machine.execLinkReset die s
  | .selftest die r => Sys2Proof.Machine.execSelftest die r s
  | .port die => Sys2Proof.Machine.execPort die s
  | .linkTrainingComplete delup link t => Sys2Proof.Machine.execLinkTrainingComplete delup link t s
  | .linkTrainingTimeout delup link => Sys2Proof.Machine.execLinkTrainingTimeout delup link s
  | .bringup b => Sys2Proof.Machine.execBringup b s
  | .hostPortTrainRetry ok => Sys2Proof.Machine.execHostPortTrainRetry ok s
  | .targetedTestStart die => Sys2Proof.Machine.execTargetedTestStart die s
  | .targetedTestComplete die r => Sys2Proof.Machine.execTargetedTestComplete die r s
  | .thermalReport die => Sys2Proof.Machine.execThermalReport die s
  | .thermalTrip => Sys2Proof.Machine.execThermalTrip s
  | .linkDown delup link => Sys2Proof.Machine.execLinkDown delup link s
  | .powerDown => Sys2Proof.Machine.execPowerDown s
  | .unassignedOpcode w => Sys2Proof.Machine.execUnassignedOpcode w s
  | .droppedFrame f => Sys2Proof.Machine.execDroppedFrame f s
  | .refusedCommand die => Sys2Proof.Machine.execRefusedCommand die s

end Sys2Proof.Machine
end

