-- ==== Sys2Proof/Machine/Turns.lean ====
section
/-! DEFINITION. An agent's turn: the start of its next clause, or its next instruction, fetched, decoded and run (R47, R78, R85),
of helpers by gangs (R317). -/

namespace Sys2Proof.Machine

/-- An agent starts its next clause, or its next instruction is fetched, decoded and run (R47, R78, R85). -/
def stepOne (s : State) (ag : Agent) : Host.Outcome State Fault Refusal :=
  match s.front? ag with
  | none => .next s
  | some f =>
    if !s.mayIssue ag f then .next s
    else if f.hdr.isNone then exec (.clauseStart ag) { s with cur := some ag }
    else if s.fetchBusy (keyDie (agKey ag)) (s.ptagOf (agKey ag)) f.pc then .next s
    else match s.agFetch ag f with
      | .inr e => .next ((s.fetchMet (keyDie (agKey ag)) (s.ptagOf (agKey ag)) f.pc).raiseAt ag e.1 e.2 f.pc f.mask)
      | .inl w =>
        match decode w with
        | .error e => .next (s.raiseAt ag 2 (s.rejectStep f ag w e) 0#48 (s.rejectLanes ag f w))
        | .ok i => exec i { s with cur := some ag }

/-- The turns of several agents, one after another. -/
def stepAll : List Agent → State → Host.Outcome State Fault Refusal
  | [], s => .next s
  | ag :: t, s =>
    match stepOne s ag with
    | .next s => stepAll t s
    | .fault f => .fault f
    | .refused r => .refused r

/-- The gang of a helper that stands at an instruction issues, its helpers in ascending number, where no other gang has its bank in this
clock (R317). -/
def gangIssue (s : State) (d n g h : Nat) : Host.Outcome State Fault Refusal :=
  let k := groupKey d n g
  match s.front? (.helper d n g h) with
  | none => .next s
  | some f =>
    let l := s.gangMates k h f
    if l.isEmpty || f.hdr.isNone then .next s
    else match s.takeGang k h f l with
      | none => .next s
      | some s => stepAll (l.map fun e => Agent.helper d n g e.1) s

/-- A helper's turn: the helpers of its gang that stand at the header of the same clause start it, and, where it has started itself, the
gang issues (R317). -/
def stepGang (s : State) (d n g h : Nat) : Host.Outcome State Fault Refusal :=
  match s.front? (.helper d n g h) with
  | none => .next s
  | some f =>
    match s.gangMates (groupKey d n g) h { f with hdr := none } with
    | [] => gangIssue s d n g h
    | e :: _ =>
      match exec (.clauseStart (.helper d n g e.1)) { s with cur := some (.helper d n g e.1) } with
      | .next s => if f.hdr.isNone then .next s else gangIssue s d n g h
      | .fault x => .fault x
      | .refused x => .refused x

/-- An agent's turn (R47, R317). -/
def stepIssue (s : State) (ag : Agent) : Host.Outcome State Fault Refusal :=
  match ag with
  | .helper d n g h => stepGang s d n g h
  | .frag _ _ _ _ | .seq _ _ => stepOne s ag

end Sys2Proof.Machine
end

