-- ==== Sys2Proof/Machine/Step.lean ====
section
/-! DEFINITION. One step of the panel: the agenda's next turn (log 2). An agent's turn starts its next clause or
fetches, decodes and runs its next instruction; an event's turn runs it; other turns let clocks pass, perform
stores in flight, move bytes of a record, complete a submission, bring a request to its port or a query to its distributor, give up or take up
cached lines and translations, or bring a physical error. With an empty agenda the panel comes up, or one clock
passes. -/

namespace Sys2Proof.Machine

/-- One step. -/
def step (s : State) : Host.Outcome State Fault Refusal :=
  match s.agenda with
  | [] => if s.phase = .off then exec (.bringup { darkDies := [], deadStacks := [], d2dDown := [] }) s
          else .next (s.passClocks 1)
  | t :: rest =>
    let s := { s with agenda := rest, cur := none }
    match t with
    | .tick n => .next (s.passClocks (n + 1))
    | .issue ag => stepIssue s ag
    | .happen i => exec i s
    | .perform id lanes => .next (s.performStore id lanes)
    | .l1Evict d c line => .next (s.l1Evict d c line)
    | .arrive id => .next (s.arrive id)
    | .replay i => .next (s.replayFrame i)
    | .engine d c n r i => .next (s.engineTurn d c n r i)
    | .settle d c n => .next (s.subSettle d c n)
    | .reach d i => .next (s.reach d i)
    | .tlbFill d c p page => .next (s.tlbFill d c (BitVec.ofNat 12 p) (page * 65536))
    | .tlbDrop d c key => .next (s.tlbDrop d c key)
    | .upset u => .next (s.upset u)

/-- The state with an instruction placed where the next step fetches: the word is the 64 bits, those at or above
`nbits` zero, in a clause of its own on a code page of a running team (log 2). -/
def State.withFetchWord (s : State) (nbits w : Nat) : State := s.place (BitVec.ofNat 64 (w % 2 ^ nbits))

end Sys2Proof.Machine
end

