-- ==== Sys2Proof/Safety.lean ====
section
/-! DEFINITION. The terms that claims use: when an agent's instruction passes its issue checks, what an instruction that
computes leaves, what may differ between two states, and what counts as a safe run. -/

namespace Sys2Proof.Machine

/-- An agent's instruction passes every issue check of R85 with the active lanes `act`, at least one: the agent stands at
it in a started clause that admits it (R76), its fields name registers it may use (R61, R63, R320, R339), its form is
admitted in the agent (R88, R321, R340), its guard and its sources have arrived and hold no error in the lanes it reads, unless the
form drops such lanes itself (R63, R66, R382, R199),
its destinations are free (R67), no register of it lies in a row under test (R383), the entry's own conditions that come last
hold (R267), and the gang that issues is the last of the instruction (R27). -/
def State.ready (s : State) (ag : Agent) (act : Mask) (sp : Spec) : Bool :=
  s.cur == some ag &&
  match s.front? ag with
  | none => false
  | some f =>
    clauseRules f sp && s.guardOk ag sp.guard && sp.srcs.all (s.srcOk ag) && sp.dsts.all (s.dstOk ag) &&
    sp.admits ag && !sp.illop &&
    (sp.guard.g == 0#4 ||
      !(s.rdTag ag (guardReg ag sp.guard.g)).empty && (sp.ownErr || (s.rdTag ag (guardReg ag sp.guard.g)).poison &&& f.mask == 0#64)) &&
    s.active ag f sp.guard == act && act != 0#64 &&
    (opRegs sp.srcs).all (fun x => !s.srcEmpty ag x.1) &&
    (sp.ownErr || (sp.reads act).all fun x => !(decide (x.1 < 640) && (s.rdTag ag x.1).poison &&& x.2 != 0#64)) &&
    (dstRegs sp.dsts).all (fun r => !s.dstHeld ag r) &&
    !(guardRegs ag sp.guard).any (s.regBusy ag) &&
    !((opRegs sp.srcs).map (·.1) ++ dstRegs sp.dsts).any (s.regBusy ag) && !sp.late && !s.gangWaits ag f

/-- Word `j` of a source operand in a lane. -/
def State.src (s : State) (ag : Agent) (a : Src) (j lane : Nat) : Word := s.rdReg ag (a.r.toNat + j) lane

/-- What an instruction that computes leaves (R62, R104, R116): the words `w l` in the destination of each active lane
`l` (of an s destination, those of the lowest active lane), the flags of the active lanes in STICKY_FLAGS, and the
agent past the instruction. -/
def State.computed (s : State) (ag : Agent) (act : Mask) (d : RegNo) (w : Nat → List Word) (fl : Nat → Flags) : State :=
  ((s.wrLanes ag d.toNat ((lanesOf act).map fun l => (l, w l))).addFlags ag
    ((lanesOf act).foldl (fun a l => a.or (fl l)) Flags.none)).advance ag

/-- The same for an instruction of one destination register, whose lanes give a word and flags. -/
def State.lanewise (s : State) (ag : Agent) (act : Mask) (d : RegNo) (r : Nat → Word × Flags) : State :=
  s.computed ag act d (fun l => [(r l).1]) fun l => (r l).2

/-- The same for an instruction whose destination words raise no flag. -/
def State.quietly (s : State) (ag : Agent) (act : Mask) (d : RegNo) (w : Nat → List Word) : State :=
  s.computed ag act d w fun _ => Flags.none

/-- An integer clamped to a range, as a word, with the saturation flag where it lay outside (R137). -/
def clamped (lo hi x : Int) : Word × Flags := (BitVec.ofInt 32 (max lo (min x hi)), { sat := decide (x < lo ∨ hi < x) })

/-- A + k × B in the three forms of IADD and ISUB (R137). -/
def sumForm (m : SatMode) (k : Int) (x y : Word) : Word × Flags :=
  match m with
  | .wrap => (BitVec.ofInt 32 (x.toNat + k * y.toNat), Flags.none)
  | .sat => clamped (-(2 ^ 31)) (2 ^ 31 - 1) (x.toInt + k * y.toInt)
  | .usat => clamped 0 (2 ^ 32 - 1) (x.toNat + k * y.toNat)

/-- A word as an integer, signed or unsigned. -/
def intOf (unsigned : Bool) (x : Word) : Int := if unsigned then x.toNat else x.toInt

/-- The shifts of R139, on numbers. -/
def shiftLeft (x amt : Nat) : Word := if 32 ≤ amt then 0#32 else BitVec.ofNat 32 (x * 2 ^ amt)

/-- SHR. -/
def shiftRight (x amt : Nat) : Word := if 32 ≤ amt then 0#32 else BitVec.ofNat 32 (x / 2 ^ amt)

/-- SAR. -/
def shiftArith (x : Word) (amt : Nat) : Word :=
  if 32 ≤ amt then (if x.getLsbD 31 then 0xFFFFFFFF#32 else 0#32) else BitVec.ofInt 32 (x.toInt / 2 ^ amt)

/-- ROL. -/
def rotated (x amt : Nat) : Word := BitVec.ofNat 32 (x * 2 ^ (amt % 32) + x / 2 ^ (32 - amt % 32))

/-- The field BFX extracts before it is written (R139). -/
def fieldOf (sgn : Bool) (x pos len : Nat) : Int :=
  let f : Nat := x / 2 ^ min pos 32 % 2 ^ min len 32
  if sgn && decide (0 < len) && f.testBit (min len 32 - 1) then (f : Int) - 2 ^ min len 32 else f

/-- The relation ICMP tests (R141). -/
def relates (c : Cond) (x y : Int) : Prop :=
  match c with
  | .eq => x = y
  | .ne => x ≠ y
  | .lt => x < y
  | .le => x ≤ y
  | .gt => x > y
  | .ge => x ≥ y

/-- The value of a finite element of a floating format (R94); none for an infinity or a NaN. -/
def finiteValue (f : FFmt) (x : Nat) : Option ℚ :=
  let sign : ℚ := if x.testBit (f.eb + f.mb) then -1 else 1
  let e : Nat := x / 2 ^ f.mb % 2 ^ f.eb
  let m : Nat := x % 2 ^ f.mb
  let bias : ℤ := 2 ^ (f.eb - 1) - 1
  if e = 2 ^ f.eb - 1 ∧ (f.noInf = true → m = 2 ^ f.mb - 1) then none
  else if e = 0 then some (sign * m * (2 : ℚ) ^ (1 - bias - f.mb))
  else some (sign * (2 ^ f.mb + m : Nat) * (2 : ℚ) ^ ((e : ℤ) - bias - f.mb))

/-- Tininess after rounding (R103): rounded to the format's precision by the mode, with an exponent range without lower bound, the
number stays below the smallest normal; just below it the spacing is half that of the subnormals. -/
def TinyAfter (f : FFmt) (mode : RMode) (q : ℚ) : Prop :=
  let least : ℚ := 2 ^ (2 - 2 ^ (f.eb - 1) : ℤ)
  let step : ℚ := least / 2 ^ (f.mb + 1)
  match mode with
  | .rne | .sr => |q| < least - step / 2
  | .rz => |q| < least
  | .ru => -least < q ∧ q ≤ least - step
  | .rd => -(least - step) ≤ q ∧ q < least

/-- The sign bit of a floating element as a number (R94). -/
def signAt (f : FFmt) (neg : Bool) : Nat := if neg then 2 ^ (f.eb + f.mb) else 0

/-- The spacing of a floating format at a number (R113): its binade's, the subnormal one below the normal range. -/
def spacingExp (f : FFmt) (p : ℚ) : ℤ := max (Int.log 2 |p| - f.mb) (2 - 2 ^ (f.eb - 1) - f.mb)

/-- The multiple of `e` that a magnitude `x` of a sign rounds to under a mode (R105). -/
def RoundsTo (mode : RMode) (neg : Bool) (x e v : ℚ) : Prop :=
  let t : ℤ := ⌊x / e⌋
  let frac : ℚ := x / e - t
  let up : Prop := match mode with
    | .rne | .sr => 1 / 2 < frac ∨ frac = 1 / 2 ∧ t % 2 = 1
    | .rz => False
    | .ru => 0 < frac ∧ neg = false
    | .rd => 0 < frac ∧ neg = true
  (up → v = (t + 1) * e) ∧ (¬up → v = t * e)

/-- What rounding the exact number `q` once under a mode gives (R101, R105, R106), with the overflow, the underflow and the inexact
flag (R103): its magnitude rounded to the format's precision with an exponent range without upper bound, `v`, with its sign; or,
where that is beyond the largest finite value, overflow and what the mode delivers there. -/
def RoundedOnce (f : FFmt) (mode : RMode) (q : ℚ) (r : Nat × Flags) : Prop :=
  ∃ v, RoundsTo mode (decide (q < 0)) |q| (2 ^ spacingExp f q) v ∧
    let beyond : Prop := ∀ x w, finiteValue f x = some w → |w| < v
    (beyond → r =
      (signAt f (decide (q < 0)) +
        (match mode with
        | .rne | .sr => f.infMag
        | .rz => f.maxMag
        | .ru => if q < 0 then f.maxMag else f.infMag
        | .rd => if q < 0 then f.infMag else f.maxMag), { ovf := true, inx := true })) ∧
    (¬beyond →
      finiteValue f r.1 = some (if q < 0 then -v else v) ∧ (q ≠ 0 → r.1 / 2 ^ (f.eb + f.mb) = if q < 0 then 1 else 0) ∧
      { r.2 with inx := false, unf := false } = Flags.none ∧ (r.2.inx = true ↔ v ≠ |q|) ∧
      (r.2.unf = true ↔ v ≠ |q| ∧ TinyAfter f mode q))

/-- A square root or its reciprocal, rounded once (R101, R105, R147): the nearest value to a positive real number inside the range
of the format, or the nearest in the mode's direction; no flag but inexact. -/
def RootRounded (f : FFmt) (mode : RMode) (q : ℝ) (r : Nat × Flags) : Prop :=
  { r.2 with inx := false } = Flags.none ∧
  ∃ v, finiteValue f r.1 = some v ∧ (r.2.inx = true ↔ (v : ℝ) ≠ q) ∧
    ∀ x w, finiteValue f x = some w →
      match mode with
      | .rne | .sr => |(v : ℝ) - q| ≤ |w - q| ∧ (|(v : ℝ) - q| = |w - q| → v ≠ w → r.1 % 2 = 0)
      | .rz | .rd => (v : ℝ) ≤ q ∧ ((w : ℝ) ≤ q → w ≤ v)
      | .ru => q ≤ v ∧ (q ≤ w → v ≤ w)

/-- A NaN of a floating format (R94). -/
def NanElem (f : FFmt) (x : Nat) : Prop :=
  x / 2 ^ f.mb % 2 ^ f.eb = 2 ^ f.eb - 1 ∧ if f.noInf = true then x % 2 ^ f.mb = 2 ^ f.mb - 1 else x % 2 ^ f.mb ≠ 0

/-- The canonical NaN of a floating format (R95). -/
def canonicalNan : NumFmt → Nat
  | .f32 => 0x7FC00000
  | .f16 => 0x7E00
  | .bf16 => 0x7FC0
  | .f8e4 => 0x7F
  | .f8e5 => 0x7E
  | .int8 | .uint8 | .int16 | .int32 | .uint32 => 0

/-- Stochastic rounding of a finite FP32 number other than zero, by a generator's state and a lane number (R113): quanta of the
destination's spacing, one more where the discarded bits and the state's rotation overflow. -/
def StochasticRounded (f : FFmt) (sat : Bool) (state : Word) (l : Nat) (p : ℚ) (r : Nat × Flags) : Prop :=
  let q := spacingExp f p
  let t : ℤ := ⌊|p| / 2 ^ q⌋
  let frac : ℚ := |p| / 2 ^ q - t
  let k := min (q - spacingExp f32 p).toNat 24
  let rnd := (state.rotateLeft (7 * l % 32)).toNat % 2 ^ k
  let v : ℚ := (t + (if 2 ^ k ≤ ⌊frac * 2 ^ k⌋ + (rnd : ℤ) then 1 else 0) : ℤ) * 2 ^ q
  let beyond : Prop := ∀ x w, finiteValue f x = some w → |w| < v
  (beyond → r = (signAt f (decide (p < 0)) + (if sat then f.maxMag else f.infMag), { ovf := true, inx := true })) ∧
  (¬beyond →
    finiteValue f r.1 = some (if p < 0 then -v else v) ∧ r.1 / 2 ^ (f.eb + f.mb) = (if p < 0 then 1 else 0) ∧
    { r.2 with inx := false, unf := false } = Flags.none ∧ (r.2.inx = true ↔ frac ≠ 0) ∧
    (r.2.unf = true ↔ frac ≠ 0 ∧ v < 2 ^ (2 - 2 ^ (f.eb - 1) : ℤ)))

/-- The value of a UE8M4 scale with exponent field below 255 (R97). -/
def scaleValue (x : Nat) : ℚ :=
  let e := x / 16 % 256
  if e = 0 then (x % 16 : Nat) * (2 : ℚ) ^ (-130 : ℤ) else (16 + x % 16 : Nat) * (2 : ℚ) ^ ((e : ℤ) - 131)

/-- The clamped integer a rounded value becomes (R107, R153). -/
def IntRounded (mode : RMode) (p : ℚ) (n : Int) : Prop :=
  match mode with
  | .rne | .sr => |p - n| ≤ 1 / 2 ∧ (|p - n| = 1 / 2 → n % 2 = 0)
  | .rz => n = if 0 ≤ p then ⌊p⌋ else ⌈p⌉
  | .ru => n = ⌈p⌉
  | .rd => n = ⌊p⌋

/-- An FP32 NaN (R94). -/
def IsNan32 (x : Word) : Prop := 0x7F800000 < x.toNat % 2 ^ 31

/-- FP32 infinities (R94). -/
def inf32 (neg : Bool) : Word := if neg then 0xFF800000#32 else 0x7F800000#32

/-- FP32 zeros (R94). -/
def zero32 (neg : Bool) : Word := if neg then 0x80000000#32 else 0#32

/-- The canonical NaN of FP32 with no flag, and with invalid (R95, R103). -/
def nanQuiet : Word × Flags := (0x7FC00000#32, Flags.none)

/-- The canonical NaN with the invalid flag. -/
def nanInvalid : Word × Flags := (0x7FC00000#32, { inv := true })

/-- The issue of an SFU form (R75, R147). -/
def sfuSpec (a : Src) (d : RegNo) (g : Guard) : Spec := { cls := 1, guard := g, srcs := [(a, 1)], dsts := [(d, 1)] }

/-- FP32 values in order, −0 below +0 and the infinities at the ends: the place of a word that is no NaN (R94, R102). -/
def place32 (x : Word) : ℤ := if x.getLsbD 31 then -((x.toNat % 2 ^ 31 : Nat) : ℤ) - 1 else x.toNat

/-- The smaller and the larger of two FP32 words, as FMIN and FMAX give them (R102, R144). -/
def Extremes (x y mn mx : Word) : Prop :=
  (IsNan32 x → IsNan32 y → mn = 0x7FC00000#32 ∧ mx = 0x7FC00000#32) ∧
  (IsNan32 x → ¬IsNan32 y → mn = y ∧ mx = y) ∧ (¬IsNan32 x → IsNan32 y → mn = x ∧ mx = x) ∧
  (¬IsNan32 x → ¬IsNan32 y → (mn = if place32 x ≤ place32 y then x else y) ∧ mx = if place32 x ≤ place32 y then y else x)

/-- The source lane of SHFL (R158). -/
def shuffleSource (m : ShflMode) (seg l b : Nat) : Nat × Bool :=
  let base := l / seg * seg
  match m with
  | .idx => (base + b % seg, true)
  | .up => (l - b, decide (b < seg ∧ base + b ≤ l))
  | .down => (l + b, decide (b < seg ∧ l + b < base + seg))
  | .xor => (base + ((l - base) ^^^ (b % seg)), true)

/-- Whether a fetched word at an address is a clause header, and one with the landing flag (R74, R78). -/
def State.headerAt (s : State) (ag : Agent) (a : Addr) : Prop :=
  ∃ w, s.fetchWord (keyDie (agKey ag)) (s.ptagOf (agKey ag)) a = .inl w ∧ bits w 63 60 = 15

/-- Nothing but errors has been met between two states: sectors marked, and tests and reports of dies (R3, R176, R383). -/
def State.errorsMet (s u : State) : Prop :=
  { u with dies := s.dies, poison := s.poison, ue := s.ue, ueL2 := s.ueL2 } = s ∧ (s.ue = [] → u = s)

/-- The free entries of a group's split table, of eight (R52). -/
def Group.vacant (g : Group) : List Nat := (List.range 8).filter fun i => (aget g.frags i).isNone

/-- Status register numbers that no row of the map assigns (R73). -/
def csrUnassigned (i : Nat) : Prop :=
  i = 6 ∨ i = 7 ∨ (0xB ≤ i ∧ i ≤ 0xF) ∨ (0x1C ≤ i ∧ i ≤ 0x1F) ∨ (0x38 ≤ i ∧ i ≤ 0xFF) ∨ (0x101 ≤ i ∧ i ≤ 0x1FF) ∨
    (0x206 ≤ i ∧ i ≤ 0x2FF) ∨ 0x318 ≤ i

/-- Status registers of access codes GR and DR (R73). -/
def csrReadOnly (i : Nat) : Prop :=
  i = 9 ∨ i = 0xA ∨ (0x14 ≤ i ∧ i ≤ 0x1B) ∨ (0x20 ≤ i ∧ i ≤ 0x37) ∨ (0x200 ≤ i ∧ i ≤ 0x205)

/-- The first two steps of R85 pass: the clause admits the form and its fields name registers the agent may use. -/
def State.fieldsPass (s : State) (ag : Agent) (f : Fragment) (sp : Spec) : Prop :=
  s.cur = some ag ∧ s.front? ag = some f ∧ clauseRules f sp = true ∧ s.guardOk ag sp.guard = true ∧ sp.srcs.all (s.srcOk ag) = true ∧
    sp.dsts.all (s.dstOk ag) = true

/-- The value a write to a status register leaves there (R73): the low bits of the trap and live-table addresses read as
zero, STICKY_FLAGS has six bits, LOGICAL_MAP_SELECT seven. -/
def csrKept (n : Nat) (w : Word) : Word :=
  if n = 0 then w &&& ~~~7#32 else if n = 2 then w &&& ~~~63#32 else if n = 4 then w &&& ~~~15#32
  else if n = 1 ∨ n = 3 ∨ n = 5 then w &&& 0xFFFF#32
  else if n = 8 then w &&& 63#32 else if n = 0x316 then w &&& 127#32 else w

/-- What holds back a memory, queue or engine instruction of a fragment beyond its operands: an unmet fence (R205), and,
for a sequentially consistent access, every earlier access (R181). -/
def State.notHeldBack (s : State) (ag : Agent) (f : Fragment) (sc : Bool) : Prop :=
  s.fenceHeld ag f = false ∧ (sc = true → s.earlier ag f = [])

/-- The agent stands after its instruction, its lanes and join address as before. -/
def State.wentOn (s t : State) (ag : Agent) : Prop :=
  (t.front? ag).map (fun f => (f.clause, f.idx, f.hdr, f.mask, f.join, f.wait)) =
    ((s.front? ag).map Fragment.advance).map fun f => (f.clause, f.idx, f.hdr, f.mask, f.join, f.wait)

/-- Every register of the agent holds what it held, and memory does too: the DRAM, the L2 and every team's local memory. Registers are
read as an instruction's last gang reads them: a uniform one in the upper half's lanes (R27). -/
def State.keepsValues (s t : State) (ag : Agent) : Prop :=
  (∀ r l, r < 640 → r < 256 ∨ 32 ≤ l → t.rdReg ag r l = s.rdReg ag r l) ∧ t.mem = s.mem ∧ t.l2 = s.l2 ∧
  ∀ d n, (t.team? d n).map (·.localMem) = (s.team? d n).map (·.localMem)

/-- The number that words hold, lowest first. -/
def wordsNumber : List Word → Nat
  | [] => 0
  | w :: t => w.toNat + 2 ^ 32 * wordsNumber t

/-- The bytes of a home stack that differ between two states lie in a range. -/
def State.stackFrame (s t : State) (d lo n : Nat) : Prop :=
  ∀ d' a, a < 2 ^ 36 → (d' = d → a < lo ∨ lo + n ≤ a) → t.stackByte d' a = s.stackByte d' a

/-- R208: an arrival of count `n` on a barrier object. -/
def arrived (b : BitVec 128) (n : Nat) (err : Bool) : BitVec 128 :=
  let expected := bits b 31 0
  let sum := bits b 63 32 + n
  let error := b.getLsbD 96 || err
  let put (count : Nat) (phase : Nat) (error last past : Bool) : BitVec 128 :=
    BitVec.ofNat 128 (expected + count * 2 ^ 32 + phase % 2 ^ 32 * 2 ^ 64 + error.toNat * 2 ^ 96 + last.toNat * 2 ^ 97 +
      past.toNat * 2 ^ 98 + bits b 127 99 * 2 ^ 99)
  if expected ≤ sum then put 0 (bits b 95 64 + 1) false error (b.getLsbD 98 || decide (expected < sum))
  else put sum (bits b 95 64) error (b.getLsbD 97) (b.getLsbD 98)

/-- A turn of the schedule that the panel can take: an event of the table, and for the start of a clause one of an agent that
stands somewhere. -/
def Scheduled (s : State) : Prop :=
  match s.agenda with
  | .happen (.clauseStart ag) :: _ => (s.front? ag).isSome = true
  | .happen i :: _ => encode i = none
  | _ => True

/-- An instruction has sent a request of its stream and waits for the answer `w` names: the request bears the stream's next
number, and no register, flag, memory byte or access has changed but the tags of the registers `empty` names. -/
def State.asked (s t : State) (ag : Agent) (q : BitVec 32) (h : QHome) (gen : BitVec 6) (ask : Ask) (act : Mask) (d : RegNo)
    (w : Nat → Wait) (empty : List Nat) : Prop :=
  ∃ m p, t.msgs = aput s.msgs s.fresh m ∧ t.pends = aput s.pends s.fresh p ∧ t.fresh = s.fresh + 1 ∧
    (m.sender, m.qid, m.home, m.gen, m.ptag, m.ask, m.sent) =
      (s.senderOf ag, q, h, gen, s.ptagOf (agKey ag), ask, s.clock) ∧
    (m.arrived, m.via, m.out, m.accepted, m.linked, m.dead) = (none, none, false, false, false, false) ∧
    m.seq = sget 0#32 s.streams m.stream ∧ t.streams = sset 0#32 s.streams m.stream (m.seq + 1#32) ∧
    t.streamIds[m.stream]? = some (senderKey (s.senderOf ag) (s.ptagOf (agKey ag)) q) ∧ (p.ag, p.act, p.d) = (ag, act, d) ∧
    t.front? ag = (s.front? ag).map (fun f => { f with wait := w s.fresh, stall := .none }) ∧
    (∀ r, r < 640 → t.rdTag ag r = if r ∈ empty then { s.rdTag ag r with empty := true } else s.rdTag ag r) ∧
    t.flight = s.flight ∧ t.queues = s.queues ∧ s.keepsValues t ag

/-- A frame of the host is taken, and its request has been sent toward the home port of the qid it names, as the next of its
stream; nothing has been sent to the host (R368 to R370). -/
def State.hostAsked (s t : State) (f : HostFrame) (x : Conn) (d : Nat) (standing : Bool) (h : QHome) (gen : BitVec 6) (ask : Ask) : Prop :=
  let c := f.conn.toNat
  let q := BitVec.ofNat 32 (fieldAt f.payload 0 4)
  ∃ m : Msg, t.msgs = aput s.msgs s.fresh m ∧
    (m.sender, m.qid, m.home, m.gen, m.ptag, m.ask, m.srcDie) = (.host c f.seq standing, q, h, gen, f.ptag, ask, s.logDie d) ∧
    (m.arrived, m.out, m.accepted, m.linked, m.dead, m.told) = (none, false, false, false, false, false) ∧
    m.seq = sget 0#32 s.streams m.stream ∧ t.streams = sset 0#32 s.streams m.stream (m.seq + 1#32) ∧
    t.streamIds[m.stream]? = some (senderKey m.sender f.ptag q) ∧ aget t.conns c = some { x with rxSeq := x.rxSeq + 1#32 } ∧
    t.hostOut = s.hostOut ∧ t.queues = s.queues ∧ t.groups = s.groups ∧ t.mem = s.mem

/-- What elements that a get or try receives leave in its group (R277, R278, R280): lane by lane in ascending order the element's
words in its destination registers, which are FULL, and its receipt; a lane that is not served keeps its words, and its receipt is 0. -/
def Group.received (g t : Group) (p : Pend) (es : List Elem) : Prop :=
  let lanes := lanesOf p.act
  (∀ i l j : Nat, lanes[i]? = some l → j < p.n → t.rd (p.d.toNat + j) l =
    if i < es.length then BitVec.ofNat 32 (fieldAt (((es[i]?).map Elem.data).getD []) (4 * j) 4) else g.rd (p.d.toNat + j) l) ∧
  (∀ j, j < p.n → (t.tag (p.d.toNat + j)).empty = false) ∧
  ∀ (c : RegNo) (i l : Nat), p.rec_ = some c → lanes[i]? = some l →
    t.rd c.toNat l = if i < es.length then 0x10000#32 ||| (((es[i]?).map Elem.tag).getD 0#16).setWidth 32 else 0#32

/-- The destinations of a get or try: v registers, the receipt outside the data registers (R270, R277). -/
def Pend.takesV (p : Pend) : Prop :=
  p.d.toNat + p.n ≤ 256 ∧ ∀ c, p.rec_ = some c → c.toNat < 256 ∧ ¬(p.d.toNat ≤ c.toNat ∧ c.toNat < p.d.toNat + p.n)

/-- The elements a put carries from registers: each active lane's data and user tag, in ascending lane order (R274). -/
def State.laneElems (s : State) (ag : Agent) (act : Mask) (b c : Src) (z : SizeCode) : List Elem :=
  (lanesOf act).map fun l =>
    { data := (List.range (SizeCode.bytes z / 4)).flatMap fun j => bytesOf 4 (s.src ag b j l).toNat
      tag := (s.src ag c 0 l).setWidth 16 }

/-- The elements a put carries from local memory: `n` of them, one after another from an address on (R274). -/
def Team.runElems (t : Team) (a z n : Nat) (tag : BitVec 16) : List Elem :=
  (List.range n).map fun i => { data := (List.range z).map fun j => t.localByte (a + z * i + j), tag := tag }

/-- A queue that needs no work of its own: every position is granted in the window, none is moving or void, and nobody waits. -/
def Queue.plain (q : Queue) : Prop :=
  q.waiters = [] ∧ q.pos.length < 2 ^ 31 ∧ ∀ p ∈ q.pos, p.inWin = true ∧ p.moving = false ∧ p.isVoid = false

/-- A RAS element of a die stands at the tail of its RAS queue, stamped with the die and its clock (R382, R385). -/
def State.reported (s t : State) (d : Nat) (e : RasElem) : Prop :=
  (t.die d).rasQ = (s.die d).rasQ ++ [{ e with phys := d, time := (s.dieClock d).toNat, lost := (s.die d).rasLost }]

/-- Two states have the same tun rows but those named, and the same DRAM and L2 (R331). -/
def State.tunKept (s t : State) (d : Nat) (tm : Team) (rows : Nat → Prop) : Prop :=
  (∀ r w, r < 2048 → w < 16 → ¬rows r → t.tunWord d tm r w = s.tunWord d tm r w) ∧ t.mem = s.mem ∧ t.l2 = s.l2

/-- The tun of a team on a core pair and its local memory hold no error (R331, R176). -/
def State.tunClean (s : State) (d : Nat) (tm : Team) : Prop :=
  tm.localPoison = [] ∧ tm.localUe = [] ∧
  ∃ lo hi, tm.cores = [lo, hi] ∧ lo < 128 ∧ hi < 128 ∧ lo ≠ hi ∧ ∀ c ∈ [lo, hi], (s.core d c).tunPoison = [] ∧ (s.core d c).tunUe = []

/-- The device has sent frames on a connection, numbered on from its next number: a type and a payload each (R365, R367). -/
def State.sent (s t : State) (c : Nat) (x : Conn) (fs : List (Nat × List Byte)) : Prop :=
  ∃ gs : List DevFrame, t.hostOut = s.hostOut ++ gs.map (fun g => (c, g.bytes c)) ∧ gs.map (fun g => (g.typ.toNat, g.payload)) = fs ∧
    ∀ i g, gs[i]? = some g → g.seq = x.txSeq + BitVec.ofNat 32 i

/-- The payload of DONE (R366). -/
def donePayload (f : HostFrame) (status n : Nat) : List Byte := bytesOf 4 f.seq.toNat ++ bytesOf 4 status ++ bytesOf 4 n

/-- A command has left the command queue of a die and its COMMAND element, with a status, stands last on the RAS queue (R375). -/
def State.completed (s t : State) (d : Nat) (c : List Byte) (rest : List (List Byte)) (status : Nat) : Prop :=
  (t.die d).cmdQ = rest ∧ (t.die d).cmdBusy = none ∧ t.mem = s.mem ∧ t.groups = s.groups ∧
  ∃ e, (t.die d).rasQ.getLast? = some e ∧ (e.kind, e.detail) = (2, fieldAt c 4 2 + status * 65536)

end Sys2Proof.Machine
end

