-- ==== Sys2Proof/Certificates/Slice0/Obligations.lean ====
section
/-! DEFINITION. The statements for the provers. -/

open Sys2Proof Sys2Proof.Machine

/-- R137, R138: IMUL, IMULH and IMAD; IADD and ISUB wrap, clamp the signed sum or clamp the unsigned sum, and only a clamped lane raises
saturation; in an immediate form B is the sign-extended immediate. R142: LEA adds the extended and shifted B to the pair A, modulo
2^64. -/
def Obligations.IntegerArithmetic : Prop :=
  (∀ (s : State) (ag : Agent) (act : Mask) (d : RegNo) (a b c : Src) (imm : BitVec 20) (m : SatMode)
    (u : Bool) (g : Guard),
    (s.ready ag act (aluSpec true g [(a, 1), (b, 1)] d 1) = true →
      exec (.iadd d a b m g) s = .next (s.lanewise ag act d fun l => sumForm m 1 (s.src ag a 0 l) (s.src ag b 0 l)) ∧
      exec (.isub d a b m g) s = .next (s.lanewise ag act d fun l => sumForm m (-1) (s.src ag a 0 l) (s.src ag b 0 l))) ∧
    (s.ready ag act (aluSpec true g [(a, 1)] d 1) = true →
      exec (.iaddImm d a imm m g) s = .next (s.lanewise ag act d fun l => sumForm m 1 (s.src ag a 0 l) (imm.signExtend 32)) ∧
      exec (.isubImm d a imm m g) s =
        .next (s.lanewise ag act d fun l => sumForm m (-1) (s.src ag a 0 l) (imm.signExtend 32))) ∧
    (s.ready ag act (aluSpec true g [(a, 1), (b, 1)] d 1) = true →
      exec (.imul d a b g) s = .next (s.quietly ag act d fun l =>
        [BitVec.ofNat 32 ((s.src ag a 0 l).toNat * (s.src ag b 0 l).toNat)]) ∧
      exec (.imulh d a b u g) s = .next (s.quietly ag act d fun l =>
        [BitVec.ofInt 32 (intOf u (s.src ag a 0 l) * intOf u (s.src ag b 0 l) / 2 ^ 32)])) ∧
    (s.ready ag act (aluSpec true g [(a, 1)] d 1) = true →
      exec (.imulImm d a imm g) s = .next (s.quietly ag act d fun l =>
        [BitVec.ofNat 32 ((s.src ag a 0 l).toNat * (imm.signExtend 32).toNat)])) ∧
    (s.ready ag act (aluSpec true g [(a, 1), (b, 1), (c, 1)] d 1) = true →
      exec (.imad d a b c g) s = .next (s.quietly ag act d fun l =>
        [BitVec.ofNat 32 ((s.src ag a 0 l).toNat * (s.src ag b 0 l).toNat + (s.src ag c 0 l).toNat)]))) ∧
  ∀ (s : State) (ag : Agent) (act : Mask) (d : RegNo) (a b : Src) (imm : BitVec 20) (sh : BitVec 3) (u : Bool) (g : Guard),
    let sum (l : Nat) (y : Word) : Int :=
      ((s.src ag a 1 l).toNat * 2 ^ 32 + (s.src ag a 0 l).toNat : Nat) + intOf u y * 2 ^ sh.toNat
    (s.ready ag act (aluSpec true g [(a, 2), (b, 1)] d 2) = true →
      exec (.lea d a b sh u g) s = .next (s.quietly ag act d fun l =>
        [BitVec.ofInt 32 (sum l (s.src ag b 0 l)), BitVec.ofInt 32 (sum l (s.src ag b 0 l) / 2 ^ 32)])) ∧
    (s.ready ag act (aluSpec true g [(a, 2)] d 2) = true →
      exec (.leaImm d a imm sh u g) s = .next (s.quietly ag act d fun l =>
        [BitVec.ofInt 32 (sum l (imm.signExtend 32)), BitVec.ofInt 32 (sum l (imm.signExtend 32) / 2 ^ 32)]))

/-- R140: ADDC, SUBB and IMADW take the carry or borrow in from bit 0 of C and write a pair. -/
def Obligations.MultiWordArithmetic : Prop :=
  ∀ (s : State) (ag : Agent) (act : Mask) (d : RegNo) (a b c : Src) (u : Bool) (g : Guard),
    (s.ready ag act (aluSpec false g [(a, 1), (b, 1), (c, 1)] d 2) = true →
      exec (.addc d a b c g) s = .next (s.quietly ag act d fun l =>
        let t := (s.src ag a 0 l).toNat + (s.src ag b 0 l).toNat + ((s.src ag c 0 l).getLsbD 0).toNat
        [BitVec.ofNat 32 (t % 2 ^ 32), BitVec.ofNat 32 (t / 2 ^ 32)]) ∧
      exec (.subb d a b c g) s = .next (s.quietly ag act d fun l =>
        let t : Int := (s.src ag a 0 l).toNat - (s.src ag b 0 l).toNat - ((s.src ag c 0 l).getLsbD 0).toNat
        [BitVec.ofInt 32 t, if t < 0 then 1#32 else 0#32])) ∧
    (s.ready ag act (aluSpec false g [(a, 1), (b, 1), (c, 2)] d 2) = true →
      exec (.imadw d a b c u g) s = .next (s.quietly ag act d fun l =>
        let p : Int := intOf u (s.src ag a 0 l) * intOf u (s.src ag b 0 l) +
          ((s.src ag c 1 l).toNat * 2 ^ 32 + (s.src ag c 0 l).toNat : Nat)
        [BitVec.ofInt 32 p, BitVec.ofInt 32 (p / 2 ^ 32)]))

/-- R137: AND, OR, XOR and ANDN act on each bit; SEL, MOV and MOVI copy bits.
R137: IMIN and IMAX give the smaller and the larger operand, IABS and INEG the magnitude and the negation; only the
clamped 0x8000_0000 raises saturation. POPC counts the 1 bits, CLZ the leading zeros, and BREV reverses the bits. -/
def Obligations.LogicMagnitudesAndCounts : Prop :=
  (∀ (s : State) (ag : Agent) (act : Mask) (d : RegNo) (a b c : Src) (imm : BitVec 20) (k : BitVec 32) (g : Guard),
    (s.ready ag act (aluSpec true g [(a, 1), (b, 1)] d 1) = true →
      ∃ w : Fin 4 → Nat → Word,
        exec (.and d a b g) s = .next (s.quietly ag act d fun l => [w 0 l]) ∧
        exec (.or d a b g) s = .next (s.quietly ag act d fun l => [w 1 l]) ∧
        exec (.xor d a b g) s = .next (s.quietly ag act d fun l => [w 2 l]) ∧
        exec (.andn d a b g) s = .next (s.quietly ag act d fun l => [w 3 l]) ∧
        ∀ l i, let x := (s.src ag a 0 l).getLsbD i
          let y := (s.src ag b 0 l).getLsbD i
          (w 0 l).getLsbD i = (x && y) ∧ (w 1 l).getLsbD i = (x || y) ∧ (w 2 l).getLsbD i = (x != y) ∧
          (w 3 l).getLsbD i = (x && !y)) ∧
    (s.ready ag act (aluSpec true g [(a, 1)] d 1) = true →
      exec (.andImm d a imm g) s = .next (s.quietly ag act d fun l => [s.src ag a 0 l &&& imm.signExtend 32]) ∧
      exec (.orImm d a imm g) s = .next (s.quietly ag act d fun l => [s.src ag a 0 l ||| imm.signExtend 32]) ∧
      exec (.xorImm d a imm g) s = .next (s.quietly ag act d fun l => [s.src ag a 0 l ^^^ imm.signExtend 32]) ∧
      exec (.andnImm d a imm g) s = .next (s.quietly ag act d fun l => [s.src ag a 0 l &&& ~~~imm.signExtend 32]) ∧
      exec (.mov d a false g) s = .next (s.quietly ag act d fun l => [s.src ag a 0 l])) ∧
    (s.ready ag act (aluSpec true g [(a, 1), (b, 1), (c, 1)] d 1) = true →
      exec (.sel d a b c g) s = .next (s.quietly ag act d fun l =>
        [if (s.src ag c 0 l).getLsbD 0 then s.src ag a 0 l else s.src ag b 0 l])) ∧
    (s.ready ag act (aluSpec true g [(a, 2)] d 2) = true →
      exec (.mov d a true g) s = .next (s.quietly ag act d fun l => [s.src ag a 0 l, s.src ag a 1 l])) ∧
    (s.ready ag act (aluSpec true g [] d 1) = true →
      exec (.movi d k g) s = .next (s.quietly ag act d fun _ => [k]))) ∧
  (∀ (s : State) (ag : Agent) (act : Mask) (d : RegNo) (a b : Src) (imm : BitVec 20) (u sat : Bool) (g : Guard),
    (s.ready ag act (aluSpec true g [(a, 1), (b, 1)] d 1) = true →
      ∃ w z : Nat → Word,
        exec (.imin d a b u g) s = .next (s.quietly ag act d fun l => [w l]) ∧
        exec (.imax d a b u g) s = .next (s.quietly ag act d fun l => [z l]) ∧
        ∀ l, intOf u (w l) = min (intOf u (s.src ag a 0 l)) (intOf u (s.src ag b 0 l)) ∧
          intOf u (z l) = max (intOf u (s.src ag a 0 l)) (intOf u (s.src ag b 0 l))) ∧
    (s.ready ag act (aluSpec true g [(a, 1)] d 1) = true →
      ∃ w z : Nat → Word,
        exec (.iminImm d a imm u g) s = .next (s.quietly ag act d fun l => [w l]) ∧
        exec (.imaxImm d a imm u g) s = .next (s.quietly ag act d fun l => [z l]) ∧
        ∀ l, intOf u (w l) = min (intOf u (s.src ag a 0 l)) (intOf u (imm.signExtend 32)) ∧
          intOf u (z l) = max (intOf u (s.src ag a 0 l)) (intOf u (imm.signExtend 32))) ∧
    (s.ready ag act (aluSpec false g [(a, 1)] d 1) = true →
      exec (.iabs d a sat g) s = .next (s.lanewise ag act d fun l =>
        if sat then clamped (-(2 ^ 31)) (2 ^ 31 - 1) |(s.src ag a 0 l).toInt|
        else (BitVec.ofInt 32 |(s.src ag a 0 l).toInt|, Flags.none)) ∧
      exec (.ineg d a sat g) s = .next (s.lanewise ag act d fun l =>
        if sat then clamped (-(2 ^ 31)) (2 ^ 31 - 1) (-(s.src ag a 0 l).toInt)
        else (BitVec.ofInt 32 (-(s.src ag a 0 l).toInt), Flags.none))) ∧
    (s.ready ag act (aluSpec true g [(a, 1)] d 1) = true →
      ∃ p z r : Nat → Word,
        exec (.popc d a g) s = .next (s.quietly ag act d fun l => [p l]) ∧
        exec (.clz d a g) s = .next (s.quietly ag act d fun l => [z l]) ∧
        exec (.brev d a g) s = .next (s.quietly ag act d fun l => [r l]) ∧
        ∀ l, (p l).toNat = ((List.range 32).countP fun i => (s.src ag a 0 l).getLsbD i) ∧
          (z l).toNat ≤ 32 ∧ (s.src ag a 0 l).toNat < 2 ^ (32 - (z l).toNat) ∧
          ((z l).toNat < 32 → (s.src ag a 0 l).getLsbD (31 - (z l).toNat) = true) ∧
          ∀ i, i < 32 → (r l).getLsbD i = (s.src ag a 0 l).getLsbD (31 - i)))

/-- R139, R138: the shifts, the rotation and the bit fields, with register and with immediate amounts. -/
def Obligations.ShiftsAndFields : Prop :=
  ∀ (s : State) (ag : Agent) (act : Mask) (d : RegNo) (a b c : Src) (amt pos : BitVec 5) (len : BitVec 6) (sgn : Bool)
    (g : Guard),
    (s.ready ag act (aluSpec true g [(a, 1), (b, 1)] d 1) = true →
      exec (.shl d a b g) s = .next (s.quietly ag act d fun l => [shiftLeft (s.src ag a 0 l).toNat (s.src ag b 0 l).toNat]) ∧
      exec (.shr d a b g) s = .next (s.quietly ag act d fun l => [shiftRight (s.src ag a 0 l).toNat (s.src ag b 0 l).toNat]) ∧
      exec (.sar d a b g) s = .next (s.quietly ag act d fun l => [shiftArith (s.src ag a 0 l) (s.src ag b 0 l).toNat]) ∧
      exec (.rol d a b g) s = .next (s.quietly ag act d fun l => [rotated (s.src ag a 0 l).toNat (s.src ag b 0 l).toNat]) ∧
      exec (.bfx d a b sgn g) s = .next (s.quietly ag act d fun l =>
        [BitVec.ofInt 32 (fieldOf sgn (s.src ag a 0 l).toNat (bits (s.src ag b 0 l) 7 0) (bits (s.src ag b 0 l) 15 8))])) ∧
    (s.ready ag act (aluSpec true g [(a, 1)] d 1) = true →
      exec (.shlImm d a amt g) s = .next (s.quietly ag act d fun l => [shiftLeft (s.src ag a 0 l).toNat amt.toNat]) ∧
      exec (.shrImm d a amt g) s = .next (s.quietly ag act d fun l => [shiftRight (s.src ag a 0 l).toNat amt.toNat]) ∧
      exec (.sarImm d a amt g) s = .next (s.quietly ag act d fun l => [shiftArith (s.src ag a 0 l) amt.toNat]) ∧
      exec (.rolImm d a amt g) s = .next (s.quietly ag act d fun l => [rotated (s.src ag a 0 l).toNat amt.toNat]) ∧
      exec (.bfxImm d a pos len sgn g) s = .next (s.quietly ag act d fun l =>
        [BitVec.ofInt 32 (fieldOf sgn (s.src ag a 0 l).toNat pos.toNat len.toNat)])) ∧
    (s.ready ag act (aluSpec true g [(a, 1), (b, 1), (c, 1)] d 1) = true →
      ∃ w : Nat → Word,
        exec (.bfi d a b c g) s = .next (s.quietly ag act d fun l => [w l]) ∧
        ∀ l i, i < 32 →
          let pos := bits (s.src ag b 0 l) 7 0
          let len := bits (s.src ag b 0 l) 15 8
          (w l).getLsbD i = if pos ≤ i ∧ i < pos + len then (s.src ag a 0 l).getLsbD (i - pos) else (s.src ag c 0 l).getLsbD i)

/-- R141, R138: ICMP writes 1 where its condition holds, signed or unsigned, and 0 elsewhere. -/
def Obligations.CompareWritesBit : Prop :=
  ∀ (s : State) (ag : Agent) (act : Mask) (d : RegNo) (a b : Src) (imm : BitVec 20) (c : Cond) (u : Bool) (g : Guard),
    (s.ready ag act (aluSpec true g [(a, 1), (b, 1)] d 1) = true →
      ∃ w : Nat → Bool, exec (.icmp d a b c u g) s = .next (s.quietly ag act d fun l => [if w l then 1#32 else 0#32]) ∧
        ∀ l, w l = true ↔ relates c (intOf u (s.src ag a 0 l)) (intOf u (s.src ag b 0 l))) ∧
    (s.ready ag act (aluSpec true g [(a, 1)] d 1) = true →
      ∃ w : Nat → Bool, exec (.icmpImm d a imm c u g) s = .next (s.quietly ag act d fun l => [if w l then 1#32 else 0#32]) ∧
        ∀ l, w l = true ↔ relates c (intOf u (s.src ag a 0 l)) (intOf u (imm.signExtend 32)))

/-- R64, R23, R38, R320: what reading e0 to e31 gives, number by number: to a fragment, what its team, its launch record and its group
hold and its own lanes; to a helper the same but for e0, e1, e11, e17 and e29 to e31. No other kind of agent reads them (R339). -/
def Obligations.EnvironmentValues : Prop :=
  ∀ (s : State) (n m k : Nat) (gr : Group) (tm : Team), n < 128 → m < 2048 → k < 16 →
    let key := groupKey n m k
    let die := s.die n
    let r := tm.recd
    let shared (read : Nat → Word) : Prop :=
      read 2 = BitVec.ofNat 32 k ∧ read 3 = tm.index ∧ (read 4).toNat = 16 * 2 ^ bits r 532 531 ∧
      (read 5).toNat = bits r 536 533 + 1 ∧ read 7 ++ read 6 = r.extractLsb' 128 64 ∧
      (∀ c, die.coreMap[c]? = some gr.core → die.coreMap.Nodup → read 8 = BitVec.ofNat 32 c ∧
        (c < 2 * die.pairs → read 16 = BitVec.ofNat 32 (c / 2)) ∧ (2 * die.pairs ≤ c → read 16 = 0xFFFFFFFF#32)) ∧
      (∀ d, s.dieMap[d]? = some n → s.dieMap.Nodup → read 9 = BitVec.ofNat 32 d) ∧
      (read 10).toNat = s.panelNo.toNat ∧ read 13 ++ read 12 = s.dieClock n ∧
      read 18 = BitVec.ofNat 32 m ∧ (read 19).toNat = bits r 351 320 ∧ (read 20).toNat = bits r 415 384 ∧
      (read 21).toNat = 256 * bits r 559 548 ∧ (read 22).toNat = 16 * bits r 575 560 ∧
      read 23 = BitVec.ofNat 32 (8 * (bits r 541 537 + 1) + 8 * bits r 547 542 * 2 ^ 16) ∧
      read 25 ++ read 24 = (gr.privBase.setWidth 64 : BitVec 64) ∧ (read 26).toNat = bits r 367 352 ∧
      (read 27).toNat = bits r 383 368 ∧ (read 28).toNat = tm.ptag.toNat
    s.group? key = some gr → s.team? n m = some tm →
    (∀ e f, aget gr.frags e = some f → ∀ l, l < 64 →
      let read (i : Nat) : Word := s.rdReg (.frag n m k e) (640 + i) l
      shared read ∧ read 0 = BitVec.ofNat 32 l ∧ read 1 = BitVec.ofNat 32 (l / 4) ∧ read 11 = 0xFFFFFFFF#32 ∧
      read 17 = BitVec.ofNat 32 gr.part ∧ read 29 = 0#32 ∧ read 31 ++ read 30 = f.mask ∧
      (f.gang = none ∨ 32 ≤ l → read 14 = gr.workX ∧ read 15 = gr.workY) ∧
      (∀ q, f.gang = some q → l < 32 → read 14 = q.workX ∧ read 15 = q.workY)) ∧
    (∀ rc h x, gr.recruit = some rc → aget rc.helpers h = some x → h < 63 → ∀ l, l < 64 →
      let read (i : Nat) : Word := s.rdReg (.helper n m k h) (640 + i) l
      shared read ∧ read 0 = BitVec.ofNat 32 l ∧ read 1 = BitVec.ofNat 32 (l / 4) ∧ (read 11).toNat = x.iter.toNat ∧
      read 14 = gr.workX ∧ read 15 = gr.workY ∧ read 17 = BitVec.ofNat 32 x.bank ∧ read 29 = BitVec.ofNat 32 (2 ^ 31 + h) ∧ read 31 ++ read 30 = x.front.mask) ∧
    ∀ x : Src, 640 ≤ x.r.toNat → s.srcOk (.seq n m) (x, 1) = false

/-- R143, R149, R150, R153, R155, R156: the floating, packed, conversion and scale forms write, in each active lane, what the
function of their entry gives of that lane's operands, and raise its flags; CVT (other than `.sr`) puts one element into D and
takes the others from C; CBDEC sign-extends four weights, where no grist entry it reads is in error or under test; IDOT4 sums four products and C, modulo 2^32 or clamped.
R147, R148: the SFU forms write what the function of their entry gives of each active lane, and their special operands. -/
def Obligations.FloatAndSfuForms : Prop :=
  (∀ (s : State) (ag : Agent) (act : Mask) (d : RegNo) (a b c : Src) (f : PFmt) (rm : RMode) (src dst : NumFmt)
    (ua ub sat w h k : Bool) (j : BitVec 2) (g : Guard),
    let el (x : Src) (l i : Nat) : Nat := (s.src ag x 0 l).toNat / 2 ^ (16 * i) % 2 ^ 16
    let two (r : Nat → Nat → Nat × Flags) : Nat → Word × Flags :=
      fun l => (BitVec.ofNat 32 ((r l 0).1 + (r l 1).1 * 2 ^ 16), (r l 0).2.or (r l 1).2)
    (s.ready ag act (aluSpec false g [(a, 1), (b, 1)] d 1) = true →
      exec (.fadd d a b rm g) s = .next (s.lanewise ag act d fun l =>
        w32 (f32.add rm (s.src ag a 0 l).toNat (s.src ag b 0 l).toNat)) ∧
      exec (.fsub d a b rm g) s = .next (s.lanewise ag act d fun l =>
        w32 (f32.sub rm (s.src ag a 0 l).toNat (s.src ag b 0 l).toNat)) ∧
      exec (.fmul d a b rm g) s = .next (s.lanewise ag act d fun l =>
        w32 (f32.mul rm (s.src ag a 0 l).toNat (s.src ag b 0 l).toNat)) ∧
      exec (.padd2 d a b f rm g) s = .next (s.lanewise ag act d (two fun l i => (pfmt f).add rm (el a l i) (el b l i))) ∧
      exec (.pmul2 d a b f rm g) s = .next (s.lanewise ag act d (two fun l i => (pfmt f).mul rm (el a l i) (el b l i))) ∧
      exec (.scal d a b k rm g) s = .next (s.lanewise ag act d fun l => scalW rm k (s.src ag a 0 l) (s.src ag b 0 l))) ∧
    (s.ready ag act (aluSpec false g [(a, 1), (b, 1), (c, 1)] d 1) = true →
      exec (.ffma d a b c rm g) s = .next (s.lanewise ag act d fun l =>
        w32 (f32.fma rm (s.src ag a 0 l).toNat (s.src ag b 0 l).toNat (s.src ag c 0 l).toNat)) ∧
      exec (.pfma2 d a b c f rm g) s = .next (s.lanewise ag act d
        (two fun l i => (pfmt f).fma rm (el a l i) (el b l i) (el c l i))) ∧
      exec (.pdot2 d a b c f rm g) s = .next (s.lanewise ag act d fun l =>
        pdot2W (pfmt f) rm (s.src ag a 0 l) (s.src ag b 0 l) (s.src ag c 0 l)) ∧
      exec (.idot4 d a b c ua ub sat g) s = .next (s.lanewise ag act d fun l =>
        let e (u : Bool) (x : Src) (i : Nat) : Int :=
          let y : BitVec 8 := (s.src ag x 0 l).extractLsb' (8 * i) 8
          if u then y.toNat else y.toInt
        let t : Int := (s.src ag c 0 l).toInt + e ua a 0 * e ub b 0 + e ua a 1 * e ub b 1 + e ua a 2 * e ub b 2 +
          e ua a 3 * e ub b 3
        if sat then clamped (-(2 ^ 31)) (2 ^ 31 - 1) t else (BitVec.ofInt 32 t, Flags.none))) ∧
    (rm ≠ .sr → s.ready ag act (aluSpec false g (if NumFmt.elems dst = 1 then [(a, 1)] else [(a, 1), (c, 1)]) d 1) = true →
      exec (.cvt d a c src dst rm sat j g) s = .next (s.lanewise ag act d fun l =>
        let r := cvtElem src dst rm sat (nfElem src (s.src ag a 0 l) (if NumFmt.elems src = 1 then 0 else j.toNat))
        (nfPut dst (if NumFmt.elems dst = 1 then 0#32 else s.src ag c 0 l) j.toNat r.1, r.2))) ∧
    (s.ready ag act (aluSpec false g [(a, 1)] d 1) = true → s.cbdecMeets (aluSpec false g [(a, 1)] d 1) w = false →
      ∃ v : Nat → Word, exec (.cbdec d a w h g) s = .next (s.quietly ag act d fun l => [v l]) ∧
        ∀ l i, i < 4 → ((v l).extractLsb' (8 * i) 8).toInt =
          cb2Weight (s.gristOf (agKey ag)) ((s.src ag a 0 l).toNat / 2 ^ (if w then 16 else 0) % 2 ^ 16)
            ((if h then 4 else 0) + i))) ∧
  ((∀ (s : State) (ag : Agent) (act : Mask) (d : RegNo) (a : Src) (rm : RMode) (g : Guard),
    s.ready ag act (sfuSpec a d g) = true →
      exec (.frcp d a g) s = .next (s.lanewise ag act d fun l => frcpW (s.src ag a 0 l)) ∧
      exec (.frsq d a g) s = .next (s.lanewise ag act d fun l => frsqW (s.src ag a 0 l)) ∧
      exec (.fsqrt d a rm g) s = .next (s.lanewise ag act d fun l => fsqrtW rm (s.src ag a 0 l)) ∧
      exec (.fex2 d a g) s = .next (s.lanewise ag act d fun l => fex2W (s.src ag a 0 l)) ∧
      exec (.flg2 d a g) s = .next (s.lanewise ag act d fun l => flg2W (s.src ag a 0 l)) ∧
      exec (.fsin d a g) s = .next (s.lanewise ag act d fun l => fsinW (s.src ag a 0 l)) ∧
      exec (.fcos d a g) s = .next (s.lanewise ag act d fun l => fcosW (s.src ag a 0 l))) ∧
  (∀ (rm : RMode) (x : Word), IsNan32 x →
    frcpW x = nanQuiet ∧ frsqW x = nanQuiet ∧ fsqrtW rm x = nanQuiet ∧ fex2W x = nanQuiet ∧ flg2W x = nanQuiet ∧
    fsinW x = nanQuiet ∧ fcosW x = nanQuiet) ∧
  (∀ rm, frcpW (inf32 true) = (zero32 true, Flags.none) ∧ frsqW (inf32 true) = nanInvalid ∧
    fsqrtW rm (inf32 true) = nanInvalid ∧ fex2W (inf32 true) = (zero32 false, Flags.none) ∧
    flg2W (inf32 true) = nanInvalid ∧ fsinW (inf32 true) = nanInvalid ∧ fcosW (inf32 true) = nanInvalid) ∧
  (∀ rm, frcpW (inf32 false) = (zero32 false, Flags.none) ∧ frsqW (inf32 false) = (zero32 false, Flags.none) ∧
    fsqrtW rm (inf32 false) = (inf32 false, Flags.none) ∧ fex2W (inf32 false) = (inf32 false, Flags.none) ∧
    flg2W (inf32 false) = (inf32 false, Flags.none) ∧ fsinW (inf32 false) = nanInvalid ∧
    fcosW (inf32 false) = nanInvalid) ∧
  (∀ rm n, frcpW (zero32 n) = (inf32 n, { dz := true }) ∧ frsqW (zero32 n) = (inf32 n, { dz := true }) ∧
    fsqrtW rm (zero32 n) = (zero32 n, Flags.none) ∧ fex2W (zero32 n) = (0x3F800000#32, Flags.none) ∧
    flg2W (zero32 n) = (inf32 true, { dz := true }) ∧ fsinW (zero32 n) = (zero32 n, Flags.none) ∧
    fcosW (zero32 n) = (0x3F800000#32, Flags.none)) ∧
  (∀ rm x p, finiteValue f32 x.toNat = some p → p < 0 →
    frsqW x = nanInvalid ∧ fsqrtW rm x = nanInvalid ∧ flg2W x = nanInvalid) ∧
  flg2W 0x3F800000#32 = (zero32 false, Flags.none))

/-- R101, R105, R106, R143, R147, R149, R150, R156: of finite operands, sums, products and fused sums in the formats of the
computing instructions, the dot product of two, the reciprocal, the square root, its reciprocal and the scaling are the exact
result rounded once, beyond the range what R106 delivers. R103: the overflow, underflow and inexact flags of each. R106, R150: the sign of
a result that is exactly zero. -/
def Obligations.FiniteResultsRoundOnce : Prop :=
  (∀ (f : FFmt) (rm : RMode) (x y z : Nat) (p q t : ℚ), f ∈ [f32, f16, bf16] →
    finiteValue f x = some p → finiteValue f y = some q → finiteValue f z = some t →
    let neg (x : Nat) : Bool := x.testBit (f.eb + f.mb)
    let flat (zeros same n : Bool) : Nat := signAt f (if zeros && same then n else rm == .rd)
    (RoundedOnce f rm (p + q) (f.add rm x y) ∧ RoundedOnce f rm (p * q) (f.mul rm x y) ∧
      RoundedOnce f rm (p - q) (f.sub rm x y) ∧ RoundedOnce f rm (p * q + t) (f.fma rm x y z)) ∧
    (p + q = 0 → (f.add rm x y).1 = flat (decide (p = 0)) (neg x == neg y) (neg x)) ∧
    (p - q = 0 → (f.sub rm x y).1 = flat (decide (p = 0)) (neg x != neg y) (neg x)) ∧
    (p * q = 0 → (f.mul rm x y).1 = signAt f (neg x != neg y)) ∧
    (p * q + t = 0 → (f.fma rm x y z).1 = flat (decide (t = 0)) ((neg x != neg y) == neg z) (neg z))) ∧
  (∀ (f : PFmt) (rm : RMode) (x y z : Word) (p0 q0 p1 q1 t : ℚ),
    let el (x : Word) (i : Nat) : Nat := x.toNat / 2 ^ (16 * i) % 2 ^ 16
    let v (x : Word) (i : Nat) : Option ℚ := finiteValue (pfmt f) (el x i)
    let n (i : Nat) : Bool := (el x i).testBit 15 != (el y i).testBit 15
    v x 0 = some p0 → v y 0 = some q0 → v x 1 = some p1 → v y 1 = some q1 → finiteValue f32 z.toNat = some t →
    RoundedOnce f32 rm (p0 * q0 + p1 * q1 + t) ((pdot2W (pfmt f) rm x y z).1.toNat, (pdot2W (pfmt f) rm x y z).2) ∧
    (p0 * q0 + p1 * q1 + t = 0 → (pdot2W (pfmt f) rm x y z).1 =
      zero32 (if p0 * q0 = 0 ∧ p1 * q1 = 0 ∧ n 0 = z.getLsbD 31 ∧ n 1 = z.getLsbD 31 then z.getLsbD 31 else rm == .rd))) ∧
  (∀ (x : Word) (p : ℚ), finiteValue f32 x.toNat = some p → p ≠ 0 →
    RoundedOnce f32 .rne (1 / p) ((frcpW x).1.toNat, (frcpW x).2)) ∧
  (∀ (rm : RMode) (x : Word) (p : ℚ), finiteValue f32 x.toNat = some p → 0 < p →
    RootRounded f32 .rne (1 / Real.sqrt p) ((frsqW x).1.toNat, (frsqW x).2) ∧
    RootRounded f32 rm (Real.sqrt p) ((fsqrtW rm x).1.toNat, (fsqrtW rm x).2)) ∧
  ∀ (rm : RMode) (k : Bool) (x y : Word) (p : ℚ),
    let sc := y.toNat / 2 ^ (if k then 16 else 0) % 2 ^ 12
    finiteValue f32 x.toNat = some p → sc / 16 ≠ 255 →
    RoundedOnce f32 rm (p * scaleValue sc) ((scalW rm k x y).1.toNat, (scalW rm k x y).2) ∧
    (p * scaleValue sc = 0 → (scalW rm k x y).1 = zero32 (x.getLsbD 31))

/-- R107, R153: a converted element. Floating to floating is one rounding, a zero keeping its sign, with the largest finite magnitude
in place of what an overflow delivers, and the same flags, in the saturating form; floating to integer rounds and clamps, with saturation alone where it clamps; integer to floating rounds once;
integer to integer clamps. A NaN gives the canonical NaN, or 0 with invalid in an integer; an infinity stays one, gives 0x7F with
invalid in F8E4, and the end of an integer's range with saturation. R103: the flags. (What `.sat` delivers where an integer
overflows a floating format is the model's choice, log 55, and is not stated.) -/
def Obligations.ConversionResults : Prop :=
  ∀ (src dst : NumFmt) (rm : RMode) (sat : Bool) (x : Nat), rm ≠ .sr → x < 2 ^ nfWidth src →
    let r := cvtElem src dst rm sat x
    let lo := (nfRange dst).1
    let hi := (nfRange dst).2
    (∀ fs ft p, nfFmt src = some fs → nfFmt dst = some ft → finiteValue fs x = some p →
      (sat = false → RoundedOnce ft rm p r) ∧
      (sat = true → ∃ u, RoundedOnce ft rm p u ∧ r = (if u.2.ovf then signAt ft (decide (p < 0)) + ft.maxMag else u.1, u.2)) ∧
      (p = 0 → r = (signAt ft (x.testBit (fs.eb + fs.mb)), Flags.none))) ∧
    (∀ fs p, nfFmt src = some fs → nfFmt dst = none → finiteValue fs x = some p →
      ∃ n, IntRounded rm p n ∧ r.1 = nfOfInt dst (max lo (min n hi)) ∧
        (r.2.sat = true ↔ n < lo ∨ hi < n) ∧ (r.2.inx = true ↔ (n : ℚ) ≠ p ∧ r.2.sat = false)) ∧
    (∀ ft, nfFmt src = none → nfFmt dst = some ft →
      (sat = false → RoundedOnce ft rm (nfInt src x) r) ∧
      (sat = true → ∃ u, RoundedOnce ft rm (nfInt src x) u ∧ r.2 = u.2 ∧ (u.2.ovf = false → r.1 = u.1)) ∧
      (nfInt src x = 0 → r = (0, Flags.none))) ∧
    (nfFmt src = none → nfFmt dst = none →
      r.1 = nfOfInt dst (max lo (min (nfInt src x) hi)) ∧ (r.2.sat = true ↔ nfInt src x < lo ∨ hi < nfInt src x)) ∧
    (∀ fs, nfFmt src = some fs → NanElem fs x →
      r = (canonicalNan dst, if (nfFmt dst).isSome then Flags.none else { inv := true })) ∧
    (∀ fs neg, nfFmt src = some fs → fs.noInf = false → x = signAt fs neg + (2 ^ fs.eb - 1) * 2 ^ fs.mb →
      r = match nfFmt dst with
        | some ft => if ft.noInf then (0x7F, { inv := true }) else (signAt ft neg + (2 ^ ft.eb - 1) * 2 ^ ft.mb, Flags.none)
        | none => (nfOfInt dst (if neg then lo else hi), { sat := true }))

/-- R143, R102, R106, R109: the special values of FP32 sums and products under every mode.
R144, R145, R146: FMIN and FMAX, FCMP and FCLASS; none sets a flag. -/
def Obligations.FloatSpecialsOrderAndClass : Prop :=
  (∀ (rm : RMode) (x y z : Word) (m n : Bool),
    (IsNan32 x ∨ IsNan32 y → w32 (f32.add rm x.toNat y.toNat) = nanQuiet ∧ w32 (f32.sub rm x.toNat y.toNat) = nanQuiet ∧
      w32 (f32.mul rm x.toNat y.toNat) = nanQuiet) ∧
    (IsNan32 x ∨ IsNan32 y ∨ IsNan32 z → w32 (f32.fma rm x.toNat y.toNat z.toNat) = nanQuiet) ∧
    w32 (f32.add rm (inf32 m).toNat (inf32 n).toNat) = (if m = n then (inf32 m, Flags.none) else nanInvalid) ∧
    w32 (f32.sub rm (inf32 m).toNat (inf32 n).toNat) = (if m = n then nanInvalid else (inf32 m, Flags.none)) ∧
    w32 (f32.mul rm (zero32 m).toNat (inf32 n).toNat) = nanInvalid ∧
    w32 (f32.mul rm (inf32 m).toNat (zero32 n).toNat) = nanInvalid ∧
    w32 (f32.mul rm (inf32 m).toNat (inf32 n).toNat) = (inf32 (m != n), Flags.none) ∧
    (¬IsNan32 z → w32 (f32.fma rm (zero32 m).toNat (inf32 n).toNat z.toNat) = nanInvalid) ∧
    w32 (f32.add rm (zero32 m).toNat (zero32 n).toNat) =
      (if m = n then zero32 m else zero32 (rm == .rd), Flags.none) ∧
    ∀ p, finiteValue f32 x.toNat = some p →
      w32 (f32.add rm (inf32 m).toNat x.toNat) = (inf32 m, Flags.none) ∧
      w32 (f32.add rm x.toNat (inf32 m).toNat) = (inf32 m, Flags.none) ∧
      (p ≠ 0 → w32 (f32.sub rm x.toNat x.toNat) = (zero32 (rm == .rd), Flags.none) ∧
        w32 (f32.mul rm (inf32 m).toNat x.toNat) = (inf32 (m != x.getLsbD 31), Flags.none))) ∧
  (∀ (s : State) (ag : Agent) (act : Mask) (d : RegNo) (a b : Src) (c : FCond) (g : Guard),
    (s.ready ag act (aluSpec false g [(a, 1), (b, 1)] d 1) = true →
      ∃ (mn mx : Nat → Word) (cm : Nat → Bool),
        exec (.fmin d a b g) s = .next (s.quietly ag act d fun l => [mn l]) ∧
        exec (.fmax d a b g) s = .next (s.quietly ag act d fun l => [mx l]) ∧
        exec (.fcmp d a b c g) s = .next (s.quietly ag act d fun l => [if cm l then 1#32 else 0#32]) ∧
        ∀ l, let x := s.src ag a 0 l
          let y := s.src ag b 0 l
          let same : Prop := x = y ∨ x.toNat % 2 ^ 31 = 0 ∧ y.toNat % 2 ^ 31 = 0
          Extremes x y (mn l) (mx l) ∧
          (IsNan32 x ∨ IsNan32 y → (cm l = true ↔ c = .ne ∨ c = .un)) ∧
          (¬IsNan32 x → ¬IsNan32 y →
            (∀ p q, finiteValue f32 x.toNat = some p → finiteValue f32 y.toNat = some q →
              (cm l = true ↔ match c with
                | .eq => p = q
                | .ne => p ≠ q
                | .lt => p < q
                | .le => p ≤ q
                | .gt => q < p
                | .ge => q ≤ p
                | .un => False
                | .ord => True)) ∧
            (cm l = true ↔ match c with
                | .eq => same
                | .ne => ¬same
                | .lt => ¬same ∧ place32 x < place32 y
                | .le => same ∨ place32 x < place32 y
                | .gt => ¬same ∧ place32 y < place32 x
                | .ge => same ∨ place32 y < place32 x
                | .un => False
                | .ord => True))) ∧
    (s.ready ag act (aluSpec false g [(a, 1)] d 1) = true →
      ∃ i : Nat → Nat,
        exec (.fclass d a g) s = .next (s.quietly ag act d fun l => [BitVec.ofNat 32 (2 ^ i l)]) ∧
        ∀ l, let x := (s.src ag a 0 l).toNat
          let e := x / 2 ^ 23 % 2 ^ 8
          let m := x % 2 ^ 23
          i l = if e = 255 then (if m = 0 then (if x < 2 ^ 31 then 7 else 0) else if m < 2 ^ 22 then 8 else 9)
            else if e = 0 then (if m = 0 then (if x < 2 ^ 31 then 4 else 3) else if x < 2 ^ 31 then 5 else 2)
            else if x < 2 ^ 31 then 6 else 1))

/-- R113, R114, R154: an issue of CVT.SR by a fragment advances the generator of its partition once, whatever its lanes, and each
active lane rounds by the advanced state; NaN, infinity and zero convert as R107 lays down. R114, R135: a write of ROUND_SEED acts
from the clock after it. The model's choice here (log 65): with uniform operands too every active lane rounds and its flags join the
group's, and a uniform D takes the value of the lowest. A helper's issue is not covered here. -/
def Obligations.StochasticConversionAdvances : Prop :=
  (∀ (s : State) (n m g0 e : Nat) (act : Mask) (d : RegNo) (a c : Src) (dst : NumFmt) (sat : Bool) (j : BitVec 2) (g : Guard)
    (gr : Group),
    let ag : Agent := .frag n m g0 e
    let key := agKey ag
    s.group? key = some gr → (nfFmt dst).isSome = true →
    s.ready ag act (aluSpec false g (if NumFmt.elems dst = 1 then [(a, 1)] else [(a, 1), (c, 1)]) d 1) = true →
    let x := (s.core (keyDie key) gr.core).seed s.clock gr.part
    let y := if x.getLsbD 0 then (x >>> 1) ^^^ 0x80200003#32 else x >>> 1
    ∃ u : State, { u with cores := s.cores } = s ∧ (u.core (keyDie key) gr.core).seed s.clock gr.part = y ∧
      exec (.cvt d a c .f32 dst .sr sat j g) s = .next (u.lanewise ag act d fun l =>
        let r := cvtSr dst sat y l (s.src ag a 0 l).toNat
        (nfPut dst (if NumFmt.elems dst = 1 then 0#32 else s.src ag c 0 l) j.toNat r.1, r.2))) ∧
  (∀ (dst : NumFmt) (sat : Bool) (y x : Word) (l : Nat) (ft : FFmt), nfFmt dst = some ft →
    let r := cvtSr dst sat y l x.toNat
    (∀ p, finiteValue f32 x.toNat = some p → p ≠ 0 → StochasticRounded ft sat y l p r) ∧
    (finiteValue f32 x.toNat = some 0 → r = (signAt ft (x.getLsbD 31), Flags.none)) ∧
    (IsNan32 x → r = (canonicalNan dst, Flags.none)) ∧
    ∀ neg, x = inf32 neg → r = if ft.noInf then (0x7F, { inv := true }) else (signAt ft neg + (2 ^ ft.eb - 1) * 2 ^ ft.mb, Flags.none)) ∧
  ∀ (c : Core) (p : Nat) (w : SeedWrite), aget c.seedWrites p = some w →
    (∀ now, now ≤ w.clock → c.seed now p = sget 1#32 c.seeds p) ∧ ∀ now, w.clock < now → c.seed now p = w.value

/-- R157, R158: SHFL copies from the source lane of the lane's segment, or its own value where that lane is not valid or
not active. R159: VOTE. R160: MATCH. R161: LRED and LSCAN fold in ascending lane order, LSCAN from the identity, and raise the flags of
the whole fold; what an operation and its identity are. -/
def Obligations.CrossLane : Prop :=
  (∀ (s : State) (ag : Agent) (act : Mask) (d : RegNo) (a b : Src) (m : ShflMode) (seg : SegCode) (op : LaneOp) (excl : Bool)
    (g : Guard),
    let on := lanesOf act
    let bit (l : Nat) : Bool := (s.src ag a 0 l).getLsbD 0
    (s.ready ag act (aluSpec false g [(a, 1), (b, 1)] d 1) = true → segWidth (s.width ag) seg ≤ s.width ag →
      exec (.shfl d a b m seg g) s = .next (s.quietly ag act d fun l =>
        let x := shuffleSource m (segWidth (s.width ag) seg) l (s.src ag b 0 l).toNat
        [s.src ag a 0 (if x.2 && on.contains x.1 then x.1 else l)])) ∧
    (s.ready ag act (aluSpec false g [(a, 1)] d 1) = true →
      exec (.vote d a .all false g) s = .next (s.quietly ag act d fun _ => [if on.all bit then 1#32 else 0#32]) ∧
      exec (.vote d a .any false g) s = .next (s.quietly ag act d fun _ => [if on.any bit then 1#32 else 0#32]) ∧
      exec (.vote d a .eq false g) s = .next (s.quietly ag act d fun _ =>
        [if on.all bit || on.all (fun l => !bit l) then 1#32 else 0#32]) ∧
      (s.width ag < 64 →
        (∃ w : Word, exec (.vote d a .ballot false g) s = .next (s.quietly ag act d fun _ => [w]) ∧
          ∀ i, i < 32 → w.getLsbD i = (on.contains i && bit i)) ∧
        (∃ w : Nat → Word, exec (.matchLanes d a false false g) s = .next (s.quietly ag act d fun l => [w l]) ∧
          ∀ l i, i < 32 → ((w l).getLsbD i = true ↔ on.contains i = true ∧ s.src ag a 0 i = s.src ag a 0 l)))) ∧
    (s.ready ag act (aluSpec false g [(a, 1)] d 2) = true →
      (∃ w z : Word, exec (.vote d a .ballot true g) s = .next (s.quietly ag act d fun _ => [w, z]) ∧
        ∀ i, i < 64 → (pairOf z w).getLsbD i = (on.contains i && bit i)) ∧
      ∃ w z : Nat → Word, exec (.matchLanes d a true false g) s = .next (s.quietly ag act d fun l => [w l, z l]) ∧
        ∀ l i, i < 64 → ((pairOf (z l) (w l)).getLsbD i = true ↔ on.contains i = true ∧ s.src ag a 0 i = s.src ag a 0 l)) ∧
    (s.ready ag act (aluSpec false g [(a, 2)] d 1) = true → s.width ag < 64 →
      ∃ w : Nat → Word, exec (.matchLanes d a false true g) s = .next (s.quietly ag act d fun l => [w l]) ∧
        ∀ l i, i < 32 → ((w l).getLsbD i = true ↔
          on.contains i = true ∧ s.src ag a 0 i = s.src ag a 0 l ∧ s.src ag a 1 i = s.src ag a 1 l)) ∧
    (s.ready ag act (aluSpec false g [(a, 2)] d 2) = true →
      ∃ w z : Nat → Word, exec (.matchLanes d a true true g) s = .next (s.quietly ag act d fun l => [w l, z l]) ∧
        ∀ l i, i < 64 → ((pairOf (z l) (w l)).getLsbD i = true ↔
          on.contains i = true ∧ s.src ag a 0 i = s.src ag a 0 l ∧ s.src ag a 1 i = s.src ag a 1 l)) ∧
    (s.ready ag act (aluSpec false g [(a, 1)] d 1) = true →
      ∀ x y, on = x :: y →
      let step (r : Word × Flags) (l : Nat) : Word × Flags :=
        ((laneStep op r.1 (s.src ag a 0 l)).1, r.2.or (laneStep op r.1 (s.src ag a 0 l)).2)
      exec (.lred d a op g) s = .next (s.computed ag act d (fun _ => [(y.foldl step (s.src ag a 0 x, Flags.none)).1])
        fun _ => (y.foldl step (s.src ag a 0 x, Flags.none)).2) ∧
      exec (.lscan d a op excl g) s = .next (s.computed ag act d (fun l =>
        [((on.filter fun i => if excl then i < l else i ≤ l).foldl step (laneIdentity op, Flags.none)).1])
        fun _ => (on.foldl step (laneIdentity op, Flags.none)).2))) ∧
  (∀ x y : Word,
    let least (u : Bool) (r : Word × Flags) : Prop := r.2 = Flags.none ∧ intOf u r.1 = min (intOf u x) (intOf u y)
    let most (u : Bool) (r : Word × Flags) : Prop := r.2 = Flags.none ∧ intOf u r.1 = max (intOf u x) (intOf u y)
    least false (laneStep .min x y) ∧ most false (laneStep .max x y) ∧ least true (laneStep .umin x y) ∧ most true (laneStep .umax x y) ∧
    laneStep .add x y = (x + y, Flags.none) ∧ laneStep .and x y = (x &&& y, Flags.none) ∧ laneStep .or x y = (x ||| y, Flags.none) ∧
    laneStep .xor x y = (x ^^^ y, Flags.none) ∧ laneStep .fadd x y = w32 (f32.add .rne x.toNat y.toNat) ∧
    Extremes x y (laneStep .fmin x y).1 (laneStep .fmax x y).1 ∧
    (laneStep .fmin x y).2 = Flags.none ∧ (laneStep .fmax x y).2 = Flags.none) ∧
  laneIdentity .add = 0#32 ∧ laneIdentity .min = 0x7FFFFFFF#32 ∧ laneIdentity .max = 0x80000000#32 ∧
  laneIdentity .umin = 0xFFFFFFFF#32 ∧ laneIdentity .umax = 0#32 ∧ laneIdentity .and = 0xFFFFFFFF#32 ∧ laneIdentity .or = 0#32 ∧
  laneIdentity .xor = 0#32 ∧ laneIdentity .fadd = zero32 true ∧ laneIdentity .fmin = inf32 false ∧ laneIdentity .fmax = inf32 true

/-- R53: a fragment alone in its group, or the last of two, that executes JOIN at its join address goes on with both masks
and takes the outer address of the record; elsewhere JOIN acts as NOP. R54: REGANG fuses the executing fragment with another
that stands at the header of its clause with the same join address. R330: one that the handler's entry holds waits on; that the
executing fragment then waits too, at the JOIN where such a one waits, is the model's choice (log 69). -/
def Obligations.FragmentsFuse : Prop :=
  (∀ (s : State) (n m k e e2 : Nat) (act : Mask) (gr : Group) (f f2 : Fragment) (o : Option Addr),
     let ag : Agent := .frag n m k e
     s.ready ag act { cls := 4, first := true } = true → s.group? (agKey ag) = some gr → aget gr.frags e = some f →
     (f.join ≠ some f.clause → exec .join s = .next (s.advance ag)) ∧
     (f.join = some f.clause → gr.frags = [(e, f)] → gr.defer = [] → gr.holds e = false →
       ∃ t gt x, exec .join s = .next t ∧ t.group? (agKey ag) = some gt ∧ gt.frags = [(e, x)] ∧ x.mask = f.mask ∧
         x.join = none ∧ (x.clause, x.idx, x.hdr, x.wait) = (f.advance.clause, f.advance.idx, f.advance.hdr, Wait.run) ∧
         { t with groups := s.groups } = s) ∧
     (f.join = some f.clause → e ≠ e2 → gr.frags = aput [(e, f)] e2 f2 →
       gr.defer = [{ join := f.clause, outer := o, arm := none }] →
       f2.wait = .join → (f2.clause, f2.idx, f2.hdr, f2.join) = (f.clause, f.idx, f.hdr, f.join) → gr.holds e = false →
       (gr.holds e2 = false →
        ∃ t gt x, exec .join s = .next t ∧ t.group? (agKey ag) = some gt ∧ gt.frags = [(min e e2, x)] ∧
         x.mask = f.mask ||| f2.mask ∧ x.join = o ∧ gt.defer = [] ∧
         (x.clause, x.idx, x.hdr, x.wait) = (f.advance.clause, f.advance.idx, f.advance.hdr, Wait.run) ∧
         { t with groups := s.groups } = s) ∧
       (gr.holds e2 = true →
        exec .join s = .next (s.modGroup (agKey ag) fun g =>
          { g with frags := aput g.frags e { f with wait := .join, stall := .none } })))) ∧
  ∀ (s : State) (n m k e e2 : Nat) (act : Mask) (gr : Group) (f f2 : Fragment),
    let ag : Agent := .frag n m k e
    s.ready ag act { cls := 4, first := true } = true → s.group? (agKey ag) = some gr → gr.handler = none →
    f.wait = .run → f2.wait = .run → e ≠ e2 →
    gr.frags = aput [(e, f)] e2 f2 → (f2.clause, f2.idx, f2.hdr, f2.join) = (f.clause, 0, none, f.join) →
    ∃ t gt x, exec .regang s = .next t ∧ t.group? (agKey ag) = some gt ∧ gt.frags = [(e, x)] ∧
      x.mask = f.mask ||| f2.mask ∧ x.join = f.join ∧ gt.defer = gr.defer ∧
      (x.clause, x.idx, x.hdr) = (f.advance.clause, f.advance.idx, f.advance.hdr) ∧ { t with groups := s.groups } = s

/-- R119, R122, R84: a branch that all lanes of the fragment take goes to its target, the address of the instruction and
eight times the sign-extended offset; a call writes the address of the header after its clause into the link pair first.
R120, R121, R123: an indirect transfer whose lanes name one landing header, with no lane left behind, goes there; lanes
that name anything else raise BADTARGET with the failing lanes and the lowest one's target, and nothing else changes. Lanes that
go to several places, the lanes left behind among them, are dealt into parts: the first part stays in the fragment's entry and
every other takes a free one, with a SPLIT record each where the clause has a join address; the last becomes a DEFERRED record
where one entry is wanting; DIVDEPTH is raised where entries or records do not suffice. R383: a target under test is waited for. -/
def Obligations.DirectAndIndirectTransfers : Prop :=
  (∀ (s : State) (ag : Agent) (f : Fragment) (tgt : BitVec 30) (link : RegNo) (g : Guard),
    s.front? ag = some f → State.headerAt s ag (f.pc + BitVec.ofInt 48 (8 * tgt.toInt)) →
    s.agFetchBusy ag (f.pc + BitVec.ofInt 48 (8 * tgt.toInt)) = false →
    (s.ready ag f.mask { ctlSpec g [] with seq := true } = true →
      exec (.bra tgt g) s = .next (s.modFront ag fun f => f.goto (f.pc + BitVec.ofInt 48 (8 * tgt.toInt)))) ∧
    (s.ready ag f.mask { ctlSpec g [] with dsts := [(link, 2)], seq := true } = true →
      ∃ h, f.hdr = some h ∧
      exec (.call link tgt g) s = .next
        ((s.modFront ag fun f => f.goto (f.pc + BitVec.ofInt 48 (8 * tgt.toInt))).wrLanes ag link.toNat
          ((lanesOf f.mask).map fun l =>
            let a : Addr := f.clause + BitVec.ofNat 48 (8 * (bits h 56 53 + 2))
            (l, [loWord (a.setWidth 64), hiWord (a.setWidth 64)]))))) ∧
  (∀ (s : State) (n m k e : Nat) (f : Fragment) (act : Mask) (a : Src) (link : RegNo) (g : Guard) (x : Addr),
    let ag : Agent := .frag n m k e
    let there (l : Nat) : Addr := (s.src ag a 1 l ++ s.src ag a 0 l).setWidth 48
    let bad := (lanesOf act).filter fun l => !s.landingAt (keyDie (agKey ag)) (s.ptagOf (agKey ag)) (there l)
    s.front? ag = some f → (∀ l, l ∈ lanesOf act → s.agFetchBusy ag (there l) = false) →
    (act = f.mask → s.landingAt (keyDie (agKey ag)) (s.ptagOf (agKey ag)) x = true → (∀ l, l ∈ lanesOf f.mask → there l = x) →
      (s.ready ag f.mask (ctlSpec g [(a, 2)]) = true →
        exec (.brx a g) s = .next (s.modFront ag fun f => f.goto x)) ∧
      (s.ready ag f.mask { ctlSpec g [(a, 2)] with seq := true } = true →
        exec (.ret a g) s = .next (s.modFront ag fun f => f.goto x)) ∧
      (s.ready ag f.mask { ctlSpec g [(a, 2)] with dsts := [(link, 2)] } = true →
        exec (.callx link a g) s = .next ((s.modFront ag fun f => f.goto x).wrLanes ag link.toNat
          ((lanesOf f.mask).map fun l => (l, f.link))))) ∧
    (∀ l0 rest, bad = l0 :: rest →
      ∃ u, s.errorsMet u ∧
        (s.ready ag act (ctlSpec g [(a, 2)]) = true →
          exec (.brx a g) s = .next (u.raiseAt ag 6 0 (there l0) (maskOf bad))) ∧
        (s.ready ag act { ctlSpec g [(a, 2)] with seq := true } = true →
          exec (.ret a g) s = .next (u.raiseAt ag 6 0 (there l0) (maskOf bad))) ∧
        (s.ready ag act { ctlSpec g [(a, 2)] with dsts := [(link, 2)] } = true →
          exec (.callx link a g) s = .next (u.raiseAt ag 6 0 (there l0) (maskOf bad))))) ∧
  ∀ (s : State) (n m k e : Nat) (gr : Group) (f : Fragment) (act : Mask) (a : Src) (link : RegNo) (g : Guard)
    (ts : List (Addr × Mask)) (p0 : Addr × Mask) (more : List (Addr × Mask)),
    let ag : Agent := .frag n m k e
    let key := agKey ag
    let there (l : Nat) : Addr := (s.src ag a 1 l ++ s.src ag a 0 l).setWidth 48
    let rest := f.mask &&& ~~~act
    -- the parts of R120: the lanes left behind, then each distinct target in ascending order with its lanes
    (ts.map fun p => p.1.toNat).Pairwise (· < ·) → (∀ p ∈ ts, p.2 ≠ 0#64) → (∀ l ∈ lanesOf act, there l ∈ ts.map (·.1)) →
    (∀ p ∈ ts, ∀ l, p.2.getLsbD l = ((lanesOf act).contains l && there l == p.1)) →
    p0 :: more = (if rest = 0#64 then [] else [(f.advance.clause, rest)]) ++ ts → more ≠ [] →
    s.group? key = some gr → aget gr.frags e = some f →
    (∀ l, l ∈ lanesOf act → s.agFetchBusy ag (there l) = false ∧ s.landingAt (keyDie key) (s.ptagOf key) (there l) = true) →
    let went (t : State) (gt : Group) (es : List Nat) (taken : List (Addr × Mask)) (join : Option Addr) : Prop :=
      t.groups = aput s.groups key gt ∧ { t with groups := s.groups, tick := s.tick } = s ∧
      es.length = taken.length ∧ es.Nodup ∧ (∀ i ∈ es, i ∈ gr.vacant) ∧
      aget gt.frags e = some { f.goto p0.1 with mask := p0.2, join := if join.isSome then join else f.join } ∧
      (∀ z ∈ es.zip taken, aget gt.frags z.1 = some { f.goto z.2.1 with mask := z.2.2, join := join, stopped := .no }) ∧
      (∀ i, i ≠ e → i ∉ es → aget gt.frags i = aget gr.frags i) ∧
      { gt with frags := gr.frags, defer := gr.defer } = gr
    let split (join : Addr) (c : Nat) : List DeferRec :=
      (List.range c).map fun i => { join := join, outer := if i = 0 then f.join else some join, arm := none }
    s.ready ag act (ctlSpec g [(a, 2)]) = true →
    (f.joinAddr = none → more.length ≤ gr.vacant.length →
      ∃ t gt es, exec (.brx a g) s = .next t ∧ went t gt es more none ∧ gt.defer = gr.defer) ∧
    (∀ j, f.joinAddr = some j → gr.defer.length + more.length ≤ 16 → more.length ≤ gr.vacant.length →
      ∃ t gt es, exec (.brx a g) s = .next t ∧ went t gt es more (some j) ∧ gt.defer = gr.defer ++ split j more.length) ∧
    (∀ j init last, f.joinAddr = some j → gr.defer.length + more.length ≤ 16 → more.length = gr.vacant.length + 1 →
      more = init ++ [last] →
      ∃ t gt es, exec (.brx a g) s = .next t ∧ went t gt es init (some j) ∧
        gt.defer = gr.defer ++ split j init.length ++
          [{ join := j, outer := if init = [] then f.join else some j,
             arm := some { pc := last.1, mask := last.2, owner := e, swapped := false, arrived := 0#64 } }]) ∧
    ((f.joinAddr = none ∧ gr.vacant.length < more.length) ∨
        (f.joinAddr.isSome = true ∧ (16 < gr.defer.length + more.length ∨ gr.vacant.length + 1 < more.length)) →
      exec (.brx a g) s = .next (s.raiseAt ag 8 (gr.defer.length + gr.vacant.length * 256) 0#48 act)) ∧
    (∀ u, exec (.brx a g) s = .next u →
      (s.ready ag act { ctlSpec g [(a, 2)] with seq := true } = true → exec (.ret a g) s = .next u) ∧
      (s.ready ag act { ctlSpec g [(a, 2)] with dsts := [(link, 2)] } = true →
        more.length ≤ gr.vacant.length → gr.defer.length + more.length ≤ 16 →
        exec (.callx link a g) s = .next (u.wrLanes ag link.toNat ((lanesOf act).map fun l => (l, f.link)))))

/-- R52: a divergent branch takes a free entry for the taking lanes, or pushes a DEFERRED record where none is free; with no
join address it needs an entry, with one it needs room in the defer stack; else DIVDEPTH is raised and nothing else changes. Which
free entry it takes is left open. R291: DETAIL of DIVDEPTH gives the depth of the defer stack and the free entries. -/
def Obligations.DivergentBranch : Prop :=
  ∀ (s : State) (n m k e : Nat) (act : Mask) (gr : Group) (f : Fragment) (tgt : BitVec 30) (g : Guard),
    let ag : Agent := .frag n m k e
    let target := f.pc + BitVec.ofInt 48 (8 * tgt.toInt)
    let rest := f.mask &&& ~~~act
    let full := gr.vacant = []
    let free := fun i => i ∈ gr.vacant
    s.ready ag act { ctlSpec g [] with seq := true } = true → s.group? (agKey ag) = some gr → aget gr.frags e = some f →
    State.headerAt s ag target → s.agFetchBusy ag target = false → act ≠ f.mask →
    (f.joinAddr = none → ¬full → ∃ t i, exec (.bra tgt g) s = .next t ∧ free i ∧ { t with groups := s.groups, tick := s.tick } = s ∧
      t.groups = aput s.groups (agKey ag)
        { gr with frags := aput (aput gr.frags i { f.goto target with mask := act, join := none, stopped := .no }) e
                    { f.advance with mask := rest } }) ∧
    (∀ j, f.joinAddr = some j → gr.defer.length < 16 → ¬full →
      ∃ t i, exec (.bra tgt g) s = .next t ∧ free i ∧ { t with groups := s.groups, tick := s.tick } = s ∧
      t.groups = aput s.groups (agKey ag)
        { gr with
          defer := gr.defer ++ [{ join := j, outer := f.join, arm := none }]
          frags := aput (aput gr.frags i { f.goto target with mask := act, join := some j, stopped := .no }) e
                    { f.advance with mask := rest, join := some j } }) ∧
    (∀ j, f.joinAddr = some j → gr.defer.length < 16 → full →
      ∃ t, exec (.bra tgt g) s = .next t ∧ { t with groups := s.groups, tick := s.tick } = s ∧
      t.groups = aput s.groups (agKey ag)
        { gr with
          defer := gr.defer ++ [{ join := j, outer := f.join,
                                  arm := some { pc := target, mask := act, owner := e, swapped := false, arrived := 0#64 } }]
          frags := aput gr.frags e { f.advance with mask := rest, join := some j } }) ∧
    ((f.joinAddr = none ∧ full) ∨ (f.joinAddr.isSome = true ∧ 16 ≤ gr.defer.length) →
      exec (.bra tgt g) s = .next (s.raiseAt ag 8 (gr.defer.length + gr.vacant.length * 256) 0#48 act))

/-- R126: LOOP takes its count from the lowest lane and either sets the counter or leaves; ENDLP counts down and goes back
to the top until the counter has come to 1. -/
def Obligations.CountedLoops : Prop :=
  ∀ (s : State) (ag : Agent) (f : Fragment) (k : BitVec 2) (a : Src) (tgt : BitVec 30),
    s.front? ag = some f →
    let n := s.src ag a 0 (lowLane f.mask)
    let target := f.pc + BitVec.ofInt 48 (8 * tgt.toInt)
    (s.ready ag f.mask { ctlSpec ⟨0#4, false⟩ [(a, 1)] with seq := true, lone := [0] } = true →
      (n ≠ 0#32 → exec (.loop k a tgt) s = .next ((s.setLoop ag k.toNat n).advance ag)) ∧
      (n = 0#32 → State.headerAt s ag target → s.agFetchBusy ag target = false → exec (.loop k a tgt) s = .next (s.modFront ag fun f => f.goto target))) ∧
    (s.ready ag f.mask { ctlSpec ⟨0#4, false⟩ [] with seq := true } = true →
      ((s.loopCount ag k.toNat).toNat ≤ 1 → exec (.endlp k tgt) s = .next ((s.setLoop ag k.toNat 0#32).advance ag)) ∧
      (1 < (s.loopCount ag k.toNat).toNat → State.headerAt s ag target → s.agFetchBusy ag target = false →
        exec (.endlp k tgt) s = .next
          ((s.modFront ag fun f => f.goto target).setLoop ag k.toNat (BitVec.ofNat 32 ((s.loopCount ag k.toNat).toNat - 1)))))

/-- R55, R128: EXIT retires its active lanes; the other lanes go on; a group left with no lane has ended, and is released once
its accesses are performed and its counters are zero. In a sequencer EXIT halts (R343).
R57, R129: EXIT.S restarts the group at the successor with all lanes in one fragment, keeps the declared windows and
zeroes every other register, the loop counters, the flags and the helper record; with other fragments, a defer record or a
mask that leaves a live lane out it raises ILLOP. -/
def Obligations.ExitRetiresOrRestarts : Prop :=
  ((∀ (s : State) (n m k e : Nat) (act : Mask) (gr : Group) (f : Fragment) (g : Guard),
     (let ag : Agent := .frag n m k e
      s.ready ag act { ctlSpec g [] with hlp := false, seq := true } = true → s.group? (agKey ag) = some gr →
      f.wait = .run → gr.frags = [(e, f)] → gr.defer = [] →
      ∃ t, exec (.exit g) s = .next t ∧ { t with groups := s.groups } = s ∧
        t.groups = aput s.groups (agKey ag)
          (if act = f.mask then { gr with retired := gr.retired ||| act, frags := [], ended := true }
           else { gr with retired := gr.retired ||| act, frags := [(e, { f.advance with mask := f.mask &&& ~~~act })] })) ∧
     (s.ready (.seq n m) act { ctlSpec g [] with hlp := false, seq := true } = true →
      exec (.exit g) s = .next (s.modSeq n m fun q => { q with halted := true }))) ∧
  ∀ (s : State) (n m k : Nat) (gr : Group),
    let key := groupKey n m k
    n < 128 → m < 2048 → k < 16 → s.group? key = some gr →
    (gr.ended = true → gr.ac = [] → s.flight = [] → s.pends = [] →
      ∃ t, exec (.groupEnd n m k) s = .next t ∧ t.group? key = none ∧ (∀ j, j ≠ key → (t.group? j).isSome = (s.group? j).isSome) ∧
        t.mem = s.mem ∧ t.l2 = s.l2) ∧
    (gr.ended = false → exec (.groupEnd n m k) s = .next s)) ∧
  (∀ (s : State) (n m k e : Nat) (act : Mask) (gr : Group) (f : Fragment) (tgt : BitVec 30) (q : Src) (withQ : Bool),
    let ag : Agent := .frag n m k e
    let rec_ := s.recOf (agKey ag)
    let keep : BitVec 80 := if withQ then
      BitVec.ofNat 80 ((s.src ag q 0 (lowLane act)).toNat + (s.src ag q 1 (lowLane act)).toNat * 2 ^ 32 +
        (s.src ag q 2 (lowLane act)).toNat * 2 ^ 64) else 0#80
    let target := f.pc + BitVec.ofInt 48 (8 * tgt.toInt)
    let kept (r : Nat) : Bool := keep.getLsbD (if r < 256 then r / 8 else 32 + (r - 256) / 8) && regExists rec_ r
    s.ready ag act { ctlSpec ⟨0#4, false⟩ (if withQ then [(q, 4)] else []) with hlp := false } = true →
    s.group? (agKey ag) = some gr → aget gr.frags e = some f →
    (gr.frags.length ≠ 1 ∨ gr.defer ≠ [] ∨ f.mask ≠ fullMask (recW rec_) &&& ~~~gr.retired →
      exec (.exitS tgt (if withQ then some q else none)) s = .next (s.raiseAt ag 2 0 0#48 act)) ∧
    (gr.frags = [(e, f)] → gr.defer = [] → f.mask = fullMask (recW rec_) &&& ~~~gr.retired → gr.ac = [] →
      (∀ r x, (r, x) ∈ gr.tags → x.empty = true → kept r = false) →
      s.landingAt (keyDie (agKey ag)) (s.ptagOf (agKey ag)) target = true → s.agFetchBusy ag target = false →
      ∃ t gt x, exec (.exitS tgt (if withQ then some q else none)) s = .next t ∧ t.group? (agKey ag) = some gt ∧
        gt.frags = [(e, x)] ∧ (x.clause, x.idx, x.hdr, x.mask, x.join) = (target, 0, none, fullMask (recW rec_), none) ∧
        (∀ r l, r < 640 → l < 64 → gt.rd r l = if kept r then gr.rd r l else 0#32) ∧
        (∀ r, (gt.tag r).empty = false ∧ (gt.tag r).arm = 0#64) ∧
        (gt.lc, gt.hrecs, gt.sticky, gt.retired, gt.resv) = ([], [], 0#6, 0#64, []) ∧
        (gt.name, gt.trapVec, gt.trapFrame, gt.liveTab, gt.handler, gt.parkCount) =
          (gr.name, gr.trapVec, gr.trapFrame, gr.liveTab, gr.handler, gr.parkCount) ∧
        t.mem = s.mem ∧ t.l2 = s.l2))

/-- R136, R76: NOP has no effect in a clause of any class; a NOP word with a non-zero field raises ILLOP. R85, R86: so does a
word whose opcode is not assigned. -/
def Obligations.NopHasNoEffect : Prop :=
  (∀ (s : State) (ag : Agent) (act : Mask) (c : Nat),
    s.ready ag act { cls := c, any := true, seq := true } = true → exec .nop s = .next (s.advance ag)) ∧
  (∀ (s : State) (ag : Agent) (f : Fragment) (w : Code),
     s.front? ag = some f → f.hdr.isSome = true → s.mayIssue ag f = true →
     s.fetchBusy (keyDie (agKey ag)) (s.ptagOf (agKey ag)) f.pc = false →
     s.agFetch ag f = .inl w → bits w 63 54 = 1 → bits w 53 0 ≠ 0 →
     ∃ dt lanes, stepOne s ag = .next (s.raiseAt ag 2 dt 0#48 lanes) ∧
       ∀ (p : State) (rest : List Turn), (∀ d n g h, ag ≠ .helper d n g h) → p.agenda = .issue ag :: rest →
         s = { p with agenda := rest, cur := none } → step p = .next (s.raiseAt ag 2 dt 0#48 lanes)) ∧
  ∀ (s : State) (ag : Agent) (f : Fragment) (w : Code), s.cur = some ag → s.front? ag = some f →
    ∃ lanes, exec (.unassignedOpcode w) s = .next (s.raiseAt ag 2 1 0#48 lanes)

/-- R130: YIELD exchanges the group with the oldest ready group of its partition's pending set, if there is one. R48: a group
of the active set with no ready fragment and one on a long stall is exchanged in the same way. R49: a pending group ready for
512 clocks is exchanged with the group that entered a full active set earliest. -/
def Obligations.PartitionExchanges : Prop :=
  (∀ (s : State) (n m k e : Nat) (act : Mask) (gr : Group) (g : Guard),
     let ag : Agent := .frag n m k e
     let key := agKey ag
     s.ready ag act { cls := 4, guard := g } = true → s.group? key = some gr → n < 128 → m < 2048 → k < 16 →
     ((∀ b ∈ partSet (s.core n gr.core).pending gr.part, b ≠ key ∧ s.groupReady b = false) →
       exec (.yield g) s = .next (s.advance ag)) ∧
     (∀ l b r, partSet (s.core n gr.core).pending gr.part = l ++ b :: r → (∀ x ∈ l, x ≠ key ∧ s.groupReady x = false) →
       b ≠ key → s.groupReady b = true →
       ∃ t, exec (.yield g) s = .next t ∧
         partSet (t.core n gr.core).active gr.part = (partSet (s.core n gr.core).active gr.part).filter (· != key) ++ [b] ∧
         partSet (t.core n gr.core).pending gr.part =
           (partSet (s.core n gr.core).pending gr.part).filter (· != b) ++ [key] ∧
         t.front? ag = (s.front? ag).map Fragment.advance ∧ t.mem = s.mem ∧ t.l2 = s.l2)) ∧
  ∀ (s : State) (n m k : Nat) (gr : Group),
    let key := groupKey n m k
    let act (t : State) := partSet (t.core n gr.core).active gr.part
    let pend (t : State) := partSet (t.core n gr.core).pending gr.part
    n < 128 → m < 2048 → k < 16 → s.group? key = some gr →
    (∀ l b r e f, key ∈ act s → (e, f) ∈ gr.frags → s.groupReady key = false →
      (∃ id m, f.wait = .get id ∧ aget s.answers id = none ∧ aget s.msgs id = some m ∧ m.accepted = true) ∨
        (∃ a v, f.wait = .bar a v) ∨ f.stall = .barrier ∨ (∃ r, f.stall = .armed r) →
      pend s = l ++ b :: r → (∀ x ∈ l, s.groupReady x = false) → s.groupReady b = true →
      ∃ t, exec (.groupExchange n m k) s = .next t ∧ act t = (act s).filter (· != key) ++ [b] ∧
        pend t = (pend s).filter (· != b) ++ [key] ∧ t.mem = s.mem ∧ t.l2 = s.l2) ∧
    (∀ a r since, key ∈ pend s → s.groupReady key = true → gr.readySince = some since → since + 512 ≤ s.clock →
      act s = a :: r → 7 ≤ r.length →
      ∃ t, exec (.pendingExchange n m k) s = .next t ∧ act t = (act s).filter (· != a) ++ [key] ∧
        pend t = (pend s).filter (· != key) ++ [a] ∧ t.mem = s.mem ∧ t.l2 = s.l2)

/-- R131, R295: a TRAP in a group with a trap vector, outside its handler, enters the handler: the 64-byte frame leaves as
one release store to TRAP_FRAME, the in-handler bit is set, and the fragment goes to the vector with its whole mask and join
address NONE, its resume point being the next instruction; the other fragments are held. -/
def Obligations.TrapEntersHandler : Prop :=
  ∀ (s : State) (n m k e : Nat) (act : Mask) (gr : Group) (f : Fragment) (code : BitVec 20) (g : Guard) (p cls : Nat),
    let ag : Agent := .frag n m k e
    let key := agKey ag
    s.ready ag act (ctlSpec g []) = true → s.group? key = some gr → aget gr.frags e = some f →
    n < 128 → m < 2048 → k < 16 →
    gr.trapVec ≠ 0#48 → gr.trapFrame ≠ 0#48 → gr.handler = none → gr.parked = none → gr.held = [] → gr.ended = false →
    s.entryBusy key gr = false → s.landingAt n (s.ptagOf key) gr.trapVec = true → s.chkNow n (s.ptagOf key) gr.trapFrame.toNat 64 .write = .ok p cls →
    ∃ t gt x acc y, exec (.trap code g) s = .next t ∧ t.group? key = some gt ∧
      gt = { gr with
        handler := some { entry := e, mask := f.mask, clause := f.advance.clause,
                          held := (gr.frags.map (·.1)).filter (· != e) }
        frags := gt.frags } ∧
      (∀ i, i ≠ e → aget gt.frags i = aget gr.frags i) ∧ aget gt.frags e = some x ∧
      (x.clause, x.idx, x.hdr, x.mask, x.join, x.wait) = (gr.trapVec, 0, none, f.mask, none, Wait.run) ∧
      t.flight = aput s.flight s.fresh acc ∧ acc.kind = .store ∧ acc.rel = true ∧ acc.pieces = [y] ∧
      (y.va, y.addr, y.len, y.done) = (gr.trapFrame.toNat, p, 64, false) ∧
      (let b : BitVec 512 := BitVec.ofNat 512 y.data
       bits b 511 448 = act.toNat ∧ bits b 447 400 = 0 ∧ bits b 399 352 = f.pc.toNat ∧ bits b 351 320 = code.toNat ∧
       bits b 319 256 = f.mask.toNat ∧ bits b 255 208 = (f.join.getD 0#48).toNat ∧
       bits b 207 160 = f.advance.clause.toNat ∧ bits b 159 36 = 0 ∧ bits b 35 32 = f.advance.idx ∧
       bits b 31 16 = 0 ∧ bits b 15 8 = 0 ∧ bits b 7 0 = 1) ∧
      { t with groups := s.groups, flight := s.flight, fresh := s.fresh } = s ∧
      ∀ j, j ≠ key → t.group? j = s.group? j

/-- R292, R295, R297: a fault of class G parks its group when no trap vector is set, when the group is in its handler, and
when the vector is no landing header: the park count advances. R293: a fault raised while it is parked, or while an earlier one is
held, is held behind; R383: so is one whose vector's row or frame's tables are under test. An instruction that
faults issues no further gang (R27). -/
def Obligations.FaultParksGroup : Prop :=
  ∀ (s : State) (n m k e : Nat) (gr : Group) (f : Fragment) (c : FaultRec),
    let ag : Agent := .frag n m k e
    let key := agKey ag
    s.group? key = some gr → aget gr.frags e = some f → gr.ended = false → n < 128 → m < 2048 → k < 16 →
    (gr.parked = none → gr.held = [] →
      (14 < c.code ∨ gr.trapVec = 0#48 ∨ gr.handler.isSome = true ∨
        (s.entryBusy key gr = false ∧ s.landingAt n (s.ptagOf key) gr.trapVec = false)) →
      c.code ∉ [1, 11, 12, 13, 14] →
      ∃ gt fr, (s.raise ag c).group? key = some gt ∧ gt.parked = some { fault := fr, inHandler := gr.handler.isSome } ∧
        (fr.code, fr.detail, fr.addr, fr.lanes, fr.pc) = (c.code, c.detail, c.addr, c.lanes, c.pc) ∧
        gt.parkCount = gr.parkCount + 1#16 ∧ gt.readySince = none ∧
        { gt with parked := gr.parked, parkCount := gr.parkCount, readySince := gr.readySince } =
          { gr with frags := aput gr.frags e { f with gang := none } } ∧
        key ∈ partSet ((s.raise ag c).core n gr.core).pending gr.part ∧
        key ∉ partSet ((s.raise ag c).core n gr.core).active gr.part ∧
        (s.raise ag c).mem = s.mem ∧ (s.raise ag c).l2 = s.l2) ∧
    (gr.parked.isSome = true ∨ gr.held ≠ [] ∨
        (classG c.code = true ∧ c.cause ≠ 255#8 ∧ gr.trapVec ≠ 0#48 ∧ gr.handler = none ∧ s.entryBusy key gr = true) →
      c.code ∉ [1, 11, 12, 13, 14] →
      s.raise ag c = s.modGroup key fun g =>
        { g with frags := aput g.frags e { f with gang := none }, held := g.held ++ [{ c with entry := some e }] })

/-- R296, R330: TRET outside a handler raises ILLOP, and so does one with a live fragment created since the handler was entered. In
the handler, its earlier accesses done, it returns to the point its frame names: the fragment takes ACTIVE as its mask and JOIN as
its join address, the lanes left out are retired, the in-handler bit is cleared and the held fragments are released: each goes on
where it stood. -/
def Obligations.TretReturns : Prop :=
  ∀ (s : State) (n m k e : Nat) (act : Mask) (gr : Group) (f : Fragment) (h : Handler) (p cls : Nat) (w : Code),
    let ag : Agent := .frag n m k e
    let key := agKey ag
    s.ready ag act { ctlSpec ⟨0#4, false⟩ [] with hlp := false } = true → s.group? key = some gr → aget gr.frags e = some f →
    n < 128 → m < 2048 → k < 16 →
    (gr.handler = none → exec .tret s = .next (s.raiseAt ag 2 0 0#48 act)) ∧
    (gr.handler = some h → (∃ x ∈ gr.frags, x.1 ≠ e ∧ x.1 ∉ h.held) → exec .tret s = .next (s.raiseAt ag 2 0 0#48 act)) ∧
    (let fr : BitVec 512 := BitVec.ofNat 512 (s.coreRead n gr.core p 64 cls).2
     let active : Mask := fr.extractLsb' 256 64
     let clause : Addr := fr.extractLsb' 160 48
     let idx := bits fr 35 32
     gr.handler = some h → (∀ x ∈ gr.frags, x.1 = e ∨ x.1 ∈ h.held) → gr.trapFrame ≠ 0#48 →
     s.chkNow n (s.ptagOf key) gr.trapFrame.toNat 64 .read = .ok p cls → s.earlier ag f = [] →
     s.xlateBusy n (s.ptagOf key) gr.trapFrame.toNat = false → s.coreBusy n gr.core p false = false → s.meetStack n gr.core p = .clean →
     (∀ x, aget (s.core n gr.core).l1 (p / 64) = some x → x.ue = false) → (∀ x ∈ (s.core n gr.core).l1, x.2.stream = false) →
     active ≠ 0#64 → active &&& ~~~h.mask = 0#64 → active &&& gr.retired = 0#64 →
     s.agFetchBusy ag clause = false → s.fetchWord n (s.ptagOf key) clause = .inl w → bits w 63 60 = 15 → idx ≤ bits w 56 53 →
     (idx = 0 → clause = h.clause ∨ w.getLsbD 52 = true) →
     ∃ t gt, exec .tret s = .next t ∧ t.group? key = some gt ∧ gt.handler = none ∧
       gt.retired = gr.retired ||| (h.mask &&& ~~~active) ∧ gt.parked = gr.parked ∧
       (gt.v, gt.s, gt.tags, gt.sticky) = (gr.v, gr.s, gr.tags, gr.sticky) ∧ t.mem = s.mem ∧ t.l2 = s.l2 ∧
       ((∀ x ∈ gr.frags, x.2.wait ≠ .join) →
         gt.defer = gr.defer ∧ (∀ i, i ≠ e → aget gt.frags i = aget gr.frags i) ∧
         ∃ x, aget gt.frags e = some x ∧ (x.mask, x.clause, x.idx, x.wait) = (active, clause, idx, Wait.run) ∧
           x.hdr = (if idx = 0 then none else some w) ∧
           x.join = if bits fr 255 208 = 0 then none else some (fr.extractLsb' 208 48)))

/-- R132, R37: SPAWN enqueues the record of each active lane on the executing die's launch queue, in ascending lane order,
as children of the group's process that are not privileged.
R134: LTRIG waits for the earlier accesses it releases, then marks its group. -/
def Obligations.SpawnAndTrigger : Prop :=
  (∀ (s : State) (n m k e : Nat) (act : Mask) (gr : Group) (f : Fragment) (a : Src) (g : Guard) (p c : Nat → Nat),
    let ag : Agent := .frag n m k e
    let key := agKey ag
    let there (l : Nat) : Addr := (s.src ag a 1 l ++ s.src ag a 0 l).setWidth 48
    s.ready ag act { cls := 4, guard := g, srcs := [(a, 2)], hlp := false } = true → s.group? key = some gr → aget gr.frags e = some f →
    n < 128 → m < 2048 → k < 16 →
    s.earlier ag f = [] → (s.die n).launchQ.length + (lanesOf act).length ≤ 8192 → s.poison = [] → s.ue = [] →
    (∀ l ∈ lanesOf act, s.chkIssue n gr.core (s.ptagOf key) (there l).toNat 128 .read = .ok (p l) (c l) ∧ c l ≠ 0 ∧
      s.stackBusy n (p l) = false) →
    ∃ t, exec (.spawn a g) s = .next t ∧
      (t.die n).launchQ = (s.die n).launchQ ++ (lanesOf act).map (fun l =>
        { recd := BitVec.ofNat 1024 (s.stackRead n (p l) 128), map := 0#256, origin := 1, entryDie := 0, privBit := false,
          ptag := s.ptagOf key, recAddr := there l, dirty := false }) ∧
      t.front? ag = (s.front? ag).map Fragment.advance ∧ t.mem = s.mem ∧ t.l2 = s.l2 ∧ t.flight = s.flight ∧
      t.teams = s.teams) ∧
  ∀ (s : State) (n m k e : Nat) (act : Mask) (gr : Group) (f : Fragment) (g : Guard),
    let ag : Agent := .frag n m k e
    let key := agKey ag
    s.ready ag act { cls := 4, guard := g, hlp := false } = true → s.group? key = some gr → aget gr.frags e = some f →
    (s.earlier ag f ≠ [] → exec (.ltrig g) s = .next (s.stallAt ag .issue)) ∧
    (s.earlier ag f = [] →
      ∃ t gt, exec (.ltrig g) s = .next t ∧ t.group? key = some gt ∧
        gt = { gr with ltrig := true, frags := aput gr.frags e f.advance } ∧ t.mem = s.mem ∧ t.l2 = s.l2 ∧
        (gr.ltrig = true → (s.die (keyDie key)).shares = [] → t = s.advance ag))

/-- R72, R73, R135: CSRR writes the register's value to every active lane and CSRW takes the value of the lowest active
lane; a privileged register, and a write of one that no group writes, raises PROT in a launch that is not privileged; an
unassigned number, and a write of a read-only register, raises ILLOP; the registers a group writes read back what the write
leaves, and a write of ROUND_SEED acts from the next clock. R23, R24, R73: what each register reads. The DETAIL and the LANES of ILLOP
where the guard register cannot be read are the model's choice (log 13). -/
def Obligations.StatusRegisters : Prop :=
  (∀ (s : State) (n m k e : Nat) (act : Mask) (gr : Group) (f : Fragment) (d : RegNo) (a : Src) (num : BitVec 12) (g : Guard),
    let ag : Agent := .frag n m k e
    let key := agKey ag
    let i := num.toNat
    let rd : Spec := { cls := 4, guard := g, dsts := [(d, 1)] }
    let wr : Spec := { cls := 4, guard := g, srcs := [(a, 1)], hlp := false, lone := [0] }
    s.group? key = some gr →
    (s.ready ag act rd = true → ¬csrUnassigned i →
      (i < 0x300 ∨ s.privileged ag = true →
        exec (.csrr d num g) s = .next (s.quietly ag act d fun _ => [s.csrRead ag gr i])) ∧
      (0x300 ≤ i → s.privileged ag = false →
        exec (.csrr d num g) s = .next (s.raiseAt ag 34 1 (num.setWidth 48) act))) ∧
    (csrUnassigned i → s.fieldsPass ag f rd → exec (.csrr d num g) s = .next (s.raiseAt ag 2 0 0#48 (s.faultLanes ag f rd))) ∧
    (csrUnassigned i ∨ csrReadOnly i → s.fieldsPass ag f wr →
      exec (.csrw num a g) s = .next (s.raiseAt ag 2 0 0#48 (s.faultLanes ag f wr))) ∧
    (s.ready ag act wr = true →
      (i ∈ [0, 1, 2, 3, 4, 5, 8, 0x10, 0x11, 0x12, 0x13] ∨ (i = 0x316 ∧ s.privileged ag = true) →
        ∃ t gt, exec (.csrw num a g) s = .next t ∧ t.group? key = some gt ∧
          t.csrRead ag gt i = csrKept i (s.src ag a 0 (lowLane act)) ∧
          (∀ j, j ≠ i → i ≠ 0x316 ∨ j ≠ 0x317 → j ≠ 9 → t.csrRead ag gt j = s.csrRead ag gr j) ∧
          (∀ r l, gt.rd r l = gr.rd r l) ∧ { t with groups := s.groups } = s) ∧
      (i = 0x100 → ∃ t, exec (.csrw num a g) s = .next t ∧
        (let x := s.src ag a 0 (lowLane act)
         let core (u : State) := u.core (keyDie key) gr.core
         (∀ now, s.clock < now → (core t).seed now gr.part = if x = 0#32 then 1#32 else x) ∧
         (core t).seed s.clock gr.part = (core s).seed s.clock gr.part ∧
         t.csrRead ag gr 0x100 = if x = 0#32 then 1#32 else x) ∧
        t.groups = (s.advance ag).groups ∧ { t with groups := s.groups, cores := s.cores } = s) ∧
      ((0x300 ≤ i ∧ i ≤ 0x317 ∧ i ≠ 0x316) ∨ (i = 0x316 ∧ s.privileged ag = false) →
        exec (.csrw num a g) s = .next (s.raiseAt ag 34 2 (num.setWidth 48) act)))) ∧
  ∀ (s : State) (n m k e : Nat) (gr : Group) (tm : Team),
    let ag : Agent := .frag n m k e
    let key := agKey ag
    let die := s.die n
    let read := s.csrRead ag gr
    let whole (i : Nat) : BitVec 128 := read (i + 3) ++ (read (i + 2) ++ (read (i + 1) ++ read i))
    n < 128 → m < 2048 → k < 16 → s.group? key = some gr → s.team? n m = some tm →
    read 1 ++ read 0 = ((gr.trapVec &&& ~~~7#48).setWidth 64 : BitVec 64) ∧ read 3 ++ read 2 = (gr.trapFrame.setWidth 64 : BitVec 64) ∧
    read 5 ++ read 4 = (gr.liveTab.setWidth 64 : BitVec 64) ∧ (read 8).toNat = gr.sticky.toNat ∧
    read 9 = BitVec.ofNat 32 (gr.frags.length + 2 ^ 4 * gr.defer.length + 2 ^ 9 * gr.resv.length +
      2 ^ 12 * gr.name.isSome.toNat + 2 ^ 13 * tm.priv.toNat + 2 ^ 14 * (tm.recd.getLsbD 524).toNat +
      2 ^ 15 * bits tm.recd 532 531) ∧
    (gr.name = none → read 0xA = 0#32) ∧ (∀ q c, gr.name = some (q, c) → read 0xA = q) ∧
    (∀ i, i < 4 → read (0x10 + i) = sget 0#32 gr.lc i) ∧ (∀ i, i < 8 → (read (0x14 + i)).toNat = (sget 0#16 gr.ac i).toNat) ∧
    (∀ i, i < 24 → read (0x20 + i) = sget 0#32 gr.hrecs i) ∧
    read 0x200 = BitVec.ofNat 32 s.dieMap.length ∧ read 0x201 = BitVec.ofNat 32 die.coreMap.length ∧
    read 0x202 = BitVec.ofNat 32 die.pairs ∧ (read 0x203).toNat = (s.core n gr.core).split.toNat ∧
    (bits (read 0x204) 31 16 = 0x7C61 ∧ bits (read 0x204) 15 8 = s.flash.stepping.toNat ∧
      bits (read 0x204) 7 4 = s.flash.grade.toNat ∧ bits (read 0x204) 3 0 = 0) ∧
    read 0x205 = sget 0#32 die.discards tm.ptag.toNat ∧
    whole 0x300 = s.flash.fuseDies ∧ whole 0x304 = s.exclNow ∧ whole 0x308 = s.fusedCores n ∧ whole 0x30C = die.retired ∧
    whole 0x310 = die.hold ∧ read 0x314 = BitVec.ofNat 32 n ∧ read 0x315 = BitVec.ofNat 32 gr.core ∧
    (read 0x316).toNat = gr.mapSel.toNat ∧
    (∀ c, die.coreMap[gr.mapSel.toNat]? = some c → c < 128 → read 0x317 = BitVec.ofNat 32 (2 ^ 31 + c)) ∧
    (die.coreMap.length ≤ gr.mapSel.toNat → read 0x317 = 0#32)

/-- R65, R192, R195, R196, R198: LD and LDU put a load in flight whose pieces name the translated addresses, and mark the
destinations EMPTY; the fragment goes on and no value changes. R189: ST puts a store in flight that carries each active lane's
data; no register and no byte changes until it is performed. -/
def Obligations.GlobalAccessesIssue : Prop :=
  (∀ (s : State) (ag : Agent) (act : Mask) (f : Fragment) (d : RegNo) (a : Src) (off : BitVec 20) (w : Width) (o : Sys2Proof.Ordering)
     (str : Bool) (g : Guard) (p c : Nat → Nat),
     let key := agKey ag
     let ea (l : Nat) : Nat := (((s.src ag a 1 l ++ s.src ag a 0 l).setWidth 48 : Addr) + off.signExtend 48).toNat
     let issued (t : State) (x : Access) (lanes : List Nat) (one : Bool) : Prop :=
       t.flight = aput s.flight s.fresh x ∧ t.fresh = s.fresh + 1 ∧
       (x.ag, x.kind, x.space, x.dst, x.ndst, x.cnt, x.act, x.uniform) =
         (ag, AccKind.load, Space.glob, d.toNat, Width.regs w, none, act, one) ∧
       x.acq = decide (o = .acq ∨ o = .sc) ∧ x.before = (s.earlier ag f).map (·.1) ∧
       x.pieces = lanes.map (fun l =>
         { lane := l, va := ea l, addr := p l, len := Width.bytes w, cls := c l, reg := 0, data := 0 }) ∧
       (∀ j, j < Width.regs w → (t.rdTag ag (d.toNat + j)).empty = true) ∧ s.wentOn t ag ∧ s.keepsValues t ag
     s.front? ag = some f → s.notHeldBack ag f (o == .sc) →
     (s.ready ag act { cls := 2, guard := g, srcs := [(a, 2)], dsts := [(d, Width.regs w)] } = true →
       (∀ l ∈ lanesOf act, s.chkIssue (keyDie key) (s.agCore ag) (s.ptagOf key) (ea l) (Width.bytes w) .read = .ok (p l) (c l)) →
       ∃ t x, exec (.ld d a off w o str g) s = .next t ∧ issued t x (lanesOf act) false) ∧
     (s.ready ag act { cls := 2, guard := g, srcs := [(a, 2)], dsts := [(d, Width.regs w)], lone := [0] } = true →
       s.chkIssue (keyDie key) (s.agCore ag) (s.ptagOf key) (ea (lowLane act)) (Width.bytes w) .read =
         .ok (p (lowLane act)) (c (lowLane act)) →
       ∃ t x, exec (.ldu d a off w o str g) s = .next t ∧ issued t x [lowLane act] true)) ∧
  ∀ (s : State) (ag : Agent) (act : Mask) (f : Fragment) (d a : Src) (off : BitVec 20) (w : Width) (o : Sys2Proof.Ordering)
    (str : Bool) (g : Guard) (p c : Nat → Nat),
    let key := agKey ag
    let ea (l : Nat) : Nat := (((s.src ag a 1 l ++ s.src ag a 0 l).setWidth 48 : Addr) + off.signExtend 48).toNat
    s.ready ag act { cls := 2, guard := g, srcs := [(a, 2), (d, Width.regs w)] } = true →
    s.front? ag = some f → s.notHeldBack ag f (o == .sc) →
    (∀ l ∈ lanesOf act, s.chkIssue (keyDie key) (s.agCore ag) (s.ptagOf key) (ea l) (Width.bytes w) .write = .ok (p l) (c l)) →
    ∃ t x, exec (.st d a off w o str g) s = .next t ∧ t.flight = aput s.flight s.fresh x ∧ t.fresh = s.fresh + 1 ∧
      (x.ag, x.kind, x.space, x.ndst, x.act) = (ag, AccKind.store, Space.glob, 0, act) ∧
      (x.rel, x.after) = (decide (o = .rel ∨ o = .sc), decide (o = .rel ∨ o = .sc)) ∧ x.before = (s.earlier ag f).map (·.1) ∧
      x.pieces = (lanesOf act).map (fun l =>
        { lane := l, va := ea l, addr := p l, len := Width.bytes w, cls := c l, reg := 0,
          data := wordsNumber ((List.range (Width.regs w)).map fun j => s.src ag d j l) }) ∧
      (∀ r, r < 640 → t.rdTag ag r = s.rdTag ag r) ∧ s.wentOn t ag ∧ s.keepsValues t ag

/-- R195, R196, R340: LDL and STL, of a group, a helper or the sequencer, put an access to the team's local memory in
flight at (A + offset) mod 2^32.
R38, R197: LDP and STP reach the private area chunk by chunk: byte o of lane l lies at the area's base plus
(o / 4) × 4 × W + 4 × l + o mod 4. That the sum wraps at 2^48 is the model's choice (log 73). -/
def Obligations.LocalAndPrivateAccessesIssue : Prop :=
  (∀ (s : State) (ag : Agent) (act : Mask) (f : Fragment) (d : RegNo) (b a : Src) (off : BitVec 20) (w : Width)
    (o : Sys2Proof.Ordering) (g : Guard),
    let ea (l : Nat) : Nat := (s.src ag a 0 l + off.signExtend 32).toNat
    s.front? ag = some f → s.notHeldBack ag f (o == .sc) →
    (∀ l ∈ lanesOf act, ea l % Width.bytes w = 0 ∧ ea l + Width.bytes w ≤ recL (s.recOf (agKey ag))) →
    (s.ready ag act { cls := s.memClass, guard := g, srcs := [(a, 1)], dsts := [(d, Width.regs w)], seq := true } = true →
      ∃ t x, exec (.ldl d a off w o g) s = .next t ∧ t.flight = aput s.flight s.fresh x ∧ t.fresh = s.fresh + 1 ∧
        (x.ag, x.kind, x.space, x.dst, x.ndst, x.act) = (ag, AccKind.load, Space.loc, d.toNat, Width.regs w, act) ∧
        x.pieces = (lanesOf act).map (fun l =>
          { lane := l, va := ea l, addr := ea l, len := Width.bytes w, cls := 0, reg := 0, data := 0 }) ∧
        (∀ j, j < Width.regs w → (t.rdTag ag (d.toNat + j)).empty = true) ∧ s.wentOn t ag ∧ s.keepsValues t ag) ∧
    (s.ready ag act { cls := s.memClass, guard := g, srcs := [(a, 1), (b, Width.regs w)], seq := true } = true →
      ∃ t x, exec (.stl b a off w o g) s = .next t ∧ t.flight = aput s.flight s.fresh x ∧ t.fresh = s.fresh + 1 ∧
        (x.ag, x.kind, x.space, x.ndst, x.act) = (ag, AccKind.store, Space.loc, 0, act) ∧
        x.pieces = (lanesOf act).map (fun l =>
          { lane := l, va := ea l, addr := ea l, len := Width.bytes w, cls := 0, reg := 0,
            data := wordsNumber ((List.range (Width.regs w)).map fun j => s.src ag b j l) }) ∧
        s.wentOn t ag ∧ s.keepsValues t ag)) ∧
  (∀ (s : State) (n m k e : Nat) (act : Mask) (gr : Group) (f : Fragment) (d : RegNo) (b a : Src) (off : BitVec 20)
    (w : Width) (str : Bool) (g : Guard) (p c : Nat → Nat),
    let ag : Agent := .frag n m k e
    let key := agKey ag
    let chunk := min (Width.bytes w) 4
    let at_ (l i : Nat) : Nat :=
      let o := (((s.src ag a 1 l ++ s.src ag a 0 l).setWidth 48 : Addr) + off.signExtend 48).toNat + 4 * i
      (gr.privBase.toNat + o / 4 * 4 * recW (s.recOf key) + 4 * l + o % 4) % 2 ^ 48
    let offs (l : Nat) : Nat := (((s.src ag a 1 l ++ s.src ag a 0 l).setWidth 48 : Addr) + off.signExtend 48).toNat
    let covers (x : Access) (val : Nat → Nat → Nat) : Prop :=
      (x.space, x.chunked, x.pieces.length) = (Space.glob, true, (lanesOf act).length * (Width.bytes w / chunk)) ∧
      ∀ l ∈ lanesOf act, ∀ i, i < Width.bytes w / chunk → ∃ y ∈ x.pieces,
        (y.lane, y.va, y.addr, y.len, y.cls, y.reg, y.data, y.done) =
          (l, at_ l i, p (at_ l i), chunk, c (at_ l i), i, val l i, false)
    s.group? key = some gr → aget gr.frags e = some f → s.notHeldBack ag f false →
    (∀ l ∈ lanesOf act, offs l % Width.bytes w = 0 ∧ offs l + Width.bytes w ≤ recP (s.recOf key)) →
    ((∀ l ∈ lanesOf act, ∀ i, i < Width.bytes w / chunk →
        s.chkIssue (keyDie key) (s.agCore ag) (s.ptagOf key) (at_ l i) chunk .read = .ok (p (at_ l i)) (c (at_ l i))) →
      s.ready ag act { cls := 2, guard := g, srcs := [(a, 2)], dsts := [(d, Width.regs w)], hlp := false } = true →
      ∃ t x, exec (.ldp d a off w str g) s = .next t ∧ t.flight = aput s.flight s.fresh x ∧
        (x.kind, x.dst, x.ndst, x.act) = (AccKind.load, d.toNat, Width.regs w, act) ∧ covers x (fun _ _ => 0) ∧
        (∀ j, j < Width.regs w → (t.rdTag ag (d.toNat + j)).empty = true) ∧ s.wentOn t ag ∧ s.keepsValues t ag) ∧
    ((∀ l ∈ lanesOf act, ∀ i, i < Width.bytes w / chunk →
        s.chkIssue (keyDie key) (s.agCore ag) (s.ptagOf key) (at_ l i) chunk .write = .ok (p (at_ l i)) (c (at_ l i))) →
      s.ready ag act { cls := 2, guard := g, srcs := [(a, 2), (b, Width.regs w)], hlp := false } = true →
      ∃ t x, exec (.stp b a off w str g) s = .next t ∧ t.flight = aput s.flight s.fresh x ∧
        (x.kind, x.ndst, x.act) = (AccKind.store, 0, act) ∧
        covers x (fun l i => (s.src ag b i l).toNat % 2 ^ (8 * chunk)) ∧ s.wentOn t ag ∧ s.keepsValues t ag))

/-- R175, R200, R202: ATOM, ACAS and RED put their lanes in flight, each with its operands, when no two lanes of a group
name one address; lanes that do raise LANECOLL, with the address of the lowest of them, and nothing is performed. -/
def Obligations.AtomicsIssue : Prop :=
  ∀ (s : State) (ag : Agent) (act : Mask) (f : Fragment) (d : RegNo) (a b b2 : Src) (op : AtomOp) (wide loc : Bool)
    (o : Sys2Proof.Ordering) (g : Guard) (p c : Nat → Nat),
    let key := agKey ag
    let n := if wide then 2 else 1
    let ea (l : Nat) : Nat :=
      if loc then (s.src ag a 0 l).toNat else ((s.src ag a 1 l ++ s.src ag a 0 l).setWidth 48 : Addr).toNat
    let val (x : Src) (l : Nat) : Nat := wordsNumber ((List.range n).map fun j => s.src ag x j l)
    let good (l : Nat) : Prop :=
      if loc then ea l % (4 * n) = 0 ∧ ea l + 4 * n ≤ recL (s.recOf key) ∧ p l = ea l ∧ c l = 0
      else s.chkIssue (keyDie key) (s.agCore ag) (s.ptagOf key) (ea l) (4 * n) .both = .ok (p l) (c l)
    let issued (t : State) (x : Access) (k : AccKind) (dst nd : Nat) (v2 : Nat → Nat) : Prop :=
      t.flight = aput s.flight s.fresh x ∧ t.fresh = s.fresh + 1 ∧
      (x.ag, x.kind, x.space, x.dst, x.ndst) = (ag, k, (if loc then Space.loc else .glob), dst, nd) ∧
      x.pieces = (lanesOf act).map (fun l =>
        { lane := l, va := ea l, addr := p l, len := 4 * n, cls := c l, reg := 0, data := val b l, data2 := v2 l }) ∧
      (∀ j, j < nd → (t.rdTag ag (dst + j)).empty = true) ∧ s.wentOn t ag ∧ s.keepsValues t ag
    let sa : List (Src × Nat) := [(a, if loc then 1 else 2), (b, n)]
    s.front? ag = some f → s.notHeldBack ag f (o == .sc) → (∀ l ∈ lanesOf act, good l) →
    ((∀ l ∈ lanesOf act, ∀ l' ∈ lanesOf act, ea l = ea l' → l = l') →
      (s.ready ag act { cls := 2, guard := g, srcs := sa, dsts := [(d, n)] } = true →
        ∃ t x, exec (.atom d a b op wide loc o g) s = .next t ∧ issued t x (.rmw op wide) d.toNat n (fun _ => 0)) ∧
      (s.ready ag act { cls := 2, guard := g, srcs := sa } = true →
        ∃ t x, exec (.red a b op wide loc o g) s = .next t ∧ issued t x (.rmw op wide) 0 0 (fun _ => 0)) ∧
      (s.ready ag act { cls := 2, guard := g, srcs := sa ++ [(b2, n)], dsts := [(d, n)] } = true →
        ∃ t x, exec (.acas d a b b2 wide loc o g) s = .next t ∧ issued t x (.cas wide) d.toNat n (val b2))) ∧
    (∀ i j k e, ag = .frag i j k e → (∃ l ∈ lanesOf act, ∃ l' ∈ lanesOf act, l ≠ l' ∧ ea l = ea l') →
      let bad := maskOf ((lanesOf act).filter fun l => (lanesOf act).any fun l' => l != l' && ea l == ea l')
      let raised (ins : Instr) : Prop := ∃ t : State,
        exec ins s = .next (t.raiseAt ag 4 0 (BitVec.ofNat 48 (ea (lowLane bad))) bad) ∧ t.flight = s.flight ∧
        t.groups = (s.fenceDue ag f).groups ∧ t.mem = s.mem ∧ t.l2 = s.l2
      (s.ready ag act { cls := 2, guard := g, srcs := sa, dsts := [(d, n)] } = true → raised (.atom d a b op wide loc o g)) ∧
      (s.ready ag act { cls := 2, guard := g, srcs := sa } = true → raised (.red a b op wide loc o g)) ∧
      (s.ready ag act { cls := 2, guard := g, srcs := sa ++ [(b2, n)], dsts := [(d, n)] } = true →
        raised (.acas d a b b2 wide loc o g)))

/-- R170, R178, R189: performing a store of one lane to a DIE page writes its bytes at the home slice, lowest first, and
changes no other byte; to a CORE page, in the line that the issuing core's L1 holds; to local memory, in its array. R38, R197: of the chunks
of a wide private access one is performed in a lane at a time. An error-free store that was the last of its access leaves flight.
R65, R178, R196, R198: when the data of the last lane of a load returns, global, local or private, it is written, zero-extended, to that
lane of the destinations, of LDU to every active lane; the destinations become FULL. -/
def Obligations.StoresAndLoadsArePerformed : Prop :=
  (∀ (s : State) (rest : List Turn) (id : Nat) (x : Access) (y : Piece) (n m k e : Nat) (tm : Team),
    s.agenda = .perform id (laneBit y.lane) :: rest → aget s.flight id = some x → x.pieces = [y] → y.lane < 64 →
    (x.ag, x.kind, x.chunked, x.bad, x.ndst, x.acq) = (Agent.frag n m k e, AccKind.store, false, 0#64, 0, false) →
    n < 128 → m < 2048 → k < 16 → y.done = false → 1 ≤ y.len → s.poison = [] → s.ue = [] → s.mayPerform x y = true →
    (x.space = .glob → y.cls ≠ 0 → y.addr + y.len ≤ 2 ^ 36 →
      ∃ t, step s = .next t ∧ (∀ i, i < y.len → t.stackByte n (y.addr + i) = BitVec.ofNat 8 (y.data / 2 ^ (8 * i))) ∧
        s.stackFrame t n y.addr y.len ∧ t.flight = adel s.flight id) ∧
    (x.space = .glob → y.cls = 0 → y.addr % 64 + y.len ≤ 64 → (s.core n x.core).l1 = [] → s.l1Room n x.core y.addr = true →
      ∃ t z, step s = .next t ∧ (t.core n x.core).l1 = [(y.addr / 64, z)] ∧
        (∀ i, i < 64 → lineRead z i 1 = if y.addr % 64 ≤ i ∧ i < y.addr % 64 + y.len then y.data / 2 ^ (8 * (i - y.addr % 64)) % 256
          else (s.stackByte n (y.addr / 64 * 64 + i)).toNat) ∧
        t.flight = adel s.flight id ∧ t.mem = s.mem ∧ t.l2 = s.l2) ∧
    (x.space = .loc → s.team? n m = some tm → tm.localPoison = [] → tm.localUe = [] →
      ∃ t tt, step s = .next t ∧ t.team? n m = some tt ∧
        (∀ i, i < y.len → tt.localByte (y.addr + i) = BitVec.ofNat 8 (y.data / 2 ^ (8 * i))) ∧
        (∀ a, a < y.addr ∨ y.addr + y.len ≤ a → tt.localByte a = tm.localByte a) ∧
        t.flight = adel s.flight id ∧ t.mem = s.mem ∧ t.l2 = s.l2)) ∧
  (∀ (s : State) (id : Nat) (x : Access) (y : Piece) (n m k e : Nat) (gr : Group) (tm : Team),
    let ag : Agent := .frag n m k e
    aget s.flight id = some x → x.pieces = [y] → y.lane < 64 → s.group? (agKey ag) = some gr →
    (x.ag, x.kind, x.chunked, x.bad, x.acq, x.cnt) = (ag, AccKind.load, false, 0#64, false, none) →
    n < 128 → m < 2048 → k < 16 → y.done = false → y.reg = 0 → y.len ∈ [1, 2, 4, 8, 16] → y.addr % y.len = 0 → x.ndst = (y.len + 3) / 4 →
    x.dst + x.ndst ≤ 256 → s.poison = [] → s.ue = [] → (s.core n x.core).l1 = [] → s.mayPerform x y = true →
    let returns (v : Nat) (lanes : Nat → Prop) : Prop :=
      ∃ t gt, exec (.loadDataReturn id (laneBit y.lane)) s = .next t ∧ t.group? (agKey ag) = some gt ∧
        (∀ j, j < x.ndst → (gt.tag (x.dst + j)).empty = false ∧
          ∀ l, l < 64 → lanes l → gt.rd (x.dst + j) l = BitVec.ofNat 32 (v / 2 ^ (32 * j))) ∧
        (∀ r l, l < 64 → (¬lanes l ∨ r < x.dst ∨ x.dst + x.ndst ≤ r) → gt.rd r l = gr.rd r l) ∧
        (∀ r, r < x.dst ∨ x.dst + x.ndst ≤ r → gt.tag r = gr.tag r) ∧
        t.flight = adel s.flight id ∧ t.mem = s.mem ∧ t.l2 = s.l2
    (x.space = .glob → x.uniform = false → returns (s.stackRead n y.addr y.len) (· = y.lane)) ∧
    (x.space = .glob → x.uniform = true → returns (s.stackRead n y.addr y.len) (fun l => x.act.getLsbD l = true)) ∧
    (x.space = .loc → x.uniform = false → s.team? n m = some tm → tm.localPoison = [] → tm.localUe = [] →
      returns (tm.localRead y.addr y.len) (· = y.lane))) ∧
  ∀ (s : State) (id : Nat) (x : Access) (l n m k e : Nat) (gr : Group),
    let ag : Agent := .frag n m k e
    aget s.flight id = some x → l < 64 → s.group? (agKey ag) = some gr → n < 128 → m < 2048 → k < 16 →
    (x.ag, x.space, x.chunked, x.bad, x.acq, x.uniform, x.cnt) = (ag, Space.glob, true, 0#64, false, false, none) →
    s.poison = [] → s.ue = [] → x.pieces.Pairwise (fun p q => p.meets q = false) →
    (∀ p ∈ x.pieces, p.len ∈ [1, 2, 4] ∧ p.addr % p.len = 0 ∧ p.addr + p.len ≤ 2 ^ 36) →
    (∀ p ∈ x.pieces, p.lane = l → p.done = false → s.mayPerform x p = true) → (∃ p ∈ x.pieces, p.lane = l ∧ p.done = false) →
    let now (t : State) (y : Piece) : Prop := y ∈ x.pieces ∧ y.lane = l ∧ y.done = false ∧
      t.flight = if ∀ p ∈ x.pieces, p.done = true ∨ p = y then adel s.flight id
        else aput s.flight id { x with pieces := x.pieces.map fun p => if p = y then { p with done := true } else p }
    (∀ rest : List Turn, s.agenda = .perform id (laneBit l) :: rest → (x.kind, x.ndst) = (AccKind.store, 0) → (∀ p ∈ x.pieces, p.cls ≠ 0) →
      ∃ t y, step s = .next t ∧ now t y ∧ s.stackFrame t n y.addr y.len ∧
        ∀ i, i < y.len → t.stackByte n (y.addr + i) = BitVec.ofNat 8 (y.data / 2 ^ (8 * i))) ∧
    (x.kind = .load → (s.core n x.core).l1 = [] → x.dst + x.ndst ≤ 256 → (∀ p ∈ x.pieces, p.reg < x.ndst) →
      ∃ t y gt, exec (.loadDataReturn id (laneBit l)) s = .next t ∧ now t y ∧ t.group? (agKey ag) = some gt ∧
        gt.rd (x.dst + y.reg) l = BitVec.ofNat 32 (s.stackRead n y.addr y.len) ∧
        (∀ r i, i < 64 → (i ≠ l ∨ r ≠ x.dst + y.reg) → gt.rd r i = gr.rd r i) ∧
        ((∀ p ∈ x.pieces, p.done = true ∨ p = y) → ∀ j, j < x.ndst → (gt.tag (x.dst + j)).empty = false) ∧ t.mem = s.mem ∧ t.l2 = s.l2)

/-- R174, R201, R202: one lane of an atomic reads and writes its location in one step: on a DIE page at the home slice, on a CORE page in
the issuing core's L1, on a local address in the local memory; the old value goes to the destination. No operation sets a sticky flag. -/
def Obligations.AtomicIsPerformed : Prop :=
  ∀ (s : State) (id : Nat) (x : Access) (y : Piece) (n m k e : Nat) (gr : Group) (tm : Team),
    let ag : Agent := .frag n m k e
    let sg (v : Nat) : Int := if v < 2 ^ (8 * y.len - 1) then v else (v : Int) - 2 ^ (8 * y.len)
    aget s.flight id = some x → x.pieces = [y] → y.lane < 64 → s.group? (agKey ag) = some gr →
    (x.ag, x.bad, x.acq, x.uniform) = (ag, 0#64, false, false) →
    n < 128 → m < 2048 → k < 16 → y.done = false → y.reg = 0 → x.dst + x.ndst ≤ 256 → x.ndst = 0 ∨ x.ndst = y.len / 4 →
    s.poison = [] → s.ue = [] → s.mayAtom x y = true →
    let makes (old new : Nat) : Prop :=
      ∃ wide, y.len = (if wide then 8 else 4) ∧ y.data < 2 ^ (8 * y.len) ∧ y.data2 < 2 ^ (8 * y.len) ∧
      ((x.kind = .cas wide ∧ new = if old = y.data then y.data2 else old) ∨
       (x.kind = .rmw .add wide ∧ new = (old + y.data) % 2 ^ (8 * y.len)) ∨
       (x.kind = .rmw .exch wide ∧ new = y.data) ∨
       (x.kind = .rmw .umin wide ∧ new = min old y.data) ∨ (x.kind = .rmw .umax wide ∧ new = max old y.data) ∨
       (x.kind = .rmw .min wide ∧ new = if sg old ≤ sg y.data then old else y.data) ∨
       (x.kind = .rmw .max wide ∧ new = if sg y.data ≤ sg old then old else y.data) ∨
       (x.kind = .rmw .and wide ∧ new = old &&& y.data) ∨ (x.kind = .rmw .or wide ∧ new = old ||| y.data) ∨
       (x.kind = .rmw .xor wide ∧ new = old ^^^ y.data) ∨
       (x.kind = .rmw .inc wide ∧ new = if y.data ≤ old then 0 else old + 1) ∨
       (x.kind = .rmw .dec wide ∧ new = if old = 0 ∨ y.data < old then y.data else old - 1) ∨
       (x.kind = .rmw .fadd wide ∧ wide = false ∧ new = (f32.add .rne old y.data).1) ∨
       (∃ mn mx, Extremes (BitVec.ofNat 32 old) (BitVec.ofNat 32 y.data) mn mx ∧ wide = false ∧
         (x.kind = .rmw .fmin wide ∧ new = mn.toNat ∨ x.kind = .rmw .fmax wide ∧ new = mx.toNat)))
    let goes (old : Nat) (t : State) : Prop :=
      exec (.atomicAtHomeSlice id y.lane) s = .next t ∧ ∃ gt, t.group? (agKey ag) = some gt ∧
      (∀ j, j < x.ndst →
        gt.rd (x.dst + j) y.lane = BitVec.ofNat 32 (old / 2 ^ (32 * j)) ∧ (gt.tag (x.dst + j)).empty = false) ∧
      (∀ r l, l < 64 → (l ≠ y.lane ∨ r < x.dst ∨ x.dst + x.ndst ≤ r) → gt.rd r l = gr.rd r l) ∧ gt.sticky = gr.sticky ∧
      t.flight = adel s.flight id
    ∀ new : Nat,
    (x.space = .glob → y.cls = 1 → y.addr + y.len ≤ 2 ^ 36 → makes (s.stackRead n y.addr y.len) new →
      ∃ t, goes (s.stackRead n y.addr y.len) t ∧ t.stackRead n y.addr y.len = new ∧ s.stackFrame t n y.addr y.len) ∧
    (x.space = .glob → y.cls = 0 → y.addr % y.len = 0 → (s.core n x.core).l1 = [] → s.l1Room n x.core y.addr = true →
      makes (s.stackRead n y.addr y.len) new →
      ∃ t z, goes (s.stackRead n y.addr y.len) t ∧ (t.core n x.core).l1 = [(y.addr / 64, z)] ∧ lineRead z (y.addr % 64) y.len = new ∧
        (∀ i, i < 64 → i < y.addr % 64 ∨ y.addr % 64 + y.len ≤ i → lineRead z i 1 = (s.stackByte n (y.addr / 64 * 64 + i)).toNat) ∧
        t.mem = s.mem ∧ t.l2 = s.l2) ∧
    (x.space = .loc → s.team? n m = some tm → tm.localPoison = [] → tm.localUe = [] → makes (tm.localRead y.addr y.len) new →
      ∃ t tt, goes (tm.localRead y.addr y.len) t ∧ t.team? n m = some tt ∧ tt.localRead y.addr y.len = new ∧
        (∀ a, a < y.addr ∨ y.addr + y.len ≤ a → tt.localByte a = tm.localByte a) ∧ t.mem = s.mem ∧ t.l2 = s.l2)

/-- R205: FENCE makes the fragment's later memory, queue and engine instructions wait for what is in flight now, its reads
alone for `.acq`; one of die scope that acquires has DIE and REPL lines invalidated first.
R199: PREF writes no register and no byte, and raises nothing for an address that fails its check; it fills L1 with the line of one that
passes, `.l2` its sector into the L2. R83: it may evict a line that streamed. That it raises nothing where its address register or its
guard is in error is the model's choice (log 71). -/
def Obligations.FenceAndPrefetch : Prop :=
  (∀ (s : State) (n m k e : Nat) (act : Mask) (gr : Group) (f : Fragment) (kd : FenceKind) (sc : Scope) (g : Guard),
     let ag : Agent := .frag n m k e
     s.ready ag act { cls := 2, guard := g } = true → s.group? (agKey ag) = some gr → aget gr.frags e = some f →
     ∃ t x, exec (.fence kd sc g) s = .next t ∧ t.front? ag = some x ∧ s.wentOn t ag ∧
       (x.fenceAll, x.fenceRd) = (if kd = .acq then (f.fenceAll, s.fresh) else (s.fresh, f.fenceRd)) ∧
       (sc = .die → kd ≠ .rel → x.fenceInv = true) ∧ (kd = .rel → x.fenceInv = f.fenceInv) ∧
       { t with groups := s.groups } = s ∧
       (∀ id y, (id, y) ∈ s.flight → id < s.fresh → id ∈ f.past →
         kd ≠ .acq ∨ y.kind.reads = true → t.fenceHeld ag x = true)) ∧
  ∀ (s : State) (n m k e : Nat) (act : Mask) (a : Src) (off : BitVec 20) (l2 : Bool) (g : Guard) (l p c : Nat),
    let ag : Agent := .frag n m k e
    let d := keyDie (agKey ag)
    let va := (((s.src ag a 1 l ++ s.src ag a 0 l).setWidth 48 : Addr) + off.signExtend 48).toNat
    s.ready ag act { cls := 2, guard := g, srcs := [(a, 2)], ownErr := true } = true →
    ∃ t, exec (.pref a off l2 g) s = .next t ∧ t.flight = s.flight ∧ t.teams = s.teams ∧ s.wentOn t ag ∧
      (∀ r i, r < 640 → r < 256 ∨ 32 ≤ i → t.rdReg ag r i = s.rdReg ag r i) ∧
      ((∀ r ∈ guardRegs ag g ++ [a.r.toNat, a.r.toNat + 1], r < 640 → (s.rdTag ag r).ue = 0#64) → t.groups = (s.advance ag).groups) ∧
      ((∀ x ∈ (s.core d (s.agCore ag)).l1, x.2.stream = false) →
        (∀ d' o, t.stackByte d' o = s.stackByte d' o) ∧ t.poison = s.poison ∧ t.mem = s.mem ∧ (l2 = false → t.l2 = s.l2)) ∧
      -- what it fills, of one lane whose address passes its check and meets no error
      (act = laneBit l → l < 64 → (∀ r ∈ guardRegs ag g ++ [a.r.toNat, a.r.toNat + 1], r < 640 → (s.rdTag ag r).poison = 0#64) →
        s.xlateBusy d (s.ptagOf (agKey ag)) va = false → s.chkNow d (s.ptagOf (agKey ag)) va 1 .read = .ok p c →
        s.coreBusy d (s.agCore ag) p false = false → s.poison = [] → s.ue = [] →
        (l2 = false → s.l1Room d (s.agCore ag) p = true → t.l1Has d (s.agCore ag) p = true) ∧
        (l2 = true → s.l2Room d p = true → ∀ i, i < 64 →
          aget t.l2 (stackKey d (p / 64 * 64 + i)) = some (s.stackByte d (p / 64 * 64 + i))))

/-- R207 to R211: BINIT issues one 128-bit store of EXPECTED := B and zeros; BARV, once the earlier accesses are performed,
arrives on the object with count B in one step; BWAIT completes once (PHASE − B) mod 2^32 lies from 1 to 2^31, and waits
otherwise, to compare again when an arrival changes the object. -/
def Obligations.BarrierInstructions : Prop :=
  ∀ (s : State) (n m k e : Nat) (act : Mask) (gr : Group) (f : Fragment) (tm : Team) (a b : Src) (g : Guard),
    let ag : Agent := .frag n m k e
    let key := agKey ag
    let adr := (s.src ag a 0 (lowLane act)).toNat
    let v := s.src ag b 0 (lowLane act)
    let obj := BitVec.ofNat 128 (tm.localRead adr 16)
    s.ready ag act { cls := 2, guard := g, srcs := [(a, 1), (b, 1)], hlp := false, lone := [0, 1] } = true →
    n < 128 → m < 2048 → k < 16 → s.group? key = some gr → aget gr.frags e = some f → s.team? n m = some tm →
    tm.localPoison = [] → tm.localUe = [] → f.fenceInv = false → s.preemptAsked key = false →
    s.notHeldBack ag f false → adr % 16 = 0 → adr + 16 ≤ recL tm.recd → s.rangeBusy n m adr 16 = false →
    ((∀ e ∈ s.earlier ag f, e.2.acq = false) →
      ∃ t x y, exec (.binit a b g) s = .next t ∧ t.flight = aput s.flight s.fresh x ∧ x.pieces = [y] ∧
      (x.kind, x.space, y.addr, y.len, y.data) = (AccKind.store, Space.loc, adr, 16, v.toNat) ∧ s.wentOn t ag ∧
      s.keepsValues t ag) ∧
    (s.earlier ag f ≠ [] → exec (.barv a b g) s = .next (s.stallAt ag .issue)) ∧
    (s.earlier ag f = [] → ∃ t tt, exec (.barv a b g) s = .next t ∧ t.team? n m = some tt ∧
      BitVec.ofNat 128 (tt.localRead adr 16) = arrived obj v.toNat false ∧
      (∀ i, i < adr ∨ adr + 16 ≤ i → tt.localByte i = tm.localByte i) ∧
      { tt with localMem := tm.localMem, seq := tm.seq } = tm ∧ s.wentOn t ag ∧ t.mem = s.mem ∧ t.l2 = s.l2 ∧
      -- a BWAIT of another fragment of the group that waits on the object compares again with what it now holds
      ∀ i y p w, i ≠ e → gr.frags = aput [(e, f)] i y → y.wait = .bar p w →
        let d := ((arrived obj v.toNat false).extractLsb' 64 32 - w).toNat
        ∃ gt, t.group? key = some gt ∧
          aget gt.frags i = some (if p = adr ∧ 1 ≤ d ∧ d ≤ 2 ^ 31 then y.advance else y)) ∧
    (s.earlier ag f = [] →
      let d := (obj.extractLsb' 64 32 - v).toNat
      (1 ≤ d ∧ d ≤ 2 ^ 31 → ∃ t, exec (.bwait a b g) s = .next t ∧ s.wentOn t ag ∧ s.keepsValues t ag) ∧
      (d = 0 ∨ 2 ^ 31 < d →
        exec (.bwait a b g) s = .next (s.modFront ag fun f => { f with wait := .bar adr v, stall := .barrier })))

/-- R216: CSUB, once the earlier accesses are performed, raises its counter by one and submits the distinct records its lanes
name as roots. R58, R223, R224: WQRY raises its counter and sends the query; the distributor deals the next item to it,
writes it at the address named and to e14 and e15, and lowers the counter.
R58, R59, R223: the distributor's answer to a query. R58, R226: queries are dealt in the order they reached the distributor,
those of one clock by core, slot and group. -/
def Obligations.EngineAndWork : Prop :=
  (∀ (s : State) (n m k e : Nat) (act : Mask) (gr : Group) (f : Fragment) (tm : Team) (i : BitVec 3) (a : Src) (g : Guard),
    let ag : Agent := .frag n m k e
    let key := agKey ag
    let adr (l : Nat) := (s.src ag a 0 l).toNat
    n < 128 → m < 2048 → k < 16 → s.group? key = some gr → aget gr.frags e = some f → s.team? n m = some tm →
    f.fenceInv = false → s.notHeldBack ag f false → gr.counter i.toNat < 65535 →
    (s.ready ag act { cls := 2, guard := g, srcs := [(a, 1)], hlp := false } = true →
      (∀ l ∈ lanesOf act, adr l % 64 = 0 ∧ adr l + 64 ≤ recL tm.recd) → s.earlier ag f = [] →
      (s.core n gr.core).subs.length < 16 →
      ∃ t gt sub, exec (.csub i a g) s = .next t ∧ t.group? key = some gt ∧ gt.counter i.toNat = gr.counter i.toNat + 1 ∧
        (t.core n gr.core).subs = aput (s.core n gr.core).subs s.fresh sub ∧
        (sub.die, sub.slot, sub.g, sub.uid, sub.k, sub.running) = (n, m, k, gr.uid, i.toNat, []) ∧
        (∀ r, r ∈ sub.ready ↔ r.2 = true ∧ ∃ l ∈ lanesOf act, r.1 = adr l) ∧ (sub.ready.map (·.1)).Nodup ∧
        s.wentOn t ag ∧ s.keepsValues t ag) ∧
    (s.ready ag act { cls := 2, guard := g, srcs := [(a, 1)], hlp := false, lone := [0] } = true →
      adr (lowLane act) % 8 = 0 → adr (lowLane act) + 8 ≤ recL tm.recd → s.workHeld ag = false →
      ∃ t gt, exec (.wqry i a g) s = .next t ∧ t.group? key = some gt ∧ gt.counter i.toNat = gr.counter i.toNat + 1 ∧
        gt.wq = gr.wq ++ [(i.toNat, adr (lowLane act), f.pc, act)] ∧ (t.die n).queries = (s.die n).queries ++ [(key, none)] ∧
        s.wentOn t ag ∧ s.keepsValues t ag)) ∧
  (∀ (s : State) (rest : List Turn) (n k1 k2 c1 c2 : Nat),
    (s.agenda = .reach n 0 :: rest → (s.die n).queries = [(k1, none)] → ∃ t, step s = .next t ∧
      (t.die n).queries = [(k1, some s.clock)] ∧ { t with dies := s.dies } = { s with agenda := rest, cur := none }) ∧
    ((s.die n).queries = [(k1, some c1), (k2, some c2)] → c1 < s.clock → c2 < s.clock →
      s.nextQuery n = if c2 < c1 ∨ c2 = c1 ∧ s.queryRank n k2 < s.queryRank n k1 then some (k2, c2) else some (k1, c1))) ∧
  (∀ (s : State) (n m k : Nat) (gr : Group) (tm : Team) (sh : Share) (i adr c : Nat) (pc : Addr) (act : Mask)
    (more : List (Nat × Nat × Addr × Mask)),
    let key := groupKey n m k
    let rx := bits sh.recd 367 352
    let ry := bits sh.recd 383 368
    let item : Word × Word := if sh.workNext < rx * ry then
      (BitVec.ofNat 32 (sh.workNext % rx), BitVec.ofNat 32 (sh.workNext / rx)) else (0xFFFFFFFF#32, 0xFFFFFFFF#32)
    n < 128 → m < 2048 → k < 16 → s.group? key = some gr → s.team? n m = some tm → (s.die n).queries = [(key, some c)] → c < s.clock →
    gr.wq = (i, adr, pc, act) :: more → 1 ≤ gr.counter i → i < 8 → aget (s.die n).shares tm.share = some sh →
    tm.localPoison = [] → tm.localUe = [] → adr % 8 = 0 → s.rangeBusy n m adr 8 = false →
    ∃ t gt tt st, exec (.workDeal n) s = .next t ∧ t.group? key = some gt ∧ (gt.workX, gt.workY) = item ∧
      gt.counter i = gr.counter i - 1 ∧ gt.wq = more ∧ t.team? n m = some tt ∧
      tt.localRead adr 8 = item.1.toNat + item.2.toNat * 2 ^ 32 ∧
      (∀ b, b < adr ∨ adr + 8 ≤ b → tt.localByte b = tm.localByte b) ∧ (t.die n).queries = [] ∧
      aget (t.die n).shares tm.share = some st ∧
      st = { sh with workNext := if sh.workNext < rx * ry then sh.workNext + 1 else sh.workNext } ∧
      (∀ r l, gt.rd r l = gr.rd r l) ∧ t.mem = s.mem ∧ t.l2 = s.l2)

/-- R311, R312: when a page walk ends, the translation its table holds is cached for the waiting accesses, or its failure
waits to be charged; the oldest page that waits for a walker takes the one that is free.
R169: eviction of an L2 line moves its bytes to the stack and changes no byte that any core reads there. -/
def Obligations.WalksAndEvictions : Prop :=
  (∀ (s : State) (d : Nat) (ptag : BitVec 12) (page : Nat), page < 2 ^ 32 →
    let key := ptag.toNat * 2 ^ 32 + page
    key ∈ (s.die d).walks → key ∉ (s.die d).walkWait → s.walkBusy d ptag (page * 65536) = false →
    ∃ t, exec (.pageWalkComplete d ptag.toNat page) s = .next t ∧ key ∉ (t.die d).walks ∧
      (∀ x, s.walk d ptag (page * 65536) = .ok x →
        let first := key / (pageSize x.level / 65536) * (pageSize x.level / 65536)
        aget (t.die d).tlb first = some x ∧
        ((s.die d).tlb.length < 32768 → ∀ k, k ≠ first → aget (t.die d).tlb k = aget (s.die d).tlb k)) ∧
      (∀ x, s.walk d ptag (page * 65536) = .fail x →
        aget (t.die d).walkFails key = some x ∧ (t.die d).tlb = (s.die d).tlb) ∧
      (∀ w more, (s.die d).walkWait = w :: more → w ∈ (t.die d).walks ∧ (t.die d).walkWait = more) ∧
      t.mem = s.mem ∧ t.l2 = s.l2 ∧ t.flight = s.flight) ∧
  (∀ (s : State) (d line : Nat), d < 128 → line * 256 + 256 ≤ 2 ^ 36 → (∀ c, (s.core d c).l1 = []) → s.ueL2 = [] →
    (∀ i, i < 4 → s.stackBusy d (line * 256 + 64 * i) = false) →
    ∃ t, exec (.l2Eviction d line) s = .next t ∧
      (∀ d' a, d' < 128 → a < 2 ^ 36 → t.stackByte d' a = s.stackByte d' a) ∧
      (∀ i, i < 256 → aget t.l2 (stackKey d (line * 256 + i)) = none) ∧
      (∀ i, i < 256 → sget unwritten t.mem (stackKey d (line * 256 + i)) = s.stackByte d (line * 256 + i)) ∧
      (Memory.wf s.mem = true → Memory.wf t.mem = true) ∧ t.groups = s.groups ∧ t.teams = s.teams)

/-- R85, R78, R77, R74, R47: when the eight bytes at an agent's program counter, on a readable REPL page and free of error,
decode to an instruction, no test holds them back (R383) and the agent may issue, its turn is the execution of that instruction with
the agent current. R317: a helper's turn is that of its gang, the helpers of its bank that stand at the same instruction, of at most 8
slices, one after another, where no other gang has the bank in this clock; those of it that stand at the header start the clause first, all
together. Which of several ready gangs has the turn is the agenda's (log 2). An agent at a clause header starts the clause there: with a
valid header, no pre-emption asked and the counters of its wait mask at zero it stands at the clause's first instruction. A turn of an
event is the event; a turn of a fragment or sequencer that may not issue changes nothing. -/
def Obligations.StepRunsDecoded : Prop :=
  (∀ (s : State) (ag : Agent) (f : Fragment) (rest : List Turn) (p : Nat) (i : Instr) (w : Code),
    let d := keyDie (agKey ag)
    let u : State := { s with agenda := rest, cur := none }
    let t : State := { s with agenda := rest, cur := some ag }
    (s.front? ag = some f → s.mayIssue ag f = true → f.hdr.isSome = true →
      s.fetchBusy d (s.ptagOf (agKey ag)) f.pc = false →
      s.chkNow d (s.ptagOf (agKey ag)) f.pc.toNat 8 .fetch = .ok p 2 → s.poison = [] → s.ue = [] →
      decode (BitVec.ofNat 64 (s.stackRead d p 8)) = .ok i →
      stepOne s ag = exec i { s with cur := some ag } ∧
      (s.agenda = .issue ag :: rest → (∀ n m k h, ag ≠ .helper n m k h) → step s = exec i t)) ∧
    (s.front? ag = some f → s.mayIssue ag f = true → f.hdr = none →
      stepOne s ag = exec (.clauseStart ag) { s with cur := some ag } ∧
      (s.agenda = .issue ag :: rest → (∀ n m k h, ag ≠ .helper n m k h) → step s = exec (.clauseStart ag) t)) ∧
    (s.agenda = .issue ag :: rest → s.front? ag = some f → s.mayIssue ag f = false → (∀ n m k h, ag ≠ .helper n m k h) →
      step s = .next u) ∧
    (s.agenda = .happen i :: rest → step s = exec i u) ∧
    (s.front? ag = some f → f.hdr = none → s.mayIssue ag f = true → s.agFetchBusy ag f.clause = false →
      s.fetchWord d (s.ptagOf (agKey ag)) f.clause = .inl w → bits w 63 60 = 15 →
      bits w 59 57 < 6 → (∀ lo ∈ [22, 29, 36, 43], bits w (lo + 6) lo < 80 ∨ bits w (lo + 6) lo = 127) →
      s.preemptAsked (agKey ag) = false → (∀ gr k, s.group? (agKey ag) = some gr → k < 8 → w.getLsbD (14 + k) = true → gr.counter k = 0) →
      (∃ n m k e, ag = .frag n m k e) ∨ ((∃ n m, ag = .seq n m) ∧ bits w 21 14 = 0 ∧ bits w 59 57 ∈ [0, 4, 5]) →
      exec (.clauseStart ag) s = .next (s.modFront ag fun x => { x with hdr := some w, idx := 0, stall := .none }))) ∧
  (∀ (s : State) (n m k h : Nat) (x : Helper) (rest : List Turn) (w : Code),
    let ag (h : Nat) : Agent := .helper n m k h
    let key := groupKey n m k
    let f := x.front
    let u : State := { s with agenda := rest, cur := none }
    let starts := s.gangMates key h { f with hdr := none }
    n < 128 → m < 2048 → k < 16 → s.helper? key h = some x → x.life = .running →
    (s.agenda = .issue (ag h) :: rest →
      (starts = [] → step s = gangIssue u n m k h) ∧
      ∀ h0 x0 more, starts = (h0, x0) :: more →
        (f.hdr = none → step s = exec (.clauseStart (ag h0)) { u with cur := some (ag h0) }) ∧
        (f.hdr.isSome = true → ∀ z, exec (.clauseStart (ag h0)) { u with cur := some (ag h0) } = .next z → step s = gangIssue z n m k h)) ∧
    (f.hdr = none → f.idx = 0 → (∀ e ∈ starts, e.2.front.idx = 0) → s.mayIssue (ag h) f = true → s.agFetchBusy (ag h) f.clause = false →
      s.fetchWord n (s.ptagOf key) f.clause = .inl w → bits w 63 60 = 15 →
      bits w 59 57 < 6 → (∀ lo ∈ [22, 29, 36, 43], bits w (lo + 6) lo < 80 ∨ bits w (lo + 6) lo = 127) →
      (∀ gr k, s.group? key = some gr → k < 8 → w.getLsbD (14 + k) = true → gr.counter k = 0) →
      exec (.clauseStart (ag h)) s =
        .next (starts.foldl (fun s e => s.modFront (ag e.1) fun x => { x with hdr := some w, idx := 0, stall := .none }) s))) ∧
  ∀ (s : State) (n m k h : Nat) (gr : Group) (rc : Recruit) (x : Helper) (p : Nat) (i : Instr),
    let ag (h : Nat) : Agent := .helper n m k h
    let key := groupKey n m k
    let f := x.front
    let mates := s.gangMates key h f
    let old := aget (s.core n gr.core).gangs x.bank
    n < 128 → m < 2048 → k < 16 → s.group? key = some gr → gr.recruit = some rc → (rc.helpers.map (·.1)).Nodup →
    aget rc.helpers h = some x →
    (∀ e ∈ mates, e ∈ rc.helpers ∧ e.2.life = .running ∧ e.2.bank = x.bank ∧ e.2.front.pc = f.pc ∧
      e.2.front.hdr.isSome = f.hdr.isSome ∧ s.mayIssue (ag e.1) e.2.front = true) ∧
    ((mates.map (·.2.slice)).dedup).length ≤ 8 ∧
    (x.life = .running → s.mayIssue (ag h) f = true → (h, x) ∈ mates) ∧
    (mates = [] ∨ f.hdr = none → gangIssue s n m k h = .next s) ∧
    ((∃ y, old = some y ∧ y.clock = s.clock) → gangIssue s n m k h = .next s) ∧
    (x.life = .running → f.hdr.isSome = true → (∀ y, old = some y → y.clock ≠ s.clock) →
      s.fetchBusy n (s.ptagOf key) f.pc = false → s.chkNow n (s.ptagOf key) f.pc.toNat 8 .fetch = .ok p 2 → s.poison = [] → s.ue = [] →
      decode (BitVec.ofNat 64 (s.stackRead n p 8)) = .ok i → ∀ h0 x0 more, mates = (h0, x0) :: more →
      let v := s.modCore n gr.core fun c =>
        { c with gangs := aput c.gangs x.bank { clock := s.clock, key := key, pc := f.pc.toNat, helpers := mates.map (·.1) } }
      ∀ z, exec i { v with cur := some (ag h0) } = .next z → gangIssue s n m k h = stepAll (more.map fun e => ag e.1) z)

/-- R80 to R87: words the manual prints, with the instructions they stand for. A clause header is no instruction. -/
def Obligations.DecodeWords : Prop :=
  decode 0x30001A000000C000#64 = .ok (.iaddImm 1#10 ⟨640#10, false⟩ 3#20 .wrap ⟨0#4, false⟩) ∧
  decode 0x21C0A00803030001#64 = .ok (.imadw 10#10 ⟨2#10, false⟩ ⟨3#10, false⟩ ⟨12#10, false⟩ true ⟨0#4, false⟩) ∧
  decode 0x6000802402028014#64 =
    .ok (.cvt 8#10 ⟨9#10, false⟩ ⟨10#10, false⟩ .f32 .bf16 .sr false 1#2 ⟨0#4, false⟩) ∧
  decode 0x7000601000100012#64 = .ok (.ld 6#10 ⟨4#10, false⟩ 64#20 .w32 .acq false ⟨0#4, false⟩) ∧
  decode 0x7040800BFFFE001C#64 = .ok (.st ⟨8#10, false⟩ ⟨2#10, false⟩ 0xFFFF8#20 .w64 .rel false ⟨0#4, false⟩) ∧
  decode 0x7200A0080C800010#64 = .ok (.atom 10#10 ⟨2#10, false⟩ ⟨12#10, false⟩ .umax false false .rel ⟨0#4, false⟩) ∧
  decode 0x7300000000000007#64 = .ok (.fence .sc .die ⟨0#4, false⟩) ∧
  decode 0x02C0000000000000#64 = .ok (.exit ⟨0#4, false⟩) ∧
  decode 0x9010440102000000#64 = .ok (.qres 260#10 ⟨256#10, false⟩ ⟨258#10, false⟩ ⟨0#4, false⟩) ∧
  decode 0x92C2800000000002#64 = .ok (.await 40#10 .all ⟨0#4, false⟩) ∧
  decode 0x9800A08906420001#64 =
    .ok (.recruit 10#10 ⟨34#10, false⟩ ⟨262#10, false⟩ ⟨264#10, false⟩ 1#4 ⟨0#4, false⟩) ∧
  decode 0xC000402020030800#64 = .ok (.mma 4#10 8#10 32#10 12#10 2#4 0#2 .bf16) ∧
  decode 0x0490800000808000#64 = .ok (.csrr 264#10 0x202#12 ⟨0#4, false⟩) ∧
  decode 0xF471000FFFC00000#64 = .ok (.unassignedOpcode 0xF471000FFFC00000#64)

/-- R80 to R87: for every instruction of the table that is well formed, and every operand its encoding admits, decoding its word
gives the instruction back. -/
def Obligations.DecodingInvertsEncoding : Prop :=
  ∀ (i : Instr) (w : Code), i.wf = true → encode i = some w → decode w = .ok i

/-- R62, R104, R382: what a computing instruction leaves. In a group, exactly the destination registers change: a v register in
the active lanes, an s register to the value of the lowest active lane; the error marks of the values written go, the flags join STICKY_FLAGS, the
fragment goes on, and nothing else of the panel changes. A helper's own registers and flags change in the same way. That a write clears
a value's error mark lane by lane is the model's reading (log 18). -/
def Obligations.ComputingFrame : Prop :=
  (∀ (s : State) (n m k e nd : Nat) (act : Mask) (gr : Group) (f : Fragment) (d : RegNo) (w : Nat → List Word) (fl : Nat → Flags),
    let ag : Agent := .frag n m k e
    let key := agKey ag
    s.group? key = some gr → aget gr.frags e = some f → act ≠ 0#64 → (∀ l, (w l).length = nd) →
    d.toNat + nd ≤ 256 ∨ 256 ≤ d.toNat ∧ d.toNat + nd ≤ 640 →
    let t := s.computed ag act d w fl
    let here (r : Nat) : Prop := d.toNat ≤ r ∧ r < d.toNat + nd
    ∃ gt, t.group? key = some gt ∧
      (∀ r l, here r → 256 ≤ r → gt.rd r l = ((w (lowLane act))[r - d.toNat]?).getD 0#32) ∧
      (∀ r l, here r → r < 256 → l < 64 → act.getLsbD l = true → gt.rd r l = ((w l)[r - d.toNat]?).getD 0#32) ∧
      (∀ r l, here r → r < 256 → l < 64 → act.getLsbD l = false → gt.rd r l = gr.rd r l) ∧
      (∀ r l, ¬here r → l < 64 → gt.rd r l = gr.rd r l) ∧
      (∀ r, here r → let m := if r < 256 then act else BitVec.allOnes 64
        gt.tag r = { gr.tag r with poison := (gr.tag r).poison &&& ~~~m, ue := (gr.tag r).ue &&& ~~~m }) ∧
      (∀ r, ¬here r → gt.tag r = gr.tag r) ∧
      (∀ i, gt.sticky.getLsbD i = (gr.sticky.getLsbD i || (lanesOf act).any fun l => (fl l).bits.getLsbD i)) ∧
      gt.frags = aput gr.frags e f.advance ∧
      { gt with v := gr.v, s := gr.s, tags := gr.tags, sticky := gr.sticky, frags := gr.frags } = gr ∧
      (∀ j, j ≠ key → t.group? j = s.group? j) ∧ { t with groups := s.groups } = s) ∧
  ∀ (s : State) (n m k h nd l : Nat) (gr : Group) (rc : Recruit) (x : Helper) (d : RegNo) (w : Nat → List Word) (fl : Nat → Flags),
    let ag : Agent := .helper n m k h
    let key := agKey ag
    s.group? key = some gr → gr.recruit = some rc → aget rc.helpers h = some x → l < 64 → (w l).length = nd → d.toNat + nd ≤ 32 →
    let t := s.computed ag (laneBit l) d w fl
    let here (r : Nat) : Prop := d.toNat ≤ r ∧ r < d.toNat + nd
    ∃ gt rt y, t.group? key = some gt ∧ gt.recruit = some rt ∧ rt.helpers = aput rc.helpers h y ∧
      (∀ r, here r → sget 0#32 y.v r = ((w l)[r - d.toNat]?).getD 0#32) ∧ (∀ r, ¬here r → sget 0#32 y.v r = sget 0#32 x.v r) ∧
      (∀ r, here r → sget {} y.tags r = { sget {} x.tags r with poison := 0#64, ue := 0#64 }) ∧
      (∀ r, ¬here r → sget {} y.tags r = sget {} x.tags r) ∧ y.sticky = x.sticky ||| (fl l).bits ∧ y.front = x.front.advance ∧
      { y with v := x.v, tags := x.tags, sticky := x.sticky, front := x.front } = x ∧ { rt with helpers := rc.helpers } = rc ∧
      { gt with recruit := gr.recruit } = gr ∧ (∀ j, j ≠ key → t.group? j = s.group? j) ∧ { t with groups := s.groups } = s

/-- R85, R63, R66, R67, R76, R267, R382: the issue checks in their order, where no register of the instruction lies in a row under
test (R383). Each instruction passes them before its effect `k`: the clause rules, the fields, the entry's own conditions, the guard
register, the active lanes, the sources under their policies, the destinations, the conditions that a queue entry puts last, and
errors of a source in a lane that it is read in (R198, R265: of some sources the lowest active lane alone). R27: an instruction of a fragment with lanes in both halves of a 64-lane group issues as two gangs, the lower first, in
different clocks. The model's choices among these: the LANES of a fault where the guard register cannot be read (log 13), the place of
a guard and of sources in error (log 18), a queue entry's last condition with no active lanes (log 68), and that the instruction's
effect comes with its upper gang, which reads for the lower one the uniform registers as they stood (log 49). -/
def Obligations.IssueChecksInOrder : Prop :=
  (∀ (s : State) (ag : Agent) (f : Fragment) (sp : Spec) (k : State → Agent → Mask → State),
    s.cur = some ag → s.front? ag = some f →
    (∀ r ∈ guardRegs ag sp.guard ++ (opRegs sp.srcs).map (·.1) ++ dstRegs sp.dsts, s.regBusy ag r = false) →
    let fields := s.guardOk ag sp.guard && sp.srcs.all (s.srcOk ag) && sp.dsts.all (s.dstOk ag)
    let act := s.active ag f sp.guard
    let own := sp.admits ag = true ∧ sp.illop = false
    let guardTag := s.rdTag ag (guardReg ag sp.guard.g)
    let guardHere := sp.guard.g ≠ 0#4 → guardTag.empty = false
    let full (x : Nat × Bool) : Prop := s.srcEmpty ag x.1 = false
    let clean (x : Nat × Mask) : Prop := x.1 < 640 → (s.rdTag ag x.1).poison &&& x.2 = 0#64
    (clauseRules f sp = false → issueWith s sp k = .next (s.raiseAt ag 2 1 0#48 (s.faultLanes ag f sp))) ∧
    (clauseRules f sp = true →
      (fields = false → issueWith s sp k = .next (s.raiseAt ag 2 2 0#48 (s.faultLanes ag f sp))) ∧
      (fields = true →
        (¬own → issueWith s sp k = .next (s.raiseAt ag 2 0 0#48 (s.faultLanes ag f sp))) ∧
        (own →
          (sp.guard.g ≠ 0#4 → guardTag.empty = true → ∃ w, issueWith s sp k = .next (s.waitAt ag w true)) ∧
          (guardHere → act = 0#64 →
            (sp.late = true → issueWith s sp k = .next (s.raiseAt ag 2 0 0#48 (s.faultLanes ag f sp))) ∧
            (sp.late = false → s.gangWaits ag f = true → issueWith s sp k = .next (s.lowIssue ag f)) ∧
            (sp.late = false → s.gangWaits ag f = false → issueWith s sp k = .next (s.advance ag))) ∧
          (guardHere → sp.guard.g ≠ 0#4 → sp.ownErr = false → guardTag.poison &&& f.mask ≠ 0#64 → act ≠ 0#64 →
            issueWith s sp k = .next (s.chargeRegs ag sp act)) ∧
          (guardHere → (sp.guard.g ≠ 0#4 → sp.ownErr = false → guardTag.poison &&& f.mask = 0#64) → act ≠ 0#64 →
            (∀ x, x ∈ opRegs sp.srcs → s.srcEmpty ag x.1 = true → agPolicy ag x = false →
              ∃ w, issueWith s sp k = .next (s.waitAt ag w true)) ∧
            (∀ l x r, opRegs sp.srcs = l ++ x :: r → (∀ y ∈ l, full y) → s.srcEmpty ag x.1 = true → agPolicy ag x = true →
              (∀ y ∈ r, s.srcEmpty ag y.1 = true → agPolicy ag y = true) →
              issueWith s sp k = .next (s.raiseAt ag 3 x.1 0#48 act)) ∧
            ((∀ x ∈ opRegs sp.srcs, full x) →
              ((∃ r ∈ dstRegs sp.dsts, s.dstHeld ag r = true) → ∃ w, issueWith s sp k = .next (s.waitAt ag w false)) ∧
              ((∀ r ∈ dstRegs sp.dsts, s.dstHeld ag r = false) →
                (sp.late = true → issueWith s sp k = .next (s.raiseAt ag 2 0 0#48 (s.faultLanes ag f sp))) ∧
                (sp.late = false → sp.ownErr = false → (∃ x ∈ sp.reads act, ¬clean x) →
                  issueWith s sp k = .next (s.chargeRegs ag sp act)) ∧
                (sp.late = false → sp.ownErr = true ∨ (∀ x ∈ sp.reads act, clean x) →
                  (s.gangWaits ag f = true → issueWith s sp k = .next (s.lowIssue ag f)) ∧
                  (s.gangWaits ag f = false → issueWith s sp k = .next (k s ag act)))))))))) ∧
  ∀ (s : State) (ag : Agent) (f : Fragment),
    ((∀ n m k e, ag ≠ .frag n m k e) → s.gangWaits ag f = false) ∧
    (∀ n m k e gr, ag = .frag n m k e → s.group? (agKey ag) = some gr → aget gr.frags e = some f →
      (s.gangWaits ag f = true ↔
        ((∃ l, l < 32 ∧ f.mask.getLsbD l = true) ∧ ∃ l, 32 ≤ l ∧ f.mask.getLsbD l = true) ∧
          ∀ q, f.gang = some q → s.clock ≤ q.clock) ∧
      (f.gang = none →
        (s.lowIssue ag f).front? ag =
          some { f with stall := .none, gang := some { clock := s.clock, s := gr.s, workX := gr.workX, workY := gr.workY } } ∧
        { s.lowIssue ag f with groups := s.groups } = s ∧
        ∀ r l, r < 256 ∨ 32 ≤ l → (s.lowIssue ag f).rdReg ag r l = s.rdReg ag r l) ∧
      (f.gang.isSome = true → s.lowIssue ag f = s) ∧
      ∀ q r l, f.gang = some q → 256 ≤ r → r < 640 → l < 32 → s.rdReg ag r l = sget 0#32 q.s (r - 256))

/-- R292, R293, R297: no instruction and no event stops the panel: from every state whose next turn the schedule can hold, a step
answers a next state. -/
def Obligations.EveryStepAnswers : Prop := ∀ s, Scheduled s → ∃ t, step s = .next t

/-- Every step keeps the canonical form of the panel's memory (the model's own invariant, log 5). -/
def Obligations.StepsKeepMemoryForm : Prop :=
  ∀ s t : State, Memory.wf s.mem = true → step s = .next t → Memory.wf t.mem = true

/-- R393, R376, R19, R20: the panel before its rails reach range has nothing placed and its memory in canonical form, and the
first step brings up all 128 dies of a panel with nothing fused off: cores 0 to 127 in 64 clusters on each, ROUND_SEED 1. That the
first step is this bring-up with everything sound (log 2), that reset's flash has nothing fused off, excluded or retired (log 4), and the
canonical form of memory, a byte that nothing has written being 0 (log 5), are the model's choices. -/
def Obligations.ResetComesUp : Prop :=
  Memory.wf State.reset.mem = true ∧ State.reset.teams = [] ∧ State.reset.groups = [] ∧ State.reset.phase = .off ∧
  ∃ t, step State.reset = .next t ∧ t.phase = .up ∧ t.dieMap = List.range 128 ∧ t.teams = [] ∧ t.groups = [] ∧
    t.hostPort = false ∧ t.panelNo = 0#8 ∧
    ∀ d, d < 128 → (t.die d).live = true ∧ (t.die d).coreMap = List.range 128 ∧ (t.die d).pairs = 64 ∧
      ∀ c p now, (t.core d c).seed now p = 1#32

/-- R266, R268, R273 to R278, R281, R285, R287: a queue instruction whose qid translates, whose fences are met and whose stream has
room sends its request and waits for its answer; a put waits for the earlier accesses first (R268). QRES of no positions and QRES
with four records open answer at once (the model counts a QRES that still waits for its answer as an open record: its own choice, log
16); QSTAT.r reads the record. R227: a qid of KIND 0b11 raises ILLOP. R265: of qids, words, counts, addresses and targets the other active lanes are not read, and an error there raises nothing
(log 70). That a put from memory takes its tag from C's lowest active lane and
reads its whole run in the step that sends it is the model's choice too (log 57). -/
def Obligations.QueueRequests : Prop :=
  ∀ (s : State) (ag : Agent) (act : Mask) (f : Fragment) (d : RegNo) (a b c : Src) (x : Option Src) (tr : Option RegNo) (cr : RegNo)
    (z : SizeCode) (g : Guard) (h : QHome) (gen : BitVec 6),
    let key := agKey ag
    let l := lowLane act
    let q := s.src ag a 0 l
    let handle := bits q 25 24
    let goes (r : Right) (kinds : List Nat) : Prop :=
      bits q 31 30 ≠ 3 ∧ s.qBusy (keyDie key) (s.ptagOf key) (qidEntry q) = false ∧
        s.transQ (keyDie key) (s.ptagOf key) q r true kinds = .ok (h, gen)
    s.front? ag = some f → f.fenceInv = false → s.notHeldBack ag f false → s.agRoom ag q = true →
    (s.ready ag act (queSpec g [(a, 1), (b, 1)] [(d, 2)] false [0, 1]) = true →
      let n := bits (s.src ag b 0 l) 15 0
      (n = 0 → bits q 31 30 ≠ 3 → exec (.qres d a b g) s = .next (s.quietly ag act d fun _ => [0#32, 0#32])) ∧
      (0 < n → bits q 31 30 ≠ 3 → 4 ≤ s.resvBusy key → exec (.qres d a b g) s = .next (s.quietly ag act d fun _ => [0x30000000#32, 0#32])) ∧
      (0 < n → s.resvBusy key < 4 → goes .produce [0] →
        ∃ t, exec (.qres d a b g) s = .next t ∧ s.asked t ag q h gen (.reserve n) act d .answer [])) ∧
    (s.ready ag act (queSpec g [(a, 1)] [(d, 1)] false) = true →
      ∀ r, s.resvOf ag handle = some r → s.resvHeld ag handle = false → s.agRoom ag r.qid = true →
        ∃ t, exec (.qcan d a g) s = .next t ∧ s.asked t ag r.qid r.home r.gen (.cancel r.next r.rem) act d .answer []) ∧
    (s.ready ag act (queSpec g [(a, 1)] [(d, 4)] true) = true → goes .either [0, 1] →
      ∃ t, exec (.qstatQ d a g) s = .next t ∧ s.asked t ag q h gen .stat act d .answer []) ∧
    (s.ready ag act (queSpec g [(a, 1)] [(d, 2)] true) = true →
      exec (.qstatR d a g) s = .next (s.quietly ag act d fun _ =>
        match s.resvOf ag handle with
        | some r => [0x80000000#32 ||| BitVec.ofNat 32 r.rem, r.next]
        | none => [0#32, 0#32])) ∧
    (s.earlier ag f = [] →
      (∀ r, s.resvOf ag handle = some r → s.resvHeld ag handle = false → s.agRoom ag r.qid = true →
        (s.ready ag act { queSpec g [(a, 1), (b, SizeCode.bytes z / 4), (c, 1)] [(d, 1)] false with
                          late := !s.elemBase b.r z } = true → popMask act ≤ r.rem →
          ∃ t, exec (.qput d a b c z false g) s = .next t ∧
            s.asked t ag r.qid r.home r.gen (.put (Machine.SizeCode.code z) r.next (s.laneElems ag act b c z)) act d .answer []) ∧
        (∀ tm, s.team? (keyDie key) (keySlot key) = some tm → tm.localPoison = [] → tm.localUe = [] →
          s.ready ag act (queSpec g [(a, 1), (b, 2), (c, 1)] [(d, 1)] false (putLone true)) = true →
          let adr := (s.src ag b 0 l).toNat
          let n := bits (s.src ag b 1 l) 15 0
          0 < n → n ≤ r.rem → adr % 16 = 0 → adr + n * SizeCode.bytes z ≤ s.localLimit ag →
          s.rangeBusy (keyDie key) (keySlot key) adr (n * SizeCode.bytes z) = false →
          ∃ t, exec (.qput d a b c z true g) s = .next t ∧
            s.asked t ag r.qid r.home r.gen
              (.put (Machine.SizeCode.code z) r.next (tm.runElems adr (SizeCode.bytes z) n ((s.src ag c 0 l).setWidth 16))) act d .answer [])) ∧
      (goes .produce [0] →
        (s.ready ag act { queSpec g [(a, 1), (b, SizeCode.bytes z / 4), (c, 1)] [(d, 1)] true with
                          late := !s.elemBase b.r z } = true →
          ∃ t, exec (.qrp d a b c z false g) s = .next t ∧
            s.asked t ag q h gen (.qrp (some (Machine.SizeCode.code z)) (s.laneElems ag act b c z)) act d .answer []) ∧
        (∀ tm, s.team? (keyDie key) (keySlot key) = some tm → tm.localPoison = [] → tm.localUe = [] →
          s.ready ag act (queSpec g [(a, 1), (b, 2), (c, 1)] [(d, 1)] true (putLone true)) = true →
          let adr := (s.src ag b 0 l).toNat
          let n := bits (s.src ag b 1 l) 15 0
          0 < n → adr % 16 = 0 → adr + n * SizeCode.bytes z ≤ s.localLimit ag →
          s.rangeBusy (keyDie key) (keySlot key) adr (n * SizeCode.bytes z) = false →
          ∃ t, exec (.qrp d a b c z true g) s = .next t ∧
            s.asked t ag q h gen
              (.qrp (some (Machine.SizeCode.code z)) (tm.runElems adr (SizeCode.bytes z) n ((s.src ag c 0 l).setWidth 16))) act d .answer [])) ∧
      (goes .produce [1] → (s.nextSeq ag q).1.agRoom ag q = true →
        s.ready ag act (queSpec g [(a, 1), (b, 1), (c, 1)] [(d, 1)] true [0, 1]) = true →
        ∃ t e, exec (.rput d a b c g) s = .next t ∧ s.asked t ag q h gen (.qrp none [e]) act d .answer [] ∧
          fieldAt e.data 8 8 = act.toNat ∧ fieldAt e.data 7 1 = (s.src ag b 0 l).toNat % 256 ∧
          fieldAt e.data 6 1 / 4 = bits (s.src ag b 0 l) 13 8 ∧ e.data.length = 272 ∧
          ∀ i, i < popMask act → fieldAt e.data (16 + 4 * i) 4 = (s.src ag c 0 ((lanesOf act)[i]?.getD 0)).toNat)) ∧
    (goes .consume [0, 1] →
      let regs (n : Nat) (r : Option RegNo) : List Nat := (List.range n).map (d.toNat + ·) ++ (r.map (·.toNat)).toList
      let n := SizeCode.bytes z / 4
      let srcs := (a, 1) :: (x.map fun y => (y, 1)).toList
      (s.ready ag act { queSpec g srcs ((d, n) :: (tr.map fun y => (y, 1)).toList) false with
                        late := !s.elemBase d z || !((tr.map fun y => receiptOk y d n).getD true) } = true →
        ∃ t, exec (.qget d a x tr z g) s = .next t ∧
          s.asked t ag q h gen (.get (Machine.SizeCode.code z) (popMask act) false) act d .get (regs n tr)) ∧
      (s.ready ag act { queSpec g srcs [(d, n), (cr, 1)] true with late := !s.elemBase d z || !receiptOk cr d n } = true →
        ∃ t, exec (.qtry d a x cr z g) s = .next t ∧
          s.asked t ag q h gen (.get (Machine.SizeCode.code z) (popMask act) true) act d .answer (regs n (some cr)))) ∧
    (bits q 31 30 = 3 →
      let n := SizeCode.bytes z / 4
      (s.ready ag act (queSpec g [(a, 1), (b, 1)] [(d, 2)] false [0, 1]) = true → exec (.qres d a b g) s = .next (s.illop ag act)) ∧
      (s.ready ag act (queSpec g [(a, 1)] [(d, 4)] true) = true → exec (.qstatQ d a g) s = .next (s.illop ag act)) ∧
      (s.ready ag act { queSpec g [(a, 1), (b, n), (c, 1)] [(d, 1)] true with late := !s.elemBase b.r z } = true →
        exec (.qrp d a b c z false g) s = .next (s.illop ag act)) ∧
      (s.ready ag act (queSpec g [(a, 1), (b, 2), (c, 1)] [(d, 1)] true (putLone true)) = true →
        exec (.qrp d a b c z true g) s = .next (s.illop ag act)) ∧
      (s.ready ag act (queSpec g [(a, 1), (b, 1), (c, 1)] [(d, 1)] true [0, 1]) = true →
        exec (.rput d a b c g) s = .next (s.illop ag act)) ∧
      (s.ready ag act { queSpec g [(a, 1)] [(d, n)] false with late := !s.elemBase d z } = true →
        exec (.qget d a none none z g) s = .next (s.illop ag act)) ∧
      (s.ready ag act { queSpec g [(a, 1)] [(d, n), (cr, 1)] true with late := !s.elemBase d z || !receiptOk cr d n } = true →
        exec (.qtry d a none cr z g) s = .next (s.illop ag act)))

/-- R253, R283: GNAME reads the group's qid, or binds the group to the free cask of lowest table entry. R254, R284: GFREE of a
named group releases the name: the cask's generation advances, it is empty and free, and armed registers are disarmed. R68, R286:
AWAIT arms its lanes of D, which is then EMPTY. That GNAME and GFREE act in one step is the model's choice (log 16), and so is the lane
that gives AWAIT its mask (log 57). -/
def Obligations.NamesAndAwait : Prop :=
  ∀ (s : State) (n m k e : Nat) (act : Mask) (gr : Group) (f : Fragment) (d : RegNo) (af : AwaitForm) (g : Guard),
    let ag : Agent := .frag n m k e
    let key := agKey ag
    s.group? key = some gr → aget gr.frags e = some f → f.fenceInv = false → s.notHeldBack ag f false →
    n < 128 → m < 2048 → k < 16 →
    (s.ready ag act (queSpec g [] [(d, 1)] false) = true →
      (∀ q qk, gr.name = some (q, qk) → exec (.gname d g) s = .next (s.quietly ag act d fun _ => [q])) ∧
      (gr.name = none → s.findCask n (s.ptagOf key) = none →
        ∃ u, s.errorsMet u ∧ exec (.gname d g) s = .next (u.quietly ag act d fun _ => [0#32])) ∧
      (∀ x qk qu, gr.name = none → s.findCask n (s.ptagOf key) = some (x, qk) → aget s.queues qk = some qu →
        let q : BitVec 32 := 1#2 ++ qu.gen ++ BitVec.ofNat 24 x
        ∃ t gt, exec (.gname d g) s = .next t ∧ t.group? key = some gt ∧ gt.name = some (q, qk) ∧
          t.queues = aput s.queues qk { qu with bound := some (key, q) } ∧
          (∀ l, act.getLsbD l = true → gt.rd d.toNat l = q) ∧ s.wentOn t ag ∧ t.mem = s.mem ∧ t.l2 = s.l2)) ∧
    (s.ready ag act (queSpec g [] [] false) = true →
      (gr.name = none → exec (.gfree g) s = .next (s.advance ag)) ∧
      (∀ q qk qu, gr.name = some (q, qk) → aget s.queues qk = some qu → (gr.tags.map (·.1)).Nodup →
        ∃ t gt w, exec (.gfree g) s = .next t ∧ t.group? key = some gt ∧ gt.name = none ∧
          aget t.queues qk = some { qu with gen := qu.gen + 1#6, head := w, tail := w, pos := [], waiters := [], bound := none } ∧
          (∀ r, (gt.tag r).arm = 0#64 ∧ (gt.tag r).filled = 0#64 ∧ ((gr.tag r).arm ≠ 0#64 → (gt.tag r).empty = false) ∧
            ((gr.tag r).arm = 0#64 → (gt.tag r).empty = (gr.tag r).empty)) ∧
          (∀ r l, gt.rd r l = gr.rd r l) ∧ s.wentOn t ag ∧ t.mem = s.mem ∧ t.l2 = s.l2)) ∧
    (∀ mask, (s.ready ag act { queSpec g (awaitSrcs af) [(d, 1)] false with
          late := decide (recNv (s.recOf key) ≤ d.toNat) || gr.name.isNone } = true) →
      mask = fullMask (s.width ag) &&& (match af with
        | .one a => (s.src ag a 0 (lowLane act)).setWidth 64
        | .pair a => s.src ag a 1 (lowLane act) ++ s.src ag a 0 (lowLane act)
        | .all => fullMask (s.width ag)) →
      ∃ t, exec (.await d af g) s = .next t ∧ s.wentOn t ag ∧ s.keepsValues t ag ∧
        (∀ r, r < 640 → t.rdTag ag r =
          if r = d.toNat ∧ mask ≠ 0#64 then { s.rdTag ag r with empty := true, arm := mask, filled := 0#64 } else s.rdTag ag r) ∧
        { t with groups := s.groups } = s)

/-- R231, R239, R240, R242: at its home port a reservation is granted as many positions as are free, from TAIL on, or answered FULL;
a put with its own reservation is granted whole or FULL, and its data follows; a failed check is the answer. R243, R244: data
fills the positions it names, and voids at HEAD are passed. R240, R290: the bytes of an element that is placed in the cellar go to
the cellar's memory, and the lowest element on its way from the cellar comes to be present with the bytes read there. -/
def Obligations.HomePortGrantsAndFills : Prop :=
  (∀ (s : State) (id k0 uid : Nat) (ag : Agent) (m : Msg),
    aget s.msgs id = some m → s.canServe id m = true → m.dead = false → m.sender = .group k0 uid ag →
    let served (t : State) (a : Answer) : Prop :=
      t.answers = aput s.answers id a ∧ sget 0#32 t.expects m.stream = m.seq + 1#32 ∧ t.groups = s.groups ∧
      t.mem = s.mem ∧ t.l2 = s.l2
    (∀ n a, m.ask = .reserve n → s.homeCheck m.home m.ptag m.gen false = .error a →
      ∃ t, exec (.reservationRequest id) s = .next t ∧ served t a ∧ t.queues = s.queues) ∧
    (∀ k q, s.homeCheck m.home m.ptag m.gen false = .ok (k, q) →
      (∀ n, m.ask = .reserve n → q.free = 0 ∨ n = 0 →
        ∃ t, exec (.reservationRequest id) s = .next t ∧ served t .full ∧ t.queues = s.queues) ∧
      (∀ n, m.ask = .reserve n → 0 < min n q.free →
        ∃ t x, exec (.reservationRequest id) s = .next t ∧ served t (.granted q.tail (min n q.free)) ∧
          t.queues = aput s.queues k x ∧ x.head = q.head ∧ x.tail = q.tail + BitVec.ofNat 32 (min n q.free) ∧
          x.pos.length = q.pos.length + min n q.free ∧ (∀ i, i < q.pos.length → x.pos[i]? = q.pos[i]?) ∧
          ∀ p ∈ x.pos.drop q.pos.length, p.elem = none) ∧
      (∀ z es, m.ask = .qrp (some z) es →
        (z ≠ q.size → ∃ t, exec (.reservationRequest id) s = .next t ∧ served t (.refuse 6)) ∧
        (z = q.size → q.free < es.length → ∃ t, exec (.reservationRequest id) s = .next t ∧ served t .full) ∧
        (z = q.size → es.length ≤ q.free → ∃ t x d, exec (.reservationRequest id) s = .next t ∧ served t (.ok es.length) ∧
          t.queues = aput s.queues k x ∧ x.tail = q.tail + BitVec.ofNat 32 es.length ∧
          t.msgs = aput s.msgs s.fresh d ∧ d.ask = .fill q.tail (es.map q.padded))) ∧
      (∀ z at_ es, m.ask = .put z at_ es → z = q.size → q.plain → (∀ e ∈ es, e.void = false) →
        (at_ - q.head).toNat + es.length ≤ q.pos.length →
        ∃ t x, exec (.putDataArrival id) s = .next t ∧ served t (.ok es.length) ∧ t.queues = aput s.queues k x ∧
          x.head = q.head ∧ x.tail = q.tail ∧ x.pos.length = q.pos.length ∧
          ∀ (j : Nat) (p : QPos), q.pos[j]? = some p → x.pos[j]? = some { p with elem :=
            if (at_ - q.head).toNat ≤ j ∧ j < (at_ - q.head).toNat + es.length then es[j - (at_ - q.head).toNat]? else p.elem }) ∧
      (∀ at_ n, m.ask = .cancel at_ n → q.plain → at_ = q.head → n = q.pos.length →
        ∃ t x, exec (.putDataArrival id) s = .next t ∧ served t (.ok n) ∧ t.queues = aput s.queues k x ∧
          x.head = q.head + BitVec.ofNat 32 n ∧ x.tail = q.tail ∧ x.pos = []))) ∧
  ∀ (s : State) (d p n i : Nat) (q : Queue) (x : QPos) (e : Elem),
    let k := queueKey d p n
    d < 128 → p < 4 → n < 4096 → aget s.queues k = some q → e.void = false → s.poison = [] → s.ue = [] →
    (∀ (at_ : BitVec 32) (base : Nat),
      s.cellarPlan k q at_ e.data.length = some (spanCuts base e.data.length e.data.length) → base + e.data.length ≤ 2 ^ 36 →
      i = (at_ - q.head).toNat → q.pos[i]? = some x → x.inWin = false →
      let t := s.fillQueue k q at_ [e]
      (∀ j b, e.data[j]? = some b → t.stackByte d (base + j) = b) ∧ s.stackFrame t d base e.data.length ∧ t.groups = s.groups ∧
        aget t.queues k = some { q with pos := q.pos.set i { x with elem := some e } }) ∧
    ∀ l, q.waiters = [] → q.pos[i]? = some x → x.moving = true → x.elem = some e →
      (∀ j y, j < i → q.pos[j]? = some y → y.moving = false) → (∀ y ∈ q.pos, y.isVoid = false ∧ y.inWin = true) → s.portBusy k = false →
      s.xlateBusy d q.owner (q.cellarAt (q.head + BitVec.ofNat 32 i)) = false →
      s.cellarPlan k q (q.head + BitVec.ofNat 32 i) e.data.length = some l → s.bulkBusy d l = false →
      ∃ t, exec (.cellarMoveComplete d p n) s = .next t ∧
        aget t.queues k = some { q with pos := q.pos.set i { x with
          moving := false, elem := some { e with data := l.flatMap fun y => bytesOf y.2 (s.stackRead d y.1 y.2) } } } ∧
        t.groups = s.groups ∧ t.mem = s.mem ∧ t.l2 = s.l2

/-- R245, R278, R280: a get whose elements stand at HEAD takes them, one for each active lane in ascending order; they are written to the
lane's destination registers, which are FULL, with the receipt where one is asked; the fragment goes on. While the way back is down, or a
register of them is under test, they wait (R377, R383). R246: where they do not stand there, or others wait, the get is linked as the last
waiter and its fragment sleeps. R247: a get that found no waiter record asks again after 1,024 clocks. R246, R277, R278: a try takes what
stands there, where nobody waits, and is never linked; a lane that is not served keeps its registers, and its receipt is 0. R279: a served
lane whose tag differs from the expected one raises TAGMISMATCH once all is written. R231, R278: a failed check is the answer. R281:
QSTAT.q answers the four words. -/
def Obligations.GetsAreServed : Prop :=
  ∀ (s : State) (id k0 uid n m k e kq : Nat) (gr : Group) (f : Fragment) (msg : Msg) (p : Pend) (q : Queue) (z : BitVec 3) (cnt : Nat),
    let ag : Agent := .frag n m k e
    let key := agKey ag
    let lanes := lanesOf p.act
    let here := msg.accepted = false ∧ s.canServe id msg = true
    let again := msg.accepted = true ∧ s.canServe id msg = true
    let stands (t : State) : Prop := ∃ x, t.front? ag = some x ∧
      (x.clause, x.idx, x.hdr, x.wait) = (f.advance.clause, f.advance.idx, f.advance.hdr, f.advance.wait)
    let differ (w : List (Nat × BitVec 16)) (es : List Elem) : List (Nat × Elem) :=
      (lanes.zip es).filter fun x => match aget w x.1 with
        | some t => t != x.2.tag
        | none => false
    let took (i : Instr) (es : List Elem) (rest : List QPos) : Prop :=
      (p.want = none ∨ (∃ w, p.want = some w ∧ differ w es = []) →
        ∃ t gt, exec i s = .next t ∧ t.group? key = some gt ∧ gr.received gt p es ∧ stands t ∧ t.mem = s.mem ∧ t.l2 = s.l2 ∧
          aget t.queues kq = some (q.taken s.clock rest)) ∧
      ∀ w x0 more t0, p.want = some w → differ w es = x0 :: more → aget w x0.1 = some t0 →
        let miss : FaultRec := { code := 11, detail := (t0 ++ x0.2.tag : BitVec 32), pc := p.pc, lanes := maskOf ((differ w es).map (·.1)) }
        ∃ (u : State) (gu : Group) (y : Fragment), exec i s = .next ((u.raise ag miss).wake key) ∧
          u.group? key = some gu ∧ gr.received gu p es ∧ aget u.queues kq = some (q.taken s.clock rest) ∧
          aget gu.frags e = some y ∧ (y.clause, y.idx, y.hdr, y.wait) = (f.clause, f.idx, f.hdr, Wait.run)
    let linked (i : Instr) : Prop := ∃ t, exec i s = .next t ∧
      aget t.queues kq = some { q with waiters := q.waiters ++ [id] } ∧
      aget t.msgs id = some { msg with linked := true, accepted := true } ∧ t.groups = s.groups ∧ t.mem = s.mem ∧ t.l2 = s.l2
    n < 128 → m < 2048 → k < 16 → s.group? key = some gr → aget gr.frags e = some f → aget s.msgs id = some msg →
    msg.sender = .group k0 uid ag → msg.dead = false →
    (∀ a, s.homeCheck msg.home msg.ptag msg.gen true = .error a → here → msg.ask = .get z cnt false ∨ msg.ask = .get z cnt true ∨ msg.ask = .stat →
      ∃ t, exec (.getRequest id) s = .next t ∧ t.answers = aput s.answers id a ∧ t.queues = s.queues ∧ t.groups = s.groups) ∧
    (s.homeCheck msg.home msg.ptag msg.gen true = .ok (kq, q) →
      (∀ c, here → msg.ask = .get z cnt false ∨ msg.ask = .get z cnt true →
        (c = 7 ∧ q.landing.isSome = true) ∨ (c = 6 ∧ q.landing = none ∧ (q.window < cnt ∨ (z ≠ q.size ∧ z ≠ 7#3))) →
        ∃ t, exec (.getRequest id) s = .next t ∧ t.answers = aput s.answers id (.refuse c) ∧ t.queues = s.queues ∧ t.groups = s.groups) ∧
      (aget s.pends id = some p → p.ag = ag → p.key = key → q.landing = none → z = q.size → cnt ≤ q.window → cnt = popMask p.act → 0 < cnt →
        p.takesV → (∀ x ∈ q.pos, ∀ y, x.elem = some y → y.data.length = 4 * p.n) →
        (msg.ask = .get z cnt false →
          (∀ (es : List Elem) (rest : List QPos), q.waiters = [] → takeFrom q.pos cnt = some (es, rest) →
            (s.backUp msg = true → s.pendBusy id = false →
              (here → took (.getRequest id) es rest) ∧ (again → took (.waiterResend id) es rest)) ∧
            (s.backUp msg = false ∨ s.pendBusy id = true → here → ∃ t, exec (.getRequest id) s = .next t ∧ t.answers = aput s.answers id (.served es) ∧
              aget t.queues kq = some (q.taken s.clock rest) ∧ t.groups = s.groups ∧ t.mem = s.mem ∧ t.l2 = s.l2)) ∧
          (q.waiters ≠ [] ∨ takeFrom q.pos cnt = none → s.preemptAsked k0 = false →
            (s.portWaiters (kq / 4096) < 2048 → (here → linked (.getRequest id)) ∧ (again → linked (.waiterResend id))) ∧
            (2048 ≤ s.portWaiters (kq / 4096) →
              let asleep (i : Instr) : Prop := ∃ t, exec i s = .next t ∧ t.queues = s.queues ∧ t.groups = s.groups ∧
                aget t.msgs id = some { msg with accepted := true, lastTry := s.clock, arrived := none }
              (here → asleep (.getRequest id)) ∧ (again → asleep (.waiterResend id))))) ∧
        (msg.ask = .get z cnt true → here → s.backUp msg = true → s.pendBusy id = false →
          ∀ (es : List Elem) (rest : List QPos),
            (es, rest) = (if q.waiters = [] then takeUpTo q.pos cnt else ([], q.pos)) → took (.getRequest id) es rest)) ∧
      -- R247: 1,024 clocks after it, a get that found no waiter record comes again
      (msg.accepted = true → msg.linked = false → msg.out = false → msg.arrived = none → aget s.answers id = none → s.pathUp msg = true →
        msg.lastTry + 1024 ≤ s.clock →
        aget (s.arrive id).msgs id = some { msg with arrived := some s.clock } ∧ { s.arrive id with msgs := s.msgs } = s) ∧
      (msg.ask = .stat → here →
        ∃ t ws, exec (.getRequest id) s = .next t ∧ t.answers = aput s.answers id (.stat ws) ∧ t.queues = s.queues ∧
          ws = [BitVec.ofNat 32 q.pos.length, BitVec.ofNat 32 q.free,
                BitVec.ofNat 32 ((if q.landing.isSome then 2 ^ 31 else 0) + q.gen.toNat * 2 ^ 24 +
                  (if q.kind = 1 then 7 else q.size.toNat) * 2 ^ 16 + min q.waiters.length 65535), q.head]))

/-- R266, R271, R273, R275, R276, R281: the answer to a waiting queue instruction, once its destination is free and the way back is
up, is written as its result word to the active lanes (of QRES a pair, of QSTAT.q four words), its reservation record follows, and the
fragment goes on; STALE closes the record of QPUT and QCAN. R277, R278: elements that waited on their way reach a get's or try's registers.
R233, R267: a refusal raises QFAULT at the instruction.
R232: an instruction whose home port has not answered within 2^24 clocks raises QFAULT TIMEOUT.
R39, R299, R397: a port's own put that is refused, stale or finds its queue full is not lost: a fault element stays in the
process's overflow list. One that is accepted from the list leaves it, and the oldest that stays there is put again; R241: a put
whose stream has 65,536 requests without answer waits. That an answer to an instruction of a parked group is written while it is parked is
the model's choice (log 16). -/
def Obligations.AnswersComplete : Prop :=
  (∀ (s : State) (id k0 uid n m k e : Nat) (gr : Group) (f : Fragment) (msg : Msg) (p : Pend),
    let ag : Agent := .frag n m k e
    let key := agKey ag
    let gone : State := { s with answers := adel s.answers id, msgs := adel s.msgs id, pends := adel s.pends id }
    let fault (q : BitVec 32) (cause : Nat) : FaultRec := { code := 35, cause := cause, detail := q, lanes := p.act, pc := p.pc }
    let ready (t : State) : State := t.modFront ag fun f => { f with wait := .run, stall := .none }
    n < 128 → m < 2048 → k < 16 → s.group? key = some gr → aget gr.frags e = some f → gr.ended = false → gr.recruit = none →
    aget s.msgs id = some msg → msg.sender = .group k0 uid ag → aget s.pends id = some p → p.ag = ag → p.key = key →
    -- an answer `a` writes the words `ws` and leaves the records `rs`
    (let done (a : Answer) (ws : List Word) (rs : List (Nat × Resv)) : Prop :=
       aget s.answers id = some a → s.backUp msg = true → p.act ≠ 0#64 → s.answerFree p ws.length = true →
       p.d.toNat + ws.length ≤ 256 ∨ 256 ≤ p.d.toNat ∧ p.d.toNat + ws.length ≤ 640 →
       ∃ t gt y, exec (.queueAnswer id) s = .next t ∧ t.group? key = some gt ∧ gt.resv = rs ∧
         (∀ (i l : Nat) (w : Word), ws[i]? = some w → p.act.getLsbD l = true → gt.rd (p.d.toNat + i) l = w) ∧ aget gt.frags e = some y ∧
         (y.clause, y.idx, y.hdr, y.wait) = (f.advance.clause, f.advance.idx, f.advance.hdr, f.advance.wait) ∧
         aget t.pends id = none ∧ aget t.msgs id = none ∧ t.mem = s.mem ∧ t.l2 = s.l2
     let word (status handle count : Nat) : Word := BitVec.ofNat 32 (status * 2 ^ 28 + handle * 2 ^ 24 + count)
     (p.form = 0 →
       (∀ (pos : BitVec 32) (c h : Nat), h < 4 → (∀ i, i < h → (aget gr.resv i).isSome = true) → aget gr.resv h = none → c < 65536 →
         done (.granted pos c) [word 0 h c, pos] (aput gr.resv h { qid := msg.qid, home := msg.home, gen := msg.gen, next := pos, rem := c })) ∧
       done .full [word 1 0 0, 0#32] gr.resv ∧ done .stale [word 2 0 0, 0#32] gr.resv) ∧
     (p.form = 2 ∨ p.form = 5 →
       (∀ c, c < 65536 → done (.ok c) [word 0 0 c] gr.resv) ∧ done .full [word 1 0 0] gr.resv ∧ done .stale [word 2 0 0] gr.resv) ∧
     (∀ (c : Nat) (r : Resv), p.form = 1 → aget gr.resv p.handle = some r → p.handle < 4 → c < 65536 →
       (c < r.rem → done (.ok c) [word 0 p.handle c]
         (aput gr.resv p.handle { r with next := r.next + BitVec.ofNat 32 c, rem := r.rem - c })) ∧
       (r.rem ≤ c → done (.ok c) [word 0 p.handle c] (adel gr.resv p.handle)) ∧
       done .stale [word 2 p.handle 0] (adel gr.resv p.handle)) ∧
     (∀ c, p.form = 3 → p.handle < 4 → c < 65536 →
       done (.ok c) [word 0 p.handle c] (adel gr.resv p.handle) ∧ done .stale [word 2 p.handle 0] (adel gr.resv p.handle)) ∧
     (∀ ws, p.form = 4 → done (.stat ws) ws gr.resv)) ∧
    (∀ es, p.form = 6 ∨ p.form = 7 → aget s.answers id = some (.served es) → s.backUp msg = true → s.pendBusy id = false → p.want = none → p.takesV →
      (∀ x ∈ es, x.data.length = 4 * p.n) →
      ∃ t gt y, exec (.queueAnswer id) s = .next t ∧ t.group? key = some gt ∧ gr.received gt p es ∧ aget gt.frags e = some y ∧
        (y.clause, y.idx, y.hdr, y.wait) = (f.advance.clause, f.advance.idx, f.advance.hdr, f.advance.wait) ∧
        aget t.pends id = none ∧ aget t.msgs id = none ∧ t.queues = s.queues ∧ t.mem = s.mem ∧ t.l2 = s.l2) ∧
    (∀ a, aget s.answers id = some a → s.backUp msg = false → exec (.queueAnswer id) s = .next s) ∧
    (p.form < 6 →
      (∀ c, aget s.answers id = some (.refuse c) → s.backUp msg = true →
        exec (.queueAnswer id) s = .next (((ready gone).raise ag (fault msg.qid c)).wake key)) ∧
      (msg.dead = false → msg.accepted = false → msg.out = false → msg.ask.isFill = false → aget s.answers id = none →
        msg.sent + 2 ^ 24 ≤ s.clock →
        exec (.queueTimeout id) s = .next (((ready { s with msgs := aput s.msgs id { msg with dead := true, carry := none }
                                                            pends := adel s.pends id }).raise ag (fault msg.qid 8)).wake key)))) ∧
  (∀ (s : State) (id d pt : Nat) (msg : Msg) (a : Answer) (ptag : BitVec 12) (x : List Byte),
    aget s.msgs id = some msg → aget s.answers id = some a → msg.sender = .port d pt → s.backUp msg = true → (s.die d).putWait = [] →
    (msg.carry = some (.fault ptag x) → a = .full ∨ a = .stale ∨ (∃ c, a = .refuse c) →
      (agetD (s.die d).overflow ptag.toNat []).length < 256 →
      ∃ t, exec (.portPutAnswer id) s = .next t ∧
        agetD (t.die d).overflow ptag.toNat [] = agetD (s.die d).overflow ptag.toNat [] ++ [x] ∧ aget t.msgs id = none ∧
        aget t.answers id = none ∧ t.groups = s.groups ∧ t.mem = s.mem ∧ t.l2 = s.l2) ∧
    (∀ n l, msg.carry = some (.overflow ptag) → a = .ok n → agetD (s.die d).overflow ptag.toNat [] = x :: l →
      ∃ t, exec (.portPutAnswer id) s = .next t ∧ agetD (t.die d).overflow ptag.toNat [] = l ∧ t.groups = s.groups ∧ t.mem = s.mem)) ∧
  ∀ (s : State) (d : Nat) (ptag : BitVec 12) (x : List Byte), (s.die d).putWait = [] →
    (∀ l h g, agetD (s.die d).overflow ptag.toNat [] = x :: l → s.transQ d ptag 0#32 .none false [0] = .ok (h, g) →
      (∀ i y, (i, y) ∈ s.msgs → y.carry = none) → s.streamRoom (.port d 0) ptag 0#32 = true →
      ∃ t y, exec (.faultOverflowPut d ptag.toNat) s = .next t ∧ t.msgs = aput s.msgs s.fresh y ∧
        (y.sender, y.qid, y.home, y.gen, y.ptag, y.ask, y.carry) =
          (Sender.port d 0, 0#32, h, g, ptag, Ask.qrp none [{ data := x, tag := 0#16 }], some (.overflow ptag)) ∧
        t.groups = s.groups ∧ t.queues = s.queues ∧ t.mem = s.mem) ∧
    ∀ w : WaitPut, s.streamRoom (.port d w.port) w.ptag w.qid = false →
      (s.portSend d w).msgs = s.msgs ∧ ((s.portSend d w).die d).putWait = [w]

/-- R249, R250: the element at HEAD of a queue with an active landing binding, with room in every ring, is written to each ring's slot, and
DELIVERED of each ring is raised; HEAD moves past it. R257, R258: a cask element whose lanes are all armed and not filled is written to
the lanes it names, and the register is FULL once every armed lane is filled; one with a lane that is not stays. R259: an element that
names what the group has not is removed and counted as discarded, while the team is saved too; no other lands then. An element of a producer one of whose earlier elements has not
arrived stays too. -/
def Obligations.DeliveriesLand : Prop :=
  ∀ (s : State) (d p n : Nat) (q : Queue),
    let k := queueKey d p n
    aget s.queues k = some q → q.waiters = [] → s.portBusy k = false →
    (∀ (l : Landing) (tn : Nat) (tm : Team) (x : Share) (e : Elem) (rest : List QPos),
      let rings := l.ring0 :: l.ring1.toList
      q.landing = some l → l.active = some tn → l.stopped = false → s.team? d tn = some tm → tm.saved = none → tm.localPoison = [] →
      tm.localUe = [] → s.shareByTag d q.owner l.tag = some (tm.share, x) → q.ringsOk l (recL tm.recd) = true → q.kind ≠ 1 →
      q.pos = { elem := some e, inWin := true } :: rest → e.void = false → e.data.length = q.elemSize →
      (∀ y ∈ rest, y.isVoid = false ∧ y.inWin = true) →
      (∀ a ∈ rings, (l.delivered + 2 ^ 32 - tm.localRead (a + 0x20) 4) % 2 ^ 32 < l.slots) →
      (∀ a ∈ rings, s.rangeBusy d tn a 64 = false ∧
        s.rangeBusy d tn (a + 0x40 + q.elemSize * (l.delivered % l.slots)) q.elemSize = false) →
      ∃ t tt, exec (.ringDelivery d p n) s = .next t ∧ t.team? d tn = some tt ∧
        (∀ a ∈ rings, tt.localRead a 4 = (l.delivered + 1) % 2 ^ 32 ∧
          ∀ j, j < q.elemSize → tt.localByte (a + 0x40 + q.elemSize * (l.delivered % l.slots) + j) = e.data[j]?.getD 0#8) ∧
        (∀ a, (∀ b ∈ rings, a < b ∨ b + q.ringBytes l ≤ a) → tt.localByte a = tm.localByte a) ∧
        aget t.queues k = some { q with head := q.head + 1#32, pos := rest, freed := (q.taken s.clock rest).freed,
                                        landing := some { l with delivered := l.delivered + 1 } } ∧
        t.groups = s.groups ∧ t.mem = s.mem ∧ t.l2 = s.l2) ∧
    ∀ (gk : Nat) (qid : BitVec 32) (tm : Team) (g : Group) (e : Elem),
      let r := e.target.1
      let dest := e.target.2.2.map (· + e.target.2.1)
      let passed (t : State) : Prop := aget t.queues k = some { q with head := q.head + 1#32, pos := [], freed := (q.taken s.clock []).freed }
      (q.bound = some (gk, qid) → s.teamOf? gk = some tm → s.group? gk = some g →
      q.pos = [{ elem := some e, inWin := true }] → e.void = false →
      (e.putOk (s.recOf gk) = false → ∃ t, exec (.registerPutLanding d p n) s = .next t ∧ passed t ∧ t.groups = s.groups ∧
        (sget 0#32 (t.die d).discards q.owner.toNat).toNat = min ((sget 0#32 (s.die d).discards q.owner.toNat).toNat + 1) (2 ^ 32 - 1)) ∧
      (e.putOk (s.recOf gk) = true →
        tm.saved.isSome = true ∨ (∃ l ∈ dest, (g.tag r).arm.getLsbD l = false ∨ (g.tag r).filled.getLsbD l = true) →
        ∃ t, exec (.registerPutLanding d p n) s = .next t ∧ aget t.queues k = some q ∧ t.groups = s.groups) ∧
      (e.putOk (s.recOf gk) = true → tm.saved = none → (∀ l ∈ dest, (g.tag r).arm.getLsbD l = true ∧ (g.tag r).filled.getLsbD l = false) →
        s.regBusy (.frag (keyDie gk) (keySlot gk) (keyG gk) 0) r = false →
        ∃ t gt, exec (.registerPutLanding d p n) s = .next t ∧ passed t ∧ t.group? gk = some gt ∧
          (∀ i l : Nat, dest[i]? = some l → gt.rd r l = BitVec.ofNat 32 (fieldAt e.data (16 + 4 * i) 4)) ∧
          (∀ r' l, r' ≠ r ∨ l ∉ dest → l < 64 → gt.rd r' l = g.rd r' l) ∧
          (let filled := (g.tag r).filled ||| maskOf dest
            if filled = (g.tag r).arm then (gt.tag r).empty = false ∧ (gt.tag r).arm = 0#64
            else (gt.tag r).empty = (g.tag r).empty ∧ (gt.tag r).arm = (g.tag r).arm ∧ (gt.tag r).filled = filled))) ∧
      ∀ i, q.bound = some (gk, qid) → s.teamOf? gk = some tm → tm.saved = none → s.group? gk = some g → e.void = false → e.prodId = i →
        q.pos = [{ elem := none, inWin := true, prodId := i }, { elem := some e, inWin := true, prodId := i }] →
        ∃ t, exec (.registerPutLanding d p n) s = .next t ∧ aget t.queues k = some q ∧ t.groups = s.groups

/-- R235, R261: what is for another panel leaves over the link the route table names, in frames whose counters rise by one, and waits
while that link or the way to it is down; R262: a frame that the partner discards is sent again under a fresh counter. R261, R262: a frame
whose tag verifies and whose counter is higher than any before it is taken, and what it carries goes on or arrives; any other leaves
nothing. R263, R264: the rekey of a direction: at counter 2^48 key-ready goes first, frames go on under the key in force, up to 2^48 + 2^20
without a confirmation, and the first frame after it bears the new epoch and counter 0; its stop, which is reported. R377, R380, R385: the
training of a link, with the frame that each side verifies, its timeout and the loss of the link, each reported. How many frames a message
takes is the model's choice (log 9), and so is that they leave together (log 25). -/
def Obligations.PanelLinks : Prop :=
  ∀ (s : State) (l : Nat) (x : Link),
    aget s.links l = some x →
    (let limit := 2 ^ 48 + 2 ^ 20
     let open_ (n : Nat) := (s.manager l).isSome = true ∧ x.up = true ∧ x.txStopped = false ∧
       (x.confirmed = true ∨ x.txNext.isSome = true ∧ x.txCount + n ≤ limit ∨ x.txCount + n + 1 ≤ limit)
     let shut (n : Nat) := s.manager l = none ∨ x.up = false ∨ x.txStopped = true ∨ (x.confirmed = false ∧
       (limit < x.txCount + n ∨ x.txNext = none ∧ limit < x.txCount + n + 1))
     let frames (ls : List FrameLoad) (e c : Nat) : List (Nat × SentFrame) := ls.zipIdx.map fun p =>
       (l, { epoch := BitVec.ofNat 8 e, counter := BitVec.ofNat 56 (c + p.2), load := p.1 })
     let loads (w : WireMsg) : List FrameLoad := (List.range (wireFrames w)).map (.msg w)
     let sent (t : State) (ls : List FrameLoad) : Prop := ∃ (y : Link) (fs : List (Nat × SentFrame)),
       t.wireOut = s.wireOut ++ fs ∧ t.links = aput s.links l y ∧
       (x.confirmed = false → x.txNext.isSome = true ∨ x.txCount + ls.length ≤ 2 ^ 48 →
         fs = frames ls x.txEpoch x.txCount ∧ y = { x with txCount := x.txCount + ls.length }) ∧
       (x.confirmed = false → x.txNext = none → 2 ^ 48 ≤ x.txCount → ls ≠ [] →
         fs = frames (.keyReady :: ls) x.txEpoch x.txCount ∧
         y = { x with txNext := some (nextKey x.txKey x.txEpoch), txCount := x.txCount + ls.length + 1 }) ∧
       (∀ k, x.confirmed = true → x.txNext = some k → ls ≠ [] → ls.length ≤ 2 ^ 20 → fs = frames ls (x.txEpoch + 1) 0 ∧
         y = { x with txKey := k, txEpoch := x.txEpoch + 1, txCount := ls.length, txNext := none, confirmed := false })
     (∀ (id : Nat) (w : Passing), aget s.transit id = some w → s.linkTo w.msg.dstPanel = some l →
       (open_ (wireFrames w.msg) → (∀ d, w.src = some d → s.wayOut d (routerSite l) = true) →
         ∃ t, exec (.elementForward id) s = .next t ∧ t.transit = adel s.transit id ∧ sent t (loads w.msg) ∧
           { t with transit := s.transit, wireOut := s.wireOut, links := s.links } = s) ∧
       (shut (wireFrames w.msg) ∨ (∃ d, w.src = some d ∧ s.wayOut d (routerSite l) = false) → exec (.elementForward id) s = .next s)) ∧
     (∀ (id : Nat) (m : Msg), aget s.transit id = none → aget s.msgs id = some m → m.out = false → m.home.panel ≠ s.panelNo →
       s.linkTo m.home.panel = some l →
       (open_ (wireFrames (m.wire s)) → m.dead = false → s.connWaits m = false → (∀ d, s.physDie? m.srcDie = some d → s.wayOut d (routerSite l) = true) →
         ∃ t w, exec (.elementForward id) s = .next t ∧ t.msgs = aput s.msgs id { m with out := true } ∧ sent t (loads w) ∧
           { t with msgs := s.msgs, wireOut := s.wireOut, links := s.links } = s ∧
           (w.dstPanel, w.die, w.port, w.slot, w.qid, w.gen, w.ptag) =
             (m.home.panel, m.home.die, m.home.port, m.home.slot, m.qid, m.gen, m.ptag) ∧
           (w.srcPanel, w.uid, w.seq, w.prod) = (s.panelNo, m.stream, m.seq, m.who)) ∧
       (shut (wireFrames (m.wire s)) ∨ (∃ d, s.physDie? m.srcDie = some d ∧ s.wayOut d (routerSite l) = false) → exec (.elementForward id) s = .next s)) ∧
     ∀ (i : Nat) (fr : SentFrame) (rest : List Turn), s.agenda = .replay i :: rest → s.wireOut[i]? = some (l, fr) → open_ 1 →
       ∃ t, step s = .next t ∧ sent t [fr.load]) ∧
    (∀ f : DelupFrame,
      let ok (key : List Byte) : Prop := Config.gcmVerifies key (frameNonce (s.flash.linkKey l 1).const f.counter) f.body f.tag = true
      let high (n : Nat) : Prop := ∀ h, x.rxHigh = some h → h < n
      x.up = true → (s.manager l).isSome = true →
      (f.epoch = BitVec.ofNat 8 x.rxEpoch → ok x.rxKey → high f.counter.toNat →
        let y : Link := { x with rxHigh := some f.counter.toNat }
        (∃ t, exec (.delupFrameReceive l f) s = .next t ∧ aget t.links l = some y) ∧
        (∀ w, f.carried = [w] → w.dstPanel ≠ s.panelNo → ∃ t, exec (.delupFrameReceive l f) s = .next t ∧
          t.transit = aput s.transit s.fresh { src := none, msg := w } ∧ t.links = aput s.links l y ∧ t.msgs = s.msgs ∧
          t.queues = s.queues) ∧
        (∀ w, f.carried = [w] → w.dstPanel = s.panelNo → w.op.toNat < 8 →
          let stream := (s.streamOf (senderKey (.far w.srcPanel w.uid) w.ptag w.qid)).2
          (w.seq - sget 0#32 s.expects stream).toNat < 65536 → (∀ (i : Nat) (m : Msg), (i, m) ∈ s.msgs → m.stream = stream → m.seq ≠ w.seq) →
          ∃ t m, exec (.delupFrameReceive l f) s = .next t ∧ t.msgs = aput s.msgs s.fresh m ∧ t.queues = s.queues ∧
            (m.sender, m.seq, m.qid, m.gen, m.ptag, m.home, m.dead, m.arrived) =
              (Sender.far w.srcPanel w.uid, w.seq, w.qid, w.gen, w.ptag,
              ({ panel := s.panelNo, die := w.die, port := w.port, slot := w.slot } : QHome), false, none)) ∧
        (∃ t z fs, exec (.keyReadyReceive l f) s = .next t ∧ aget t.links l = some z ∧
          z.rxNext = some (nextKey x.rxKey x.rxEpoch) ∧ z.rxHigh = some f.counter.toNat ∧ z.up = true ∧
          t.wireOut = s.wireOut ++ fs ∧ { t with links := s.links, wireOut := s.wireOut } = s ∧
          (s.linkOpen l = false → fs = []) ∧ (s.linkOpen l = true → ∃ fr, fs.getLast? = some (l, fr) ∧ fr.load = .confirm ∧
            (x.txCount < 2 ^ 48 → fs = [(l, fr)]))) ∧
        (∀ k, x.txNext = some k → x.txStopped = false → ∃ t z, exec (.keyConfirmReceive ⟨l, f⟩) s = .next t ∧ { t with links := s.links } = s ∧
          aget t.links l = some z ∧ (z.frameOut.txKey, z.frameOut.txEpoch, z.frameOut.txCount, z.frameOut.txNext) =
            (k, x.txEpoch + 1, 1, none) ∧ (z.txKey, z.txCount, z.rxKey) = (x.txKey, x.txCount, x.rxKey)) ∧
        (x.txNext = none → exec (.keyConfirmReceive ⟨l, f⟩) s = .next { s with links := aput s.links l y })) ∧
      (∀ k, f.epoch = BitVec.ofNat 8 (x.rxEpoch + 1) → x.rxNext = some k → ok k →
        ∃ t y, exec (.delupFrameReceive l f) s = .next t ∧ aget t.links l = some y ∧
          (y.rxKey, y.rxEpoch, y.rxHigh, y.rxNext) = (k, x.rxEpoch + 1, some f.counter.toNat, none)) ∧
      (f.epoch = BitVec.ofNat 8 x.rxEpoch → ¬ok x.rxKey ∨ ¬high f.counter.toNat →
        ∀ i ∈ [Instr.delupFrameReceive l f, .keyReadyReceive l f, .keyConfirmReceive ⟨l, f⟩],
          ∃ t, exec i s = .next t ∧ { t with dies := s.dies } = s)) ∧
    (x.up = true → x.txStopped = false → x.txNext = none → 2 ^ 48 ≤ x.txCount →
      ∃ t fr, exec (.rekeyStart l) s = .next t ∧ { t with links := s.links, wireOut := s.wireOut } = s ∧
        t.wireOut = s.wireOut ++ [(l, fr)] ∧ fr.load = .keyReady ∧
        aget t.links l = some { x with txNext := some (nextKey x.txKey x.txEpoch), confirmed := false, txCount := x.txCount + 1 }) ∧
    (x.txCount < 2 ^ 48 → exec (.rekeyStart l) s = .next s) ∧
    (x.confirmed = false → x.txStopped = false → 2 ^ 48 + 2 ^ 20 ≤ x.txCount →
      ∃ t, exec (.rekeyStop l) s = .next t ∧ t.linkOpen l = false ∧ { t with links := s.links, dies := s.dies } = s ∧
        aget t.links l = some { x with txStopped := true, up := false } ∧
        ∀ d, s.manager l = some d → (s.die d).rasQ.length < 4352 → s.reported t d { kind := 3, struct_ := 8, unit := l }) ∧
    (x.confirmed = true ∨ x.txCount < 2 ^ 48 + 2 ^ 20 → exec (.rekeyStop l) s = .next s) ∧
    (∀ d, s.manager l = some d → (s.die d).rasQ.length < 4352 → (s.die d).cmdBusy = none →
      (∀ (ti : TrainInfo) (since : Nat) (keep : Bool), x.training = some (since, keep) →
        (s.clock < since + 400000000 → x.txStopped = false →
          (keep = true →
            ∃ t y, exec (.linkTrainingComplete true l ti) s = .next t ∧ aget t.links l = some y ∧ y.up = true ∧ y.training = none ∧
              { t with links := s.links, dies := s.dies } = s ∧
              (y.txKey, y.rxKey, y.txEpoch, y.rxEpoch, y.txCount, y.rxHigh) = (x.txKey, x.rxKey, x.txEpoch, x.rxEpoch, x.txCount, x.rxHigh) ∧
              s.reported t d { kind := 3, struct_ := 8, unit := l, detail := x.partnerLink.toNat, addr := x.partner.toNat }) ∧
          (keep = false →
            let rx := sessionKey (s.flash.linkKey l 1) ti.theirs ti.ours
            let proved : Prop := ti.proof.epoch = 0#8 ∧
              Config.gcmVerifies rx (frameNonce (s.flash.linkKey l 1).const ti.proof.counter) ti.proof.body ti.proof.tag = true
            (proved → ∃ t y, exec (.linkTrainingComplete true l ti) s = .next t ∧ aget t.links l = some y ∧ y.up = true ∧ y.training = none ∧
              { t with links := s.links, dies := s.dies, wireOut := s.wireOut } = s ∧
              (y.txKey, y.rxKey, y.txEpoch, y.rxEpoch, y.txCount, y.rxHigh) =
                (sessionKey (s.flash.linkKey l 0) ti.ours ti.theirs, rx, 0, 0, 1, some ti.proof.counter.toNat) ∧
              t.wireOut = s.wireOut ++ [(l, { epoch := 0#8, counter := 0#56, load := .proof })] ∧
              s.reported t d { kind := 3, struct_ := 8, unit := l, detail := ti.partnerLink.toNat, addr := ti.partner.toNat }) ∧
            (¬proved → ∃ t, exec (.linkTrainingComplete true l ti) s = .next t ∧ { t with dies := s.dies } = s ∧
              s.reported t d { kind := 3, struct_ := 8, unit := l }))) ∧
        (s.clock < since + 400000000 → exec (.linkTrainingTimeout true l) s = .next s) ∧
        (since + 400000000 ≤ s.clock → exec (.linkTrainingComplete true l ti) s = .next s ∧
          ∃ t, exec (.linkTrainingTimeout true l) s = .next t ∧ aget t.links l = some { x with training := none, up := false } ∧
            { t with links := s.links, dies := s.dies } = s ∧ s.reported t d { kind := 3, struct_ := 8, unit := l })) ∧
      (x.up = true → ∃ t, exec (.linkDown true l) s = .next t ∧ aget t.links l = some { x with up := false } ∧
        { t with links := s.links, dies := s.dies } = s ∧ s.reported t d { kind := 3, struct_ := 8, unit := l })) ∧
    ∀ (d i : Nat) (ti : TrainInfo), i < 4 → d < 128 → (s.die d).rasQ.length < 4352 → (s.die d).cmdBusy = none →
      let key := d * 4 + i
      (s.d2dTrain.contains key = true → ∃ t u,
        exec (.linkTrainingComplete false key ti) s = .next t ∧ t.d2dDown = nsErase s.d2dDown key ∧ t.d2dTrain = nsErase s.d2dTrain key ∧
          s.reported t d { kind := 3, struct_ := 7, unit := i } ∧
        exec (.linkTrainingTimeout false key) s = .next u ∧ u.d2dDown = nsInsert s.d2dDown key ∧ u.d2dTrain = nsErase s.d2dTrain key ∧
          s.reported u d { kind := 3, struct_ := 7, unit := i }) ∧
      (portHasLink d i = true → s.d2dDown.contains key = false → ∃ t, exec (.linkDown false key) s = .next t ∧
        t.d2dDown = nsInsert s.d2dDown key ∧ s.reported t d { kind := 3, struct_ := 7, unit := i } ∧
        { t with d2dDown := s.d2dDown, dies := s.dies } = s)

/-- R316, R318, R320: RECRUIT takes helpers, at most as many as asked, as there are iterations and as fit the free slices; each starts at the
entry with the operation's identity in v0 and its own iteration. R322: HNEXT keeps v0 and takes the next iteration, or retires; HQUIT
retires, and its flags join the group's (R104). R323, R324: HJOIN waits; once its helpers are done it writes the total and its status, and the fragment goes on or meets the
fault of R324. R326: an iteration that has run 65,536 clocks stops its helper and is recorded, and an HNEXT or HQUIT reached after
them stops it in the same way; R382: so does a v0 in error. R323: what each operation of a join does, and its identity; the checkpoints are
taken in any order. R317: a bank takes one gang in a clock. The model's choices here: an iteration of exactly 65,536 clocks has overrun, and
the checkpoint is v0 as it stands (log 62); a stopped helper's flags do not join the group's (log 22). -/
def Obligations.HelpersRecruitAndJoin : Prop :=
  (∀ (s : State) (n m k : Nat) (gr : Group),
    let key := groupKey n m k
    n < 128 → m < 2048 → k < 16 → s.group? key = some gr →
    (∀ (e : Nat) (act : Mask) (f : Fragment) (d : RegNo) (a b c : Src) (op : BitVec 4) (o : JoinOp) (j : Src),
      let ag : Agent := .frag n m k e
      let l := lowLane f.mask
      let lo := (s.src ag a 0 l).setWidth 28
      let hi := (s.src ag a 1 l).setWidth 28
      let entry := addrOfPair (s.src ag b 1 l) (s.src ag b 0 l)
      let free := s.slicesFree n gr.core gr.part
      let most := bits (s.src ag c 0 l) 5 0
      let count := if hi.toNat ≤ lo.toNat then 0 else min most (min (hi.toNat - lo.toNat) (4 * free.length))
      s.ready ag act { cls := 3, srcs := [(a, 2), (b, 2), (c, 1)], dsts := [(d, 1)] } = true → aget gr.frags e = some f →
      popMask f.mask = 1 → JoinOp.ofCode op = some o → 0 < most → s.agFetchBusy ag (f.pc + 8#48) = false → s.hjoinNext ag f = some j →
      (j.r.toNat < 640 → (s.rdTag ag j.r.toNat).empty = false ∧ (s.rdTag ag j.r.toNat).arm = 0#64) → gr.writesOut = false →
      s.agFetchBusy ag entry = false → s.landingAt n (s.ptagOf key) entry = true → s.preemptAsked key = false → ((s.teamOf? key).map (·.killed)).getD false = false →
      ∃ t gt r, exec (.recruit d a b c op { g := 0#4, neg := false }) s = .next t ∧ s.wentOn t ag ∧ t.group? key = some gt ∧
        gt.rd d.toNat l = BitVec.ofNat 32 ((if hi.toNat ≤ lo.toNat then 3 else if count = 0 then 1 else 0) * 2 ^ 28 + count) ∧
        gt.recruit = some r ∧ r.op = o ∧ r.next = lo + BitVec.ofNat 28 count ∧ r.hi = hi ∧ r.entry = e ∧ r.lane = l ∧ r.target = entry ∧
        r.hjoin = none ∧ r.recs = [] ∧ gt.hrecs = [] ∧ (r.helpers.map (·.1)) = List.range count ∧
        (∀ h x, aget r.helpers h = some x → sget 0#32 x.v 0 = JoinOp.identity o ∧ (∀ i, i ≠ 0 → sget 0#32 x.v i = 0#32) ∧
          x.iter = lo + BitVec.ofNat 28 h ∧ x.front.clause = entry ∧ x.front.hdr = none ∧ x.life = .running ∧
          free[h / 4]? = some (x.bank, x.slice)) ∧
        t.mem = s.mem ∧ t.l2 = s.l2 ∧ t.flight = s.flight) ∧
    (∀ (h : Nat) (act : Mask) (g : Guard) (r : Recruit) (x : Helper),
      let ag : Agent := .helper n m k h
      gr.recruit = some r → aget r.helpers h = some x → s.ready ag act (helperSpec g) = true → x.life = .running →
      (x.dealt + 65536 ≤ s.clock → exec (.hnext g) s = exec (.helperIterationTimeout n m k h) s ∧
        exec (.hquit g) s = exec (.helperIterationTimeout n m k h) s) ∧
      -- a v0 in error is a helper fault (R382)
      (s.clock < x.dealt + 65536 → (s.rdTag ag 0).poison ≠ 0#64 → r.recs.length < 4 → (∀ e ∈ r.recs, e.clock < s.clock) →
        (∀ e ∈ r.recs, e.words.length = 6) → ∀ i ∈ [Instr.hnext g, .hquit g],
        ∃ t gt rt y, exec i s = .next t ∧ t.group? key = some gt ∧ gt.recruit = some rt ∧ aget rt.helpers h = some y ∧
          (y.life, y.ckpt, y.iter, rt.dealing, rt.recs.length) = (HelperLife.stopped, x.ckpt, x.iter, false, r.recs.length + 1) ∧
          gt.sticky = gr.sticky ∧ t.mem = s.mem ∧ t.l2 = s.l2 ∧
          ∀ (j : Nat) (w : Word),
            (recordWords h x.iter { code := 36, lanes := x.front.mask, pc := x.front.pc })[j]? = some w →
              sget 0#32 gt.hrecs (6 * r.recs.length + j) = w) ∧
      (s.clock < x.dealt + 65536 → (s.rdTag ag 0).poison = 0#64 →
      let at_ (i : Instr) (p : Recruit → Helper → Word → Prop) : Prop :=
        ∃ t gt rt y, exec i s = .next t ∧ t.group? key = some gt ∧ gt.recruit = some rt ∧ aget rt.helpers h = some y ∧
          y.ckpt = sget 0#32 x.v 0 ∧ y.v = x.v ∧ gt.v = gr.v ∧ gt.s = gr.s ∧ gt.frags = gr.frags ∧ t.mem = s.mem ∧ t.l2 = s.l2 ∧
          t.flight = s.flight ∧ p rt y (gt.sticky.setWidth 32)
      (r.dealing = true → r.next.toNat < r.hi.toNat → at_ (.hnext g) fun rt y _ => y.iter = r.next ∧ rt.next = r.next + 1#28 ∧
        y.dealt = s.clock ∧ y.life = .running ∧ (y.front.clause, y.front.idx, y.front.hdr, y.front.wait, y.front.mask) =
          (r.target, 0, none, Wait.run, x.front.mask) ∧
        -- R185: no access of an earlier iteration stands before it in program order
        ∀ fr, aget gr.frags r.entry = some fr → (y.front.past, y.front.fenceAll) = (fr.past, fr.fenceAll)) ∧
      (r.dealing = false ∨ r.hi.toNat ≤ r.next.toNat → at_ (.hnext g) fun rt y st => y.life = .retired ∧ rt.next = r.next ∧
        st = (gr.sticky ||| x.sticky).setWidth 32) ∧
      at_ (.hquit g) fun rt y st => y.life = .retired ∧ rt.next = r.next ∧ st = (gr.sticky ||| x.sticky).setWidth 32)) ∧
    (∀ (e : Nat) (act : Mask) (f : Fragment) (r : Recruit) (d : RegNo) (a : Src),
      let ag : Agent := .frag n m k e
      gr.recruit = some r → r.entry = e → aget gr.frags e = some f →
      s.ready ag act { cls := 3, srcs := [(a, 1)], dsts := [(d, 2)], hlp := false } = true →
      ∃ t gt, exec (.hjoin d a) s = .next t ∧ t.group? key = some gt ∧
        gt.recruit = some { r with hjoin := some (d, s.src ag a 0 r.lane, f.pc), hjoinBad := false } ∧
        gt.frags = aput gr.frags e { f with wait := .hjoin, stall := .none } ∧ gt.v = gr.v ∧ gt.s = gr.s ∧
        (gt.tag d.toNat).empty = true ∧ (gt.tag (d.toNat + 1)).empty = true ∧ t.mem = s.mem ∧ t.l2 = s.l2) ∧
    (∀ (f : Fragment) (r : Recruit) (d : RegNo) (a : Word) (pc : Addr),
      gr.recruit = some r → r.hjoin = some (d, a, pc) → aget gr.frags r.entry = some f → f.hdr.isSome = true → s.helpersDone key gr r = true →
      r.hjoinBad = false → s.regsBusy (.frag n m k r.entry) d.toNat 2 = false →
      (d.toNat + 2 ≤ 256 ∧ r.lane < 64 ∨ 256 ≤ d.toNat ∧ d.toNat + 2 ≤ 640) →
      let joined (t : State) (gt : Group) : Prop :=
        exec (.hjoinComplete n m k) s = .next t ∧ t.group? key = some gt ∧ gt.recruit = none ∧
        gt.rd (d.toNat + 1) r.lane = BitVec.ofNat 32 (r.status * 2 ^ 28 + r.next.toNat) ∧
        (∃ cs, (r.helpers.map fun h => h.2.ckpt).Perm cs ∧ gt.rd d.toNat r.lane = cs.foldl (JoinOp.apply r.op) a) ∧
        (gt.tag d.toNat).empty = false ∧ (gt.tag (d.toNat + 1)).empty = false ∧ t.mem = s.mem ∧ t.l2 = s.l2
      (r.failure = none → ∃ t gt y, joined t gt ∧ aget gt.frags r.entry = some y ∧
        (y.clause, y.idx, y.hdr, y.wait) = (f.advance.clause, f.advance.idx, f.advance.hdr, f.advance.wait)) ∧
      (∀ c dt, r.failure = some (c, dt) → gr.trapVec = 0#48 → gr.parked = none → gr.held = [] → gr.ended = false → ∃ t gt p, joined t gt ∧ gt.parked = some p ∧
        (p.fault.code, p.fault.detail, p.fault.pc) = (c, BitVec.ofNat 32 dt, pc))) ∧
    (∀ (h : Nat) (r : Recruit) (x : Helper), gr.recruit = some r → aget r.helpers h = some x → x.life = .running →
      (s.clock < x.dealt + 65536 → exec (.helperIterationTimeout n m k h) s = .next s) ∧
      (x.dealt + 65536 ≤ s.clock → r.recs.length < 4 → (∀ e ∈ r.recs, e.clock < x.dealt + 65536) →
        (∀ e ∈ r.recs, e.words.length = 6) →
        ∃ t gt rt y, exec (.helperIterationTimeout n m k h) s = .next t ∧ t.group? key = some gt ∧ gt.recruit = some rt ∧
          aget rt.helpers h = some y ∧ y.life = .stopped ∧ rt.dealing = false ∧ rt.recs.length = r.recs.length + 1 ∧
          gt.sticky = gr.sticky ∧ (∃ i, rt.timeout = some i ∧ i.toNat ≤ x.iter.toNat) ∧ t.mem = s.mem ∧ t.l2 = s.l2 ∧
          ∀ (i : Nat) (w : Word), (recordWords h x.iter { code := 14, pc := x.front.pc, detail := x.iter.setWidth 32 })[i]? = some w →
            sget 0#32 gt.hrecs (6 * r.recs.length + i) = w))) ∧
  (∀ x y : Word,
    let least (u : Bool) (r : Word) : Prop := intOf u r = min (intOf u x) (intOf u y)
    let most (u : Bool) (r : Word) : Prop := intOf u r = max (intOf u x) (intOf u y)
    JoinOp.apply .none x y = x ∧ JoinOp.apply .add x y = x + y ∧ JoinOp.apply .and x y = x &&& y ∧ JoinOp.apply .or x y = x ||| y ∧
    least false (JoinOp.apply .min x y) ∧ most false (JoinOp.apply .max x y) ∧ least true (JoinOp.apply .umin x y) ∧
    most true (JoinOp.apply .umax x y) ∧ JoinOp.apply .fadd x y = (w32 (f32.add .rne x.toNat y.toNat)).1 ∧
    Extremes x y (JoinOp.apply .fmin x y) (JoinOp.apply .fmax x y)) ∧
  (JoinOp.identity .none = 0#32 ∧ JoinOp.identity .add = 0#32 ∧ JoinOp.identity .min = 0x7FFFFFFF#32 ∧
    JoinOp.identity .max = 0x80000000#32 ∧ JoinOp.identity .umin = 0xFFFFFFFF#32 ∧ JoinOp.identity .umax = 0#32 ∧
    JoinOp.identity .and = 0xFFFFFFFF#32 ∧ JoinOp.identity .or = 0#32 ∧ JoinOp.identity .fadd = zero32 true ∧
    JoinOp.identity .fmin = inf32 false ∧ JoinOp.identity .fmax = inf32 true) ∧
  ∀ (s : State) (k h : Nat) (gr : Group) (x : Helper) (f : Fragment) (l : List (Nat × Helper)),
    let old := aget (s.core (keyDie k) gr.core).gangs x.bank
    s.group? k = some gr → s.helper? k h = some x →
    ((∃ y, old = some y ∧ y.clock = s.clock) → s.takeGang k h f l = none) ∧
    ((∀ y, old = some y → y.clock ≠ s.clock) → ∃ t, s.takeGang k h f l = some t ∧ { t with cores := s.cores } = s ∧
      aget (t.core (keyDie k) gr.core).gangs x.bank =
        some { clock := s.clock, key := k, pc := f.pc.toNat, helpers := l.map (·.1) })

/-- R344, R345: MWIN sets a group's window. R69, R346: MLEND lends its registers. R347, R348: MRD reads the rows of the window that its
run covers and the step count: its destinations are EMPTY from its issue and FULL once the rows have returned, all from one moment;
MWR writes the bytes of its active lanes. Each goes on and changes nothing else. That MWR writes its rows as it issues is the model's
reading (log 19). -/
def Obligations.TunRows : Prop :=
  ∀ (s : State) (n m k e : Nat) (act : Mask) (gr : Group) (f : Fragment) (tm : Team) (q : Seq) (d c : RegNo) (a b x : Src) (cnt : BitVec 3)
    (g : Guard),
    let ag : Agent := .frag n m k e
    let key := agKey ag
    let l := lowLane act
    let w := s.width ag
    let N := cnt.toNat + 1
    let rows := N * w / 16
    n < 128 → m < 2048 → k < 16 → s.group? key = some gr → aget gr.frags e = some f → s.team? n m = some tm → tm.seq = some q →
    w = 16 ∨ w = 32 ∨ w = 64 → recNv tm.recd ≤ 256 → (∀ i, act.getLsbD i = true → i < w) → s.tunClean n tm → f.fenceInv = false → s.notHeldBack ag f false →
    (s.ready ag act { mtxSpec s g [(a, 1), (b, 1)] [] false with lone := [0, 1] } = true →
      let target := bits (s.src ag a 0 l) 3 0
      let base := bits (s.src ag b 0 l) 15 0
      let limit := bits (s.src ag b 0 l) 31 16
      (k = 0 → target < recGroups tm.recd → base ≤ limit → limit ≤ 2048 →
        ∃ t tt, exec (.mwin a b g) s = .next t ∧ t.team? n m = some tt ∧ tt.window target = (base, limit) ∧
          (∀ i, i ≠ target → tt.window i = tm.window i) ∧ { tt with windows := tm.windows } = tm ∧ s.wentOn t ag ∧
          { t with teams := s.teams, groups := s.groups } = s ∧ s.keepsValues t ag) ∧
      (k ≠ 0 ∨ recGroups tm.recd ≤ target ∨ limit < base ∨ 2048 < limit → exec (.mwin a b g) s = .next (s.illop ag act))) ∧
    (s.ready ag act (mtxSpec s g [] ((regRun d N).map fun r => (r, 1)) (decide (4 ≤ k) || !runOk tm.recd d N)) = true →
      ∃ t, exec (.mlend d cnt g) s = .next t ∧ s.wentOn t ag ∧ s.keepsValues t ag ∧ { t with groups := s.groups } = s ∧
        ∀ r, r < 640 → t.rdTag ag r =
          if d.toNat ≤ r ∧ r < d.toNat + N then { s.rdTag ag r with lent := true } else s.rdTag ag r) ∧
    (∀ r0 : Nat, r0 = (s.src ag a 0 l).toNat →
      let bad := !runOk tm.recd d N || (decide (d.toNat ≤ c.toNat) && decide (c.toNat < d.toNat + N))
      s.ready ag act (mtxSpec s g [(a, 1)] ((regRun d N).map (fun r => (r, 1)) ++ [(c, 1)]) bad) = true →
      (∀ r, outside (tm.window k) r0 rows = some r → exec (.mrd d a c cnt g) s = .next (s.windowFault ag act (tm.window k) r)) ∧
      (outside (tm.window k) r0 rows = none →
        ∃ t x y, exec (.mrd d a c cnt g) s = .next t ∧ t.flight = aput s.flight s.fresh x ∧ t.fresh = s.fresh + 1 ∧ x.pieces = [y] ∧
          (x.ag, x.kind, x.space, x.dst, x.ndst, x.cnt, x.act, x.uniform, x.acq) =
            (ag, AccKind.load, Space.tun, d.toNat, N, some c.toNat, act, false, false) ∧
          (y.lane, y.addr, y.len, y.reg, y.done) = (l, 64 * r0, 64 * rows, 0, false) ∧
          (∀ r, r < 640 → t.rdTag ag r =
            if r = c.toNat ∨ d.toNat ≤ r ∧ r < d.toNat + N then { s.rdTag ag r with empty := true } else s.rdTag ag r) ∧
          s.wentOn t ag ∧ s.keepsValues t ag ∧ s.tunKept t n tm (fun _ => False))) ∧
    (∀ (id r0 : Nat) (y : Piece) (xa : Access) (pc : Addr) (uid core : Nat) (before : List Nat),
      xa = { ag := ag, uid := uid, pc := pc, kind := .load, space := .tun, pieces := [y], dst := d.toNat, ndst := N,
             cnt := some c.toNat, act := act, before := before, core := core } →
      aget s.flight id = some xa → y.done = false → y.lane < 64 → y.addr = 64 * r0 → y.len = 64 * rows → r0 + rows ≤ 2048 →
      d.toNat + N ≤ 256 → c.toNat < 640 → ¬(d.toNat ≤ c.toNat ∧ c.toNat < d.toNat + N) → s.mayPerform xa y = true →
      ∃ t, exec (.loadDataReturn id (laneBit y.lane)) s = .next t ∧ t.flight = adel s.flight id ∧ s.tunKept t n tm (fun _ => False) ∧
        (∀ j i, j < N → act.getLsbD i = true →
          t.rdReg ag (d.toNat + j) i = s.tunWord n tm (r0 + (j * w + i) / 16) ((j * w + i) % 16)) ∧
        (∀ i, act.getLsbD i = true → c.toNat < 256 ∨ 32 ≤ i ∨ f.gang = none → t.rdReg ag c.toNat i = q.stepCount) ∧
        (∀ r i, r < 640 → i < 64 → r ≠ c.toNat → act.getLsbD i = false ∨ r < d.toNat ∨ d.toNat + N ≤ r → t.rdReg ag r i = s.rdReg ag r i) ∧
        ∀ r, r < 640 →
          if r = c.toNat ∨ d.toNat ≤ r ∧ r < d.toNat + N then (t.rdTag ag r).empty = false else t.rdTag ag r = s.rdTag ag r) ∧
    (∀ r0 : Nat, r0 = (s.src ag a 0 l).toNat →
      s.ready ag act (mtxSpec s g ((a, 1) :: (regRun x.r N).map fun r => (⟨r, x.pol⟩, 1)) [] (!runOk tm.recd x.r N)) = true →
      (∀ r, outside (tm.window k) r0 rows = some r → exec (.mwr x a cnt g) s = .next (s.windowFault ag act (tm.window k) r)) ∧
      (outside (tm.window k) r0 rows = none → r0 + rows ≤ 2048 → s.tunBusy n tm ((List.range rows).map (r0 + ·)) = false →
        s.behind ag f .tun (tunPiece r0 rows act) = false → ∃ t, exec (.mwr x a cnt g) s = .next t ∧ s.wentOn t ag ∧
        s.tunKept t n tm (fun r => r0 ≤ r ∧ r < r0 + rows) ∧ (∀ r i, r < 640 → r < 256 ∨ 32 ≤ i → t.rdReg ag r i = s.rdReg ag r i) ∧
        ∀ j i, j < N → i < w → t.tunWord n tm (r0 + (j * w + i) / 16) ((j * w + i) % 16) =
          if act.getLsbD i = true then s.rdReg ag (x.r.toNat + j) i
          else s.tunWord n tm (r0 + (j * w + i) / 16) ((j * w + i) % 16)))

/-- R341, R355 to R359: once the sequencer's earlier MMAs and accesses are done (and no row is under test, R383), MSCALE adds the scaled partial tile, MCLR clears rows, MTAB
loads both grist tables, MSIG arrives on its barrier object and MDRN drains rows to local memory; each goes on and changes no other
row and no other local byte. -/
def Obligations.SequencerOperations : Prop :=
  ∀ (s : State) (n m : Nat) (act : Mask) (tm : Team) (q : Seq) (d a b : RegNo) (g : Guard),
    let ag : Agent := .seq n m
    let v (r : RegNo) (j : Nat) := (s.rdReg ag (r.toNat + j) 0).toNat
    let L := recL tm.recd
    n < 128 → m < 2048 → s.team? n m = some tm → tm.seq = some q → s.tunClean n tm → (∀ x ∈ q.mmas, x.n ≤ x.step) →
    s.earlierOf ag = [] → (∀ st u a, s.sramBusy n st u a = false) →
    let ran (i : Instr) (p : State → Team → Prop) : Prop := ∃ t tt, exec i s = .next t ∧ t.team? n m = some tt ∧ s.wentOn t ag ∧ p t tt
    let localKept (tt : Team) (lo len : Nat) : Prop := ∀ i, i < lo ∨ lo + len ≤ i → tt.localByte i = tm.localByte i
    (∀ int clr acq die : Bool, s.ready ag act (seqSpec g [(d, 2), (a, 2)]) = true →
      v d 0 ≤ 896 → v d 1 ≤ 896 → v a 0 % 2 = 0 → v a 1 % 2 = 0 → v a 0 + 128 ≤ L → v a 1 + 128 ≤ L →
      v d 0 = v d 1 ∨ v d 0 + 128 ≤ v d 1 ∨ v d 1 + 128 ≤ v d 0 →
      ran (.mscale d a int clr acq die g) fun t tt => localKept tt 0 0 ∧
        s.tunKept t n tm (fun r => r ∈ tileRows (v d 0) ∨ clr = true ∧ r ∈ tileRows (v d 1)) ∧
        ∀ i j, i < 64 → j < 64 →
          let c := tilePlace (v d 0) i j
          let p := tilePlace (v d 1) i j
          t.tunWord n tm c.1 c.2 = mscaleW (s.tunWord n tm c.1 c.2) (partialVal int (s.tunWord n tm p.1 p.2))
            (ue8m4 (tm.localRead (v a 0 + 2 * i) 2)) (ue8m4 (tm.localRead (v a 1 + 2 * j) 2)) ∧
          (v d 0 ≠ v d 1 → t.tunWord n tm p.1 p.2 = if clr then 0#32 else s.tunWord n tm p.1 p.2)) ∧
    (∀ w : ClrVal, s.ready ag act (seqSpec g [(d, 1), (a, 1)]) = true → 0 < v a 0 → v d 0 + v a 0 ≤ 2048 →
      ran (.mclr d a w g) fun t tt => localKept tt 0 0 ∧ s.tunKept t n tm (fun r => v d 0 ≤ r ∧ r < v d 0 + v a 0) ∧
        ∀ r i, v d 0 ≤ r → r < v d 0 + v a 0 → i < 16 → t.tunWord n tm r i = clrWord w) ∧
    (∀ acq die : Bool, s.ready ag act (seqSpec g [(a, 1)]) = true → v a 0 % 64 = 0 → v a 0 + 1024 ≤ L →
      ran (.mtab a acq die g) fun t tt => localKept tt 0 0 ∧ s.tunKept t n tm (fun _ => False) ∧
        ∀ c i, c ∈ tm.cores → i < 256 → sget 0#32 (t.core n c).grist i = BitVec.ofNat 32 (tm.localRead (v a 0 + 4 * i) 4)) ∧
    (∀ rel die : Bool, s.ready ag act (seqSpec g [(a, 1), (b, 1)]) = true → q.mmas = [] → v a 0 % 16 = 0 → v a 0 + 16 ≤ L →
      ran (.msig a b rel die g) fun t tt => localKept tt (v a 0) 16 ∧ s.tunKept t n tm (fun _ => False) ∧
        BitVec.ofNat 128 (tt.localRead (v a 0) 16) = arrived (BitVec.ofNat 128 (tm.localRead (v a 0) 16)) (v b 0) false) ∧
    ∀ (cv : DrainCv) (rel die : Bool), s.ready ag act (seqSpec g [(d, 1), (a, 1), (b, 1)]) = true →
      let eb := if cv = .f32 then 4 else 2
      0 < v b 0 → v d 0 + v b 0 ≤ 2048 → v a 0 % 32 = 0 → v a 0 + v b 0 * (16 * eb) ≤ L →
      ran (.mdrn d a b cv rel die g) fun t tt => localKept tt (v a 0) (v b 0 * (16 * eb)) ∧ s.tunKept t n tm (fun _ => False) ∧
        ∀ i j o, i < v b 0 → j < 16 → o < eb →
          tt.localByte (v a 0 + i * (16 * eb) + j * eb + o) = (drainBytes cv (s.tunWord n tm (v d 0 + i) j))[o]?.getD 0#8

/-- R349, R350: MMA joins the sequencer's queue with the values it reads, and the sequencer goes on. R336, R351: the oldest MMA's next step
starts once its quarters are lent: it reads them and its rows of A, and returns the registers. R348, R352: after the kind's clocks the
4,096 words, each from its accumulator in the tile, enter the tile at once and STEP_COUNT rises; not earlier. (No store to local
memory has been made since the MMA issued: R354 leaves open what a step then reads.) -/
def Obligations.MatrixSteps : Prop :=
  ∀ (s : State) (n m : Nat) (tm : Team) (q : Seq),
    let ag : Agent := .seq n m
    n < 128 → m < 2048 → s.team? n m = some tm → tm.seq = some q → s.tunClean n tm → (∀ st u a, s.sramBusy n st u a = false) →
    (∀ (act : Mask) (d a b c : RegNo) (ring : BitVec 4) (k : BitVec 2) (kind : MmaKind) (f : Fragment),
      let v (r : RegNo) (j : Nat) := (s.rdReg ag (r.toNat + j) 0).toNat
      let ctl := s.rdReg ag c.toNat 0
      let x : Mma :=
        { pc := f.pc, kind := kind, tile := v d 0, barrier := v d 1, a0 := v a 0, a1 := v a 1, rs := v a 2, ks := v a 3,
          n := bits ctl 15 0, bBase := b.toNat, ring := ring.toNat, lcAt := (s.loopCount ag k.toNat).toNat, ctl := ctl,
          before := (s.earlier ag f).map (·.1) }
      let ab := aBytes (mmaForm kind)
      s.front? ag = some f → s.ready ag act (seqSpec ⟨0#4, false⟩ [(d, 2), (a, 4), (c, 1)]) = true →
      mmaIllegal ctl x.tile x.bBase x.ring (quarterRegs (mmaForm kind) (recW tm.recd)) (recNv tm.recd) x.n = false →
      x.misaligned ab = false → x.outOfRange ab (halfOf (recL tm.recd)) (recL tm.recd) = false →
      ∃ t tt qt, exec (.mma d a b c ring k kind) s = .next t ∧ t.team? n m = some tt ∧ tt.seq = some qt ∧ qt.mmas = q.mmas ++ [x] ∧
        s.wentOn t ag ∧ { t with teams := s.teams } = s ∧ (qt.m, qt.stepCount) = (q.m, q.stepCount)) ∧
    ∀ (x : Mma) (rest : List Mma), q.mmas = x :: rest →
      let fm := mmaForm x.kind
      let w := recW tm.recd
      let r0 := x.bBase + x.slot x.step * quarterRegs fm w
      (∀ gs : List Group, x.busy = none → tm.stepsRun q = true → x.step < x.n → x.tile ≤ 896 → ctlBit x.ctl 26 = false → x.kept = [] →
        x.older = [] → s.stepWaits n m tm x = false → (∀ c ∈ tm.cores, (s.core n c).gristPoison = [] ∧ (s.core n c).gristUe = []) →
        w = 16 ∨ w = 32 ∨ w = 64 → r0 + quarterRegs fm w ≤ 256 → ((List.range 4).map fun i => s.group? (groupKey n m i)) = gs.map some →
        (∀ g ∈ gs, g.lends r0 (quarterRegs fm w) = true ∧ ∀ i, (g.tag i).poison = 0#64) →
        ∃ t tt qt y, exec (.mmaStep n m) s = .next t ∧ t.team? n m = some tt ∧ tt.seq = some qt ∧ qt.mmas = y :: rest ∧
          y.busy = some { since := s.clock, quarters := gs.map fun g => g.quarter fm w r0
                          rows := (List.range 64).map fun i => tm.localRead (x.arow i x.step) (aBytes fm) } ∧
          (y.step, y.n, y.tile) = (x.step, x.n, x.tile) ∧ qt.stepCount = q.stepCount ∧
          (∀ (i : Nat) (g : Group), gs[i]? = some g → ∃ gt, t.group? (groupKey n m i) = some gt ∧ (∀ r l, gt.rd r l = g.rd r l) ∧
            ∀ r, (gt.tag r).lent = if r0 ≤ r ∧ r < r0 + quarterRegs fm w then false else (g.tag r).lent) ∧
          s.tunKept t n tm (fun _ => False) ∧ tt.localMem = tm.localMem) ∧
      ∀ b : MmaStep, x.busy = some b →
        (s.clock < b.since + mmaClocks fm → exec (.mmaStepCommit n m) s = .next s) ∧
        (b.since + mmaClocks fm ≤ s.clock → b.quarters.length = 4 → x.tile ≤ 896 → x.older = [] →
          ∃ t tt qt, exec (.mmaStepCommit n m) s = .next t ∧ t.team? n m = some tt ∧ tt.seq = some qt ∧
            qt.stepCount = q.stepCount + 1#32 ∧ tt.localMem = tm.localMem ∧ t.groups = s.groups ∧
            (∀ i j ws, i < 64 → j < 64 → b.quarters[j / 16]? = some ws →
              let p := tilePlace x.tile i j
              let acc := if ctlBit x.ctl 22 = true ∧ x.step = 0 then mmaIdentity fm else s.tunWord n tm p.1 p.2
              t.tunWord n tm p.1 p.2 = oneGroup fm (fun z => sget 0#32 (s.core n ((tm.cores[i / 32]?).getD 0)).grist z) acc
                (b.rows[i]?.getD 0) (natOfWords ws) (j % 16)) ∧
            s.tunKept t n tm (· ∈ tileRows x.tile) ∧
            (x.step + 1 < x.n → ∃ y, qt.mmas = y :: rest ∧ (y.step, y.busy) = (x.step + 1, none)) ∧
            (x.step + 1 = x.n → ctlBit x.ctl 26 = false → qt.mmas = rest))

/-- R98, R108 to R112: what a group of 16 products makes of its accumulator, one group after another (R352). Plus-times: of finite
elements the exact sum of the accumulator and the products, rounded once to FP32, a NaN giving NaN; of bytes, and of bytes and CB2
weights, the exact sum modulo 2^32. Min-plus and max-times: the least or greatest of the accumulator and the rounded sums or
products, −0 below +0; +∞ pads a sum. Or-and. MSCALE adds the partial sum times both scales to the accumulator, rounded once; MDRN
(R359) rounds once. -/
def Obligations.MatrixArithmetic : Prop :=
  let once (f : FFmt) (q : ℚ) (n : Nat) : Prop := ∃ fl, RoundedOnce f .rne q (n, fl)
  let byte (x i : Nat) : Int := (BitVec.ofNat 8 (x / 2 ^ (8 * i))).toInt
  let ord (x : Word) : Int := if x.getLsbD 31 then -((x.toNat % 2 ^ 31 : Nat) : Int) - 1 else (x.toNat % 2 ^ 31 : Nat)
  (∀ (kind : MmaKind) (fa fb : FFmt) (gr : Nat → Word) (acc : Word) (a b col : Nat) (pa pb : Nat → ℚ),
    let ea (k : Nat) := elemAt a fa.bytes k
    let eb (k : Nat) := elemAt b fb.bytes (16 * col + k)
    let r := oneGroup (.plus fa fb) gr acc a b col
    let allNeg : Prop := acc = 0x80000000#32 ∧
      ∀ k, k < 16 → pa k * pb k = 0 ∧ (ea k).testBit (fa.eb + fa.mb) ≠ (eb k).testBit (fb.eb + fb.mb)
    mmaForm kind = .plus fa fb →
    ((IsNan32 acc ∨ ∃ k, k < 16 ∧ (NanElem fa (ea k) ∨ NanElem fb (eb k))) → r = 0x7FC00000#32) ∧
    ((∀ k, k < 16 → finiteValue fa (ea k) = some (pa k) ∧ finiteValue fb (eb k) = some (pb k)) →
      (∀ n, acc = inf32 n → r = acc) ∧
      ∀ c, finiteValue f32 acc.toNat = some c →
        let q := c + ((List.range 16).map fun k => pa k * pb k).sum
        once f32 q r.toNat ∧ (q = 0 → allNeg → r = 0x80000000#32) ∧ (q = 0 → ¬allNeg → r = 0#32))) ∧
  (∀ (gr : Nat → Word) (acc : Word) (a b col : Nat),
    let weight (x i : Nat) : Int :=
      let w := x / 2 ^ (16 * (i / 8)) % 2 ^ 16
      let q := (gr (w / 256)).toNat / 2 ^ (4 * (i % 8)) % 16 + w % 2
      let flips := ((List.range 7).filter fun k => w.testBit (k + 1)).length
      if (if i % 8 < 7 then w.testBit (i % 8 + 1) else decide (flips % 2 = 1)) then -(q : Int) else q
    oneGroup .int8 gr acc a b col = acc + BitVec.ofInt 32 ((List.range 16).map fun k => byte a k * byte b (16 * col + k)).sum ∧
    oneGroup .cb2 gr acc a b col = acc + BitVec.ofInt 32 ((List.range 16).map fun k => byte a k * weight b (16 * col + k)).sum ∧
    (∀ w i, w < 2 ^ 16 → i < 8 → cb2Weight gr w i = weight w i) ∧
    (acc ≠ 0#32 ∨ (∃ k, k < 16 ∧ a.testBit k = true ∧ b.testBit (16 * col + k) = true) → oneGroup .orAnd gr acc a b col = 1#32) ∧
    (acc = 0#32 → (∀ k, k < 16 → a.testBit k = false ∨ b.testBit (16 * col + k) = false) → oneGroup .orAnd gr acc a b col = 0#32)) ∧
  (∀ (g : FFmt) (gr : Nat → Word) (acc : Word) (a b col : Nat), g ∈ [bf16, f16] →
    let term (k : Nat) := minPlusSum g (elemAt a 2 k) (elemAt b 2 (16 * col + k))
    let l := acc :: (List.range 16).map term
    let r := oneGroup (.minPlus g) gr acc a b col
    (∀ x y, x < 2 ^ 16 → y < 2 ^ 16 →
      (x = g.infMag ∨ y = g.infMag → minPlusSum g x y = 0x7F800000#32) ∧
      (x ≠ g.infMag → y ≠ g.infMag → NanElem g x ∨ NanElem g y → minPlusSum g x y = 0x7FC00000#32) ∧
      ∀ p q, finiteValue g x = some p → finiteValue g y = some q → once f32 (p + q) (minPlusSum g x y).toNat) ∧
    ((∃ x ∈ l, IsNan32 x) → r = 0x7FC00000#32) ∧
    ((∀ x ∈ l, ¬IsNan32 x) → r ∈ l ∧ ∀ x ∈ l, ord r ≤ ord x)) ∧
  (∀ (gr : Nat → Word) (acc : Word) (a b col : Nat) (pa pb : Nat → ℚ),
    let r := oneGroup .maxTimes gr acc a b col
    (IsNan32 acc → r = 0x7FC00000#32) ∧
    (¬IsNan32 acc →
      (∀ k, k < 16 → finiteValue bf16 (elemAt a 2 k) = some (pa k) ∧ finiteValue bf16 (elemAt b 2 (16 * col + k)) = some (pb k)) →
      ∃ term : Nat → Word, (∀ k, k < 16 → once f32 (pa k * pb k) (term k).toNat) ∧
        r ∈ acc :: (List.range 16).map term ∧ ∀ x ∈ acc :: (List.range 16).map term, ord x ≤ ord r)) ∧
  (∀ (int : Bool) (c w : Word) (x y : Nat),
    let r := mscaleW c (partialVal int w) (ue8m4 x) (ue8m4 y)
    (IsNan32 c ∨ x / 16 % 256 = 255 ∨ y / 16 % 256 = 255 ∨ int = false ∧ IsNan32 w → r = 0x7FC00000#32) ∧
    (∀ n, int = false → w = inf32 n → scaleValue x = 0 ∨ scaleValue y = 0 → r = 0x7FC00000#32) ∧
    ∀ vc vp, x / 16 % 256 ≠ 255 → y / 16 % 256 ≠ 255 → finiteValue f32 c.toNat = some vc →
      (if int = true then vp = (w.toInt : ℚ) else finiteValue f32 w.toNat = some vp) →
      once f32 (vc + vp * scaleValue x * scaleValue y) r.toNat) ∧
  ∀ w : Word, drainBytes .f32 w = bytesOf 4 w.toNat ∧
    (IsNan32 w → drainBytes .bf16 w = bytesOf 2 0x7FC0 ∧ drainBytes .f16 w = bytesOf 2 0x7E00) ∧
    ∀ p, finiteValue f32 w.toNat = some p →
      ∃ n m, drainBytes .bf16 w = bytesOf 2 n ∧ once bf16 p n ∧ drainBytes .f16 w = bytesOf 2 m ∧ once f16 p m

/-- R35, R36, R37: the oldest element of a launch queue that passes the checks becomes this die's share and a copy for every other die its map
names; one that fails is refused. A copy enters its target's queue when that has room, and becomes the share there. R38, R42, R43, R45:
a team is placed with its groups at their entry, all registers and local memory zero. R44: a share that has found no place for 65,536
clocks drains one target. R46: a process over its traffic share in one
window of 65,536 clocks is held back for the next, once for each window. The model's choices: that an element leaves the launch queue as it
is checked or taken (log 29), and that the placement of another share does not begin the count of R44 anew (log 30). -/
def Obligations.LaunchesArePlaced : Prop :=
  ∀ (s : State) (d : Nat),
    (∀ (e : LaunchElem) (rest : List LaunchElem), (s.die d).launchQ = e :: rest →
      let s0 := s.modDie d fun v => { v with launchQ := rest }
      (∀ es, e.origin ≠ 2 → s.launchBusy d e = false → s0.checkLaunch d e = (s0, .ok es) → (∀ m ∈ es, 0 < mapCount m) →
        let priv := e.recd.getLsbD 525 && e.origin == 0
        ∃ t, exec (.entryDieCheck d) s = .next t ∧ (t.die d).launchQ = rest ∧ t.groups = s.groups ∧ t.mem = s.mem ∧
          (∀ m, (es.find? fun m => mapDie m == s.logDie d) = some m → ∃ x, aget (t.die d).shares s.fresh = some x ∧
            (x.recd, x.map, x.ptag, x.priv, x.life, x.placed, x.recAddr) = (e.recd, m, e.ptag, priv, .waiting, 0, e.recAddr)) ∧
          ∀ ld m, ld ≠ s.logDie d → ld < s.dieMap.length → (es.find? fun m => mapDie m == ld) = some m →
            ∃ k c, aget (t.die d).forwards k = some c ∧
              (c.recd, c.map, c.origin, c.entryDie, c.privBit, c.ptag) = (e.recd, m, 2, s.logDie d, priv, e.ptag)) ∧
      (∀ u code reason, e.origin ≠ 2 → s.launchBusy d e = false → s0.checkLaunch d e = (u, .refused code reason) →
        exec (.entryDieCheck d) s =
          .next ((u.newShare d e 0#256 false .refused).launchNotice d e code reason (if e.origin = 1 then e.recAddr else 0#48))) ∧
      (e.origin = 2 → s0.predRefused d e.ptag e.recd = false → 0 < mapCount e.map →
        ∃ t x, exec (.forwardedCopyTake d) s = .next t ∧ (t.die d).launchQ = rest ∧ aget (t.die d).shares s.fresh = some x ∧
          (x.recd, x.map, x.ptag, x.priv, x.life, x.placed) = (e.recd, e.map, e.ptag, e.privBit, .waiting, 0) ∧ t.groups = s.groups ∧
          t.mem = s.mem)) ∧
    (∀ k c rest p, (s.die d).forwards = (k, c) :: rest → s.physDie? (mapDie c.map) = some p → 0 < launchRoom (s.die p) →
      s.routeUp d p = true → ∃ t, exec (.launchForward d) s = .next t ∧ (t.die p).launchQ = (s.die p).launchQ ++ [c] ∧
        (t.die d).forwards = adel (s.die d).forwards k ∧ { t with dies := s.dies } = s) ∧
    (∀ id x n cores, s.nextPlacement d = some (id, x, n, cores) →
      ∃ t tm, exec (.teamPlacement d) s = .next t ∧ t.team? d n = some tm ∧
        (tm.recd, tm.ptag, tm.priv, tm.share, tm.cores, tm.index, tm.ctxBase, tm.localMem) =
          (x.recd, x.ptag, x.priv, id, cores, BitVec.ofNat 32 (mapFirst x.map + x.placed), x.map.extractLsb' 128 48, []) ∧
        (∀ g, g < recGroups x.recd → ∃ gr, t.group? (groupKey d n g) = some gr ∧ gr.core = coreOf cores g ∧
          gr.frags = [(0, { clause := recAddr x.recd 0, mask := fullMask (recW x.recd) })] ∧ (∀ r l, gr.rd r l = 0#32) ∧
          (∀ r, gr.tag r = {}) ∧ gr.trapVec = recAddr x.recd 256 &&& ~~~7#48 ∧ gr.sticky = 0#6 ∧ gr.name = none ∧ gr.resv = []) ∧
        (∀ y, aget (s.die d).shares id = some y → ∃ z, aget (t.die d).shares id = some z ∧ z.placed = y.placed + 1) ∧
        (∀ i since, i ≠ id → (s.die d).noCore = some (i, since) → (t.die d).noCore = some (i, since))) ∧
    ((s.die d).drain.isSome = true → exec (.drainTarget d) s = .next s) ∧
    (∀ id since e rest l, (s.die d).drain = none → s.waitingTeams d = [] → s.placeable d = e :: rest → e.1 = id →
      (s.die d).noCore = some (id, since) → s.findNew d e.2.recd = none → since + 65536 ≤ s.clock →
      s.drainChoice d e.2.recd [] = some l →
      ∃ t, exec (.drainTarget d) s = .next t ∧ (t.die d).drain = some l ∧ (t.die d).drainFor = none ∧ { t with dies := s.dies } = s) ∧
    let w := (s.dieClock d).toNat / 65536
    ∃ t, exec (.trafficWindow d) s = .next t ∧ { t with dies := s.dies } = s ∧
      ((s.die d).window = w → t.die d = s.die d) ∧
      ((s.die d).window ≠ w → ∀ p, aget (t.die d).traffic p = (aget (s.die d).traffic p).map fun x =>
        { x with held := decide ((s.die d).window + 1 = w ∧ x.share ≠ 0 ∧ x.share * 4096 < x.count), count := 0 })

/-- R300, R301: the oldest element of a die's resume queue is acted on: RESUME lets the parked group go on where it stood, its failed
registers filled with zero where that is asked. R302: KILL ends every group of the team. R303: PREEMPT asks the team to stop, or every team of the process on the die; a team already asked changes its HOLD alone. R309:
RELEASE lets a held team be placed again. R304: a group that has been active for 2^20 clocks since the request stops before its next
clause. R329: a RECRUIT of the clock of the request is answered DRAINING. That FILL_ZERO writes zero to an s register whose read failed
whole is the model's choice (log 32). -/
def Obligations.HostAnswers : Prop :=
  ∀ (s : State) (d n : Nat) (x : ResumeElem) (rest : List ResumeElem) (tm : Team),
    let took (i : Instr) (p : State → Team → Prop) : Prop :=
      ∃ t tt, exec i s = .next t ∧ (t.die d).resumeQ = rest ∧ t.team? d n = some tt ∧ t.mem = s.mem ∧ t.l2 = s.l2 ∧ p t tt
    d < 128 → n < 2048 → s.team? d n = some tm → ResumeElem.slot x = n →
    ((s.die d).resumeQ = x :: rest → s.resumeOk d x = true →
      (∀ (gr : Group) (p : Park), let k := groupKey d n (ResumeElem.grp x)
        ResumeElem.cmd x = 1 → tm.saved = none → s.group? k = some gr → gr.parked = some p → p.fault.source ≠ 4 → gr.held = [] →
        took (.resume d) fun t _ => ∃ gt, t.group? k = some gt ∧ gt.parked = none ∧ gt.parkCount = gr.parkCount ∧
          (∀ e f, aget gr.frags e = some f → ∃ y, aget gt.frags e = some y ∧
            (y.clause, y.idx, y.hdr, y.mask, y.join, y.wait) = (f.clause, f.idx, f.hdr, f.mask, f.join, f.wait)) ∧
          (ResumeElem.fill x = false → (∀ r l, gt.rd r l = gr.rd r l) ∧ gt.tags = gr.tags) ∧
          (ResumeElem.fill x = true → (gr.mchk.map (·.reg)).Nodup → ∀ m ∈ gr.mchk, (gr.tag m.reg).empty = true → (gr.tag m.reg).arm = 0#64 →
            (gt.tag m.reg).empty = false ∧ ∀ l, l < 64 → gt.rd m.reg l =
              if m.reg < 256 ∧ m.bad.getLsbD l = true ∨ 256 ≤ m.reg ∧ m.bad ≠ 0#64 then 0#32 else gr.rd m.reg l)) ∧
      (ResumeElem.cmd x = 2 → tm.saved = none → took (.kill d) fun t tt => tt.killed = true ∧
        ∀ g gr, s.group? (groupKey d n g) = some gr → g < 16 → ∃ gt, t.group? (groupKey d n g) = some gt ∧ gt.frags = [] ∧
          gt.ended = true ∧ gt.parked = none ∧ gt.handler = none ∧ gt.recruit = none) ∧
      (ResumeElem.cmd x = 3 → ResumeElem.all x = false → tm.killed = false → tm.saved = none → tm.preempt = none →
        took (.preempt d) fun t tt => tt.preempt = some { hold := ResumeElem.hold x, since := s.clock } ∧ tt.localMem = tm.localMem ∧
          ∀ g gr, s.group? (groupKey d n g) = some gr → g < 16 → ∃ gt, t.group? (groupKey d n g) = some gt ∧
            ((∀ rc, gr.recruit = some rc → rc.since ≠ some s.clock) → ∀ r l, gt.rd r l = gr.rd r l) ∧
            (∀ rc, gr.recruit = some rc → rc.since = some s.clock → rc.lo.toNat < rc.hi.toNat →
              gt.rd rc.dst rc.lane = 0x20000000#32 ∧ ∃ r, gt.recruit = some r ∧ (r.helpers, r.g, r.next) = ([], 0, rc.lo)) ∧
            ∀ r, gt.recruit = some r → r.dealing = false) ∧
      -- ALL: every team of the process on the die
      (ResumeElem.cmd x = 3 → ResumeElem.all x = true → (s.teams.map (·.1)).Nodup →
        ∃ t, exec (.preempt d) s = .next t ∧ (t.die d).resumeQ = rest ∧ t.mem = s.mem ∧ t.l2 = s.l2 ∧
          ∀ m tn, m < 2048 → s.team? d m = some tn → tn.killed = false → ∃ tt, t.team? d m = some tt ∧ tt.localMem = tn.localMem ∧
            (tn.ptag ≠ ResumeElem.ptag x → tt = tn) ∧
            (tn.ptag = ResumeElem.ptag x →
              (tn.saved = none → tn.preempt = none → tt.preempt = some { hold := ResumeElem.hold x, since := s.clock }) ∧
              (∀ q, tn.saved = none → tn.preempt = some q → tt.preempt = some { q with hold := q.hold || ResumeElem.hold x }) ∧
              ∀ h num, tn.saved = some (h, num) → tt.saved = some (h || ResumeElem.hold x, num))) ∧
      (∀ num hold, ResumeElem.cmd x = 4 → tm.saved = some (hold, num) → took (.release d) fun t tt =>
        { tt with preempt := tm.preempt } = { tm with saved := some (false, num) } ∧ t.groups = s.groups)) ∧
    ∀ (g : Nat) (gr : Group), g < 16 → s.group? (groupKey d n g) = some gr → tm.preempt.isSome = true → gr.bound = false →
      (gr.activeClocks < 2 ^ 20 → exec (.preemptStopBound d n g) s = .next s) ∧
      (2 ^ 20 ≤ gr.activeClocks → ∃ t gt, exec (.preemptStopBound d n g) s = .next t ∧ t.group? (groupKey d n g) = some gt ∧
        gt.bound = true ∧ gt.v = gr.v ∧ gt.s = gr.s ∧ { t with groups := s.groups } = s)

/-- R305 to R308: a team that has stopped is written, piece by piece, to its context block, and leaves its cores; a matrix team's grist table
stays with its sequencer. R306, R93: a group saves every window where it stopped otherwise than at safe points or has no live table, or one
without an entry for a stopped clause; else those of the stopped clauses' masks and those with an EMPTY, armed or lent register. R309: a team
whose context block holds what was saved is restored to its registers, its local memory and, a matrix team, to its tun, on the cores it is
given. (The layout of the sealed records is the device's own, R307; that the marks of grist entries in error are kept is the model's choice,
log 76, and so is the first of two entries for one clause, log 32.) -/
def Obligations.ContextMoves : Prop :=
  (∀ (s : State) (d n : Nat) (tm : Team),
    let w := recW tm.recd
    d < 128 → n < 2048 → s.team? d n = some tm →
    (∀ (base : Nat) (hold : Bool),
      let ms := (s.groupsOf d n).filterMap fun k => (s.group? k).map fun g => (keyG k, (s.saveWindows k g).2)
      let ps := s.savePieces d n s.fresh tm ms
      s.teamSettled d n tm = true → tm.localUe = [] → tm.preempt.map (·.hold) = some hold → s.poison = [] → s.ue = [] →
      (∀ c ∈ tm.cores, (s.core d c).l1 = [] ∧ (s.core d c).tunUe = [] ∧ (s.core d c).gristUe = []) →
      (∀ k g, k ∈ s.groupsOf d n → s.group? k = some g → g.resv = [] ∧ g.stateUe = false ∧ (∀ e ∈ g.tags, e.2.ue = 0#64) ∧
        s.windowsBusy k g = false ∧ (s.saveWindows k g).1 = s) →
      s.ctxBusy d n tm tm.cores (ps.map (·.off)) = false →
      (∀ p ∈ ps, ∃ e c, tlbHit (s.die d).tlb tm.ptag (ctxVa n tm p.off) = some e ∧
        s.chkEntry d e (ctxVa n tm p.off) .write = .ok (base + p.off) c) →
      ∃ t tt, exec (.contextSave d n) s = .next t ∧ t.team? d n = some tt ∧
        (tt.cores, tt.localMem, tt.preempt, tt.saved, tt.savedWin) = ([], [], none, some (hold, s.fresh), ms) ∧
        (∀ q lo hi, tm.seq = some q → tm.cores = [lo, hi] →
          tt.seq = some { q with grist := (s.core d lo).grist, gristPoison := (s.core d lo).gristPoison }) ∧
        (∀ p ∈ ps, ∀ j b, p.data[j]? = some b → t.stackByte d (base + p.off + j) = b) ∧
        ∀ k g, k ∈ s.groupsOf d n → s.group? k = some g → ∃ gt, t.group? k = some gt ∧ gt.v = [] ∧ gt.s = [] ∧ gt.tags = g.tags ∧
          gt.frags = g.frags ∧ gt.lc = g.lc ∧ gt.retired = g.retired) ∧
    ∀ (cores : List Nat) (hold : Bool) (num : Nat) (body : List (Nat × List Byte × Bool)),
      s.nextResume d = some (n, tm, cores) → tm.saved = some (hold, num) → tm.heldResume = [] →
      s.ctxBusy d n tm cores (s.sealOffs d n ++ (s.bodyOffs d n tm).map (·.1)) = false →
      s.checkSeal d n num tm (s.sealOffs d n) = (s, none) → s.readBody d n tm (s.bodyOffs d n tm) = (s, .ok body) →
      ∃ t tt, exec (.teamResume d) s = .next t ∧ t.team? d n = some tt ∧ (tt.cores, tt.saved, tt.index) = (cores, none, tm.index) ∧
        (∀ b l bad j, b < 0x2800 → (0x240000 + 64 * b, l, bad) ∈ body → j < 64 → tt.localByte (64 * b + j) = l[j]?.getD 0#8) ∧
        (∀ q lo hi, tm.seq = some q → cores = [lo, hi] → lo < 128 → hi < 128 → lo ≠ hi →
          (∃ qt, tt.seq = some qt ∧ (qt.mmas, qt.m, qt.stepCount, qt.halted, qt.faulted) = (q.mmas, q.m, q.stepCount, q.halted, q.faulted) ∧
            qt.front = { q.front with stall := .none }) ∧
          (∀ c ∈ cores, (t.core d c).grist = q.grist ∧ (t.core d c).gristPoison = q.gristPoison) ∧
          ∀ r l bad, r < 2048 → (0x2E0000 + 64 * r, l, bad) ∈ body →
            (∀ i, i < 16 → 4 * i + 4 ≤ l.length → t.tunWord d tt r i = BitVec.ofNat 32 (fieldAt l (4 * i) 4)) ∧
            (bad = true → r % 1024 ∈ (t.core d (tt.tunCore r)).tunPoison)) ∧
        ∀ g gr, g < 16 → s.group? (groupKey d n g) = some gr → ∃ gt, t.group? (groupKey d n g) = some gt ∧
          gt.core = coreOf cores g ∧ (gt.lc, gt.retired, gt.parked, gt.name) = (gr.lc, gr.retired, gr.parked, gr.name) ∧
          (∀ e f, aget gr.frags e = some f → ∃ y, aget gt.frags e = some y ∧ y.stopped = .no ∧
            (y.clause, y.idx, y.hdr, y.mask, y.join) = (f.clause, f.idx, f.hdr, f.mask, f.join)) ∧
          ∀ i j o l bad, i < 32 → j < w / 2 → o < 16 → (windowOff w g i + 64 * j, l, bad) ∈ body →
            gt.rd (8 * i + (16 * j + o) / w) ((16 * j + o) % w) = BitVec.ofNat 32 (fieldAt l (4 * o) 4)) ∧
  ∀ (s : State) (k : Nat) (g : Group) (p c n : Nat),
    let d := keyDie k
    let table := g.liveTab.toNat
    let full (b : Nat) : Prop := (allWindows (s.recOf k)).getLsbD b = true
    let clause (i : Nat) : Nat := s.stackRead d (p + 16 * i + 26) 6
    let mask (i : Nat) : BitVec 80 := BitVec.ofNat 80 (s.stackRead d (p + 16 * i + 16) 10)
    let finds (a : Addr) (i : Nat) : Prop := i < n ∧ clause i = a.toNat ∧ ∀ j, j < i → clause j ≠ a.toNat
    (g.parked.isSome = true ∨ g.bound = true ∨ g.liveTab = 0#48 ∨ (∃ e ∈ g.frags, e.2.stopped ≠ .safe) →
      s.saveWindows k g = (s, allWindows (s.recOf k))) ∧
    (s.chkNow d (s.ptagOf k) table 16 .read = .miss ∨ (∃ a b, s.chkNow d (s.ptagOf k) table 16 .read = .bad a b) →
      s.saveWindows k g = (s, allWindows (s.recOf k))) ∧
    (g.parked = none → g.bound = false → g.liveTab ≠ 0#48 → (∀ e ∈ g.frags, e.2.stopped = .safe) → s.poison = [] → s.ue = [] →
      n = s.stackRead d p 4 → (∀ i, i ≤ n → s.chkNow d (s.ptagOf k) (table + 16 * i) 16 .read = .ok (p + 16 * i) c) →
      ((∃ e ∈ g.frags, ∀ i, ¬finds e.2.clause i) → s.saveWindows k g = (s, allWindows (s.recOf k))) ∧
      ∀ pick : Addr → Nat, (∀ e ∈ g.frags, finds e.2.clause (pick e.2.clause)) →
        (s.saveWindows k g).1 = s ∧ ∀ b, ((s.saveWindows k g).2.getLsbD b = true ↔ full b ∧
          ((∃ e ∈ g.frags, (mask (pick e.2.clause)).getLsbD b = true) ∨
           ∃ e ∈ g.tags, (e.2.empty = true ∨ e.2.arm ≠ 0#64 ∨ e.2.lent = true) ∧ b = if e.1 < 256 then e.1 / 8 else 32 + (e.1 - 256) / 8)))

/-- R366 to R371: a request of the host on a connection with room in its window, arriving in its order. A PUT to the launch queue of a
die enters its elements there; any other PUT, and a GET, goes to its queue's home port as a QRP, QTRY or QGET would, and what the home
port answers is sent as DATA and DONE; a GET that reaches its home port takes elements from HEAD. WRITE stores bytes and READ sends
them; each is answered by DONE. OPEN adds a connection and CLOSE ends it; an ACK lets frames leave the window; what is not acknowledged
in time is sent again, and a frame out of its order is answered by an ACK, which bears the die that manages the port. R364, R365: a frame
that is not for the port is dropped and counted; every frame is read from, and sent as, its bytes behind the Ethernet header. The model's choices here: the clamped values of OPEN and one DATA frame per element (log 27), and the
READY summary's layout, with what exceeds a frame in further OPENED frames (log 24). -/
def Obligations.HostFrames : Prop :=
  ∀ (s : State) (f : HostFrame) (x : Conn),
    let c := f.conn.toNat
    let l := f.payload
    let q := BitVec.ofNat 32 (fieldAt l 0 4)
    (∀ (g : DevFrame) (e : BitVec 16) (m : BitVec 48), g.payload.length < 2 ^ 14 → c < 2 ^ 16 →
      let h : HostFrame := { mac := m, etype := e, data := g.bytes c }
      (h.ver, h.len.toNat, h.typ, h.die, h.rsv, h.ptag, h.conn.toNat, h.seq, h.ack, h.payload) =
        (1#2, g.payload.length, g.typ, g.die, 0#4, g.ptag, c, g.seq, g.ack, g.payload)) ∧
    (s.portUp = true →
    (s.frameBad f = true → exec (.droppedFrame f) s = .next s.dropFrame ∧ s.dropFrame.dropped = s.dropped + 1) ∧
    (∀ m, s.frameBad f = false → f.typ = 1#8 → s.manager 0 = some m → 8 ≤ l.length → s.conns.length + s.msgs.length < 2 ^ 16 →
      ∃ t c' y, exec (.openConn f) s = .next t ∧ aget s.conns c' = none ∧ aget t.conns c' = some y ∧
        (∀ e ∈ s.msgs, ∀ i st, e.2.sender ≠ .host c' i st) ∧ (∀ i, i ≠ c' → aget t.conns i = aget s.conns i) ∧
        (y.window, y.frame, y.timeout) =
          (max 1 (min (fieldAt l 0 2) 4096), max 1518 (min (fieldAt l 2 2) 9216), max 10 (min (fieldAt l 4 4) 100000)) ∧
        (let gs := y.unacked ++ y.backlog
         y.unacked = gs.take y.window ∧ t.hostOut = s.hostOut ++ y.unacked.map (fun g => (c', g.bytes c')) ∧
         (gs.map (·.payload)).flatten = bytesOf 2 y.window ++ bytesOf 2 y.frame ++ bytesOf 4 y.timeout ++ s.readySummary ∧
         ∀ i g, gs[i]? = some g → (g.typ, g.seq, g.ptag) = (2#8, BitVec.ofNat 32 i, f.ptag) ∧ g.payload.length ≤ min 8192 (y.frame - 34)) ∧
        t.mem = s.mem ∧ t.dies = s.dies ∧ t.queues = s.queues) ∧
    (aget s.conns c = some x →
      (∀ g rest n, s.frameBad f = false → f.typ = 0#8 → x.unacked = g :: rest → x.backlog = [] → n = (f.ack - g.seq).toNat → 0 < n →
        n ≤ x.unacked.length → ∃ t y, exec (.ack f) s = .next t ∧ aget t.conns c = some y ∧ y.unacked = x.unacked.drop n ∧
          y.retries = 0 ∧ { t with conns := s.conns } = s) ∧
      (x.unacked ≠ [] → x.retries < 64 →
        (s.clock < x.lastAck + x.timeout * 800 → exec (.retransmissionTimeout c) s = .next s) ∧
        (x.lastAck + x.timeout * 800 ≤ s.clock → ∃ t y, exec (.retransmissionTimeout c) s = .next t ∧ aget t.conns c = some y ∧
          y.retries = x.retries + 1 ∧ t.hostOut = s.hostOut ++ x.unacked.map (fun g => (c, DevFrame.bytes { g with ack := x.rxSeq } c)) ∧
          { t with conns := s.conns, hostOut := s.hostOut } = s)) ∧
      (∀ m, s.manager 0 = some m → s.frameBad f = false → x.unacked = [] → f.typ = 9#8 → f.seq ≠ x.rxSeq →
        let a : DevFrame := { seq := 0#32, typ := 0#8, ack := x.rxSeq, ptag := 0#12, die := BitVec.ofNat 8 (s.logDie m), payload := [] }
        exec (.close f) s = .next { s with hostOut := s.hostOut ++ [(c, a.bytes c)] }) ∧
      (s.frameBad f = false → x.unacked = [] → x.backlog = [] → f.seq = x.rxSeq →
        (f.typ = 9#8 → ∃ t, exec (.close f) s = .next t ∧ aget t.conns c = none ∧ t.mem = s.mem ∧ t.groups = s.groups) ∧
        ∀ d, s.physDie? f.die.toNat = some d →
          (∀ es, f.typ = 3#8 → s.hostReady f .produce [0] = true → putElems l = some es →
            (qidKind q = 2 → 0 < x.window → sysQueue q (s.logDie d) = some 0 → (∀ e ∈ es, e.data.length = 256) → es.length ≤ launchRoom (s.die d) →
              ∃ t, exec (.put f) s = .next t ∧ (t.die d).launchQ = (s.die d).launchQ ++ es.map (launchOf f.ptag) ∧
                s.sent t c x [(8, donePayload f 0 0)] ∧ t.queues = s.queues ∧ t.groups = s.groups ∧ t.mem = s.mem) ∧
            (∀ e, qidKind q ≠ 2 → 0 < x.window → s.transQ d f.ptag q .produce false [0] = .error e → e ≠ 1 →
              ∃ t, exec (.put f) s = .next t ∧ s.sent t c x [(8, donePayload f (doneStatus e) 0)] ∧
                t.queues = s.queues ∧ t.groups = s.groups ∧ t.mem = s.mem) ∧
            ∀ h gen z, s.transQ d f.ptag q .produce false [0] = .ok (h, gen) → es ≠ [] → (∀ e ∈ es, sizeCodeOf e.data.length = z) →
              ∃ t, exec (.put f) s = .next t ∧ s.hostAsked t f x d false h gen (.qrp (some z) es)) ∧
          (∀ h gen, let n := fieldAt l 4 2
            f.typ = 4#8 → s.hostReady f .consume [0, 1] = true → 7 ≤ l.length → 0 < n → s.transQ d f.ptag q .consume false [0, 1] = .ok (h, gen) →
            (fieldAt l 6 1 = 0 → ∃ t, exec (.get f) s = .next t ∧ s.hostAsked t f x d false h gen (.get 7#3 n true)) ∧
            (fieldAt l 6 1 = 1 → ∃ t, exec (.get f) s = .next t ∧ s.hostAsked t f x d true h gen (.get 7#3 1 false))) ∧
          (∀ base, let a := fieldAt l 8 8
            s.poison = [] → s.ue = [] → fieldAt l 0 1 ≤ 1 → (fieldAt l 0 1 = 1 → a < Config.stackBytes) → 0 < x.window → base % 64 = a % 64 →
            (f.typ = 6#8 → 16 ≤ l.length → s.bulkReady f (l.length - 16) = true → base + (l.length - 16) ≤ 2 ^ 36 →
              (∀ p ∈ spanCuts a (l.length - 16) (l.length - 16), s.bulkAt d f.ptag (fieldAt l 0 1) p.1 p.2 = .ok (base + (p.1 - a))) →
              ∃ t, exec (.write f) s = .next t ∧ (∀ i b, (l.drop 16)[i]? = some b → t.stackByte d (base + i) = b) ∧
                s.stackFrame t d base (l.length - 16) ∧ s.sent t c x [(8, donePayload f 0 0)] ∧ t.groups = s.groups) ∧
            ∀ n room, f.typ = 7#8 → 20 ≤ l.length → n = fieldAt l 16 4 → n ≤ 2 ^ 20 → s.bulkReady f n = true → room = min 8192 (x.frame - 34) → 0 < room →
              (n + room - 1) / room < x.window →
              (∀ p ∈ spanCuts a n n, s.bulkAt d f.ptag (fieldAt l 0 1) p.1 p.2 = .ok (base + (p.1 - a))) →
              ∃ (t : State) (fs : List (List Byte)), exec (.read f) s = .next t ∧ s.sent t c x (fs.map (fun b => (5, b)) ++ [(8, donePayload f 0 0)]) ∧
                fs.flatten = (List.range n).map (fun i => s.stackByte d (base + i)) ∧ (∀ b ∈ fs, b.length ≤ room) ∧
                t.mem = s.mem ∧ t.l2 = s.l2 ∧ t.groups = s.groups)) ∧
      -- what a home port answers to a request of the connection, and a GET served at its home port here
      ∀ id m st, aget s.msgs id = some m → m.sender = .host c f.seq st → x.backlog = [] → s.backUp m = true →
        let datas (es : List Elem) := es.map fun e => (5, bytesOf 8 e.tag.toNat ++ e.data)
        let kept (t : State) : Prop := t.groups = s.groups ∧ t.mem = s.mem
        (∀ a, aget s.answers id = some a → (∀ es, a ≠ .served es) → x.unacked.length < x.window → (st && m.told) = false →
          ∃ t, exec (.portPutAnswer id) s = .next t ∧ s.sent t c x [(8, donePayload f a.status 0)] ∧
            aget t.msgs id = none ∧ aget t.answers id = none ∧ t.queues = s.queues ∧ kept t) ∧
        (∀ es, aget s.answers id = some (.served es) → x.unacked.length + es.length < x.window →
          (st = false → ∃ t, exec (.portPutAnswer id) s = .next t ∧ s.sent t c x (datas es ++ [(8, donePayload f 0 es.length)]) ∧
            aget t.msgs id = none ∧ aget t.answers id = none ∧ t.queues = s.queues ∧ kept t) ∧
          (st = true → m.told = false → m.home.panel ≠ s.panelNo →
            { s with answers := adel s.answers id, msgs := adel s.msgs id }.streamRoom m.sender m.ptag m.qid = true →
            ∃ t y, exec (.portPutAnswer id) s = .next t ∧ s.sent t c x ((8, donePayload f 0 0) :: datas es) ∧
              aget t.msgs id = some y ∧ (y.sender, y.qid, y.ask, y.told, y.accepted, y.out) = (m.sender, m.qid, m.ask, true, false, false) ∧
              y.seq = sget 0#32 s.streams m.stream ∧ aget t.answers id = none ∧ t.queues = s.queues ∧ kept t)) ∧
        ∀ k u n es rest, st = false → m.accepted = false → m.dead = false → s.canServe id m = true → m.ask = .get 7#3 n true →
          s.homeCheck m.home m.ptag m.gen true = .ok (k, u) → u.landing = none → n ≤ u.window →
          (es, rest) = (if u.waiters = [] then takeUpTo u.pos n else ([], u.pos)) → x.unacked.length + es.length < x.window →
          ∃ t, exec (.getRequest id) s = .next t ∧ s.sent t c x (datas es ++ [(8, donePayload f 0 es.length)]) ∧
            aget t.queues k = some (u.taken s.clock rest) ∧ aget t.msgs id = none ∧ kept t))

/-- R372 to R375: the oldest command of a die, in range, has the effect of its code and completes; one of no assigned code is refused. The
tables: R312 (INVALIDATE_VA), R228 (INVALIDATE_QID), R311 (PROCESS), R238 (SLOT), R46 (SHARE), R390 (ROUTES), R386 (ROW_REPAIR), R387
(LANE_SWAP), R22 and R388 (RETIRE_CORE), R389 (EXCLUDE_DIE), R22 (RENUMBER), R261 (KEY_INSTALL), R380 (LINK_RESET), R384 (SELFTEST),
R364 (PORT). The model's choices here: LANE_SWAP completes with the training that follows, in the session in force or, where a training
is under way or no session is in force, in a new one; LINK_RESET and KEY_INSTALL complete at once with the link in training; a SELFTEST
whose location no RAS element could name is refused (log 33). -/
def Obligations.Commands : Prop :=
  ∀ (s : State) (d : Nat) (c : List Byte) (rest : List (List Byte)),
    let x (o n : Nat) := fieldAt c o n
    let s0 := s.modDie d fun v => { v with cmdQ := rest }
    let did (code : Nat) (i : Instr) (p : State → Prop) : Prop := x 0 1 = code → ∃ t, exec i s = .next t ∧ s.completed t d c rest 0 ∧ p t
    (s.die d).cmdQ = c :: rest → (s.die d).rasQ.length < 4351 →
    ((s.die d).cmdBusy = none → cmdZero c = true → s.cmdBusyRows d c = false →
      (x 8 2 < 4096 → x 16 8 % 65536 = 0 → x 16 8 < 2 ^ 48 → 1 ≤ x 24 4 → s.vaBusy d c = false →
        ((s.die d).tlb.map (·.1)).Nodup → (∀ j, j < 128 → ((s.core d j).tlb.map (·.1)).Nodup) → d < 128 →
        let inside (k : Nat) (e : TlbEntry) : Prop :=
          k / 2 ^ 32 = x 8 2 ∧ x 16 8 / 65536 < k % 2 ^ 32 + pageSize e.level / 65536 ∧ k % 2 ^ 32 < x 16 8 / 65536 + x 24 4
        did 1 (.invalidateVa d) fun t =>
          (∀ k e, aget (t.die d).tlb k = some e ↔ aget (s.die d).tlb k = some e ∧ ¬inside k e) ∧
          ∀ j k e, j < 128 → (aget (t.core d j).tlb k = some e ↔ aget (s.core d j).tlb k = some e ∧ ¬inside k e)) ∧
      (x 8 2 < 4096 → x 12 4 < 2 ^ 30 → 1 ≤ x 16 4 → did 2 (.invalidateQid d) fun t => ∀ n, n < 2 ^ 30 →
        aget (t.die d).qcache (x 8 2 * 2 ^ 30 + n) =
          if x 12 4 ≤ n ∧ n < x 12 4 + x 16 4 then none else aget (s.die d).qcache (x 8 2 * 2 ^ 30 + n)) ∧
      (x 8 2 < 4096 → x 16 8 % 256 = 0 → x 24 8 % 8 = 0 → 1 ≤ x 32 4 → x 32 4 ≤ 2 ^ 30 → x 16 8 + 4096 ≤ Config.stackBytes →
        x 24 8 + 8 * x 32 4 ≤ Config.stackBytes → did 3 (.process d) fun t =>
          aget (t.die d).procs (x 8 2) = some { root := x 16 8, qtab := x 24 8, qlen := x 32 4 } ∧ sget 0#32 (t.die d).discards (x 8 2) = 0#32) ∧
      (∀ q, let k := queueKey d (x 8 1) (x 10 2)
        x 8 1 < 4 → x 10 2 < 4096 → 0 < x 16 2 → s0.slotQueue d k c = some q → q.landing = none →
        (∀ u, aget s.queues k = some u → u.waiters = []) → did 4 (.slot d) fun t => t.queues = aput s.queues k q) ∧
      (x 0 1 = 4 → slotRange c = false → ∃ t, exec (.slot d) s = .next t ∧ s.completed t d c rest 1 ∧ t.queues = s.queues) ∧
      (slotRange c = true → x 16 2 = 0 → (∀ u, aget s.queues (queueKey d (x 8 1) (x 10 2)) = some u → u.waiters = []) →
        did 4 (.slot d) fun t => t.queues = adel s.queues (queueKey d (x 8 1) (x 10 2))) ∧
      (x 8 2 < 4096 → did 5 (.share d) fun t => ∃ y, aget (t.die d).traffic (x 8 2) = some y ∧ y.share = x 12 4) ∧
      (s.poison = [] → s.ue = [] → x 16 8 + 256 ≤ Config.stackBytes →
        (∀ i, i < 256 → bits (s.stackByte d (x 16 8 + i)) 6 5 = 0) → BitVec.ofNat 8 (x 8 1) = s.panelNo ∨ s.launchResident = false →
        did 6 (.routes d) fun t => t.panelNo = BitVec.ofNat 8 (x 8 1) ∧
          t.routes = some ((List.range 256).map fun i => s.stackByte d (x 16 8 + i))) ∧
      (∀ spare, x 0 1 = 7 → x 8 1 < 96 → x 12 4 < 2 ^ 24 → x 16 1 < 2 →
        let room : Prop := if x 16 1 = 1 then (agetD s.flash.remaps (repairKey d c) []).length < 256 else spare = true
        (room → ∃ t, exec (.rowRepair d spare) s = .next t ∧ (t.die d).cmdBusy = some c ∧ (t.die d).cmdQ = rest ∧ { t with dies := s.dies } = s) ∧
        (¬room → ∃ t, exec (.rowRepair d spare) s = .next t ∧ s.completed t d c rest 1)) ∧
      (let key := (d * 4 + x 9 1) * 8 + x 10 1;
        x 0 1 = 8 → s.linkOwned d 0 (x 9 1) = true → x 8 1 = 0 → x 10 1 < 8 → agetD s.flash.spares key [] = [] →
        (∃ t, exec (.laneSwap d true) s = .next t ∧ agetD t.flash.spares key [] = [x 11 1] ∧ (t.die d).cmdBusy = some c ∧ (t.die d).cmdQ = rest ∧
          t.d2dDown = nsInsert s.d2dDown (linkKey d (x 9 1)) ∧ t.d2dTrain = nsInsert s.d2dTrain (linkKey d (x 9 1))) ∧
        ∃ t, exec (.laneSwap d false) s = .next t ∧ s.completed t d c rest 2 ∧ t.d2dDown = nsInsert s.d2dDown (linkKey d (x 9 1))) ∧
      (∀ y, x 0 1 = 8 → s.linkOwned d 1 (x 9 1) = true → x 8 1 = 1 → x 10 1 = 0 → x 11 1 < 18 → aget s.links (x 9 1) = some y →
        (agetD s.flash.spares (2 ^ 16 + x 9 1) []).length < 2 → ∃ t, exec (.laneSwap d true) s = .next t ∧
          agetD t.flash.spares (2 ^ 16 + x 9 1) [] = agetD s.flash.spares (2 ^ 16 + x 9 1) [] ++ [x 11 1] ∧ (t.die d).cmdBusy = some c ∧
          (t.die d).cmdQ = rest ∧
          aget t.links (x 9 1) = some { y with up := false, training := some (y.training.getD (s.clock, !y.txKey.isEmpty)) }) ∧
      (x 8 1 < 128 → (s.fusedCores d).getLsbD (x 8 1) = false → (s.die d).retired.getLsbD (x 8 1) = false →
        (s.die d).hold.getLsbD (x 8 1) = false → s.coreEmpty d (x 8 1) = true → did 9 (.retireCore d) fun t =>
          ((t.die d).hold ||| (t.die d).retired).getLsbD (x 8 1) = true ∧ (sget 0#128 t.flash.retCores d).getLsbD (x 8 1) = true) ∧
      (d < 128 → x 8 1 = d → did 10 (.excludeDie d) fun t => t.exclNow.getLsbD d = true ∧ t.flash.exclDies.getLsbD d = true ∧
        t.dieMap = s.dieMap) ∧
      (s.launchResident = false → did 11 (.renumber d) fun t => t.dieMap = (List.range Config.nDies).filter fun i =>
        (s.die i).live && !s.exclNow.getLsbD i && !(s.die i).coreMap.isEmpty) ∧
      (∀ y, s.linkOwned d 1 (x 8 1) = true → aget s.links (x 8 1) = some y → x 9 1 < 2 → x 16 8 % 32 = 0 → x 16 8 + 32 ≤ Config.stackBytes →
        s.poison = [] → s.ue = [] → did 12 (.keyInstall d) fun t =>
          aget t.flash.keys (x 8 1 * 2 + x 9 1) =
            some { key := (List.range 32).map fun i => s.stackByte d (x 16 8 + i), const := BitVec.ofNat 32 (x 12 4) } ∧
          (∀ i, i < 32 → t.stackByte d (x 16 8 + i) = 0#8) ∧
          ∃ z, aget t.links (x 8 1) = some z ∧ (z.up, z.training, z.txKey, z.rxKey) = (false, some (s.clock, false), [], [])) ∧
      (∀ y, s.linkOwned d 1 (x 9 1) = true → aget s.links (x 9 1) = some y → x 8 1 = 1 → did 13 (.linkReset d) fun t =>
        ∃ z, aget t.links (x 9 1) = some z ∧ (z.up, z.training, z.txKey, z.rxKey) = (false, some (s.clock, false), [], [])) ∧
      (s.linkOwned d 0 (x 9 1) = true → x 8 1 = 0 → did 13 (.linkReset d) fun t =>
        t.d2dDown.contains (linkKey d (x 9 1)) = true ∧ t.d2dTrain.contains (linkKey d (x 9 1)) = true) ∧
      (∀ r, s.selftestOk d (x 8 1) (x 12 4) (x 16 8) (x 24 4) = false → x 0 1 = 14 →
        ∃ t, exec (.selftest d r) s = .next t ∧ s.completed t d c rest 1) ∧
      (∀ r, s.selftestOk d (x 8 1) (x 12 4) (x 16 8) (x 24 4) = true → r ≠ TestResult.fail → did 14 (.selftest d r) fun t => ∃ e, e ∈ (t.die d).rasQ ∧
        (e.kind, e.struct_, e.unit, e.addr, e.detail) = (1, x 8 1, x 12 4, x 16 8, x 24 4)) ∧
      (s.manager 0 = some d → did 15 (.port d) fun t => t.flash.etherType = BitVec.ofNat 16 (x 8 2) ∧ t.etherNow = s.etherNow)) ∧
    ((s.die d).cmdBusy = none → x 0 1 = 0 ∨ 15 < x 0 1 → ∃ t, exec (.refusedCommand d) s = .next t ∧ s.completed t d c rest 1 ∧
      { t with dies := s.dies } = s) ∧
    ∀ b, (s.die d).cmdBusy = some b →
      (fieldAt b 0 1 = 1 → s.vaBusy d b = false → ∃ t, exec (.invalidateVa d) s = .next t ∧ s.completed t d b (c :: rest) 0) ∧
      (∀ l y since ti, fieldAt b 0 1 = 8 → fieldAt b 8 1 = 1 → fieldAt b 9 1 = l → s.manager l = some d → aget s.links l = some y →
        y.training = some (since, true) → y.txStopped = false → s.clock < since + 400000000 → ∃ t, exec (.linkTrainingComplete true l ti) s = .next t ∧
          s.completed t d b (c :: rest) 0 ∧ ∃ z, aget t.links l = some z ∧ (z.up, z.training) = (true, none)) ∧
      (∀ i ti, fieldAt b 0 1 = 8 → fieldAt b 8 1 = 0 → fieldAt b 9 1 = i → i < 4 → s.d2dTrain.contains (linkKey d i) = true →
        (∃ t, exec (.linkTrainingComplete false (linkKey d i) ti) s = .next t ∧ s.completed t d b (c :: rest) 0 ∧
          t.d2dDown = nsErase s.d2dDown (linkKey d i)) ∧
        ∃ t, exec (.linkTrainingTimeout false (linkKey d i)) s = .next t ∧ s.completed t d b (c :: rest) 2) ∧
      ∀ ok, fieldAt b 0 1 = 7 → s.ue = [] → ∃ t, exec (.rowRepairComplete d ok) s = .next t ∧
        (s.wakeDie d).completed t d b (c :: rest) (if ok then 0 else 2) ∧
        agetD t.flash.remaps (repairKey d b) [] = agetD s.flash.remaps (repairKey d b) [] ++ [fieldAt b 12 4]

/-- R19, R20, R376: bring-up makes live each die that is not fused off, excluded or failed and has a core, and numbers dies and cores. R364, R376:
the host port comes up once no Delup link is in training, if a die manages its router die (R378). R383 to R385: targeted tests run and their results are
reported, with the time of the error; that the first that does not run
starts and the first that runs completes, of several that may run at once, is the model's choice (log 36). R392, R393: heat is reported, and a trip or the loss of power leaves only the flash. -/
def Obligations.PowerAndTests : Prop :=
  ∀ (s : State),
    (∀ b, s.phase = .off → ∃ t, exec (.bringup b) s = .next t ∧ t.phase = .up ∧ t.flash = s.flash ∧ t.mem = [] ∧ t.l2 = [] ∧ t.teams = [] ∧
      t.groups = [] ∧ t.queues = [] ∧ t.conns = [] ∧ t.hostPort = false ∧ t.etherNow = s.flash.etherType ∧
      (∀ d, d < 128 → let r := numberCores (sget 0#128 s.flash.retCores d ||| s.fusedCores d)
        (t.die d).coreMap = r.1 ∧ (t.die d).pairs = r.2 ∧
        (t.die d).live = (!s.flash.fuseDies.getLsbD d && !s.flash.exclDies.getLsbD d && !b.darkDies.contains d && !b.deadStacks.contains d &&
          !r.1.isEmpty)) ∧
      t.dieMap = (List.range 128).filter fun d => (t.die d).live) ∧
    (∀ b, s.phase = .up → exec (.bringup b) s = .next s) ∧
    (s.phase = .up → s.hostPort = false → (∀ e ∈ s.links, e.2.training = none) →
      ((s.manager 0).isSome = true → exec (.hostPortTrainRetry true) s = .next { s with hostPort := true }) ∧
      (s.manager 0 = none → exec (.hostPortTrainRetry true) s = .next s) ∧ exec (.hostPortTrainRetry false) s = .next s) ∧
    (∀ d a x b, (s.die d).tests = a ++ x :: b → (∀ y ∈ a, y.running = true) → x.running = false →
      ∃ t, exec (.targetedTestStart d) s = .next t ∧ (t.die d).tests = a ++ { x with running := true } :: b ∧ { t with dies := s.dies } = s) ∧
    (∀ d x r, (s.die d).tests.find? (·.running) = some x → (s.die d).rasQ.length < 4352 →
      ∃ t e, exec (.targetedTestComplete d r) s = .next t ∧ (t.die d).tests = (s.die d).tests.filter (· != x) ∧
        (t.die d).rasQ = (s.die d).rasQ ++ [e] ∧ (e.kind, e.struct_, e.unit, e.sev, e.time) = (1, x.struct_, x.unit, x.sev, x.time) ∧
        (r = .fail → e.cls = 2) ∧ { t with dies := s.dies, groups := s.groups } = s ∧ t.groups = (s.wakeDie d).groups) ∧
    (∀ d, (s.die d).live = true → (s.die d).rasQ.length < 4352 →
      ∃ t, exec (.thermalReport d) s = .next t ∧ s.reported t d { kind := 5 } ∧ { t with dies := s.dies } = s) ∧
    ∀ i ∈ [Instr.thermalTrip, .powerDown], ∃ t, exec i s = .next t ∧ t.phase = .off ∧ t.flash = s.flash ∧ t.mem = [] ∧ t.l2 = [] ∧
      t.teams = [] ∧ t.groups = [] ∧ t.dies = [] ∧ t.queues = [] ∧ t.conns = []

/-- R214, R217, R220: a ready record inside local memory, its bytes apart, is started with every byte it has to move; a malformed one moves
nothing. R178, R214: the bytes of one aligned 8 bytes of the destination move at once, each the byte that stands at its source, and
others in turns of their own.
R217, R219, R221: a record that finishes writes its STATUS and lowers its successor, which is ready at 0; a submission with no record
left lowers its counter, in a turn of its own after the last record's arrival (log 2). -/
def Obligations.RecordsRun : Prop :=
  ∀ (s : State) (d c sub k : Nat) (u : Submission) (tm : Team),
    d < 128 → u.slot < 2048 → u.g < 16 → u.die = d → aget (s.core d c).subs sub = some u → s.team? d u.slot = some tm → tm.killed = false →
    tm.localPoison = [] → tm.localUe = [] → (∀ st v a, s.sramBusy d st v a = false) →
    let L := recL tm.recd
    let H := halfOf L
    (∀ (root : Bool),
      let f : RecBits := BitVec.ofNat 512 (tm.localRead k 64)
      let began (t : State) (y : RunRec) : Prop := exec (.recordStart d c sub k) s = .next t ∧ t.teams = s.teams ∧
        ∃ v, aget (t.core d c).subs sub = some v ∧ v.ready = u.ready.erase (k, root) ∧ v.running = aput u.running u.nextRec y ∧
          t.groups = s.groups ∧ t.mem = s.mem ∧ t.l2 = s.l2
      let spot (p : Spot) : Place := { loc := true, addr := p.at_.toNat, cls := 0 }
      u.ready.find? (fun e => e.1 == k) = some (k, root) → (s.core d c).runningCount < 4 → (root = true → bits f 31 16 = 0) →
      bits f 479 448 ≠ 2 →
      (f.malformed L (recPair tm.recd) = true → ∃ t, began t { addr := k, fields := f, result := 3 }) ∧
      (f.malformed L (recPair tm.recd) = false → f.rangeOk L H = true → f.lowerOk H = true → f.dstLocal = true →
        f.srcLocal = true ∨ f.kind = 3 →
        (f.moves H).Pairwise (fun m m' => m.dst ≠ m'.dst) → (∀ m ∈ f.moves H, ∀ m' ∈ f.moves H, m.src ≠ some m'.dst) →
        let plan (m : Move) : EngMove :=
          { src := m.src.map spot, byte := (m.src.map fun p => tm.localByte p.at_.toNat).getD m.fill, dst := spot m.dst }
        ∃ t, began t { addr := k, fields := f, result := 1, todo := (f.moves H).map plan, overlap := false })) ∧
    (∀ (r : RunRec) (i j : Nat) (m : EngMove) (more : List Turn),
      let now (x : EngMove) : Prop := x.dst.addr / 8 = m.dst.addr / 8
      s.agenda = .engine d c sub j i :: more → aget u.running j = some r → r.todo[i]? = some m → r.overlap = false →
      (∀ x ∈ r.todo, x.dst.loc = true ∧ ∀ p, x.src = some p → p.loc = true) → r.todo.Pairwise (fun x y => x.dst.addr ≠ y.dst.addr) →
      ∃ t tt v y, step s = .next t ∧ t.team? d u.slot = some tt ∧ aget (t.core d c).subs sub = some v ∧ v.running = aput u.running j y ∧
        (y.addr, y.result) = (r.addr, r.result) ∧ (∀ x, x ∈ y.todo ↔ x ∈ r.todo ∧ ¬now x) ∧
        (∀ x ∈ r.todo, now x → tt.localByte x.dst.addr = (x.src.map fun p => tm.localByte p.addr).getD x.byte) ∧
        (∀ a, (∀ x ∈ r.todo, now x → x.dst.addr ≠ a) → tt.localByte a = tm.localByte a) ∧ t.groups = s.groups ∧ t.mem = s.mem) ∧
    (∀ (g : Group) (more : List Turn), s.agenda = .settle d c sub :: more → s.group? (groupKey d u.slot u.g) = some g → g.uid = u.uid →
      (u.ready = [] → u.running = [] → ∃ t gt, step s = .next t ∧ t.group? (groupKey d u.slot u.g) = some gt ∧
        gt.counter u.k = g.counter u.k - 1 ∧ (∀ j, j ≠ u.k → gt.counter j = g.counter j) ∧ (∀ x l, gt.rd x l = g.rd x l) ∧
        aget (t.core d c).subs sub = none ∧ (∀ i, i ≠ sub → aget (t.core d c).subs i = aget (s.core d c).subs i) ∧
        t.teams = s.teams ∧ t.mem = s.mem ∧ t.l2 = s.l2) ∧
      (u.ready ≠ [] ∨ u.running ≠ [] → step s = .next { s with agenda := more, cur := none })) ∧
    ∀ (r : RunRec) (g : Group), aget u.running k = some r → r.result = 1 → r.todo = [] → RecBits.barrier r.fields = noLink →
      s.group? (groupKey d u.slot u.g) = some g → g.uid = u.uid →
      (RecBits.succs r.fields = [noLink, noLink] → ∃ t tt gt, exec (.recordFinish d c sub k) s = .next t ∧ t.team? d u.slot = some tt ∧
        tt.localRead (r.addr + 56) 4 = 1 ∧ (∀ a, a < r.addr + 56 ∨ r.addr + 60 ≤ a → tt.localByte a = tm.localByte a) ∧
        t.group? (groupKey d u.slot u.g) = some gt ∧ (∀ x l, gt.rd x l = g.rd x l) ∧ gt.counter u.k = g.counter u.k ∧
        ∃ v, aget (t.core d c).subs sub = some v ∧ v.running = adel u.running k ∧ v.ready = u.ready) ∧
      ∀ a n, RecBits.succs r.fields = [a, noLink] → a ≠ noLink → a % 64 = 0 → a + 64 ≤ L → a + 64 ≤ r.addr ∨ r.addr + 64 ≤ a →
        n = tm.localRead (a + 2) 2 → ∃ t tt, exec (.recordFinish d c sub k) s = .next t ∧ t.team? d u.slot = some tt ∧
          tt.localRead (r.addr + 56) 4 = 1 ∧ tt.localRead (a + 2) 2 = (n + 65535) % 65536 ∧
          (n = 1 → ∃ v, aget (t.core d c).subs sub = some v ∧ v.ready = u.ready ++ [(a, false)])
end

