-- ==== Sys2Proof/Laws/Encoding.lean ====
section
/-! SUPPORT. The fields of a word read back what the encoder put there (R80 to R84). -/

namespace Sys2Proof

/-- A field of the low part of an append. -/
theorem extract_append_low {m n : Nat} (x : BitVec m) (y : BitVec n) (a k : Nat) (h : a + k ≤ n) :
    (x ++ y).extractLsb' a k = y.extractLsb' a k := by
  ext i hi
  have : a + i < n := by omega
  simp [BitVec.getLsbD_append, this]

/-- A field of the high part of an append. -/
theorem extract_append_high {m n : Nat} (x : BitVec m) (y : BitVec n) (a k : Nat) (h : n ≤ a) :
    (x ++ y).extractLsb' a k = x.extractLsb' (a - n) k := by
  ext i hi
  have h1 : ¬ a + i < n := by omega
  have h2 : a + i - n = a - n + i := by omega
  simp [BitVec.getLsbD_append, h1, h2]

/-- The whole of a value. -/
theorem extract_whole {n : Nat} (x : BitVec n) : x.extractLsb' 0 n = x := by
  ext i hi
  simp

@[simp] theorem FmtA.ofWord_toWord (f : FmtA) : FmtA.ofWord f.toWord = f := by
  obtain ⟨op, d, a, b, c, g, neg, pol, m⟩ := f
  simp only [FmtA.ofWord, FmtA.toWord, FmtA.mk.injEq]
  exact ⟨(extract_append_high _ _ _ _ (by decide)).trans ((extract_append_high _ _ _ _ (by decide)).trans ((extract_append_high _ _ _ _ (by decide)).trans ((extract_append_high _ _ _ _ (by decide)).trans ((extract_append_high _ _ _ _ (by decide)).trans ((extract_append_high _ _ _ _ (by decide)).trans ((extract_append_high _ _ _ _ (by decide)).trans ((extract_append_high _ _ _ _ (by decide)).trans (extract_whole _)))))))),
    (extract_append_high _ _ _ _ (by decide)).trans ((extract_append_high _ _ _ _ (by decide)).trans ((extract_append_high _ _ _ _ (by decide)).trans ((extract_append_high _ _ _ _ (by decide)).trans ((extract_append_high _ _ _ _ (by decide)).trans ((extract_append_high _ _ _ _ (by decide)).trans ((extract_append_high _ _ _ _ (by decide)).trans ((extract_append_low _ _ _ _ (by decide)).trans (extract_whole _)))))))),
    (extract_append_high _ _ _ _ (by decide)).trans ((extract_append_high _ _ _ _ (by decide)).trans ((extract_append_high _ _ _ _ (by decide)).trans ((extract_append_high _ _ _ _ (by decide)).trans ((extract_append_high _ _ _ _ (by decide)).trans ((extract_append_high _ _ _ _ (by decide)).trans ((extract_append_low _ _ _ _ (by decide)).trans (extract_whole _))))))),
    (extract_append_high _ _ _ _ (by decide)).trans ((extract_append_high _ _ _ _ (by decide)).trans ((extract_append_high _ _ _ _ (by decide)).trans ((extract_append_high _ _ _ _ (by decide)).trans ((extract_append_high _ _ _ _ (by decide)).trans ((extract_append_low _ _ _ _ (by decide)).trans (extract_whole _)))))),
    (extract_append_high _ _ _ _ (by decide)).trans ((extract_append_high _ _ _ _ (by decide)).trans ((extract_append_high _ _ _ _ (by decide)).trans ((extract_append_high _ _ _ _ (by decide)).trans ((extract_append_low _ _ _ _ (by decide)).trans (extract_whole _))))),
    (extract_append_high _ _ _ _ (by decide)).trans ((extract_append_high _ _ _ _ (by decide)).trans ((extract_append_high _ _ _ _ (by decide)).trans ((extract_append_low _ _ _ _ (by decide)).trans (extract_whole _)))),
    (extract_append_high _ _ _ _ (by decide)).trans ((extract_append_high _ _ _ _ (by decide)).trans ((extract_append_low _ _ _ _ (by decide)).trans (extract_whole _))),
    (extract_append_high _ _ _ _ (by decide)).trans ((extract_append_low _ _ _ _ (by decide)).trans (extract_whole _)),
    (extract_append_low _ _ _ _ (by decide)).trans (extract_whole _)⟩

@[simp] theorem FmtI.ofWord_toWord (f : FmtI) : FmtI.ofWord f.toWord = f := by
  obtain ⟨op, d, a, imm, g, neg, pol, m⟩ := f
  simp only [FmtI.ofWord, FmtI.toWord, FmtI.mk.injEq]
  exact ⟨(extract_append_high _ _ _ _ (by decide)).trans ((extract_append_high _ _ _ _ (by decide)).trans ((extract_append_high _ _ _ _ (by decide)).trans ((extract_append_high _ _ _ _ (by decide)).trans ((extract_append_high _ _ _ _ (by decide)).trans ((extract_append_high _ _ _ _ (by decide)).trans ((extract_append_high _ _ _ _ (by decide)).trans (extract_whole _))))))),
    (extract_append_high _ _ _ _ (by decide)).trans ((extract_append_high _ _ _ _ (by decide)).trans ((extract_append_high _ _ _ _ (by decide)).trans ((extract_append_high _ _ _ _ (by decide)).trans ((extract_append_high _ _ _ _ (by decide)).trans ((extract_append_high _ _ _ _ (by decide)).trans ((extract_append_low _ _ _ _ (by decide)).trans (extract_whole _))))))),
    (extract_append_high _ _ _ _ (by decide)).trans ((extract_append_high _ _ _ _ (by decide)).trans ((extract_append_high _ _ _ _ (by decide)).trans ((extract_append_high _ _ _ _ (by decide)).trans ((extract_append_high _ _ _ _ (by decide)).trans ((extract_append_low _ _ _ _ (by decide)).trans (extract_whole _)))))),
    (extract_append_high _ _ _ _ (by decide)).trans ((extract_append_high _ _ _ _ (by decide)).trans ((extract_append_high _ _ _ _ (by decide)).trans ((extract_append_high _ _ _ _ (by decide)).trans ((extract_append_low _ _ _ _ (by decide)).trans (extract_whole _))))),
    (extract_append_high _ _ _ _ (by decide)).trans ((extract_append_high _ _ _ _ (by decide)).trans ((extract_append_high _ _ _ _ (by decide)).trans ((extract_append_low _ _ _ _ (by decide)).trans (extract_whole _)))),
    (extract_append_high _ _ _ _ (by decide)).trans ((extract_append_high _ _ _ _ (by decide)).trans ((extract_append_low _ _ _ _ (by decide)).trans (extract_whole _))),
    (extract_append_high _ _ _ _ (by decide)).trans ((extract_append_low _ _ _ _ (by decide)).trans (extract_whole _)),
    (extract_append_low _ _ _ _ (by decide)).trans (extract_whole _)⟩

@[simp] theorem FmtL.ofWord_toWord (f : FmtL) : FmtL.ofWord f.toWord = f := by
  obtain ⟨op, d, imm, g, neg, m⟩ := f
  simp only [FmtL.ofWord, FmtL.toWord, FmtL.mk.injEq]
  exact ⟨(extract_append_high _ _ _ _ (by decide)).trans ((extract_append_high _ _ _ _ (by decide)).trans ((extract_append_high _ _ _ _ (by decide)).trans ((extract_append_high _ _ _ _ (by decide)).trans ((extract_append_high _ _ _ _ (by decide)).trans (extract_whole _))))),
    (extract_append_high _ _ _ _ (by decide)).trans ((extract_append_high _ _ _ _ (by decide)).trans ((extract_append_high _ _ _ _ (by decide)).trans ((extract_append_high _ _ _ _ (by decide)).trans ((extract_append_low _ _ _ _ (by decide)).trans (extract_whole _))))),
    (extract_append_high _ _ _ _ (by decide)).trans ((extract_append_high _ _ _ _ (by decide)).trans ((extract_append_high _ _ _ _ (by decide)).trans ((extract_append_low _ _ _ _ (by decide)).trans (extract_whole _)))),
    (extract_append_high _ _ _ _ (by decide)).trans ((extract_append_high _ _ _ _ (by decide)).trans ((extract_append_low _ _ _ _ (by decide)).trans (extract_whole _))),
    (extract_append_high _ _ _ _ (by decide)).trans ((extract_append_low _ _ _ _ (by decide)).trans (extract_whole _)),
    (extract_append_low _ _ _ _ (by decide)).trans (extract_whole _)⟩

@[simp] theorem FmtM.ofWord_toWord (f : FmtM) : FmtM.ofWord f.toWord = f := by
  obtain ⟨op, d, a, off, g, neg, pol, w, o, h⟩ := f
  simp only [FmtM.ofWord, FmtM.toWord, FmtM.mk.injEq]
  exact ⟨(extract_append_high _ _ _ _ (by decide)).trans ((extract_append_high _ _ _ _ (by decide)).trans ((extract_append_high _ _ _ _ (by decide)).trans ((extract_append_high _ _ _ _ (by decide)).trans ((extract_append_high _ _ _ _ (by decide)).trans ((extract_append_high _ _ _ _ (by decide)).trans ((extract_append_high _ _ _ _ (by decide)).trans ((extract_append_high _ _ _ _ (by decide)).trans ((extract_append_high _ _ _ _ (by decide)).trans (extract_whole _))))))))),
    (extract_append_high _ _ _ _ (by decide)).trans ((extract_append_high _ _ _ _ (by decide)).trans ((extract_append_high _ _ _ _ (by decide)).trans ((extract_append_high _ _ _ _ (by decide)).trans ((extract_append_high _ _ _ _ (by decide)).trans ((extract_append_high _ _ _ _ (by decide)).trans ((extract_append_high _ _ _ _ (by decide)).trans ((extract_append_high _ _ _ _ (by decide)).trans ((extract_append_low _ _ _ _ (by decide)).trans (extract_whole _))))))))),
    (extract_append_high _ _ _ _ (by decide)).trans ((extract_append_high _ _ _ _ (by decide)).trans ((extract_append_high _ _ _ _ (by decide)).trans ((extract_append_high _ _ _ _ (by decide)).trans ((extract_append_high _ _ _ _ (by decide)).trans ((extract_append_high _ _ _ _ (by decide)).trans ((extract_append_high _ _ _ _ (by decide)).trans ((extract_append_low _ _ _ _ (by decide)).trans (extract_whole _)))))))),
    (extract_append_high _ _ _ _ (by decide)).trans ((extract_append_high _ _ _ _ (by decide)).trans ((extract_append_high _ _ _ _ (by decide)).trans ((extract_append_high _ _ _ _ (by decide)).trans ((extract_append_high _ _ _ _ (by decide)).trans ((extract_append_high _ _ _ _ (by decide)).trans ((extract_append_low _ _ _ _ (by decide)).trans (extract_whole _))))))),
    (extract_append_high _ _ _ _ (by decide)).trans ((extract_append_high _ _ _ _ (by decide)).trans ((extract_append_high _ _ _ _ (by decide)).trans ((extract_append_high _ _ _ _ (by decide)).trans ((extract_append_high _ _ _ _ (by decide)).trans ((extract_append_low _ _ _ _ (by decide)).trans (extract_whole _)))))),
    (extract_append_high _ _ _ _ (by decide)).trans ((extract_append_high _ _ _ _ (by decide)).trans ((extract_append_high _ _ _ _ (by decide)).trans ((extract_append_high _ _ _ _ (by decide)).trans ((extract_append_low _ _ _ _ (by decide)).trans (extract_whole _))))),
    (extract_append_high _ _ _ _ (by decide)).trans ((extract_append_high _ _ _ _ (by decide)).trans ((extract_append_high _ _ _ _ (by decide)).trans ((extract_append_low _ _ _ _ (by decide)).trans (extract_whole _)))),
    (extract_append_high _ _ _ _ (by decide)).trans ((extract_append_high _ _ _ _ (by decide)).trans ((extract_append_low _ _ _ _ (by decide)).trans (extract_whole _))),
    (extract_append_high _ _ _ _ (by decide)).trans ((extract_append_low _ _ _ _ (by decide)).trans (extract_whole _)),
    (extract_append_low _ _ _ _ (by decide)).trans (extract_whole _)⟩

@[simp] theorem FmtB.ofWord_toWord (f : FmtB) : FmtB.ofWord f.toWord = f := by
  obtain ⟨op, a, tgt, g, neg, pol, m⟩ := f
  simp only [FmtB.ofWord, FmtB.toWord, FmtB.mk.injEq]
  exact ⟨(extract_append_high _ _ _ _ (by decide)).trans ((extract_append_high _ _ _ _ (by decide)).trans ((extract_append_high _ _ _ _ (by decide)).trans ((extract_append_high _ _ _ _ (by decide)).trans ((extract_append_high _ _ _ _ (by decide)).trans ((extract_append_high _ _ _ _ (by decide)).trans (extract_whole _)))))),
    (extract_append_high _ _ _ _ (by decide)).trans ((extract_append_high _ _ _ _ (by decide)).trans ((extract_append_high _ _ _ _ (by decide)).trans ((extract_append_high _ _ _ _ (by decide)).trans ((extract_append_high _ _ _ _ (by decide)).trans ((extract_append_low _ _ _ _ (by decide)).trans (extract_whole _)))))),
    (extract_append_high _ _ _ _ (by decide)).trans ((extract_append_high _ _ _ _ (by decide)).trans ((extract_append_high _ _ _ _ (by decide)).trans ((extract_append_high _ _ _ _ (by decide)).trans ((extract_append_low _ _ _ _ (by decide)).trans (extract_whole _))))),
    (extract_append_high _ _ _ _ (by decide)).trans ((extract_append_high _ _ _ _ (by decide)).trans ((extract_append_high _ _ _ _ (by decide)).trans ((extract_append_low _ _ _ _ (by decide)).trans (extract_whole _)))),
    (extract_append_high _ _ _ _ (by decide)).trans ((extract_append_high _ _ _ _ (by decide)).trans ((extract_append_low _ _ _ _ (by decide)).trans (extract_whole _))),
    (extract_append_high _ _ _ _ (by decide)).trans ((extract_append_low _ _ _ _ (by decide)).trans (extract_whole _)),
    (extract_append_low _ _ _ _ (by decide)).trans (extract_whole _)⟩

@[simp] theorem FmtA.op_toWord (f : FmtA) : f.toWord.extractLsb' 54 10 = f.op := congrArg FmtA.op f.ofWord_toWord
@[simp] theorem FmtI.op_toWord (f : FmtI) : f.toWord.extractLsb' 54 10 = f.op := congrArg FmtI.op f.ofWord_toWord
@[simp] theorem FmtL.op_toWord (f : FmtL) : f.toWord.extractLsb' 54 10 = f.op := congrArg FmtL.op f.ofWord_toWord
@[simp] theorem FmtM.op_toWord (f : FmtM) : f.toWord.extractLsb' 54 10 = f.op := congrArg FmtM.op f.ofWord_toWord
@[simp] theorem FmtB.op_toWord (f : FmtB) : f.toWord.extractLsb' 54 10 = f.op := congrArg FmtB.op f.ofWord_toWord

/-- A bit of a Boolean compared with 1 gives the Boolean back. -/
@[simp] theorem ofBool_beq_one (b : Bool) : (BitVec.ofBool b == 1#1) = b := by cases b <;> rfl

@[simp] theorem srcOf_polBit (s : Src) : srcOf s.r (polBit s) = s := by simp [srcOf, polBit]
@[simp] theorem guardOf_negBit (g : Guard) : guardOf g.g (negBit g) = g := by simp [guardOf, negBit]

@[simp] theorem SatMode.ofCode_code (x : SatMode) : SatMode.ofCode x.code = some x := by cases x <;> rfl
@[simp] theorem Cond.ofCode_code (x : Cond) : Cond.ofCode x.code = some x := by cases x <;> rfl
@[simp] theorem FCond.ofCode_code (x : FCond) : FCond.ofCode x.code = some x := by cases x <;> rfl
@[simp] theorem RMode.ofCode_code (x : RMode) : RMode.ofCode x.code = some x := by cases x <;> rfl
@[simp] theorem PFmt.ofCode_code (x : PFmt) : PFmt.ofCode x.code = some x := by cases x <;> rfl
@[simp] theorem NumFmt.ofCode_code (x : NumFmt) : NumFmt.ofCode x.code = some x := by cases x <;> rfl
@[simp] theorem ShflMode.ofCode_code (x : ShflMode) : ShflMode.ofCode x.code = some x := by cases x <;> rfl
@[simp] theorem SegCode.ofCode_code (x : SegCode) : SegCode.ofCode x.code = some x := by cases x <;> rfl
@[simp] theorem VoteMode.ofCode_code (x : VoteMode) : VoteMode.ofCode x.code = some x := by cases x <;> rfl
@[simp] theorem LaneOp.ofCode_code (x : LaneOp) : LaneOp.ofCode x.code = some x := by cases x <;> rfl
@[simp] theorem Width.ofCode_code (x : Width) : Width.ofCode x.code = some x := by cases x <;> rfl
@[simp] theorem Ordering.ofCode_code (x : Ordering) : Ordering.ofCode x.code = some x := by cases x <;> rfl
@[simp] theorem AtomOp.ofCode_code (x : AtomOp) : AtomOp.ofCode x.code = some x := by cases x <;> rfl
@[simp] theorem FenceKind.ofCode_code (x : FenceKind) : FenceKind.ofCode x.code = some x := by cases x <;> rfl
@[simp] theorem Scope.ofCode_code (x : Scope) : Scope.ofCode x.code = some x := by cases x <;> rfl
@[simp] theorem SizeCode.ofCode_code (x : SizeCode) : SizeCode.ofCode x.code = some x := by cases x <;> rfl
@[simp] theorem MmaKind.ofCode_code (x : MmaKind) : MmaKind.ofCode x.code = some x := by cases x <;> rfl
@[simp] theorem ClrVal.ofCode_code (x : ClrVal) : ClrVal.ofCode x.code = some x := by cases x <;> rfl
@[simp] theorem DrainCv.ofCode_code (x : DrainCv) : DrainCv.ofCode x.code = some x := by cases x <;> rfl

@[simp] theorem extract_1z_1_1_3_at5 (x1 : BitVec 1) (x2 : BitVec 1) (x3 : BitVec 3) :
    BitVec.extractLsb' (n := 6) 5 1 (0#1 ++ x1 ++ x2 ++ x3) = 0#1 :=
  (extract_append_high _ _ _ _ (by decide)).trans ((extract_append_high _ _ _ _ (by decide)).trans ((extract_append_high _ _ _ _ (by decide)).trans (extract_whole _)))

@[simp] theorem extract_1z_1_1_3_at4 (x1 : BitVec 1) (x2 : BitVec 1) (x3 : BitVec 3) :
    BitVec.extractLsb' (n := 6) 4 1 (0#1 ++ x1 ++ x2 ++ x3) = x1 :=
  (extract_append_high _ _ _ _ (by decide)).trans ((extract_append_high _ _ _ _ (by decide)).trans ((extract_append_low _ _ _ _ (by decide)).trans (extract_whole _)))

@[simp] theorem extract_1z_1_1_3_at3 (x1 : BitVec 1) (x2 : BitVec 1) (x3 : BitVec 3) :
    BitVec.extractLsb' (n := 6) 3 1 (0#1 ++ x1 ++ x2 ++ x3) = x2 :=
  (extract_append_high _ _ _ _ (by decide)).trans ((extract_append_low _ _ _ _ (by decide)).trans (extract_whole _))

@[simp] theorem extract_1z_1_1_3_at0 (x1 : BitVec 1) (x2 : BitVec 1) (x3 : BitVec 3) :
    BitVec.extractLsb' (n := 6) 0 3 (0#1 ++ x1 ++ x2 ++ x3) = x3 :=
  (extract_append_low _ _ _ _ (by decide)).trans (extract_whole _)

@[simp] theorem extract_1z_1_4_at5 (x1 : BitVec 1) (x2 : BitVec 4) :
    BitVec.extractLsb' (n := 6) 5 1 (0#1 ++ x1 ++ x2) = 0#1 :=
  (extract_append_high _ _ _ _ (by decide)).trans ((extract_append_high _ _ _ _ (by decide)).trans (extract_whole _))

@[simp] theorem extract_1z_1_4_at4 (x1 : BitVec 1) (x2 : BitVec 4) :
    BitVec.extractLsb' (n := 6) 4 1 (0#1 ++ x1 ++ x2) = x1 :=
  (extract_append_high _ _ _ _ (by decide)).trans ((extract_append_low _ _ _ _ (by decide)).trans (extract_whole _))

@[simp] theorem extract_1z_1_4_at0 (x1 : BitVec 1) (x2 : BitVec 4) :
    BitVec.extractLsb' (n := 6) 0 4 (0#1 ++ x1 ++ x2) = x2 :=
  (extract_append_low _ _ _ _ (by decide)).trans (extract_whole _)

@[simp] theorem extract_1z_3_2_at5 (x1 : BitVec 3) (x2 : BitVec 2) :
    BitVec.extractLsb' (n := 6) 5 1 (0#1 ++ x1 ++ x2) = 0#1 :=
  (extract_append_high _ _ _ _ (by decide)).trans ((extract_append_high _ _ _ _ (by decide)).trans (extract_whole _))

@[simp] theorem extract_1z_3_2_at2 (x1 : BitVec 3) (x2 : BitVec 2) :
    BitVec.extractLsb' (n := 6) 2 3 (0#1 ++ x1 ++ x2) = x1 :=
  (extract_append_high _ _ _ _ (by decide)).trans ((extract_append_low _ _ _ _ (by decide)).trans (extract_whole _))

@[simp] theorem extract_1z_3_2_at0 (x1 : BitVec 3) (x2 : BitVec 2) :
    BitVec.extractLsb' (n := 6) 0 2 (0#1 ++ x1 ++ x2) = x2 :=
  (extract_append_low _ _ _ _ (by decide)).trans (extract_whole _)

@[simp] theorem extract_1_1z_1z_at2 (x0 : BitVec 1) :
    BitVec.extractLsb' (n := 3) 2 1 (x0 ++ 0#1 ++ 0#1) = x0 :=
  (extract_append_high _ _ _ _ (by decide)).trans ((extract_append_high _ _ _ _ (by decide)).trans (extract_whole _))

@[simp] theorem extract_1_1z_1z_at1 (x0 : BitVec 1) :
    BitVec.extractLsb' (n := 3) 1 1 (x0 ++ 0#1 ++ 0#1) = 0#1 :=
  (extract_append_high _ _ _ _ (by decide)).trans ((extract_append_low _ _ _ _ (by decide)).trans (extract_whole _))

@[simp] theorem extract_1_1z_1z_at0 (x0 : BitVec 1) :
    BitVec.extractLsb' (n := 3) 0 1 (x0 ++ 0#1 ++ 0#1) = 0#1 :=
  (extract_append_low _ _ _ _ (by decide)).trans (extract_whole _)

@[simp] theorem extract_1_1z_1_at2 (x0 : BitVec 1) (x2 : BitVec 1) :
    BitVec.extractLsb' (n := 3) 2 1 (x0 ++ 0#1 ++ x2) = x0 :=
  (extract_append_high _ _ _ _ (by decide)).trans ((extract_append_high _ _ _ _ (by decide)).trans (extract_whole _))

@[simp] theorem extract_1_1z_1_at1 (x0 : BitVec 1) (x2 : BitVec 1) :
    BitVec.extractLsb' (n := 3) 1 1 (x0 ++ 0#1 ++ x2) = 0#1 :=
  (extract_append_high _ _ _ _ (by decide)).trans ((extract_append_low _ _ _ _ (by decide)).trans (extract_whole _))

@[simp] theorem extract_1_1z_1_at0 (x0 : BitVec 1) (x2 : BitVec 1) :
    BitVec.extractLsb' (n := 3) 0 1 (x0 ++ 0#1 ++ x2) = x2 :=
  (extract_append_low _ _ _ _ (by decide)).trans (extract_whole _)

@[simp] theorem extract_1_1_1z_at2 (x0 : BitVec 1) (x1 : BitVec 1) :
    BitVec.extractLsb' (n := 3) 2 1 (x0 ++ x1 ++ 0#1) = x0 :=
  (extract_append_high _ _ _ _ (by decide)).trans ((extract_append_high _ _ _ _ (by decide)).trans (extract_whole _))

@[simp] theorem extract_1_1_1z_at1 (x0 : BitVec 1) (x1 : BitVec 1) :
    BitVec.extractLsb' (n := 3) 1 1 (x0 ++ x1 ++ 0#1) = x1 :=
  (extract_append_high _ _ _ _ (by decide)).trans ((extract_append_low _ _ _ _ (by decide)).trans (extract_whole _))

@[simp] theorem extract_1_1_1z_at0 (x0 : BitVec 1) (x1 : BitVec 1) :
    BitVec.extractLsb' (n := 3) 0 1 (x0 ++ x1 ++ 0#1) = 0#1 :=
  (extract_append_low _ _ _ _ (by decide)).trans (extract_whole _)

@[simp] theorem extract_1_1_1_at2 (x0 : BitVec 1) (x1 : BitVec 1) (x2 : BitVec 1) :
    BitVec.extractLsb' (n := 3) 2 1 (x0 ++ x1 ++ x2) = x0 :=
  (extract_append_high _ _ _ _ (by decide)).trans ((extract_append_high _ _ _ _ (by decide)).trans (extract_whole _))

@[simp] theorem extract_1_1_1_at1 (x0 : BitVec 1) (x1 : BitVec 1) (x2 : BitVec 1) :
    BitVec.extractLsb' (n := 3) 1 1 (x0 ++ x1 ++ x2) = x1 :=
  (extract_append_high _ _ _ _ (by decide)).trans ((extract_append_low _ _ _ _ (by decide)).trans (extract_whole _))

@[simp] theorem extract_1_1_1_at0 (x0 : BitVec 1) (x1 : BitVec 1) (x2 : BitVec 1) :
    BitVec.extractLsb' (n := 3) 0 1 (x0 ++ x1 ++ x2) = x2 :=
  (extract_append_low _ _ _ _ (by decide)).trans (extract_whole _)

@[simp] theorem extract_1_2z_at2 (x0 : BitVec 1) :
    BitVec.extractLsb' (n := 3) 2 1 (x0 ++ 0#2) = x0 :=
  (extract_append_high _ _ _ _ (by decide)).trans (extract_whole _)

@[simp] theorem extract_1_2z_at0 (x0 : BitVec 1) :
    BitVec.extractLsb' (n := 3) 0 2 (x0 ++ 0#2) = 0#2 :=
  (extract_append_low _ _ _ _ (by decide)).trans (extract_whole _)

@[simp] theorem extract_10_20z_at20 (x0 : BitVec 10) :
    BitVec.extractLsb' (n := 30) 20 10 (x0 ++ 0#20) = x0 :=
  (extract_append_high _ _ _ _ (by decide)).trans (extract_whole _)

@[simp] theorem extract_10_20z_at0 (x0 : BitVec 10) :
    BitVec.extractLsb' (n := 30) 0 20 (x0 ++ 0#20) = 0#20 :=
  (extract_append_low _ _ _ _ (by decide)).trans (extract_whole _)

@[simp] theorem extract_15z_5_at5 (x1 : BitVec 5) :
    BitVec.extractLsb' (n := 20) 5 15 (0#15 ++ x1) = 0#15 :=
  (extract_append_high _ _ _ _ (by decide)).trans (extract_whole _)

@[simp] theorem extract_15z_5_at0 (x1 : BitVec 5) :
    BitVec.extractLsb' (n := 20) 0 5 (0#15 ++ x1) = x1 :=
  (extract_append_low _ _ _ _ (by decide)).trans (extract_whole _)

@[simp] theorem extract_2z_1_at1 (x1 : BitVec 1) :
    BitVec.extractLsb' (n := 3) 1 2 (0#2 ++ x1) = 0#2 :=
  (extract_append_high _ _ _ _ (by decide)).trans (extract_whole _)

@[simp] theorem extract_2z_1_at0 (x1 : BitVec 1) :
    BitVec.extractLsb' (n := 3) 0 1 (0#2 ++ x1) = x1 :=
  (extract_append_low _ _ _ _ (by decide)).trans (extract_whole _)

@[simp] theorem extract_2z_1_1_1_1_at4 (x1 : BitVec 1) (x2 : BitVec 1) (x3 : BitVec 1) (x4 : BitVec 1) :
    BitVec.extractLsb' (n := 6) 4 2 (0#2 ++ x1 ++ x2 ++ x3 ++ x4) = 0#2 :=
  (extract_append_high _ _ _ _ (by decide)).trans ((extract_append_high _ _ _ _ (by decide)).trans ((extract_append_high _ _ _ _ (by decide)).trans ((extract_append_high _ _ _ _ (by decide)).trans (extract_whole _))))

@[simp] theorem extract_2z_1_1_1_1_at3 (x1 : BitVec 1) (x2 : BitVec 1) (x3 : BitVec 1) (x4 : BitVec 1) :
    BitVec.extractLsb' (n := 6) 3 1 (0#2 ++ x1 ++ x2 ++ x3 ++ x4) = x1 :=
  (extract_append_high _ _ _ _ (by decide)).trans ((extract_append_high _ _ _ _ (by decide)).trans ((extract_append_high _ _ _ _ (by decide)).trans ((extract_append_low _ _ _ _ (by decide)).trans (extract_whole _))))

@[simp] theorem extract_2z_1_1_1_1_at2 (x1 : BitVec 1) (x2 : BitVec 1) (x3 : BitVec 1) (x4 : BitVec 1) :
    BitVec.extractLsb' (n := 6) 2 1 (0#2 ++ x1 ++ x2 ++ x3 ++ x4) = x2 :=
  (extract_append_high _ _ _ _ (by decide)).trans ((extract_append_high _ _ _ _ (by decide)).trans ((extract_append_low _ _ _ _ (by decide)).trans (extract_whole _)))

@[simp] theorem extract_2z_1_1_1_1_at1 (x1 : BitVec 1) (x2 : BitVec 1) (x3 : BitVec 1) (x4 : BitVec 1) :
    BitVec.extractLsb' (n := 6) 1 1 (0#2 ++ x1 ++ x2 ++ x3 ++ x4) = x3 :=
  (extract_append_high _ _ _ _ (by decide)).trans ((extract_append_low _ _ _ _ (by decide)).trans (extract_whole _))

@[simp] theorem extract_2z_1_1_1_1_at0 (x1 : BitVec 1) (x2 : BitVec 1) (x3 : BitVec 1) (x4 : BitVec 1) :
    BitVec.extractLsb' (n := 6) 0 1 (0#2 ++ x1 ++ x2 ++ x3 ++ x4) = x4 :=
  (extract_append_low _ _ _ _ (by decide)).trans (extract_whole _)

@[simp] theorem extract_2z_1_1_2_at4 (x1 : BitVec 1) (x2 : BitVec 1) (x3 : BitVec 2) :
    BitVec.extractLsb' (n := 6) 4 2 (0#2 ++ x1 ++ x2 ++ x3) = 0#2 :=
  (extract_append_high _ _ _ _ (by decide)).trans ((extract_append_high _ _ _ _ (by decide)).trans ((extract_append_high _ _ _ _ (by decide)).trans (extract_whole _)))

@[simp] theorem extract_2z_1_1_2_at3 (x1 : BitVec 1) (x2 : BitVec 1) (x3 : BitVec 2) :
    BitVec.extractLsb' (n := 6) 3 1 (0#2 ++ x1 ++ x2 ++ x3) = x1 :=
  (extract_append_high _ _ _ _ (by decide)).trans ((extract_append_high _ _ _ _ (by decide)).trans ((extract_append_low _ _ _ _ (by decide)).trans (extract_whole _)))

@[simp] theorem extract_2z_1_1_2_at2 (x1 : BitVec 1) (x2 : BitVec 1) (x3 : BitVec 2) :
    BitVec.extractLsb' (n := 6) 2 1 (0#2 ++ x1 ++ x2 ++ x3) = x2 :=
  (extract_append_high _ _ _ _ (by decide)).trans ((extract_append_low _ _ _ _ (by decide)).trans (extract_whole _))

@[simp] theorem extract_2z_1_1_2_at0 (x1 : BitVec 1) (x2 : BitVec 1) (x3 : BitVec 2) :
    BitVec.extractLsb' (n := 6) 0 2 (0#2 ++ x1 ++ x2 ++ x3) = x3 :=
  (extract_append_low _ _ _ _ (by decide)).trans (extract_whole _)

@[simp] theorem extract_2z_1_3_at4 (x1 : BitVec 1) (x2 : BitVec 3) :
    BitVec.extractLsb' (n := 6) 4 2 (0#2 ++ x1 ++ x2) = 0#2 :=
  (extract_append_high _ _ _ _ (by decide)).trans ((extract_append_high _ _ _ _ (by decide)).trans (extract_whole _))

@[simp] theorem extract_2z_1_3_at3 (x1 : BitVec 1) (x2 : BitVec 3) :
    BitVec.extractLsb' (n := 6) 3 1 (0#2 ++ x1 ++ x2) = x1 :=
  (extract_append_high _ _ _ _ (by decide)).trans ((extract_append_low _ _ _ _ (by decide)).trans (extract_whole _))

@[simp] theorem extract_2z_1_3_at0 (x1 : BitVec 1) (x2 : BitVec 3) :
    BitVec.extractLsb' (n := 6) 0 3 (0#2 ++ x1 ++ x2) = x2 :=
  (extract_append_low _ _ _ _ (by decide)).trans (extract_whole _)

@[simp] theorem extract_2z_4_at4 (x1 : BitVec 4) :
    BitVec.extractLsb' (n := 6) 4 2 (0#2 ++ x1) = 0#2 :=
  (extract_append_high _ _ _ _ (by decide)).trans (extract_whole _)

@[simp] theorem extract_2z_4_at0 (x1 : BitVec 4) :
    BitVec.extractLsb' (n := 6) 0 4 (0#2 ++ x1) = x1 :=
  (extract_append_low _ _ _ _ (by decide)).trans (extract_whole _)

@[simp] theorem extract_2_1_3_at4 (x0 : BitVec 2) (x1 : BitVec 1) (x2 : BitVec 3) :
    BitVec.extractLsb' (n := 6) 4 2 (x0 ++ x1 ++ x2) = x0 :=
  (extract_append_high _ _ _ _ (by decide)).trans ((extract_append_high _ _ _ _ (by decide)).trans (extract_whole _))

@[simp] theorem extract_2_1_3_at3 (x0 : BitVec 2) (x1 : BitVec 1) (x2 : BitVec 3) :
    BitVec.extractLsb' (n := 6) 3 1 (x0 ++ x1 ++ x2) = x1 :=
  (extract_append_high _ _ _ _ (by decide)).trans ((extract_append_low _ _ _ _ (by decide)).trans (extract_whole _))

@[simp] theorem extract_2_1_3_at0 (x0 : BitVec 2) (x1 : BitVec 1) (x2 : BitVec 3) :
    BitVec.extractLsb' (n := 6) 0 3 (x0 ++ x1 ++ x2) = x2 :=
  (extract_append_low _ _ _ _ (by decide)).trans (extract_whole _)

@[simp] theorem extract_2_2z_1_1_at4 (x0 : BitVec 2) (x2 : BitVec 1) (x3 : BitVec 1) :
    BitVec.extractLsb' (n := 6) 4 2 (x0 ++ 0#2 ++ x2 ++ x3) = x0 :=
  (extract_append_high _ _ _ _ (by decide)).trans ((extract_append_high _ _ _ _ (by decide)).trans ((extract_append_high _ _ _ _ (by decide)).trans (extract_whole _)))

@[simp] theorem extract_2_2z_1_1_at2 (x0 : BitVec 2) (x2 : BitVec 1) (x3 : BitVec 1) :
    BitVec.extractLsb' (n := 6) 2 2 (x0 ++ 0#2 ++ x2 ++ x3) = 0#2 :=
  (extract_append_high _ _ _ _ (by decide)).trans ((extract_append_high _ _ _ _ (by decide)).trans ((extract_append_low _ _ _ _ (by decide)).trans (extract_whole _)))

@[simp] theorem extract_2_2z_1_1_at1 (x0 : BitVec 2) (x2 : BitVec 1) (x3 : BitVec 1) :
    BitVec.extractLsb' (n := 6) 1 1 (x0 ++ 0#2 ++ x2 ++ x3) = x2 :=
  (extract_append_high _ _ _ _ (by decide)).trans ((extract_append_low _ _ _ _ (by decide)).trans (extract_whole _))

@[simp] theorem extract_2_2z_1_1_at0 (x0 : BitVec 2) (x2 : BitVec 1) (x3 : BitVec 1) :
    BitVec.extractLsb' (n := 6) 0 1 (x0 ++ 0#2 ++ x2 ++ x3) = x3 :=
  (extract_append_low _ _ _ _ (by decide)).trans (extract_whole _)

@[simp] theorem extract_2_8z_at8 (x0 : BitVec 2) :
    BitVec.extractLsb' (n := 10) 8 2 (x0 ++ 0#8) = x0 :=
  (extract_append_high _ _ _ _ (by decide)).trans (extract_whole _)

@[simp] theorem extract_2_8z_at0 (x0 : BitVec 2) :
    BitVec.extractLsb' (n := 10) 0 8 (x0 ++ 0#8) = 0#8 :=
  (extract_append_low _ _ _ _ (by decide)).trans (extract_whole _)

@[simp] theorem extract_3z_1_1_1_at3 (x1 : BitVec 1) (x2 : BitVec 1) (x3 : BitVec 1) :
    BitVec.extractLsb' (n := 6) 3 3 (0#3 ++ x1 ++ x2 ++ x3) = 0#3 :=
  (extract_append_high _ _ _ _ (by decide)).trans ((extract_append_high _ _ _ _ (by decide)).trans ((extract_append_high _ _ _ _ (by decide)).trans (extract_whole _)))

@[simp] theorem extract_3z_1_1_1_at2 (x1 : BitVec 1) (x2 : BitVec 1) (x3 : BitVec 1) :
    BitVec.extractLsb' (n := 6) 2 1 (0#3 ++ x1 ++ x2 ++ x3) = x1 :=
  (extract_append_high _ _ _ _ (by decide)).trans ((extract_append_high _ _ _ _ (by decide)).trans ((extract_append_low _ _ _ _ (by decide)).trans (extract_whole _)))

@[simp] theorem extract_3z_1_1_1_at1 (x1 : BitVec 1) (x2 : BitVec 1) (x3 : BitVec 1) :
    BitVec.extractLsb' (n := 6) 1 1 (0#3 ++ x1 ++ x2 ++ x3) = x2 :=
  (extract_append_high _ _ _ _ (by decide)).trans ((extract_append_low _ _ _ _ (by decide)).trans (extract_whole _))

@[simp] theorem extract_3z_1_1_1_at0 (x1 : BitVec 1) (x2 : BitVec 1) (x3 : BitVec 1) :
    BitVec.extractLsb' (n := 6) 0 1 (0#3 ++ x1 ++ x2 ++ x3) = x3 :=
  (extract_append_low _ _ _ _ (by decide)).trans (extract_whole _)

@[simp] theorem extract_3z_1_2_at3 (x1 : BitVec 1) (x2 : BitVec 2) :
    BitVec.extractLsb' (n := 6) 3 3 (0#3 ++ x1 ++ x2) = 0#3 :=
  (extract_append_high _ _ _ _ (by decide)).trans ((extract_append_high _ _ _ _ (by decide)).trans (extract_whole _))

@[simp] theorem extract_3z_1_2_at2 (x1 : BitVec 1) (x2 : BitVec 2) :
    BitVec.extractLsb' (n := 6) 2 1 (0#3 ++ x1 ++ x2) = x1 :=
  (extract_append_high _ _ _ _ (by decide)).trans ((extract_append_low _ _ _ _ (by decide)).trans (extract_whole _))

@[simp] theorem extract_3z_1_2_at0 (x1 : BitVec 1) (x2 : BitVec 2) :
    BitVec.extractLsb' (n := 6) 0 2 (0#3 ++ x1 ++ x2) = x2 :=
  (extract_append_low _ _ _ _ (by decide)).trans (extract_whole _)

@[simp] theorem extract_3z_3_at3 (x1 : BitVec 3) :
    BitVec.extractLsb' (n := 6) 3 3 (0#3 ++ x1) = 0#3 :=
  (extract_append_high _ _ _ _ (by decide)).trans (extract_whole _)

@[simp] theorem extract_3z_3_at0 (x1 : BitVec 3) :
    BitVec.extractLsb' (n := 6) 0 3 (0#3 ++ x1) = x1 :=
  (extract_append_low _ _ _ _ (by decide)).trans (extract_whole _)

@[simp] theorem extract_4z_1_1_at2 (x1 : BitVec 1) (x2 : BitVec 1) :
    BitVec.extractLsb' (n := 6) 2 4 (0#4 ++ x1 ++ x2) = 0#4 :=
  (extract_append_high _ _ _ _ (by decide)).trans ((extract_append_high _ _ _ _ (by decide)).trans (extract_whole _))

@[simp] theorem extract_4z_1_1_at1 (x1 : BitVec 1) (x2 : BitVec 1) :
    BitVec.extractLsb' (n := 6) 1 1 (0#4 ++ x1 ++ x2) = x1 :=
  (extract_append_high _ _ _ _ (by decide)).trans ((extract_append_low _ _ _ _ (by decide)).trans (extract_whole _))

@[simp] theorem extract_4z_1_1_at0 (x1 : BitVec 1) (x2 : BitVec 1) :
    BitVec.extractLsb' (n := 6) 0 1 (0#4 ++ x1 ++ x2) = x2 :=
  (extract_append_low _ _ _ _ (by decide)).trans (extract_whole _)

@[simp] theorem extract_4z_1_3_at4 (x1 : BitVec 1) (x2 : BitVec 3) :
    BitVec.extractLsb' (n := 8) 4 4 (0#4 ++ x1 ++ x2) = 0#4 :=
  (extract_append_high _ _ _ _ (by decide)).trans ((extract_append_high _ _ _ _ (by decide)).trans (extract_whole _))

@[simp] theorem extract_4z_1_3_at3 (x1 : BitVec 1) (x2 : BitVec 3) :
    BitVec.extractLsb' (n := 8) 3 1 (0#4 ++ x1 ++ x2) = x1 :=
  (extract_append_high _ _ _ _ (by decide)).trans ((extract_append_low _ _ _ _ (by decide)).trans (extract_whole _))

@[simp] theorem extract_4z_1_3_at0 (x1 : BitVec 1) (x2 : BitVec 3) :
    BitVec.extractLsb' (n := 8) 0 3 (0#4 ++ x1 ++ x2) = x2 :=
  (extract_append_low _ _ _ _ (by decide)).trans (extract_whole _)

@[simp] theorem extract_4z_2_at2 (x1 : BitVec 2) :
    BitVec.extractLsb' (n := 6) 2 4 (0#4 ++ x1) = 0#4 :=
  (extract_append_high _ _ _ _ (by decide)).trans (extract_whole _)

@[simp] theorem extract_4z_2_at0 (x1 : BitVec 2) :
    BitVec.extractLsb' (n := 6) 0 2 (0#4 ++ x1) = x1 :=
  (extract_append_low _ _ _ _ (by decide)).trans (extract_whole _)

@[simp] theorem extract_4_1_1_at2 (x0 : BitVec 4) (x1 : BitVec 1) (x2 : BitVec 1) :
    BitVec.extractLsb' (n := 6) 2 4 (x0 ++ x1 ++ x2) = x0 :=
  (extract_append_high _ _ _ _ (by decide)).trans ((extract_append_high _ _ _ _ (by decide)).trans (extract_whole _))

@[simp] theorem extract_4_1_1_at1 (x0 : BitVec 4) (x1 : BitVec 1) (x2 : BitVec 1) :
    BitVec.extractLsb' (n := 6) 1 1 (x0 ++ x1 ++ x2) = x1 :=
  (extract_append_high _ _ _ _ (by decide)).trans ((extract_append_low _ _ _ _ (by decide)).trans (extract_whole _))

@[simp] theorem extract_4_1_1_at0 (x0 : BitVec 4) (x1 : BitVec 1) (x2 : BitVec 1) :
    BitVec.extractLsb' (n := 6) 0 1 (x0 ++ x1 ++ x2) = x2 :=
  (extract_append_low _ _ _ _ (by decide)).trans (extract_whole _)

@[simp] theorem extract_5z_1_at1 (x1 : BitVec 1) :
    BitVec.extractLsb' (n := 6) 1 5 (0#5 ++ x1) = 0#5 :=
  (extract_append_high _ _ _ _ (by decide)).trans (extract_whole _)

@[simp] theorem extract_5z_1_at0 (x1 : BitVec 1) :
    BitVec.extractLsb' (n := 6) 0 1 (0#5 ++ x1) = x1 :=
  (extract_append_low _ _ _ _ (by decide)).trans (extract_whole _)

@[simp] theorem extract_5_5_at5 (x0 : BitVec 5) (x1 : BitVec 5) :
    BitVec.extractLsb' (n := 10) 5 5 (x0 ++ x1) = x0 :=
  (extract_append_high _ _ _ _ (by decide)).trans (extract_whole _)

@[simp] theorem extract_5_5_at0 (x0 : BitVec 5) (x1 : BitVec 5) :
    BitVec.extractLsb' (n := 10) 0 5 (x0 ++ x1) = x1 :=
  (extract_append_low _ _ _ _ (by decide)).trans (extract_whole _)

@[simp] theorem extract_6z_2_at2 (x1 : BitVec 2) :
    BitVec.extractLsb' (n := 8) 2 6 (0#6 ++ x1) = 0#6 :=
  (extract_append_high _ _ _ _ (by decide)).trans (extract_whole _)

@[simp] theorem extract_6z_2_at0 (x1 : BitVec 2) :
    BitVec.extractLsb' (n := 8) 0 2 (0#6 ++ x1) = x1 :=
  (extract_append_low _ _ _ _ (by decide)).trans (extract_whole _)

@[simp] theorem extract_6z_6_3z_5_at14 (x1 : BitVec 6) (x3 : BitVec 5) :
    BitVec.extractLsb' (n := 20) 14 6 (0#6 ++ x1 ++ 0#3 ++ x3) = 0#6 :=
  (extract_append_high _ _ _ _ (by decide)).trans ((extract_append_high _ _ _ _ (by decide)).trans ((extract_append_high _ _ _ _ (by decide)).trans (extract_whole _)))

@[simp] theorem extract_6z_6_3z_5_at8 (x1 : BitVec 6) (x3 : BitVec 5) :
    BitVec.extractLsb' (n := 20) 8 6 (0#6 ++ x1 ++ 0#3 ++ x3) = x1 :=
  (extract_append_high _ _ _ _ (by decide)).trans ((extract_append_high _ _ _ _ (by decide)).trans ((extract_append_low _ _ _ _ (by decide)).trans (extract_whole _)))

@[simp] theorem extract_6z_6_3z_5_at5 (x1 : BitVec 6) (x3 : BitVec 5) :
    BitVec.extractLsb' (n := 20) 5 3 (0#6 ++ x1 ++ 0#3 ++ x3) = 0#3 :=
  (extract_append_high _ _ _ _ (by decide)).trans ((extract_append_low _ _ _ _ (by decide)).trans (extract_whole _))

@[simp] theorem extract_6z_6_3z_5_at0 (x1 : BitVec 6) (x3 : BitVec 5) :
    BitVec.extractLsb' (n := 20) 0 5 (0#6 ++ x1 ++ 0#3 ++ x3) = x3 :=
  (extract_append_low _ _ _ _ (by decide)).trans (extract_whole _)

@[simp] theorem extract_7z_1_at1 (x1 : BitVec 1) :
    BitVec.extractLsb' (n := 8) 1 7 (0#7 ++ x1) = 0#7 :=
  (extract_append_high _ _ _ _ (by decide)).trans (extract_whole _)

@[simp] theorem extract_7z_1_at0 (x1 : BitVec 1) :
    BitVec.extractLsb' (n := 8) 0 1 (0#7 ++ x1) = x1 :=
  (extract_append_low _ _ _ _ (by decide)).trans (extract_whole _)

@[simp] theorem extract_8z_12_at12 (x1 : BitVec 12) :
    BitVec.extractLsb' (n := 20) 12 8 (0#8 ++ x1) = 0#8 :=
  (extract_append_high _ _ _ _ (by decide)).trans (extract_whole _)

@[simp] theorem extract_8z_12_at0 (x1 : BitVec 12) :
    BitVec.extractLsb' (n := 20) 0 12 (0#8 ++ x1) = x1 :=
  (extract_append_low _ _ _ _ (by decide)).trans (extract_whole _)

end Sys2Proof
end

