-- ==== Sys2Proof/Laws/Sparse.lean ====
section
/-! SUPPORT. Reading and writing sorted maps: read after write, and the canonical form kept. -/

namespace Sys2Proof.Machine

/-- Keys strictly rise from `lo` on. -/
def rising {α : Type} : Nat → List (Nat × α) → Prop
  | _, [] => True
  | lo, (k, _) :: t => lo ≤ k ∧ rising (k + 1) t

theorem rising_mono {α : Type} {a b : Nat} (h : a ≤ b) : ∀ {l : List (Nat × α)}, rising b l → rising a l
  | [], _ => trivial
  | (_, _) :: _, ⟨h1, h2⟩ => ⟨h.trans h1, h2⟩

theorem aget_of_rising {α : Type} {k lo : Nat} (h : k < lo) : ∀ {l : List (Nat × α)}, rising lo l → aget l k = none
  | [], _ => rfl
  | (k', v) :: t, ⟨h1, h2⟩ => by
    have : k ≠ k' := by omega
    simp only [aget, this, if_false]
    exact aget_of_rising (by omega) h2

/-- A write to a map is read back, and leaves every other key as it was. -/
@[simp] theorem aget_aput {α : Type} (l : List (Nat × α)) (k k' : Nat) (v : α) :
    aget (aput l k v) k' = if k' = k then some v else aget l k' := by
  induction l with
  | nil => simp [aput, aget]
  | cons e t ih =>
    obtain ⟨k0, v0⟩ := e
    simp only [aput]
    split
    · simp [aget]
    · split
      · subst k0; simp only [aget]; split <;> rfl
      · simp only [aget, ih]; split
        · subst k0; split <;> simp_all
        · rfl

theorem agetD_aput {α : Type} (l : List (Nat × α)) (k k' : Nat) (v d : α) :
    agetD (aput l k v) k' d = if k' = k then v else agetD l k' d := by
  unfold agetD; rw [aget_aput]; by_cases h : k' = k <;> simp [h]

/-- The entry of a changed key, and every other key. -/
theorem aget_amod {α : Type} (l : List (Nat × α)) (k k' : Nat) (f : α → α) :
    aget (amod l k f) k' = if k' = k then (aget l k).map f else aget l k' := by
  unfold amod
  split
  · rename_i h; rw [aget_aput, h]; rfl
  · rename_i h; split
    · subst k'; simp [h]
    · rfl

theorem rising_aput {α : Type} {lo k : Nat} (v : α) (h : lo ≤ k) : ∀ {l : List (Nat × α)}, rising lo l → rising lo (aput l k v)
  | [], _ => ⟨h, trivial⟩
  | (k', v') :: t, ⟨h1, h2⟩ => by
    simp only [aput]
    split
    · rename_i h3; exact ⟨h, by omega, h2⟩
    · split
      · subst k; exact ⟨h1, h2⟩
      · exact ⟨h1, rising_aput v (by omega) h2⟩

theorem rising_amod {α : Type} {lo k : Nat} (f : α → α) {l : List (Nat × α)} (h : rising lo l) : rising lo (amod l k f) := by
  unfold amod
  split
  · rename_i v hv
    by_cases hk : lo ≤ k
    · exact rising_aput _ hk h
    · rw [aget_of_rising (by omega) h] at hv; cases hv
  · exact h

/-- The canonical form gives rising keys. -/
theorem swfFrom_rising {α : Type} [DecidableEq α] {d : α} : ∀ {lo : Nat} {l : List (Nat × α)}, swfFrom d lo l = true → rising lo l
  | _, [], _ => trivial
  | _, (_, _) :: _, h => by
    simp only [swfFrom, Bool.and_eq_true, decide_eq_true_eq] at h
    exact ⟨h.1.1, swfFrom_rising h.2⟩

theorem swfFrom_mono {α : Type} [DecidableEq α] {d : α} {a b : Nat} (h : a ≤ b) :
    ∀ {l : List (Nat × α)}, swfFrom d b l = true → swfFrom d a l = true
  | [], _ => rfl
  | (_, _) :: _, hl => by
    simp only [swfFrom, Bool.and_eq_true, decide_eq_true_eq] at hl ⊢
    exact ⟨⟨h.trans hl.1.1, hl.1.2⟩, hl.2⟩

theorem sget_of_lt {α : Type} [DecidableEq α] {d : α} {k lo : Nat} (h : k < lo) :
    ∀ {l : List (Nat × α)}, rising lo l → sget d l k = d
  | [], _ => rfl
  | (k', v) :: t, ⟨h1, h2⟩ => by
    have : k ≠ k' := by omega
    simp only [sget, this, if_false]
    exact sget_of_lt (by omega) h2

/-- A map without a key: the entry at another key stays. -/
@[simp] theorem aget_adel {α : Type} (l : List (Nat × α)) (k k' : Nat) : aget (adel l k) k' = if k' = k then none else aget l k' := by
  induction l with
  | nil => simp [adel, aget]
  | cons e t ih =>
    obtain ⟨a, v⟩ := e
    unfold adel at ih ⊢
    rw [List.filter_cons]
    by_cases ha : a = k
    · subst ha
      rw [if_neg (by simp), ih, aget]
      by_cases h : k' = a
      · rw [if_pos h, if_pos h]
      · rw [if_neg h, if_neg h, if_neg h]
    · rw [if_pos (by simpa using ha), aget, ih, aget]
      by_cases h : k' = a
      · subst h; rw [if_pos rfl, if_pos rfl, if_neg ha]
      · rw [if_neg h, if_neg h]

theorem sget_filter_ne {α : Type} (d : α) (l : List (Nat × α)) (k k' : Nat) :
    sget d (l.filter fun e => e.1 != k) k' = if k' = k then d else sget d l k' := by
  induction l with
  | nil => simp [sget]
  | cons e t ih =>
    obtain ⟨k0, v0⟩ := e
    by_cases h0 : k0 = k
    · subst h0
      simp only [List.filter_cons, bne_self_eq_false, Bool.false_eq_true, if_false, ih, sget]
      by_cases h1 : k' = k0 <;> simp [h1]
    · simp only [List.filter_cons, bne_iff_ne, ne_eq, h0, not_false_eq_true, if_true, sget, ih]
      by_cases h1 : k' = k0
      · subst h1; simp [h0]
      · simp [h1]

theorem sget_aput {α : Type} (d : α) (l : List (Nat × α)) (k k' : Nat) (v : α) :
    sget d (aput l k v) k' = if k' = k then v else sget d l k' := by
  induction l with
  | nil => simp [aput, sget]
  | cons e t ih =>
    obtain ⟨k0, v0⟩ := e
    simp only [aput]
    split
    · simp [sget]
    · split
      · subst k0; simp only [sget]; split <;> rfl
      · simp only [sget, ih]; split
        · subst k0; split <;> simp_all
        · rfl

/-- A write to a map with a default is read back, and leaves every other key as it was. -/
@[simp] theorem sget_sset {α : Type} [DecidableEq α] (d : α) (l : List (Nat × α)) (k k' : Nat) (v : α) :
    sget d (sset d l k v) k' = if k' = k then v else sget d l k' := by
  unfold sset
  split
  · rename_i h; subst h; exact sget_filter_ne v l k k'
  · exact sget_aput d l k k' v

theorem swfFrom_filter {α : Type} [DecidableEq α] (d : α) (k : Nat) :
    ∀ {lo : Nat} {l : List (Nat × α)}, swfFrom d lo l = true → swfFrom d lo (l.filter fun e => e.1 != k) = true
  | _, [], _ => rfl
  | lo, (k0, v0) :: t, h => by
    simp only [swfFrom, Bool.and_eq_true, decide_eq_true_eq] at h
    by_cases h0 : k0 = k
    · simp only [List.filter_cons, h0, bne_self_eq_false, Bool.false_eq_true, if_false]
      exact swfFrom_mono (by omega) (swfFrom_filter d k h.2)
    · simp only [List.filter_cons, bne_iff_ne, ne_eq, h0, not_false_eq_true, if_true, swfFrom, Bool.and_eq_true,
        decide_eq_true_eq]
      exact ⟨h.1, swfFrom_filter d k h.2⟩

theorem swfFrom_aput {α : Type} [DecidableEq α] (d : α) (k : Nat) (v : α) (hv : v ≠ d) :
    ∀ {lo : Nat} {l : List (Nat × α)}, lo ≤ k → swfFrom d lo l = true → swfFrom d lo (aput l k v) = true
  | lo, [], h, _ => by simp [aput, swfFrom, h, hv]
  | lo, (k0, v0) :: t, h, hl => by
    simp only [swfFrom, Bool.and_eq_true, decide_eq_true_eq] at hl
    simp only [aput]
    split
    · simp only [swfFrom, Bool.and_eq_true, decide_eq_true_eq]
      exact ⟨⟨h, by simp [hv]⟩, ⟨⟨by omega, hl.1.2⟩, hl.2⟩⟩
    · split
      · subst k
        simp only [swfFrom, Bool.and_eq_true, decide_eq_true_eq]
        exact ⟨⟨hl.1.1, by simp [hv]⟩, hl.2⟩
      · simp only [swfFrom, Bool.and_eq_true, decide_eq_true_eq]
        exact ⟨hl.1, swfFrom_aput d k v hv (by omega) hl.2⟩

/-- A write keeps the canonical form. -/
theorem swf_sset {α : Type} [DecidableEq α] (d : α) (l : List (Nat × α)) (k : Nat) (v : α) (h : swf d l = true) :
    swf d (sset d l k v) = true := by
  unfold sset
  split
  · exact swfFrom_filter d k h
  · rename_i hv; exact swfFrom_aput d k v hv (Nat.zero_le _) h

end Sys2Proof.Machine
end

