-- ==== Sys2Proof/Laws/State.lean ====
section
/-! SUPPORT. Reading the panel after an update of it: one lemma per field per update, true by rfl; what each lookup reads after
the update of its kind; and, of the operations that change an agent's part, that the rest of the panel stays. -/

namespace Sys2Proof.Machine

@[simp] theorem State.modDie_agenda (s : State) (d : Nat) (f : Die → Die) : (s.modDie d f).agenda = s.agenda := rfl
@[simp] theorem State.modDie_cur (s : State) (d : Nat) (f : Die → Die) : (s.modDie d f).cur = s.cur := rfl
@[simp] theorem State.modDie_tick (s : State) (d : Nat) (f : Die → Die) : (s.modDie d f).tick = s.tick := rfl
@[simp] theorem State.modDie_fresh (s : State) (d : Nat) (f : Die → Die) : (s.modDie d f).fresh = s.fresh := rfl
@[simp] theorem State.modDie_phase (s : State) (d : Nat) (f : Die → Die) : (s.modDie d f).phase = s.phase := rfl
@[simp] theorem State.modDie_clock (s : State) (d : Nat) (f : Die → Die) : (s.modDie d f).clock = s.clock := rfl
@[simp] theorem State.modDie_flash (s : State) (d : Nat) (f : Die → Die) : (s.modDie d f).flash = s.flash := rfl
@[simp] theorem State.modDie_mem (s : State) (d : Nat) (f : Die → Die) : (s.modDie d f).mem = s.mem := rfl
@[simp] theorem State.modDie_l2 (s : State) (d : Nat) (f : Die → Die) : (s.modDie d f).l2 = s.l2 := rfl
@[simp] theorem State.modDie_poison (s : State) (d : Nat) (f : Die → Die) : (s.modDie d f).poison = s.poison := rfl
@[simp] theorem State.modDie_ue (s : State) (d : Nat) (f : Die → Die) : (s.modDie d f).ue = s.ue := rfl
@[simp] theorem State.modDie_ueLasting (s : State) (d : Nat) (f : Die → Die) : (s.modDie d f).ueLasting = s.ueLasting := rfl
@[simp] theorem State.modDie_ueL2 (s : State) (d : Nat) (f : Die → Die) : (s.modDie d f).ueL2 = s.ueL2 := rfl
@[simp] theorem State.modDie_dieMap (s : State) (d : Nat) (f : Die → Die) : (s.modDie d f).dieMap = s.dieMap := rfl
@[simp] theorem State.modDie_exclNow (s : State) (d : Nat) (f : Die → Die) : (s.modDie d f).exclNow = s.exclNow := rfl
@[simp] theorem State.modDie_panelNo (s : State) (d : Nat) (f : Die → Die) : (s.modDie d f).panelNo = s.panelNo := rfl
@[simp] theorem State.modDie_routes (s : State) (d : Nat) (f : Die → Die) : (s.modDie d f).routes = s.routes := rfl
@[simp] theorem State.modDie_cores (s : State) (d : Nat) (f : Die → Die) : (s.modDie d f).cores = s.cores := rfl
@[simp] theorem State.modDie_teams (s : State) (d : Nat) (f : Die → Die) : (s.modDie d f).teams = s.teams := rfl
@[simp] theorem State.modDie_groups (s : State) (d : Nat) (f : Die → Die) : (s.modDie d f).groups = s.groups := rfl
@[simp] theorem State.modDie_flight (s : State) (d : Nat) (f : Die → Die) : (s.modDie d f).flight = s.flight := rfl
@[simp] theorem State.modDie_msgs (s : State) (d : Nat) (f : Die → Die) : (s.modDie d f).msgs = s.msgs := rfl
@[simp] theorem State.modDie_answers (s : State) (d : Nat) (f : Die → Die) : (s.modDie d f).answers = s.answers := rfl
@[simp] theorem State.modDie_pends (s : State) (d : Nat) (f : Die → Die) : (s.modDie d f).pends = s.pends := rfl
@[simp] theorem State.modDie_streams (s : State) (d : Nat) (f : Die → Die) : (s.modDie d f).streams = s.streams := rfl
@[simp] theorem State.modDie_expects (s : State) (d : Nat) (f : Die → Die) : (s.modDie d f).expects = s.expects := rfl
@[simp] theorem State.modDie_streamIds (s : State) (d : Nat) (f : Die → Die) : (s.modDie d f).streamIds = s.streamIds := rfl
@[simp] theorem State.modDie_queues (s : State) (d : Nat) (f : Die → Die) : (s.modDie d f).queues = s.queues := rfl
@[simp] theorem State.modDie_links (s : State) (d : Nat) (f : Die → Die) : (s.modDie d f).links = s.links := rfl
@[simp] theorem State.modDie_d2dDown (s : State) (d : Nat) (f : Die → Die) : (s.modDie d f).d2dDown = s.d2dDown := rfl
@[simp] theorem State.modDie_d2dTrain (s : State) (d : Nat) (f : Die → Die) : (s.modDie d f).d2dTrain = s.d2dTrain := rfl
@[simp] theorem State.modDie_transit (s : State) (d : Nat) (f : Die → Die) : (s.modDie d f).transit = s.transit := rfl
@[simp] theorem State.modDie_wireOut (s : State) (d : Nat) (f : Die → Die) : (s.modDie d f).wireOut = s.wireOut := rfl
@[simp] theorem State.modDie_hostPort (s : State) (d : Nat) (f : Die → Die) : (s.modDie d f).hostPort = s.hostPort := rfl
@[simp] theorem State.modDie_etherNow (s : State) (d : Nat) (f : Die → Die) : (s.modDie d f).etherNow = s.etherNow := rfl
@[simp] theorem State.modDie_conns (s : State) (d : Nat) (f : Die → Die) : (s.modDie d f).conns = s.conns := rfl
@[simp] theorem State.modDie_hostOut (s : State) (d : Nat) (f : Die → Die) : (s.modDie d f).hostOut = s.hostOut := rfl
@[simp] theorem State.modDie_dropped (s : State) (d : Nat) (f : Die → Die) : (s.modDie d f).dropped = s.dropped := rfl
@[simp] theorem State.modDie_hostLost (s : State) (d : Nat) (f : Die → Die) : (s.modDie d f).hostLost = s.hostLost := rfl

@[simp] theorem State.modCore_agenda (s : State) (d c : Nat) (f : Core → Core) : (s.modCore d c f).agenda = s.agenda := rfl
@[simp] theorem State.modCore_cur (s : State) (d c : Nat) (f : Core → Core) : (s.modCore d c f).cur = s.cur := rfl
@[simp] theorem State.modCore_tick (s : State) (d c : Nat) (f : Core → Core) : (s.modCore d c f).tick = s.tick := rfl
@[simp] theorem State.modCore_fresh (s : State) (d c : Nat) (f : Core → Core) : (s.modCore d c f).fresh = s.fresh := rfl
@[simp] theorem State.modCore_phase (s : State) (d c : Nat) (f : Core → Core) : (s.modCore d c f).phase = s.phase := rfl
@[simp] theorem State.modCore_clock (s : State) (d c : Nat) (f : Core → Core) : (s.modCore d c f).clock = s.clock := rfl
@[simp] theorem State.modCore_flash (s : State) (d c : Nat) (f : Core → Core) : (s.modCore d c f).flash = s.flash := rfl
@[simp] theorem State.modCore_mem (s : State) (d c : Nat) (f : Core → Core) : (s.modCore d c f).mem = s.mem := rfl
@[simp] theorem State.modCore_l2 (s : State) (d c : Nat) (f : Core → Core) : (s.modCore d c f).l2 = s.l2 := rfl
@[simp] theorem State.modCore_poison (s : State) (d c : Nat) (f : Core → Core) : (s.modCore d c f).poison = s.poison := rfl
@[simp] theorem State.modCore_ue (s : State) (d c : Nat) (f : Core → Core) : (s.modCore d c f).ue = s.ue := rfl
@[simp] theorem State.modCore_ueLasting (s : State) (d c : Nat) (f : Core → Core) : (s.modCore d c f).ueLasting = s.ueLasting := rfl
@[simp] theorem State.modCore_ueL2 (s : State) (d c : Nat) (f : Core → Core) : (s.modCore d c f).ueL2 = s.ueL2 := rfl
@[simp] theorem State.modCore_dieMap (s : State) (d c : Nat) (f : Core → Core) : (s.modCore d c f).dieMap = s.dieMap := rfl
@[simp] theorem State.modCore_exclNow (s : State) (d c : Nat) (f : Core → Core) : (s.modCore d c f).exclNow = s.exclNow := rfl
@[simp] theorem State.modCore_panelNo (s : State) (d c : Nat) (f : Core → Core) : (s.modCore d c f).panelNo = s.panelNo := rfl
@[simp] theorem State.modCore_routes (s : State) (d c : Nat) (f : Core → Core) : (s.modCore d c f).routes = s.routes := rfl
@[simp] theorem State.modCore_dies (s : State) (d c : Nat) (f : Core → Core) : (s.modCore d c f).dies = s.dies := rfl
@[simp] theorem State.modCore_teams (s : State) (d c : Nat) (f : Core → Core) : (s.modCore d c f).teams = s.teams := rfl
@[simp] theorem State.modCore_groups (s : State) (d c : Nat) (f : Core → Core) : (s.modCore d c f).groups = s.groups := rfl
@[simp] theorem State.modCore_flight (s : State) (d c : Nat) (f : Core → Core) : (s.modCore d c f).flight = s.flight := rfl
@[simp] theorem State.modCore_msgs (s : State) (d c : Nat) (f : Core → Core) : (s.modCore d c f).msgs = s.msgs := rfl
@[simp] theorem State.modCore_answers (s : State) (d c : Nat) (f : Core → Core) : (s.modCore d c f).answers = s.answers := rfl
@[simp] theorem State.modCore_pends (s : State) (d c : Nat) (f : Core → Core) : (s.modCore d c f).pends = s.pends := rfl
@[simp] theorem State.modCore_streams (s : State) (d c : Nat) (f : Core → Core) : (s.modCore d c f).streams = s.streams := rfl
@[simp] theorem State.modCore_expects (s : State) (d c : Nat) (f : Core → Core) : (s.modCore d c f).expects = s.expects := rfl
@[simp] theorem State.modCore_streamIds (s : State) (d c : Nat) (f : Core → Core) : (s.modCore d c f).streamIds = s.streamIds := rfl
@[simp] theorem State.modCore_queues (s : State) (d c : Nat) (f : Core → Core) : (s.modCore d c f).queues = s.queues := rfl
@[simp] theorem State.modCore_links (s : State) (d c : Nat) (f : Core → Core) : (s.modCore d c f).links = s.links := rfl
@[simp] theorem State.modCore_d2dDown (s : State) (d c : Nat) (f : Core → Core) : (s.modCore d c f).d2dDown = s.d2dDown := rfl
@[simp] theorem State.modCore_d2dTrain (s : State) (d c : Nat) (f : Core → Core) : (s.modCore d c f).d2dTrain = s.d2dTrain := rfl
@[simp] theorem State.modCore_transit (s : State) (d c : Nat) (f : Core → Core) : (s.modCore d c f).transit = s.transit := rfl
@[simp] theorem State.modCore_wireOut (s : State) (d c : Nat) (f : Core → Core) : (s.modCore d c f).wireOut = s.wireOut := rfl
@[simp] theorem State.modCore_hostPort (s : State) (d c : Nat) (f : Core → Core) : (s.modCore d c f).hostPort = s.hostPort := rfl
@[simp] theorem State.modCore_etherNow (s : State) (d c : Nat) (f : Core → Core) : (s.modCore d c f).etherNow = s.etherNow := rfl
@[simp] theorem State.modCore_conns (s : State) (d c : Nat) (f : Core → Core) : (s.modCore d c f).conns = s.conns := rfl
@[simp] theorem State.modCore_hostOut (s : State) (d c : Nat) (f : Core → Core) : (s.modCore d c f).hostOut = s.hostOut := rfl
@[simp] theorem State.modCore_dropped (s : State) (d c : Nat) (f : Core → Core) : (s.modCore d c f).dropped = s.dropped := rfl
@[simp] theorem State.modCore_hostLost (s : State) (d c : Nat) (f : Core → Core) : (s.modCore d c f).hostLost = s.hostLost := rfl

@[simp] theorem State.modTeam_agenda (s : State) (d n : Nat) (f : Team → Team) : (s.modTeam d n f).agenda = s.agenda := rfl
@[simp] theorem State.modTeam_cur (s : State) (d n : Nat) (f : Team → Team) : (s.modTeam d n f).cur = s.cur := rfl
@[simp] theorem State.modTeam_tick (s : State) (d n : Nat) (f : Team → Team) : (s.modTeam d n f).tick = s.tick := rfl
@[simp] theorem State.modTeam_fresh (s : State) (d n : Nat) (f : Team → Team) : (s.modTeam d n f).fresh = s.fresh := rfl
@[simp] theorem State.modTeam_phase (s : State) (d n : Nat) (f : Team → Team) : (s.modTeam d n f).phase = s.phase := rfl
@[simp] theorem State.modTeam_clock (s : State) (d n : Nat) (f : Team → Team) : (s.modTeam d n f).clock = s.clock := rfl
@[simp] theorem State.modTeam_flash (s : State) (d n : Nat) (f : Team → Team) : (s.modTeam d n f).flash = s.flash := rfl
@[simp] theorem State.modTeam_mem (s : State) (d n : Nat) (f : Team → Team) : (s.modTeam d n f).mem = s.mem := rfl
@[simp] theorem State.modTeam_l2 (s : State) (d n : Nat) (f : Team → Team) : (s.modTeam d n f).l2 = s.l2 := rfl
@[simp] theorem State.modTeam_poison (s : State) (d n : Nat) (f : Team → Team) : (s.modTeam d n f).poison = s.poison := rfl
@[simp] theorem State.modTeam_ue (s : State) (d n : Nat) (f : Team → Team) : (s.modTeam d n f).ue = s.ue := rfl
@[simp] theorem State.modTeam_ueLasting (s : State) (d n : Nat) (f : Team → Team) : (s.modTeam d n f).ueLasting = s.ueLasting := rfl
@[simp] theorem State.modTeam_ueL2 (s : State) (d n : Nat) (f : Team → Team) : (s.modTeam d n f).ueL2 = s.ueL2 := rfl
@[simp] theorem State.modTeam_dieMap (s : State) (d n : Nat) (f : Team → Team) : (s.modTeam d n f).dieMap = s.dieMap := rfl
@[simp] theorem State.modTeam_exclNow (s : State) (d n : Nat) (f : Team → Team) : (s.modTeam d n f).exclNow = s.exclNow := rfl
@[simp] theorem State.modTeam_panelNo (s : State) (d n : Nat) (f : Team → Team) : (s.modTeam d n f).panelNo = s.panelNo := rfl
@[simp] theorem State.modTeam_routes (s : State) (d n : Nat) (f : Team → Team) : (s.modTeam d n f).routes = s.routes := rfl
@[simp] theorem State.modTeam_dies (s : State) (d n : Nat) (f : Team → Team) : (s.modTeam d n f).dies = s.dies := rfl
@[simp] theorem State.modTeam_cores (s : State) (d n : Nat) (f : Team → Team) : (s.modTeam d n f).cores = s.cores := rfl
@[simp] theorem State.modTeam_groups (s : State) (d n : Nat) (f : Team → Team) : (s.modTeam d n f).groups = s.groups := rfl
@[simp] theorem State.modTeam_flight (s : State) (d n : Nat) (f : Team → Team) : (s.modTeam d n f).flight = s.flight := rfl
@[simp] theorem State.modTeam_msgs (s : State) (d n : Nat) (f : Team → Team) : (s.modTeam d n f).msgs = s.msgs := rfl
@[simp] theorem State.modTeam_answers (s : State) (d n : Nat) (f : Team → Team) : (s.modTeam d n f).answers = s.answers := rfl
@[simp] theorem State.modTeam_pends (s : State) (d n : Nat) (f : Team → Team) : (s.modTeam d n f).pends = s.pends := rfl
@[simp] theorem State.modTeam_streams (s : State) (d n : Nat) (f : Team → Team) : (s.modTeam d n f).streams = s.streams := rfl
@[simp] theorem State.modTeam_expects (s : State) (d n : Nat) (f : Team → Team) : (s.modTeam d n f).expects = s.expects := rfl
@[simp] theorem State.modTeam_streamIds (s : State) (d n : Nat) (f : Team → Team) : (s.modTeam d n f).streamIds = s.streamIds := rfl
@[simp] theorem State.modTeam_queues (s : State) (d n : Nat) (f : Team → Team) : (s.modTeam d n f).queues = s.queues := rfl
@[simp] theorem State.modTeam_links (s : State) (d n : Nat) (f : Team → Team) : (s.modTeam d n f).links = s.links := rfl
@[simp] theorem State.modTeam_d2dDown (s : State) (d n : Nat) (f : Team → Team) : (s.modTeam d n f).d2dDown = s.d2dDown := rfl
@[simp] theorem State.modTeam_d2dTrain (s : State) (d n : Nat) (f : Team → Team) : (s.modTeam d n f).d2dTrain = s.d2dTrain := rfl
@[simp] theorem State.modTeam_transit (s : State) (d n : Nat) (f : Team → Team) : (s.modTeam d n f).transit = s.transit := rfl
@[simp] theorem State.modTeam_wireOut (s : State) (d n : Nat) (f : Team → Team) : (s.modTeam d n f).wireOut = s.wireOut := rfl
@[simp] theorem State.modTeam_hostPort (s : State) (d n : Nat) (f : Team → Team) : (s.modTeam d n f).hostPort = s.hostPort := rfl
@[simp] theorem State.modTeam_etherNow (s : State) (d n : Nat) (f : Team → Team) : (s.modTeam d n f).etherNow = s.etherNow := rfl
@[simp] theorem State.modTeam_conns (s : State) (d n : Nat) (f : Team → Team) : (s.modTeam d n f).conns = s.conns := rfl
@[simp] theorem State.modTeam_hostOut (s : State) (d n : Nat) (f : Team → Team) : (s.modTeam d n f).hostOut = s.hostOut := rfl
@[simp] theorem State.modTeam_dropped (s : State) (d n : Nat) (f : Team → Team) : (s.modTeam d n f).dropped = s.dropped := rfl
@[simp] theorem State.modTeam_hostLost (s : State) (d n : Nat) (f : Team → Team) : (s.modTeam d n f).hostLost = s.hostLost := rfl

@[simp] theorem State.modGroup_agenda (s : State) (k : Nat) (f : Group → Group) : (s.modGroup k f).agenda = s.agenda := rfl
@[simp] theorem State.modGroup_cur (s : State) (k : Nat) (f : Group → Group) : (s.modGroup k f).cur = s.cur := rfl
@[simp] theorem State.modGroup_tick (s : State) (k : Nat) (f : Group → Group) : (s.modGroup k f).tick = s.tick := rfl
@[simp] theorem State.modGroup_fresh (s : State) (k : Nat) (f : Group → Group) : (s.modGroup k f).fresh = s.fresh := rfl
@[simp] theorem State.modGroup_phase (s : State) (k : Nat) (f : Group → Group) : (s.modGroup k f).phase = s.phase := rfl
@[simp] theorem State.modGroup_clock (s : State) (k : Nat) (f : Group → Group) : (s.modGroup k f).clock = s.clock := rfl
@[simp] theorem State.modGroup_flash (s : State) (k : Nat) (f : Group → Group) : (s.modGroup k f).flash = s.flash := rfl
@[simp] theorem State.modGroup_mem (s : State) (k : Nat) (f : Group → Group) : (s.modGroup k f).mem = s.mem := rfl
@[simp] theorem State.modGroup_l2 (s : State) (k : Nat) (f : Group → Group) : (s.modGroup k f).l2 = s.l2 := rfl
@[simp] theorem State.modGroup_poison (s : State) (k : Nat) (f : Group → Group) : (s.modGroup k f).poison = s.poison := rfl
@[simp] theorem State.modGroup_ue (s : State) (k : Nat) (f : Group → Group) : (s.modGroup k f).ue = s.ue := rfl
@[simp] theorem State.modGroup_ueLasting (s : State) (k : Nat) (f : Group → Group) : (s.modGroup k f).ueLasting = s.ueLasting := rfl
@[simp] theorem State.modGroup_ueL2 (s : State) (k : Nat) (f : Group → Group) : (s.modGroup k f).ueL2 = s.ueL2 := rfl
@[simp] theorem State.modGroup_dieMap (s : State) (k : Nat) (f : Group → Group) : (s.modGroup k f).dieMap = s.dieMap := rfl
@[simp] theorem State.modGroup_exclNow (s : State) (k : Nat) (f : Group → Group) : (s.modGroup k f).exclNow = s.exclNow := rfl
@[simp] theorem State.modGroup_panelNo (s : State) (k : Nat) (f : Group → Group) : (s.modGroup k f).panelNo = s.panelNo := rfl
@[simp] theorem State.modGroup_routes (s : State) (k : Nat) (f : Group → Group) : (s.modGroup k f).routes = s.routes := rfl
@[simp] theorem State.modGroup_dies (s : State) (k : Nat) (f : Group → Group) : (s.modGroup k f).dies = s.dies := rfl
@[simp] theorem State.modGroup_cores (s : State) (k : Nat) (f : Group → Group) : (s.modGroup k f).cores = s.cores := rfl
@[simp] theorem State.modGroup_teams (s : State) (k : Nat) (f : Group → Group) : (s.modGroup k f).teams = s.teams := rfl
@[simp] theorem State.modGroup_flight (s : State) (k : Nat) (f : Group → Group) : (s.modGroup k f).flight = s.flight := rfl
@[simp] theorem State.modGroup_msgs (s : State) (k : Nat) (f : Group → Group) : (s.modGroup k f).msgs = s.msgs := rfl
@[simp] theorem State.modGroup_answers (s : State) (k : Nat) (f : Group → Group) : (s.modGroup k f).answers = s.answers := rfl
@[simp] theorem State.modGroup_pends (s : State) (k : Nat) (f : Group → Group) : (s.modGroup k f).pends = s.pends := rfl
@[simp] theorem State.modGroup_streams (s : State) (k : Nat) (f : Group → Group) : (s.modGroup k f).streams = s.streams := rfl
@[simp] theorem State.modGroup_expects (s : State) (k : Nat) (f : Group → Group) : (s.modGroup k f).expects = s.expects := rfl
@[simp] theorem State.modGroup_streamIds (s : State) (k : Nat) (f : Group → Group) : (s.modGroup k f).streamIds = s.streamIds := rfl
@[simp] theorem State.modGroup_queues (s : State) (k : Nat) (f : Group → Group) : (s.modGroup k f).queues = s.queues := rfl
@[simp] theorem State.modGroup_links (s : State) (k : Nat) (f : Group → Group) : (s.modGroup k f).links = s.links := rfl
@[simp] theorem State.modGroup_d2dDown (s : State) (k : Nat) (f : Group → Group) : (s.modGroup k f).d2dDown = s.d2dDown := rfl
@[simp] theorem State.modGroup_d2dTrain (s : State) (k : Nat) (f : Group → Group) : (s.modGroup k f).d2dTrain = s.d2dTrain := rfl
@[simp] theorem State.modGroup_transit (s : State) (k : Nat) (f : Group → Group) : (s.modGroup k f).transit = s.transit := rfl
@[simp] theorem State.modGroup_wireOut (s : State) (k : Nat) (f : Group → Group) : (s.modGroup k f).wireOut = s.wireOut := rfl
@[simp] theorem State.modGroup_hostPort (s : State) (k : Nat) (f : Group → Group) : (s.modGroup k f).hostPort = s.hostPort := rfl
@[simp] theorem State.modGroup_etherNow (s : State) (k : Nat) (f : Group → Group) : (s.modGroup k f).etherNow = s.etherNow := rfl
@[simp] theorem State.modGroup_conns (s : State) (k : Nat) (f : Group → Group) : (s.modGroup k f).conns = s.conns := rfl
@[simp] theorem State.modGroup_hostOut (s : State) (k : Nat) (f : Group → Group) : (s.modGroup k f).hostOut = s.hostOut := rfl
@[simp] theorem State.modGroup_dropped (s : State) (k : Nat) (f : Group → Group) : (s.modGroup k f).dropped = s.dropped := rfl
@[simp] theorem State.modGroup_hostLost (s : State) (k : Nat) (f : Group → Group) : (s.modGroup k f).hostLost = s.hostLost := rfl

@[simp] theorem State.modQueue_agenda (s : State) (k : Nat) (f : Queue → Queue) : (s.modQueue k f).agenda = s.agenda := rfl
@[simp] theorem State.modQueue_cur (s : State) (k : Nat) (f : Queue → Queue) : (s.modQueue k f).cur = s.cur := rfl
@[simp] theorem State.modQueue_tick (s : State) (k : Nat) (f : Queue → Queue) : (s.modQueue k f).tick = s.tick := rfl
@[simp] theorem State.modQueue_fresh (s : State) (k : Nat) (f : Queue → Queue) : (s.modQueue k f).fresh = s.fresh := rfl
@[simp] theorem State.modQueue_phase (s : State) (k : Nat) (f : Queue → Queue) : (s.modQueue k f).phase = s.phase := rfl
@[simp] theorem State.modQueue_clock (s : State) (k : Nat) (f : Queue → Queue) : (s.modQueue k f).clock = s.clock := rfl
@[simp] theorem State.modQueue_flash (s : State) (k : Nat) (f : Queue → Queue) : (s.modQueue k f).flash = s.flash := rfl
@[simp] theorem State.modQueue_mem (s : State) (k : Nat) (f : Queue → Queue) : (s.modQueue k f).mem = s.mem := rfl
@[simp] theorem State.modQueue_l2 (s : State) (k : Nat) (f : Queue → Queue) : (s.modQueue k f).l2 = s.l2 := rfl
@[simp] theorem State.modQueue_poison (s : State) (k : Nat) (f : Queue → Queue) : (s.modQueue k f).poison = s.poison := rfl
@[simp] theorem State.modQueue_ue (s : State) (k : Nat) (f : Queue → Queue) : (s.modQueue k f).ue = s.ue := rfl
@[simp] theorem State.modQueue_ueLasting (s : State) (k : Nat) (f : Queue → Queue) : (s.modQueue k f).ueLasting = s.ueLasting := rfl
@[simp] theorem State.modQueue_ueL2 (s : State) (k : Nat) (f : Queue → Queue) : (s.modQueue k f).ueL2 = s.ueL2 := rfl
@[simp] theorem State.modQueue_dieMap (s : State) (k : Nat) (f : Queue → Queue) : (s.modQueue k f).dieMap = s.dieMap := rfl
@[simp] theorem State.modQueue_exclNow (s : State) (k : Nat) (f : Queue → Queue) : (s.modQueue k f).exclNow = s.exclNow := rfl
@[simp] theorem State.modQueue_panelNo (s : State) (k : Nat) (f : Queue → Queue) : (s.modQueue k f).panelNo = s.panelNo := rfl
@[simp] theorem State.modQueue_routes (s : State) (k : Nat) (f : Queue → Queue) : (s.modQueue k f).routes = s.routes := rfl
@[simp] theorem State.modQueue_dies (s : State) (k : Nat) (f : Queue → Queue) : (s.modQueue k f).dies = s.dies := rfl
@[simp] theorem State.modQueue_cores (s : State) (k : Nat) (f : Queue → Queue) : (s.modQueue k f).cores = s.cores := rfl
@[simp] theorem State.modQueue_teams (s : State) (k : Nat) (f : Queue → Queue) : (s.modQueue k f).teams = s.teams := rfl
@[simp] theorem State.modQueue_groups (s : State) (k : Nat) (f : Queue → Queue) : (s.modQueue k f).groups = s.groups := rfl
@[simp] theorem State.modQueue_flight (s : State) (k : Nat) (f : Queue → Queue) : (s.modQueue k f).flight = s.flight := rfl
@[simp] theorem State.modQueue_msgs (s : State) (k : Nat) (f : Queue → Queue) : (s.modQueue k f).msgs = s.msgs := rfl
@[simp] theorem State.modQueue_answers (s : State) (k : Nat) (f : Queue → Queue) : (s.modQueue k f).answers = s.answers := rfl
@[simp] theorem State.modQueue_pends (s : State) (k : Nat) (f : Queue → Queue) : (s.modQueue k f).pends = s.pends := rfl
@[simp] theorem State.modQueue_streams (s : State) (k : Nat) (f : Queue → Queue) : (s.modQueue k f).streams = s.streams := rfl
@[simp] theorem State.modQueue_expects (s : State) (k : Nat) (f : Queue → Queue) : (s.modQueue k f).expects = s.expects := rfl
@[simp] theorem State.modQueue_streamIds (s : State) (k : Nat) (f : Queue → Queue) : (s.modQueue k f).streamIds = s.streamIds := rfl
@[simp] theorem State.modQueue_links (s : State) (k : Nat) (f : Queue → Queue) : (s.modQueue k f).links = s.links := rfl
@[simp] theorem State.modQueue_d2dDown (s : State) (k : Nat) (f : Queue → Queue) : (s.modQueue k f).d2dDown = s.d2dDown := rfl
@[simp] theorem State.modQueue_d2dTrain (s : State) (k : Nat) (f : Queue → Queue) : (s.modQueue k f).d2dTrain = s.d2dTrain := rfl
@[simp] theorem State.modQueue_transit (s : State) (k : Nat) (f : Queue → Queue) : (s.modQueue k f).transit = s.transit := rfl
@[simp] theorem State.modQueue_wireOut (s : State) (k : Nat) (f : Queue → Queue) : (s.modQueue k f).wireOut = s.wireOut := rfl
@[simp] theorem State.modQueue_hostPort (s : State) (k : Nat) (f : Queue → Queue) : (s.modQueue k f).hostPort = s.hostPort := rfl
@[simp] theorem State.modQueue_etherNow (s : State) (k : Nat) (f : Queue → Queue) : (s.modQueue k f).etherNow = s.etherNow := rfl
@[simp] theorem State.modQueue_conns (s : State) (k : Nat) (f : Queue → Queue) : (s.modQueue k f).conns = s.conns := rfl
@[simp] theorem State.modQueue_hostOut (s : State) (k : Nat) (f : Queue → Queue) : (s.modQueue k f).hostOut = s.hostOut := rfl
@[simp] theorem State.modQueue_dropped (s : State) (k : Nat) (f : Queue → Queue) : (s.modQueue k f).dropped = s.dropped := rfl
@[simp] theorem State.modQueue_hostLost (s : State) (k : Nat) (f : Queue → Queue) : (s.modQueue k f).hostLost = s.hostLost := rfl

@[simp] theorem State.draw_agenda (s : State) : (s.draw).agenda = s.agenda := rfl
@[simp] theorem State.draw_cur (s : State) : (s.draw).cur = s.cur := rfl
@[simp] theorem State.draw_fresh (s : State) : (s.draw).fresh = s.fresh := rfl
@[simp] theorem State.draw_phase (s : State) : (s.draw).phase = s.phase := rfl
@[simp] theorem State.draw_clock (s : State) : (s.draw).clock = s.clock := rfl
@[simp] theorem State.draw_flash (s : State) : (s.draw).flash = s.flash := rfl
@[simp] theorem State.draw_mem (s : State) : (s.draw).mem = s.mem := rfl
@[simp] theorem State.draw_l2 (s : State) : (s.draw).l2 = s.l2 := rfl
@[simp] theorem State.draw_poison (s : State) : (s.draw).poison = s.poison := rfl
@[simp] theorem State.draw_ue (s : State) : (s.draw).ue = s.ue := rfl
@[simp] theorem State.draw_ueLasting (s : State) : (s.draw).ueLasting = s.ueLasting := rfl
@[simp] theorem State.draw_ueL2 (s : State) : (s.draw).ueL2 = s.ueL2 := rfl
@[simp] theorem State.draw_dieMap (s : State) : (s.draw).dieMap = s.dieMap := rfl
@[simp] theorem State.draw_exclNow (s : State) : (s.draw).exclNow = s.exclNow := rfl
@[simp] theorem State.draw_panelNo (s : State) : (s.draw).panelNo = s.panelNo := rfl
@[simp] theorem State.draw_routes (s : State) : (s.draw).routes = s.routes := rfl
@[simp] theorem State.draw_dies (s : State) : (s.draw).dies = s.dies := rfl
@[simp] theorem State.draw_cores (s : State) : (s.draw).cores = s.cores := rfl
@[simp] theorem State.draw_teams (s : State) : (s.draw).teams = s.teams := rfl
@[simp] theorem State.draw_groups (s : State) : (s.draw).groups = s.groups := rfl
@[simp] theorem State.draw_flight (s : State) : (s.draw).flight = s.flight := rfl
@[simp] theorem State.draw_msgs (s : State) : (s.draw).msgs = s.msgs := rfl
@[simp] theorem State.draw_answers (s : State) : (s.draw).answers = s.answers := rfl
@[simp] theorem State.draw_pends (s : State) : (s.draw).pends = s.pends := rfl
@[simp] theorem State.draw_streams (s : State) : (s.draw).streams = s.streams := rfl
@[simp] theorem State.draw_expects (s : State) : (s.draw).expects = s.expects := rfl
@[simp] theorem State.draw_streamIds (s : State) : (s.draw).streamIds = s.streamIds := rfl
@[simp] theorem State.draw_queues (s : State) : (s.draw).queues = s.queues := rfl
@[simp] theorem State.draw_links (s : State) : (s.draw).links = s.links := rfl
@[simp] theorem State.draw_d2dDown (s : State) : (s.draw).d2dDown = s.d2dDown := rfl
@[simp] theorem State.draw_d2dTrain (s : State) : (s.draw).d2dTrain = s.d2dTrain := rfl
@[simp] theorem State.draw_transit (s : State) : (s.draw).transit = s.transit := rfl
@[simp] theorem State.draw_wireOut (s : State) : (s.draw).wireOut = s.wireOut := rfl
@[simp] theorem State.draw_hostPort (s : State) : (s.draw).hostPort = s.hostPort := rfl
@[simp] theorem State.draw_etherNow (s : State) : (s.draw).etherNow = s.etherNow := rfl
@[simp] theorem State.draw_conns (s : State) : (s.draw).conns = s.conns := rfl
@[simp] theorem State.draw_hostOut (s : State) : (s.draw).hostOut = s.hostOut := rfl
@[simp] theorem State.draw_dropped (s : State) : (s.draw).dropped = s.dropped := rfl
@[simp] theorem State.draw_hostLost (s : State) : (s.draw).hostLost = s.hostLost := rfl

/-- A changed die and every other. -/
theorem State.die_modDie (s : State) (d d' : Nat) (f : Die → Die) :
    (s.modDie d f).die d' = if d' = d then f (s.die d) else s.die d' := agetD_aput _ _ _ _ _

/-- A changed core and every other. -/
theorem State.core_modCore (s : State) (d c d' c' : Nat) (f : Core → Core) :
    (s.modCore d c f).core d' c' = if coreKey d' c' = coreKey d c then f (s.core d c) else s.core d' c' := agetD_aput _ _ _ _ _

/-- A changed team and every other. -/
theorem State.team_modTeam (s : State) (d n d' n' : Nat) (f : Team → Team) :
    (s.modTeam d n f).team? d' n' = if teamKey d' n' = teamKey d n then (s.team? d n).map f else s.team? d' n' := aget_amod _ _ _ _

/-- A changed group and every other. -/
@[simp] theorem State.group_modGroup (s : State) (k k' : Nat) (f : Group → Group) :
    (s.modGroup k f).group? k' = if k' = k then (s.group? k).map f else s.group? k' := aget_amod _ _ _ _

/-- A changed queue and every other. -/
theorem State.queue_modQueue (s : State) (k k' : Nat) (f : Queue → Queue) :
    aget (s.modQueue k f).queues k' = if k' = k then (aget s.queues k).map f else aget s.queues k' := aget_amod _ _ _ _

@[simp] theorem State.team_modGroup (s : State) (k d n : Nat) (f : Group → Group) : (s.modGroup k f).team? d n = s.team? d n := rfl
@[simp] theorem State.die_modGroup (s : State) (k d : Nat) (f : Group → Group) : (s.modGroup k f).die d = s.die d := rfl
@[simp] theorem State.core_modGroup (s : State) (k d c : Nat) (f : Group → Group) : (s.modGroup k f).core d c = s.core d c := rfl
@[simp] theorem State.group_modDie (s : State) (d k : Nat) (f : Die → Die) : (s.modDie d f).group? k = s.group? k := rfl
@[simp] theorem State.group_modCore (s : State) (d c k : Nat) (f : Core → Core) : (s.modCore d c f).group? k = s.group? k := rfl
@[simp] theorem State.group_modTeam (s : State) (d n k : Nat) (f : Team → Team) : (s.modTeam d n f).group? k = s.group? k := rfl
@[simp] theorem State.team_modDie (s : State) (d e n : Nat) (f : Die → Die) : (s.modDie d f).team? e n = s.team? e n := rfl
@[simp] theorem State.team_modCore (s : State) (d c e n : Nat) (f : Core → Core) : (s.modCore d c f).team? e n = s.team? e n := rfl

/-- A register of a group after a write of another or of itself (R60). -/
theorem Group.rd_wr (g : Group) (r r' l l' : Nat) (w : Word) (hl : l < 64) (hl' : l' < 64) :
    (g.wr r l w).rd r' l' = if r' = r ∧ (l' = l ∨ 256 ≤ r) then w else g.rd r' l' := by
  unfold Group.rd Group.wr
  by_cases hr : r < 256 <;> by_cases hr' : r' < 256 <;> simp only [hr, hr', if_true, if_false, sget_sset]
  · exact if_congr (by omega) rfl rfl
  · rw [if_neg (by omega)]
  · rw [if_neg (by omega)]
  · exact if_congr (by omega) rfl rfl

/-- The tag of a register after a change of another's or of its own (R65). -/
@[simp] theorem Group.tag_modTag (g : Group) (r r' : Nat) (f : RegTag → RegTag) :
    (g.modTag r f).tag r' = if r' = r then f (g.tag r) else g.tag r' := by
  exact sget_sset _ _ _ _ _

@[simp] theorem Group.rd_modTag (g : Group) (r r' l : Nat) (f : RegTag → RegTag) : (g.modTag r f).rd r' l = g.rd r' l := rfl

/-- What changes an agent's fragment state leaves every other part of the panel. -/
theorem State.modFront_rest (s : State) (ag : Agent) (f : Fragment → Fragment) :
    { s.modFront ag f with groups := s.groups, teams := s.teams } = s := by cases ag <;> rfl

/-- So does the write of a register (R60, R320, R339). -/
theorem State.wrReg_rest (s : State) (ag : Agent) (r l : Nat) (w : Word) :
    { s.wrReg ag r l w with groups := s.groups, teams := s.teams } = s := by cases ag <;> rfl

/-- So does a change of a register's tag (R65). -/
theorem State.modTag_rest (s : State) (ag : Agent) (r : Nat) (f : RegTag → RegTag) :
    { s.modTag ag r f with groups := s.groups, teams := s.teams } = s := by cases ag <;> rfl

/-- So does the joining of flags (R104). -/
theorem State.addFlags_rest (s : State) (ag : Agent) (f : Flags) :
    { s.addFlags ag f with groups := s.groups, teams := s.teams } = s := by
  unfold State.addFlags; split
  · rfl
  · cases ag <;> rfl

theorem State.wrWords_rest (ag : Agent) (l : Nat) (ws : List Word) : ∀ (s : State) (r : Nat),
    { s.wrWords ag r l ws with groups := s.groups, teams := s.teams } = s := by
  induction ws with
  | nil => intro s r; rfl
  | cons w t ih =>
    intro s r
    have h := ih (s.wrReg ag r l w) (r + 1)
    have h0 := s.wrReg_rest ag r l w
    rw [← h] at h0
    simpa [State.wrWords] using h0

/-- The words of the active lanes written: only the agent's own part of the panel changes (R62). -/
theorem State.wrLanes_rest (s : State) (ag : Agent) (r : Nat) (rs : List (Nat × List Word)) :
    { s.wrLanes ag r rs with groups := s.groups, teams := s.teams } = s := by
  unfold State.wrLanes
  split
  · cases rs with
    | nil => rfl
    | cons x t => simpa using State.wrWords_rest ag x.1 x.2 s r
  · induction rs generalizing s with
    | nil => rfl
    | cons x t ih =>
      have h := ih (s.wrWords ag r x.1 x.2)
      have h0 := State.wrWords_rest ag x.1 x.2 s r
      rw [← h] at h0
      simpa using h0

end Sys2Proof.Machine
end

