-- ==== Sys2Proof/Laws/Memory.lean ====
section
/-! SUPPORT. Memory: what is written is read back and every other byte stays, and every operation on memory keeps its canonical
form. -/

namespace Sys2Proof.Machine

/-- Bytes, packed into a number and taken from it again (R4). -/
theorem bytesOf_natOfBytes (l : List Byte) : bytesOf l.length (natOfBytes l) = l := by
  induction l with
  | nil => rfl
  | cons b t ih =>
    have h := b.isLt
    rw [List.length_cons, bytesOf, List.range_succ_eq_map, List.map_cons, List.map_map]
    congr 1
    · simp only [byteOf, natOfBytes]
      apply BitVec.eq_of_toNat_eq
      simp only [BitVec.toNat_ofNat, Nat.pow_zero, Nat.div_one]
      omega
    · conv_rhs => rw [← ih]
      apply List.map_congr_left
      intro i _
      simp only [Function.comp, byteOf, natOfBytes, Nat.pow_succ, Nat.mul_comm _ 256]
      rw [← Nat.div_div_eq_div_mul, Nat.add_mul_div_left _ _ (by decide), Nat.div_eq_of_lt h, Nat.zero_add]

/-- One byte written at the home slice, in the L2 or past it: what a byte of a stack reads as then (R169). -/
theorem State.stackByte_one (s : State) (d d' a off : Nat) (b : Byte) :
    (s.stackWrite d off [b]).stackByte d' a = if stackKey d' a = stackKey d off then b else s.stackByte d' a := by
  simp only [State.stackWrite]
  split <;> by_cases h : stackKey d' a = stackKey d off <;> simp [State.stackByte, h]

/-- A byte of a stack after bytes were written: the byte written there, or the one before (R169). -/
theorem State.stackByte_stackWrite (d d' a : Nat) (ha : a < 2 ^ 36) (l : List Byte) : ∀ (s : State) (off : Nat), off + l.length ≤ 2 ^ 36 →
    (s.stackWrite d off l).stackByte d' a =
      if d' = d ∧ off ≤ a ∧ a < off + l.length then l.getD (a - off) 0#8 else s.stackByte d' a := by
  induction l with
  | nil => intro s off _; rw [if_neg (by simp)]; rfl
  | cons b t ih =>
    intro s off ho
    rw [List.length_cons] at ho
    rw [show s.stackWrite d off (b :: t) = (s.stackWrite d off [b]).stackWrite d (off + 1) t from rfl, ih _ _ (by omega),
      State.stackByte_one]
    by_cases hd : d' = d
    · subst hd
      by_cases h1 : a = off
      · subst h1
        rw [if_neg (by omega), if_pos rfl, if_pos ⟨rfl, le_refl _, by rw [List.length_cons]; omega⟩]
        simp
      · rw [if_neg (show ¬stackKey d' a = stackKey d' off by unfold stackKey; omega)]
        by_cases h2 : off + 1 ≤ a ∧ a < off + 1 + t.length
        · rw [if_pos ⟨rfl, h2⟩, if_pos ⟨rfl, by omega, by rw [List.length_cons]; omega⟩,
            show a - off = (a - (off + 1)) + 1 by omega, List.getD_cons_succ]
        · rw [if_neg (by omega), if_neg (by rw [List.length_cons]; omega)]
    · simp only [hd, false_and, if_false, show ¬stackKey d' a = stackKey d off by unfold stackKey; omega]

/-- Writes at the home slice change the L2 and the DRAM and nothing else (R169). -/
theorem State.stackWrite_rest (d : Nat) (l : List Byte) :
    ∀ (s : State) (off : Nat), { s.stackWrite d off l with l2 := s.l2, mem := s.mem } = s := by
  induction l with
  | nil => intro s off; rfl
  | cons b t ih =>
    intro s off
    have h := ih (s.stackWrite d off [b]) (off + 1)
    have e := congrArg (fun x : State => { x with l2 := s.l2, mem := s.mem }) h
    refine e.trans ?_
    simp only [State.stackWrite]
    split <;> rfl

/-- A write at the home slice keeps the canonical form of memory (R169, log 50). -/
theorem State.stackWrite_wf (d : Nat) (l : List Byte) :
    ∀ (s : State) (off : Nat), Memory.wf s.mem = true → Memory.wf (s.stackWrite d off l).mem = true := by
  induction l with
  | nil => intro s off h; exact h
  | cons b t ih =>
    intro s off h
    refine ih _ _ ?_
    split
    · exact h
    · exact swf_sset _ _ _ _ h

theorem State.writeBack_wf (d base : Nat) (x : L1Line) (n : Nat) :
    ∀ (s : State) (i : Nat), Memory.wf s.mem = true → Memory.wf (s.writeBack d base x i n).mem = true := by
  induction n with
  | zero => intro s i h; exact h
  | succ n ih =>
    intro s i h
    refine ih _ _ ?_
    split
    · exact State.stackWrite_wf _ _ _ _ h
    · exact h

theorem State.l1Drop_wf (s : State) (d c line : Nat) (h : Memory.wf s.mem = true) : Memory.wf (s.l1Drop d c line).mem = true := by
  unfold State.l1Drop
  split
  · exact h
  · exact State.writeBack_wf _ _ _ _ _ _ h

/-- What every step of a fold keeps, the fold keeps. -/
theorem foldl_keeps {α β : Type} (P : β → Prop) (f : β → α → β) (h : ∀ s x, P s → P (f s x)) (l : List α) :
    ∀ s : β, P s → P (l.foldl f s) := by
  induction l with
  | nil => intro s hs; exact hs
  | cons x t ih => intro s hs; exact ih _ (h s x hs)

theorem State.reportError_mem (s : State) (d a b c e f : Nat) : (s.reportError d a b c e f).mem = s.mem := by
  unfold State.reportError
  simp only
  split
  · rfl
  · split <;> rfl

theorem State.poisonStack_mem (s : State) (d off : Nat) : (s.poisonStack d off).mem = s.mem := by
  unfold State.poisonStack State.reportHome
  simp only
  split <;> exact State.reportError_mem _ _ _ _ _ _ _

theorem State.poisonCore_mem (s : State) (d c off : Nat) : (s.poisonCore d c off).mem = s.mem := by
  unfold State.poisonCore
  split
  · exact State.reportError_mem _ _ _ _ _ _ _
  · exact s.poisonStack_mem _ _

theorem State.l1Leave_wf (s : State) (d c line : Nat) (h : Memory.wf s.mem = true) : Memory.wf (s.l1Leave d c line).mem = true := by
  unfold State.l1Leave
  split
  · rw [State.poisonCore_mem]; exact h
  · exact s.l1Drop_wf _ _ _ h

theorem State.l1MakeRoom_wf (s : State) (d c off : Nat) (h : Memory.wf s.mem = true) : Memory.wf (s.l1MakeRoom d c off).mem = true := by
  unfold State.l1MakeRoom
  split
  · exact h
  · split
    · exact s.l1Leave_wf _ _ _ h
    · exact h

theorem State.l1Put_wf (s : State) (d c off : Nat) (x : L1Line) (h : Memory.wf s.mem = true) :
    Memory.wf (s.l1Put d c off x).mem = true := by
  unfold State.l1Put
  have h := s.l1MakeRoom_wf d c off h
  simp only
  split
  · exact h
  · exact State.writeBack_wf _ _ _ _ _ _ h

theorem State.coreRead_wf (s : State) (d c off n cls : Nat) (h : Memory.wf s.mem = true) :
    Memory.wf (s.coreRead d c off n cls).1.mem = true := s.l1Put_wf _ _ _ _ h

theorem State.coreWrite_wf (s : State) (d c off cls : Nat) (l : List Byte) (h : Memory.wf s.mem = true) :
    Memory.wf (s.coreWrite d c off cls l).mem = true := by
  unfold State.coreWrite
  split
  · exact s.l1Put_wf _ _ _ _ h
  · simp only
    split
    · exact State.l1Put_wf _ _ _ _ _ (State.stackWrite_wf _ _ _ _ h)
    · exact State.stackWrite_wf _ _ _ _ h

theorem State.l1WriteBackCore_wf (s : State) (d c : Nat) (h : Memory.wf s.mem = true) :
    Memory.wf (s.l1WriteBackCore d c).mem = true := by
  unfold State.l1WriteBackCore
  refine foldl_keeps (fun s : State => Memory.wf s.mem = true) _ ?_ _ s h
  intro s x h
  split
  · exact h
  · split
    · rw [State.poisonCore_mem]; exact h
    · exact State.writeBack_wf _ _ _ _ _ _ h

@[simp] theorem State.l1InvalDieRepl_mem (s : State) (d c : Nat) : (s.l1InvalDieRepl d c).mem = s.mem := rfl
@[simp] theorem State.l1InvalCore_mem (s : State) (d c : Nat) : (s.l1InvalCore d c).mem = s.mem := rfl
@[simp] theorem State.l1Discard_mem (s : State) (d c lo n : Nat) : (s.l1Discard d c lo n).mem = s.mem := rfl

/-- Bytes that leave the L2 keep the canonical form of memory (R169; log 5). -/
theorem evictCells_wf (lo hi : Nat) (l m : List Host.Cell) (h : Memory.wf m = true) : Memory.wf (evictCells lo hi l m).2 = true := by
  induction l with
  | nil => exact h
  | cons e t ih =>
    obtain ⟨k, b⟩ := e
    simp only [evictCells]
    split
    · exact swf_sset _ _ _ _ ih
    · exact ih

/-- A line's bytes moved to the DRAM keep the canonical form of memory. -/
theorem State.evicted_wf (s : State) (lo hi : Nat) (h : Memory.wf s.mem = true) :
    Memory.wf ({ s with l2 := (evictCells lo hi s.l2 s.mem).1, mem := (evictCells lo hi s.l2 s.mem).2 } : State).mem = true :=
  evictCells_wf lo hi s.l2 s.mem h

/-- The eviction of a line keeps the canonical form of memory. -/
theorem State.l2Give_wf (s : State) (d line : Nat) (h : Memory.wf s.mem = true) : Memory.wf (s.l2Give d line).mem = true := by
  unfold State.l2Give
  refine State.evicted_wf _ _ _ ?_
  exact foldl_keeps (fun s : State => Memory.wf s.mem = true) _
    (fun s c h => foldl_keeps (fun s : State => Memory.wf s.mem = true) _ (fun s i h => s.l1Drop_wf d c _ h) _ s h) _ s h

theorem State.l2Evict_wf (s : State) (d line : Nat) (h : Memory.wf s.mem = true) : Memory.wf (s.l2Evict d line).mem = true := by
  unfold State.l2Evict
  refine State.l2Give_wf _ _ _ ?_
  refine foldl_keeps (fun s : State => Memory.wf s.mem = true) _ ?_ _ _ ?_
  · intro s i h
    split
    · rw [State.poisonStack_mem]; exact h
    · exact h
  · refine foldl_keeps (fun s : State => Memory.wf s.mem = true) _ ?_ _ _ h
    intro s e h
    refine foldl_keeps (fun s : State => Memory.wf s.mem = true) _ ?_ _ _ h
    intro s i h
    split
    · rw [State.poisonCore_mem]; exact h
    · exact h

/-- Memory at reset has the canonical form. -/
theorem State.reset_wf : Memory.wf State.reset.mem = true := rfl

/-- A write of local memory keeps its canonical form. -/
theorem localPut_wf (l : List Byte) : ∀ (m : List Host.Cell) (a : Nat), swf 0#8 m = true → swf 0#8 (localPut m a l) = true := by
  induction l with
  | nil => intro m a h; exact h
  | cons b t ih => intro m a h; exact ih _ _ (swf_sset _ _ _ _ h)

theorem Team.localWrite_wf (t : Team) (a : Nat) (l : List Byte) (h : swf 0#8 t.localMem = true) :
    swf 0#8 (t.localWrite a l).localMem = true := localPut_wf l _ a h

/-- A byte of local memory after bytes were written: the byte written there, or the one before (R167). -/
theorem sget_localPut (l : List Byte) (b : Nat) : ∀ (m : List Host.Cell) (a : Nat),
    sget 0#8 (localPut m a l) b = if a ≤ b ∧ b < a + l.length then l.getD (b - a) 0#8 else sget 0#8 m b := by
  induction l with
  | nil => intro m a; rw [if_neg (by simp)]; rfl
  | cons x t ih =>
    intro m a
    simp only [localPut]
    rw [ih, sget_sset]
    by_cases h1 : b = a
    · subst h1
      rw [if_neg (by omega), if_pos rfl, if_pos ⟨le_refl _, by rw [List.length_cons]; omega⟩]
      simp
    · rw [if_neg h1]
      by_cases h2 : a + 1 ≤ b ∧ b < a + 1 + t.length
      · rw [if_pos h2, if_pos ⟨by omega, by rw [List.length_cons]; omega⟩, show b - a = (b - (a + 1)) + 1 by omega, List.getD_cons_succ]
      · rw [if_neg h2, if_neg (by rw [List.length_cons]; omega)]

theorem Team.localByte_localWrite (t : Team) (a b : Nat) (l : List Byte) :
    (t.localWrite a l).localByte b = if a ≤ b ∧ b < a + l.length then l.getD (b - a) 0#8 else t.localByte b := sget_localPut l b _ a

end Sys2Proof.Machine
end

