-- ==== Sys2Proof/Laws/Exceptions.lean ====
section
/-! SUPPORT. What taking an exception, sending a request and the issue of an instruction leave of memory: the DRAM and the L2 stay
as they are, so that an instruction changes memory by its own effect alone. -/

namespace Sys2Proof.Machine

/-- Two states have the same DRAM and the same L2. -/
def State.sameMem (s t : State) : Prop := t.mem = s.mem ∧ t.l2 = s.l2

theorem State.sameMem_refl (s : State) : s.sameMem s := ⟨rfl, rfl⟩

theorem State.sameMem_trans {s t u : State} (h : s.sameMem t) (h' : t.sameMem u) : s.sameMem u := ⟨h'.1.trans h.1, h'.2.trans h.2⟩

theorem foldl_sameMem {α : Type} (f : State → α → State) (h : ∀ (s : State) x, s.sameMem (f s x)) (l : List α) :
    ∀ s : State, s.sameMem (l.foldl f s) := by
  induction l with
  | nil => intro s; exact s.sameMem_refl
  | cons x t ih => intro s; exact State.sameMem_trans (h s x) (ih _)

theorem State.modFront_sameMem (s : State) (ag : Agent) (f : Fragment → Fragment) : s.sameMem (s.modFront ag f) := by
  cases ag <;> exact ⟨rfl, rfl⟩

theorem State.advance_sameMem (s : State) (ag : Agent) : s.sameMem (s.advance ag) := by
  exact s.modFront_sameMem _ _

theorem State.stallAt_sameMem (s : State) (ag : Agent) (w : Stall) : s.sameMem (s.stallAt ag w) := by
  exact s.modFront_sameMem _ _

theorem State.wrReg_sameMem (s : State) (ag : Agent) (r l : Nat) (w : Word) : s.sameMem (s.wrReg ag r l w) := by
  cases ag <;> exact ⟨rfl, rfl⟩

theorem State.modTag_sameMem (s : State) (ag : Agent) (r : Nat) (f : RegTag → RegTag) : s.sameMem (s.modTag ag r f) := by
  cases ag <;> exact ⟨rfl, rfl⟩

theorem State.addFlags_sameMem (s : State) (ag : Agent) (f : Flags) : s.sameMem (s.addFlags ag f) := by
  unfold State.addFlags; split; · exact s.sameMem_refl
  cases ag <;> exact ⟨rfl, rfl⟩

theorem State.rasPut_sameMem (s : State) (d : Nat) (e : RasElem) : s.sameMem (s.rasPut d e) := by
  exact ⟨rfl, rfl⟩

theorem State.errorElem_sameMem (s : State) (d a b c e f g h : Nat) : s.sameMem (s.errorElem d a b c e f g h) := by
  exact ⟨rfl, rfl⟩

theorem State.qCache_sameMem (s : State) (d : Nat) (p : BitVec 12) (x : Nat) : s.sameMem (s.qCache d p x) := by
  unfold State.qCache; split <;> exact ⟨rfl, rfl⟩

theorem State.addTraffic_sameMem (s : State) (d : Nat) (p : BitVec 12) (n : Nat) : s.sameMem (s.addTraffic d p n) := by
  exact ⟨rfl, rfl⟩

theorem State.overflowAdd_sameMem (s : State) (d : Nat) (p : BitVec 12) (e : List Byte) : s.sameMem (s.overflowAdd d p e) := by
  exact ⟨rfl, rfl⟩

theorem State.helperRecord_sameMem (s : State) (k h now : Nat) (i : BitVec 28) (f : FaultRec) : s.sameMem (s.helperRecord k h now i f) := by
  exact ⟨rfl, rfl⟩

theorem State.tretReturn_sameMem (s : State) (k e : Nat) (h : Handler) (f : FrameIn) : s.sameMem (s.tretReturn k e h f) := by
  exact ⟨rfl, rfl⟩

theorem State.reportError_sameMem (s : State) (d a b c e f : Nat) : s.sameMem (s.reportError d a b c e f) := by
  unfold State.reportError
  simp only
  split
  · exact ⟨rfl, rfl⟩
  · split <;> exact ⟨rfl, rfl⟩

theorem State.streamOf_sameMem (s : State) (k : List Nat) : s.sameMem (s.streamOf k).1 := by
  unfold State.streamOf; split <;> exact ⟨rfl, rfl⟩

/-- A request sent leaves memory (R268). -/
theorem State.post_sameMem (s : State) (x : Sender) (d : Nat) (p : BitVec 12) (q : BitVec 32) (h : QHome) (g : BitVec 6) (a : Ask)
    (c : Option PortPut) : s.sameMem (s.post x d p q h g a c).1 := by
  have h1 := (s.streamOf (senderKey x p q)).1.qCache_sameMem d p (qidEntry q)
  have h2 := s.streamOf_sameMem (senderKey x p q)
  exact ⟨h1.1.trans h2.1, h1.2.trans h2.2⟩

/-- A port put sent or kept back leaves memory (R241). -/
theorem State.portSend_sameMem (s : State) (d : Nat) (w : WaitPut) : s.sameMem (s.portSend d w) := by
  unfold State.portSend
  split
  · exact ⟨rfl, rfl⟩
  · exact s.post_sameMem _ _ _ _ _ _ _ _

/-- A sector's error met, poisoned and reported leaves the bytes of memory (R176). -/
theorem State.metHome_sameMem (s : State) (d off : Nat) : s.sameMem (s.metHome d off) := by
  unfold State.metHome
  split
  · unfold State.poisonStack State.reportHome
    simp only
    split
    all_goals exact State.sameMem_trans (s.reportError_sameMem _ _ _ _ _ _) ⟨rfl, rfl⟩
  all_goals exact s.sameMem_refl

/-- An error met in an entry of the queue table leaves the bytes of memory (R3, R176). -/
theorem State.qMet_sameMem (s : State) (d : Nat) (p : BitVec 12) (x : Nat) : s.sameMem (s.qMet d p x) := by
  unfold State.qMet
  cases s.qAddr d p x
  · exact s.sameMem_refl
  · exact s.metHome_sameMem _ _

theorem State.faultPut_sameMem (s : State) (d n : Nat) (p : BitVec 12) (e : List Byte) : s.sameMem (s.faultPut d n p e) := by
  unfold State.faultPut
  split
  · exact s.overflowAdd_sameMem _ _ _
  · split
    · exact State.sameMem_trans (s.qMet_sameMem _ _ _) (State.overflowAdd_sameMem _ _ _ _)
    · exact s.portSend_sameMem _ _

theorem State.notice_sameMem (s : State) (d : Nat) (p : BitVec 12) (n : Notice) : s.sameMem (s.notice d p n) := by
  unfold State.notice
  exact s.faultPut_sameMem _ _ _ _

/-- Parking a group leaves memory (R297). -/
theorem State.park_sameMem (s : State) (k : Nat) (f : FaultRec) : s.sameMem (s.park k f) := by
  unfold State.park
  split
  · exact s.sameMem_refl
  · refine State.sameMem_trans ?_ (State.notice_sameMem _ _ _ _)
    exact ⟨rfl, rfl⟩

theorem State.fetchMet_sameMem (s : State) (d : Nat) (p : BitVec 12) (a : Addr) : s.sameMem (s.fetchMet d p a) := by
  unfold State.fetchMet
  split
  · exact s.metHome_sameMem _ _
  · exact s.metHome_sameMem _ _
  all_goals exact s.sameMem_refl

/-- Entering a handler leaves memory: its frame is a store in flight (R295). -/
theorem State.enterHandler_sameMem (s : State) (k e : Nat) (g : Group) (r : Fragment) (f : FaultRec) :
    s.sameMem (s.enterHandler k e g r f) := by
  unfold State.enterHandler
  simp only
  split
  · exact State.sameMem_trans (s.fetchMet_sameMem _ _ _) (State.park_sameMem _ _ _)
  · split
    · exact ⟨rfl, rfl⟩
    · exact State.sameMem_trans (s.metHome_sameMem _ _) (State.park_sameMem _ _ _)
    all_goals exact s.park_sameMem _ _

theorem State.deliver_sameMem (s : State) (k : Nat) (f : FaultRec) : s.sameMem (s.deliver k f) := by
  unfold State.deliver
  split
  · exact s.sameMem_refl
  · split
    · split
      · split
        · exact ⟨rfl, rfl⟩
        · exact s.enterHandler_sameMem _ _ _ _ _
      · exact s.park_sameMem _ _
    · exact s.park_sameMem _ _

theorem State.groupFault_sameMem (s : State) (k : Nat) (f : FaultRec) : s.sameMem (s.groupFault k f) := by
  unfold State.groupFault
  split
  · exact s.sameMem_refl
  · simp only
    split
    · exact s.notice_sameMem _ _ _
    · have h : s.sameMem (match f.entry with
          | some e => if resumeAfter f.code then s.modFrag k e Fragment.advance else s
          | none => s) := by
        split
        · split <;> exact ⟨rfl, rfl⟩
        · exact s.sameMem_refl
      split
      · exact State.sameMem_trans h ⟨rfl, rfl⟩
      · exact State.sameMem_trans h (State.deliver_sameMem _ _ _)

theorem State.helperLeaves_sameMem (s : State) (k h : Nat) (l : HelperLife) : s.sameMem (s.helperLeaves k h l) := by
  unfold State.helperLeaves
  split
  · exact s.sameMem_refl
  · simp only
    split <;> exact ⟨rfl, rfl⟩

theorem State.helperFault_sameMem (s : State) (k h : Nat) (f : FaultRec) : s.sameMem (s.helperFault k h f) := by
  unfold State.helperFault
  split
  · exact s.sameMem_refl
  · split
    · exact State.sameMem_trans (s.helperRecord_sameMem _ _ _ _ _) (State.helperLeaves_sameMem _ _ _ _)
    · exact s.sameMem_refl

theorem State.seqFault_sameMem (s : State) (d n : Nat) (f : FaultRec) : s.sameMem (s.seqFault d n f) := by
  unfold State.seqFault
  simp only
  split
  · exact ⟨rfl, rfl⟩
  · exact State.sameMem_trans ⟨rfl, rfl⟩ (State.groupFault_sameMem _ _ _)

/-- TAKING AN EXCEPTION leaves memory (R292). -/
theorem State.raise_sameMem (s : State) (ag : Agent) (f : FaultRec) : s.sameMem (s.raise ag f) := by
  cases ag
  · exact State.sameMem_trans ⟨rfl, rfl⟩ (State.groupFault_sameMem _ _ _)
  · exact s.helperFault_sameMem _ _ _
  · exact s.seqFault_sameMem _ _ _

theorem State.raiseAt_sameMem (s : State) (ag : Agent) (c d : Nat) (a : Addr) (l : Mask) : s.sameMem (s.raiseAt ag c d a l) :=
  s.raise_sameMem _ _

theorem State.setEmpty_sameMem (ag : Agent) (b : Bool) (n : Nat) : ∀ (s : State) (r : Nat), s.sameMem (s.setEmpty ag r b n) := by
  induction n with
  | zero => intro s r; exact s.sameMem_refl
  | succ n ih => intro s r; exact State.sameMem_trans (s.modTag_sameMem _ _ _) (ih _ _)

theorem State.wrWords_sameMem (s : State) (ag : Agent) (r l : Nat) (ws : List Word) : s.sameMem (s.wrWords ag r l ws) :=
  ⟨by simpa using congrArg State.mem (s.wrWords_rest ag l ws r), by simpa using congrArg State.l2 (s.wrWords_rest ag l ws r)⟩

theorem State.wrLanes_sameMem (s : State) (ag : Agent) (r : Nat) (rs : List (Nat × List Word)) : s.sameMem (s.wrLanes ag r rs) :=
  ⟨by simpa using congrArg State.mem (s.wrLanes_rest ag r rs), by simpa using congrArg State.l2 (s.wrLanes_rest ag r rs)⟩

theorem State.meetReg_sameMem (s : State) (ag : Agent) (r : Nat) (l : Mask) : s.sameMem (s.meetReg ag r l) := by
  have h (own : Agent) (c : Bool) (m : Mask) (d st u a : Nat) :
      s.sameMem (if c then (s.modTag own r fun t => { t with ue := t.ue &&& ~~~m }).reportError d st u a 0 1 else s) := by
    split
    · exact State.sameMem_trans (s.modTag_sameMem _ _ _) (State.reportError_sameMem _ _ _ _ _ _ _)
    · exact s.sameMem_refl
  unfold State.meetReg
  exact h _ _ _ _ _ _ _

theorem State.meetRegs_sameMem (s : State) (ag : Agent) (sp : Spec) (act : Mask) : s.sameMem (s.meetRegs ag sp act) := by
  have h (u : State) (hu : s.sameMem u) : s.sameMem ((sp.reads act).foldl (fun s x => s.meetReg ag x.1 x.2) u) :=
    State.sameMem_trans hu (foldl_sameMem _ (fun s (x : Nat × Mask) => s.meetReg_sameMem ag x.1 x.2) _ u)
  unfold State.meetRegs
  refine h _ ?_
  split
  · exact s.sameMem_refl
  · exact s.meetReg_sameMem _ _ _

theorem State.emptyDsts_sameMem (s : State) (ag : Agent) (l : List Nat) (act : Mask) : s.sameMem (s.emptyDsts ag l act) := by
  have h := foldl_sameMem (fun (s : State) (r : Nat) => s.setEmpty ag r true 1)
    (fun s r => State.setEmpty_sameMem ag true 1 s r) l s
  unfold State.emptyDsts
  cases ag <;> exact h

/-- The MCHK of an instruction that reads a register in error leaves memory (R382). -/
theorem State.chargeRegs_sameMem (s : State) (ag : Agent) (sp : Spec) (act : Mask) : s.sameMem (s.chargeRegs ag sp act) := by
  unfold State.chargeRegs
  have h := s.meetRegs_sameMem ag sp act
  cases ag
  case seq => exact State.sameMem_trans h (State.raise_sameMem _ _ _)
  all_goals
    exact State.sameMem_trans (State.sameMem_trans (State.sameMem_trans h (State.emptyDsts_sameMem _ _ _ _))
      (State.advance_sameMem _ _)) (State.raise_sameMem _ _ _)

theorem State.waitAt_sameMem (s : State) (ag : Agent) (w : Stall) (b : Bool) : s.sameMem (s.waitAt ag w b) := by
  unfold State.waitAt
  split
  · split
    · exact s.modFront_sameMem _ _
    · exact s.stallAt_sameMem _ _
  all_goals exact s.stallAt_sameMem _ _

theorem State.lowIssue_sameMem (s : State) (ag : Agent) (f : Fragment) : s.sameMem (s.lowIssue ag f) := by
  unfold State.lowIssue
  split
  · exact s.modFront_sameMem _ _
  · exact s.sameMem_refl

/-- THE ISSUE OF AN INSTRUCTION (R85): if it answers a next state, memory is as before or as the instruction's own effect leaves
it. -/
theorem issueWith_sameMem {s t : State} {sp : Spec} {k : State → Agent → Mask → State} (h : issueWith s sp k = .next t) :
    s.sameMem t ∨ ∃ ag act, t = k s ag act := by
  unfold issueWith at h
  split at h
  · cases h
  · split at h
    · cases h
    · split at h
      · cases h; exact .inl (s.waitAt_sameMem _ _ _)
      · cases h; exact .inl (s.raiseAt_sameMem _ _ _ _ _)
      · cases h
        exact .inl (s.chargeRegs_sameMem _ _ _)
      · split at h
        · cases h; exact .inl (s.lowIssue_sameMem _ _)
        · split at h
          · cases h; exact .inl (s.advance_sameMem _)
          · cases h; exact .inr ⟨_, _, rfl⟩

/-- An instruction that computes leaves memory (R116). -/
theorem aluLanes_sameMem {s t : State} {sp : Spec} {d : RegNo} {f : Vals → Mask → Nat → List Word × Flags}
    (h : aluLanes sp d f s = .next t) : s.sameMem t := by
  unfold aluLanes at h
  rcases issueWith_sameMem h with h | ⟨ag, act, rfl⟩
  · exact h
  · exact State.sameMem_trans (State.sameMem_trans (s.wrLanes_sameMem _ _ _) (State.addFlags_sameMem _ _ _)) (State.advance_sameMem _ _)

end Sys2Proof.Machine
end

