-- ==== Sys2Proof/Laws/Issue.lean ====
section
/-! SUPPORT. What the issue of an instruction answers when its checks pass. -/

namespace Sys2Proof.Machine

/-- The checks of R85 pass with the active lanes. -/
theorem gate_of_ready {s : State} {ag : Agent} {act : Mask} {sp : Spec} (h : s.ready ag act sp = true) :
    s.cur = some ag ∧ act ≠ 0#64 ∧ ∃ f, s.front? ag = some f ∧ s.active ag f sp.guard = act ∧ s.gate ag f sp = .go act ∧
      s.gangWaits ag f = false := by
  unfold State.ready at h
  rw [Bool.and_eq_true] at h
  obtain ⟨hc, h⟩ := h
  refine ⟨by simpa using hc, ?_⟩
  split at h
  · cases h
  · rename_i f hf
    simp only [Bool.and_eq_true, Bool.not_eq_true', bne_iff_ne, ne_eq, beq_iff_eq, List.all_eq_true] at h
    obtain ⟨⟨⟨⟨⟨⟨⟨⟨⟨⟨⟨⟨⟨⟨⟨h1, h2⟩, h3⟩, h4⟩, h5⟩, h6⟩, h7⟩, h8⟩, h9⟩, h10⟩, h10'⟩, h11⟩, h14⟩, h12⟩, h13⟩, h15⟩ := h
    refine ⟨h9, f, hf, h8, ?_, h15⟩
    have e1 : ((opRegs sp.srcs).filter fun x => s.srcEmpty ag x.1) = [] := by
      rw [List.filter_eq_nil_iff]; intro x hx; simpa using h10 x hx
    have e2 : (dstRegs sp.dsts).find? (fun r => s.dstHeld ag r) = none := by
      rw [List.find?_eq_none]; intro x hx; simpa using h11 x hx
    have e3 : (!sp.ownErr && (sp.reads act).any fun x => decide (x.1 < 640) && (s.rdTag ag x.1).poison &&& x.2 != 0#64) = false := by
      rcases Bool.eq_false_or_eq_true sp.ownErr with ho | ho
      · simp [ho]
      · simp only [ho, Bool.false_eq_true, Bool.or_eq_true, false_or, List.all_eq_true] at h10'
        rw [ho, Bool.not_false, Bool.true_and, List.any_eq_false]
        intro x hx hc; have h := h10' x hx; rw [hc] at h; cases h
    have e4 : sp.srcs.all (s.srcOk ag) = true := by rw [List.all_eq_true]; exact h3
    have e5 : sp.dsts.all (s.dstOk ag) = true := by rw [List.all_eq_true]; exact h4
    have eo : s.operandsReady ag sp act = .go act := by
      unfold State.operandsReady
      simp only [e1, List.find?_nil, e2, h12, e3, Bool.false_eq_true, if_false]
    unfold State.gate
    rw [h1, h2, e4, e5, h5, h6, h8, eo, h13, h14]
    by_cases hg : sp.guard.g = 0#4
    · simp [hg, h9, Verdict.orLate]
    · simp only [hg, Bool.and_eq_true, Bool.not_eq_true', beq_iff_eq, Bool.or_eq_true, false_or] at h7
      have hp : sp.ownErr = false → (s.rdTag ag (guardReg ag sp.guard.g)).poison &&& f.mask = 0#64 := fun ho => by simpa [ho] using h7.2
      simpa [hg, h7.1, h9, Verdict.orLate] using hp

/-- An instruction whose checks pass has its effect on its active lanes. -/
theorem issueWith_ready {s : State} {ag : Agent} {act : Mask} {sp : Spec} (h : s.ready ag act sp = true)
    (k : State → Agent → Mask → State) : issueWith s sp k = .next (k s ag act) := by
  obtain ⟨hc, ha, f, hf, -, hg, hw⟩ := gate_of_ready h
  simp [issueWith, hc, hf, hg, ha, hw]

/-- The agent of a ready instruction stands somewhere. -/
theorem front_of_ready {s : State} {ag : Agent} {act : Mask} {sp : Spec} (h : s.ready ag act sp = true) :
    ∃ f, s.front? ag = some f := by
  obtain ⟨-, -, f, hf, -⟩ := gate_of_ready h
  exact ⟨f, hf⟩

theorem foldl_flags_map {α : Type} (g : Nat → α × Flags) (a : Flags) (l : List Nat) :
    (l.map fun i => (i, g i)).foldl (fun a r => a.or r.2.2) a = l.foldl (fun a i => a.or (g i).2) a := by
  induction l generalizing a with
  | nil => rfl
  | cons x t ih => simp [ih]

/-- An instruction that computes each lane from its sources: what it leaves when its checks pass. -/
theorem aluLanes_ready {s : State} {ag : Agent} {act : Mask} {sp : Spec} (h : s.ready ag act sp = true) (d : RegNo)
    (f : Vals → Mask → Nat → List Word × Flags) :
    aluLanes sp d f s = .next (s.computed ag act d (fun l => (f (s.vals ag sp.srcs) act l).1)
      fun l => (f (s.vals ag sp.srcs) act l).2) := by
  unfold aluLanes
  rw [issueWith_ready h]
  simp only [State.computed, foldl_flags_map, List.map_map]
  rfl

/-- An instruction whose lanes depend on their own operands. -/
theorem aluOp_ready {s : State} {ag : Agent} {act : Mask} {sp : Spec} (h : s.ready ag act sp = true) (d : RegNo)
    (f : (Nat → Nat → Word) → List Word × Flags) :
    aluOp sp d f s = .next (s.computed ag act d (fun l => (f fun k j => s.vals ag sp.srcs k j l).1)
      fun l => (f fun k j => s.vals ag sp.srcs k j l).2) := aluLanes_ready h d _

end Sys2Proof.Machine
end

