-- ==== Sys2Proof/Laws/PerInstr.lean ====
section
/-! SUPPORT. Per-instruction families of LAWS.json: `RoundTrip`, that the decoder reads back every instruction the encoder
writes. -/

namespace Sys2Proof.Laws

/-- A format-A word decodes by its opcode field. -/
theorem decode_fmtA (f : FmtA) : decode f.toWord = decodeOp f.op.toNat f.toWord := by rw [decode, FmtA.op_toWord]
/-- A format-I word decodes by its opcode field. -/
theorem decode_fmtI (f : FmtI) : decode f.toWord = decodeOp f.op.toNat f.toWord := by rw [decode, FmtI.op_toWord]
/-- A format-L word decodes by its opcode field. -/
theorem decode_fmtL (f : FmtL) : decode f.toWord = decodeOp f.op.toNat f.toWord := by rw [decode, FmtL.op_toWord]
/-- A format-M word decodes by its opcode field. -/
theorem decode_fmtM (f : FmtM) : decode f.toWord = decodeOp f.op.toNat f.toWord := by rw [decode, FmtM.op_toWord]
/-- A format-B word decodes by its opcode field. -/
theorem decode_fmtB (f : FmtB) : decode f.toWord = decodeOp f.op.toNat f.toWord := by rw [decode, FmtB.op_toWord]

/-- Bits 63:54 are the opcode field. -/
theorem bits_opcode (w : Code) : bits w 63 54 = (w.extractLsb' 54 10).toNat := by
  simp [bits, BitVec.extractLsb', Nat.shiftRight_eq_div_pow]

/-- A word whose opcode R87 does not assign decodes as such (R86). -/
theorem decodeOp_unassigned (op : Nat) (w : Code) (h : opcodeAssigned op = false) :
    decodeOp op w = .ok (.unassignedOpcode w) := by
  unfold decodeOp
  split
  · unfold decodeControl
    split <;> first | rfl | exact absurd h (by decide)
  split
  · unfold decodeInteger
    split <;> first | rfl | exact absurd h (by decide)
  split
  · unfold decodeFloat
    split <;> first | rfl | exact absurd h (by decide)
  split
  · unfold decodeLane
    split <;> first | rfl | exact absurd h (by decide)
  split
  · unfold decodeMemory
    split <;> first | rfl | exact absurd h (by decide)
  split
  · unfold decodeQueue
    split <;> first | rfl | exact absurd h (by decide)
  split
  · unfold decodeMatrix
    split <;> first | rfl | exact absurd h (by decide)
  · rfl

end Sys2Proof.Laws

set_option Elab.async false
set_option linter.unusedSimpArgs false

namespace Sys2Proof.Laws.RoundTrip

/-- Decoding the word of a well-formed instruction gives the instruction back (R80 to R87). -/
def Statement (i : Instr) : Prop := i.wf = true → ∀ w, encode i = some w → decode w = .ok i

theorem nop : Statement (.nop) := by
  intro _ w hw
  obtain rfl := Option.some.inj hw
  rfl

theorem bra x0 x1 : Statement (.bra x0 x1) := by
  intro h w hw
  obtain rfl := Option.some.inj hw
  rw [decode_fmtB]
  change decodeControl 0x002 _ = _
  simp only [Instr.wf, Bool.and_eq_true, Bool.or_eq_true] at h
  simp [decodeControl, chk, coded, h]

theorem brx x0 x1 : Statement (.brx x0 x1) := by
  intro h w hw
  obtain rfl := Option.some.inj hw
  rw [decode_fmtB]
  change decodeControl 0x003 _ = _
  simp only [Instr.wf, Bool.and_eq_true, Bool.or_eq_true] at h
  simp [decodeControl, chk, coded, h]

theorem call x0 x1 x2 : Statement (.call x0 x1 x2) := by
  intro h w hw
  obtain rfl := Option.some.inj hw
  rw [decode_fmtB]
  change decodeControl 0x004 _ = _
  simp only [Instr.wf, Bool.and_eq_true, Bool.or_eq_true] at h
  simp [decodeControl, chk, coded, h]

theorem callx x0 x1 x2 : Statement (.callx x0 x1 x2) := by
  intro h w hw
  obtain rfl := Option.some.inj hw
  rw [decode_fmtB]
  change decodeControl 0x005 _ = _
  simp only [Instr.wf, Bool.and_eq_true, Bool.or_eq_true] at h
  simp [decodeControl, chk, coded, h]

theorem ret x0 x1 : Statement (.ret x0 x1) := by
  intro h w hw
  obtain rfl := Option.some.inj hw
  rw [decode_fmtB]
  change decodeControl 0x006 _ = _
  simp only [Instr.wf, Bool.and_eq_true, Bool.or_eq_true] at h
  simp [decodeControl, chk, coded, h]

theorem join : Statement (.join) := by
  intro _ w hw
  obtain rfl := Option.some.inj hw
  rfl

theorem regang : Statement (.regang) := by
  intro _ w hw
  obtain rfl := Option.some.inj hw
  rfl

theorem loop x0 x1 x2 : Statement (.loop x0 x1 x2) := by
  intro h w hw
  obtain rfl := Option.some.inj hw
  rw [decode_fmtB]
  change decodeControl 0x009 _ = _
  simp only [Instr.wf, Bool.and_eq_true, Bool.or_eq_true] at h
  simp [decodeControl, chk, coded, h]

theorem endlp x0 x1 : Statement (.endlp x0 x1) := by
  intro h w hw
  obtain rfl := Option.some.inj hw
  rw [decode_fmtB]
  change decodeControl 0x00A _ = _
  simp only [Instr.wf, Bool.and_eq_true, Bool.or_eq_true] at h
  simp [decodeControl, chk, coded, h]

theorem exit x0 : Statement (.exit x0) := by
  intro h w hw
  obtain rfl := Option.some.inj hw
  rw [decode_fmtA]
  change decodeControl 0x00B _ = _
  simp only [Instr.wf, Bool.and_eq_true, Bool.or_eq_true] at h
  simp [decodeControl, chk, coded, h]

theorem exitS x0 x1 : Statement (.exitS x0 x1) := by
  intro h w hw
  obtain rfl := Option.some.inj hw
  rw [decode_fmtB]
  change decodeControl 0x00C _ = _
  simp only [Instr.wf, Bool.and_eq_true, Bool.or_eq_true] at h
  cases x1 <;> simp [decodeControl, chk, optSrc, optPol]

theorem yield x0 : Statement (.yield x0) := by
  intro h w hw
  obtain rfl := Option.some.inj hw
  rw [decode_fmtA]
  change decodeControl 0x00D _ = _
  simp only [Instr.wf, Bool.and_eq_true, Bool.or_eq_true] at h
  simp [decodeControl, chk, coded, h]

theorem trap x0 x1 : Statement (.trap x0 x1) := by
  intro h w hw
  obtain rfl := Option.some.inj hw
  rw [decode_fmtI]
  change decodeControl 0x00E _ = _
  simp only [Instr.wf, Bool.and_eq_true, Bool.or_eq_true] at h
  simp [decodeControl, chk, coded, h]

theorem tret : Statement (.tret) := by
  intro _ w hw
  obtain rfl := Option.some.inj hw
  rfl

theorem spawn x0 x1 : Statement (.spawn x0 x1) := by
  intro h w hw
  obtain rfl := Option.some.inj hw
  rw [decode_fmtA]
  change decodeControl 0x010 _ = _
  simp only [Instr.wf, Bool.and_eq_true, Bool.or_eq_true] at h
  simp [decodeControl, chk, coded, h]

theorem ltrig x0 : Statement (.ltrig x0) := by
  intro h w hw
  obtain rfl := Option.some.inj hw
  rw [decode_fmtA]
  change decodeControl 0x011 _ = _
  simp only [Instr.wf, Bool.and_eq_true, Bool.or_eq_true] at h
  simp [decodeControl, chk, coded, h]

theorem csrr x0 x1 x2 : Statement (.csrr x0 x1 x2) := by
  intro h w hw
  obtain rfl := Option.some.inj hw
  rw [decode_fmtI]
  change decodeControl 0x012 _ = _
  simp only [Instr.wf, Bool.and_eq_true, Bool.or_eq_true] at h
  simp [decodeControl, chk, coded, h]

theorem csrw x0 x1 x2 : Statement (.csrw x0 x1 x2) := by
  intro h w hw
  obtain rfl := Option.some.inj hw
  rw [decode_fmtI]
  change decodeControl 0x013 _ = _
  simp only [Instr.wf, Bool.and_eq_true, Bool.or_eq_true] at h
  simp [decodeControl, chk, coded, h]

theorem iadd x0 x1 x2 x3 x4 : Statement (.iadd x0 x1 x2 x3 x4) := by
  intro h w hw
  obtain rfl := Option.some.inj hw
  rw [decode_fmtA]
  change decodeInteger 0x080 _ = _
  simp only [Instr.wf, Bool.and_eq_true, Bool.or_eq_true] at h
  simp [decodeInteger, chk, coded, h]

theorem iaddImm x0 x1 x2 x3 x4 : Statement (.iaddImm x0 x1 x2 x3 x4) := by
  intro h w hw
  obtain rfl := Option.some.inj hw
  rw [decode_fmtI]
  change decodeInteger 0x0C0 _ = _
  simp only [Instr.wf, Bool.and_eq_true, Bool.or_eq_true] at h
  simp [decodeInteger, chk, coded, h]

theorem isub x0 x1 x2 x3 x4 : Statement (.isub x0 x1 x2 x3 x4) := by
  intro h w hw
  obtain rfl := Option.some.inj hw
  rw [decode_fmtA]
  change decodeInteger 0x081 _ = _
  simp only [Instr.wf, Bool.and_eq_true, Bool.or_eq_true] at h
  simp [decodeInteger, chk, coded, h]

theorem isubImm x0 x1 x2 x3 x4 : Statement (.isubImm x0 x1 x2 x3 x4) := by
  intro h w hw
  obtain rfl := Option.some.inj hw
  rw [decode_fmtI]
  change decodeInteger 0x0C1 _ = _
  simp only [Instr.wf, Bool.and_eq_true, Bool.or_eq_true] at h
  simp [decodeInteger, chk, coded, h]

theorem addc x0 x1 x2 x3 x4 : Statement (.addc x0 x1 x2 x3 x4) := by
  intro h w hw
  obtain rfl := Option.some.inj hw
  rw [decode_fmtA]
  change decodeInteger 0x082 _ = _
  simp only [Instr.wf, Bool.and_eq_true, Bool.or_eq_true] at h
  simp [decodeInteger, chk, coded, h]

theorem subb x0 x1 x2 x3 x4 : Statement (.subb x0 x1 x2 x3 x4) := by
  intro h w hw
  obtain rfl := Option.some.inj hw
  rw [decode_fmtA]
  change decodeInteger 0x083 _ = _
  simp only [Instr.wf, Bool.and_eq_true, Bool.or_eq_true] at h
  simp [decodeInteger, chk, coded, h]

theorem imul x0 x1 x2 x3 : Statement (.imul x0 x1 x2 x3) := by
  intro h w hw
  obtain rfl := Option.some.inj hw
  rw [decode_fmtA]
  change decodeInteger 0x084 _ = _
  simp only [Instr.wf, Bool.and_eq_true, Bool.or_eq_true] at h
  simp [decodeInteger, chk, coded, h]

theorem imulImm x0 x1 x2 x3 : Statement (.imulImm x0 x1 x2 x3) := by
  intro h w hw
  obtain rfl := Option.some.inj hw
  rw [decode_fmtI]
  change decodeInteger 0x0C4 _ = _
  simp only [Instr.wf, Bool.and_eq_true, Bool.or_eq_true] at h
  simp [decodeInteger, chk, coded, h]

theorem imulh x0 x1 x2 x3 x4 : Statement (.imulh x0 x1 x2 x3 x4) := by
  intro h w hw
  obtain rfl := Option.some.inj hw
  rw [decode_fmtA]
  change decodeInteger 0x085 _ = _
  simp only [Instr.wf, Bool.and_eq_true, Bool.or_eq_true] at h
  simp [decodeInteger, chk, coded, h]

theorem imad x0 x1 x2 x3 x4 : Statement (.imad x0 x1 x2 x3 x4) := by
  intro h w hw
  obtain rfl := Option.some.inj hw
  rw [decode_fmtA]
  change decodeInteger 0x086 _ = _
  simp only [Instr.wf, Bool.and_eq_true, Bool.or_eq_true] at h
  simp [decodeInteger, chk, coded, h]

theorem imadw x0 x1 x2 x3 x4 x5 : Statement (.imadw x0 x1 x2 x3 x4 x5) := by
  intro h w hw
  obtain rfl := Option.some.inj hw
  rw [decode_fmtA]
  change decodeInteger 0x087 _ = _
  simp only [Instr.wf, Bool.and_eq_true, Bool.or_eq_true] at h
  simp [decodeInteger, chk, coded, h]

theorem imin x0 x1 x2 x3 x4 : Statement (.imin x0 x1 x2 x3 x4) := by
  intro h w hw
  obtain rfl := Option.some.inj hw
  rw [decode_fmtA]
  change decodeInteger 0x088 _ = _
  simp only [Instr.wf, Bool.and_eq_true, Bool.or_eq_true] at h
  simp [decodeInteger, chk, coded, h]

theorem iminImm x0 x1 x2 x3 x4 : Statement (.iminImm x0 x1 x2 x3 x4) := by
  intro h w hw
  obtain rfl := Option.some.inj hw
  rw [decode_fmtI]
  change decodeInteger 0x0C8 _ = _
  simp only [Instr.wf, Bool.and_eq_true, Bool.or_eq_true] at h
  simp [decodeInteger, chk, coded, h]

theorem imax x0 x1 x2 x3 x4 : Statement (.imax x0 x1 x2 x3 x4) := by
  intro h w hw
  obtain rfl := Option.some.inj hw
  rw [decode_fmtA]
  change decodeInteger 0x089 _ = _
  simp only [Instr.wf, Bool.and_eq_true, Bool.or_eq_true] at h
  simp [decodeInteger, chk, coded, h]

theorem imaxImm x0 x1 x2 x3 x4 : Statement (.imaxImm x0 x1 x2 x3 x4) := by
  intro h w hw
  obtain rfl := Option.some.inj hw
  rw [decode_fmtI]
  change decodeInteger 0x0C9 _ = _
  simp only [Instr.wf, Bool.and_eq_true, Bool.or_eq_true] at h
  simp [decodeInteger, chk, coded, h]

theorem iabs x0 x1 x2 x3 : Statement (.iabs x0 x1 x2 x3) := by
  intro h w hw
  obtain rfl := Option.some.inj hw
  rw [decode_fmtA]
  change decodeInteger 0x08A _ = _
  simp only [Instr.wf, Bool.and_eq_true, Bool.or_eq_true] at h
  simp [decodeInteger, chk, coded, h]

theorem ineg x0 x1 x2 x3 : Statement (.ineg x0 x1 x2 x3) := by
  intro h w hw
  obtain rfl := Option.some.inj hw
  rw [decode_fmtA]
  change decodeInteger 0x08B _ = _
  simp only [Instr.wf, Bool.and_eq_true, Bool.or_eq_true] at h
  simp [decodeInteger, chk, coded, h]

theorem and x0 x1 x2 x3 : Statement (.and x0 x1 x2 x3) := by
  intro h w hw
  obtain rfl := Option.some.inj hw
  rw [decode_fmtA]
  change decodeInteger 0x08C _ = _
  simp only [Instr.wf, Bool.and_eq_true, Bool.or_eq_true] at h
  simp [decodeInteger, chk, coded, h]

theorem andImm x0 x1 x2 x3 : Statement (.andImm x0 x1 x2 x3) := by
  intro h w hw
  obtain rfl := Option.some.inj hw
  rw [decode_fmtI]
  change decodeInteger 0x0CC _ = _
  simp only [Instr.wf, Bool.and_eq_true, Bool.or_eq_true] at h
  simp [decodeInteger, chk, coded, h]

theorem or x0 x1 x2 x3 : Statement (.or x0 x1 x2 x3) := by
  intro h w hw
  obtain rfl := Option.some.inj hw
  rw [decode_fmtA]
  change decodeInteger 0x08D _ = _
  simp only [Instr.wf, Bool.and_eq_true, Bool.or_eq_true] at h
  simp [decodeInteger, chk, coded, h]

theorem orImm x0 x1 x2 x3 : Statement (.orImm x0 x1 x2 x3) := by
  intro h w hw
  obtain rfl := Option.some.inj hw
  rw [decode_fmtI]
  change decodeInteger 0x0CD _ = _
  simp only [Instr.wf, Bool.and_eq_true, Bool.or_eq_true] at h
  simp [decodeInteger, chk, coded, h]

theorem xor x0 x1 x2 x3 : Statement (.xor x0 x1 x2 x3) := by
  intro h w hw
  obtain rfl := Option.some.inj hw
  rw [decode_fmtA]
  change decodeInteger 0x08E _ = _
  simp only [Instr.wf, Bool.and_eq_true, Bool.or_eq_true] at h
  simp [decodeInteger, chk, coded, h]

theorem xorImm x0 x1 x2 x3 : Statement (.xorImm x0 x1 x2 x3) := by
  intro h w hw
  obtain rfl := Option.some.inj hw
  rw [decode_fmtI]
  change decodeInteger 0x0CE _ = _
  simp only [Instr.wf, Bool.and_eq_true, Bool.or_eq_true] at h
  simp [decodeInteger, chk, coded, h]

theorem andn x0 x1 x2 x3 : Statement (.andn x0 x1 x2 x3) := by
  intro h w hw
  obtain rfl := Option.some.inj hw
  rw [decode_fmtA]
  change decodeInteger 0x08F _ = _
  simp only [Instr.wf, Bool.and_eq_true, Bool.or_eq_true] at h
  simp [decodeInteger, chk, coded, h]

theorem andnImm x0 x1 x2 x3 : Statement (.andnImm x0 x1 x2 x3) := by
  intro h w hw
  obtain rfl := Option.some.inj hw
  rw [decode_fmtI]
  change decodeInteger 0x0CF _ = _
  simp only [Instr.wf, Bool.and_eq_true, Bool.or_eq_true] at h
  simp [decodeInteger, chk, coded, h]

theorem shl x0 x1 x2 x3 : Statement (.shl x0 x1 x2 x3) := by
  intro h w hw
  obtain rfl := Option.some.inj hw
  rw [decode_fmtA]
  change decodeInteger 0x090 _ = _
  simp only [Instr.wf, Bool.and_eq_true, Bool.or_eq_true] at h
  simp [decodeInteger, chk, coded, h]

theorem shlImm x0 x1 x2 x3 : Statement (.shlImm x0 x1 x2 x3) := by
  intro h w hw
  obtain rfl := Option.some.inj hw
  rw [decode_fmtI]
  change decodeInteger 0x0D0 _ = _
  simp only [Instr.wf, Bool.and_eq_true, Bool.or_eq_true] at h
  simp [decodeInteger, chk, coded, h]

theorem shr x0 x1 x2 x3 : Statement (.shr x0 x1 x2 x3) := by
  intro h w hw
  obtain rfl := Option.some.inj hw
  rw [decode_fmtA]
  change decodeInteger 0x091 _ = _
  simp only [Instr.wf, Bool.and_eq_true, Bool.or_eq_true] at h
  simp [decodeInteger, chk, coded, h]

theorem shrImm x0 x1 x2 x3 : Statement (.shrImm x0 x1 x2 x3) := by
  intro h w hw
  obtain rfl := Option.some.inj hw
  rw [decode_fmtI]
  change decodeInteger 0x0D1 _ = _
  simp only [Instr.wf, Bool.and_eq_true, Bool.or_eq_true] at h
  simp [decodeInteger, chk, coded, h]

theorem sar x0 x1 x2 x3 : Statement (.sar x0 x1 x2 x3) := by
  intro h w hw
  obtain rfl := Option.some.inj hw
  rw [decode_fmtA]
  change decodeInteger 0x092 _ = _
  simp only [Instr.wf, Bool.and_eq_true, Bool.or_eq_true] at h
  simp [decodeInteger, chk, coded, h]

theorem sarImm x0 x1 x2 x3 : Statement (.sarImm x0 x1 x2 x3) := by
  intro h w hw
  obtain rfl := Option.some.inj hw
  rw [decode_fmtI]
  change decodeInteger 0x0D2 _ = _
  simp only [Instr.wf, Bool.and_eq_true, Bool.or_eq_true] at h
  simp [decodeInteger, chk, coded, h]

theorem rol x0 x1 x2 x3 : Statement (.rol x0 x1 x2 x3) := by
  intro h w hw
  obtain rfl := Option.some.inj hw
  rw [decode_fmtA]
  change decodeInteger 0x093 _ = _
  simp only [Instr.wf, Bool.and_eq_true, Bool.or_eq_true] at h
  simp [decodeInteger, chk, coded, h]

theorem rolImm x0 x1 x2 x3 : Statement (.rolImm x0 x1 x2 x3) := by
  intro h w hw
  obtain rfl := Option.some.inj hw
  rw [decode_fmtI]
  change decodeInteger 0x0D3 _ = _
  simp only [Instr.wf, Bool.and_eq_true, Bool.or_eq_true] at h
  simp [decodeInteger, chk, coded, h]

theorem bfx x0 x1 x2 x3 x4 : Statement (.bfx x0 x1 x2 x3 x4) := by
  intro h w hw
  obtain rfl := Option.some.inj hw
  rw [decode_fmtA]
  change decodeInteger 0x094 _ = _
  simp only [Instr.wf, Bool.and_eq_true, Bool.or_eq_true] at h
  simp [decodeInteger, chk, coded, h]

theorem bfxImm x0 x1 x2 x3 x4 x5 : Statement (.bfxImm x0 x1 x2 x3 x4 x5) := by
  intro h w hw
  obtain rfl := Option.some.inj hw
  rw [decode_fmtI]
  change decodeInteger 0x0D4 _ = _
  simp only [Instr.wf, Bool.and_eq_true, Bool.or_eq_true] at h
  simp [decodeInteger, chk, coded, h]

theorem bfi x0 x1 x2 x3 x4 : Statement (.bfi x0 x1 x2 x3 x4) := by
  intro h w hw
  obtain rfl := Option.some.inj hw
  rw [decode_fmtA]
  change decodeInteger 0x095 _ = _
  simp only [Instr.wf, Bool.and_eq_true, Bool.or_eq_true] at h
  simp [decodeInteger, chk, coded, h]

theorem popc x0 x1 x2 : Statement (.popc x0 x1 x2) := by
  intro h w hw
  obtain rfl := Option.some.inj hw
  rw [decode_fmtA]
  change decodeInteger 0x096 _ = _
  simp only [Instr.wf, Bool.and_eq_true, Bool.or_eq_true] at h
  simp [decodeInteger, chk, coded, h]

theorem clz x0 x1 x2 : Statement (.clz x0 x1 x2) := by
  intro h w hw
  obtain rfl := Option.some.inj hw
  rw [decode_fmtA]
  change decodeInteger 0x097 _ = _
  simp only [Instr.wf, Bool.and_eq_true, Bool.or_eq_true] at h
  simp [decodeInteger, chk, coded, h]

theorem brev x0 x1 x2 : Statement (.brev x0 x1 x2) := by
  intro h w hw
  obtain rfl := Option.some.inj hw
  rw [decode_fmtA]
  change decodeInteger 0x098 _ = _
  simp only [Instr.wf, Bool.and_eq_true, Bool.or_eq_true] at h
  simp [decodeInteger, chk, coded, h]

theorem icmp x0 x1 x2 x3 x4 x5 : Statement (.icmp x0 x1 x2 x3 x4 x5) := by
  intro h w hw
  obtain rfl := Option.some.inj hw
  rw [decode_fmtA]
  change decodeInteger 0x099 _ = _
  simp only [Instr.wf, Bool.and_eq_true, Bool.or_eq_true] at h
  simp [decodeInteger, chk, coded, h]

theorem icmpImm x0 x1 x2 x3 x4 x5 : Statement (.icmpImm x0 x1 x2 x3 x4 x5) := by
  intro h w hw
  obtain rfl := Option.some.inj hw
  rw [decode_fmtI]
  change decodeInteger 0x0D9 _ = _
  simp only [Instr.wf, Bool.and_eq_true, Bool.or_eq_true] at h
  simp [decodeInteger, chk, coded, h]

theorem sel x0 x1 x2 x3 x4 : Statement (.sel x0 x1 x2 x3 x4) := by
  intro h w hw
  obtain rfl := Option.some.inj hw
  rw [decode_fmtA]
  change decodeInteger 0x09A _ = _
  simp only [Instr.wf, Bool.and_eq_true, Bool.or_eq_true] at h
  simp [decodeInteger, chk, coded, h]

theorem mov x0 x1 x2 x3 : Statement (.mov x0 x1 x2 x3) := by
  intro h w hw
  obtain rfl := Option.some.inj hw
  rw [decode_fmtA]
  change decodeInteger 0x09B _ = _
  simp only [Instr.wf, Bool.and_eq_true, Bool.or_eq_true] at h
  simp [decodeInteger, chk, coded, h]

theorem movi x0 x1 x2 : Statement (.movi x0 x1 x2) := by
  intro h w hw
  obtain rfl := Option.some.inj hw
  rw [decode_fmtL]
  change decodeInteger 0x09C _ = _
  simp only [Instr.wf, Bool.and_eq_true, Bool.or_eq_true] at h
  simp [decodeInteger, chk, coded, h]

theorem lea x0 x1 x2 x3 x4 x5 : Statement (.lea x0 x1 x2 x3 x4 x5) := by
  intro h w hw
  obtain rfl := Option.some.inj hw
  rw [decode_fmtA]
  change decodeInteger 0x09D _ = _
  simp only [Instr.wf, Bool.and_eq_true, Bool.or_eq_true] at h
  simp [decodeInteger, chk, coded, h]

theorem leaImm x0 x1 x2 x3 x4 x5 : Statement (.leaImm x0 x1 x2 x3 x4 x5) := by
  intro h w hw
  obtain rfl := Option.some.inj hw
  rw [decode_fmtI]
  change decodeInteger 0x0DD _ = _
  simp only [Instr.wf, Bool.and_eq_true, Bool.or_eq_true] at h
  simp [decodeInteger, chk, coded, h]

theorem fadd x0 x1 x2 x3 x4 : Statement (.fadd x0 x1 x2 x3 x4) := by
  intro h w hw
  obtain rfl := Option.some.inj hw
  rw [decode_fmtA]
  change decodeFloat 0x100 _ = _
  simp only [Instr.wf, Bool.and_eq_true, Bool.or_eq_true] at h
  simp [decodeFloat, chk, coded, h]

theorem fsub x0 x1 x2 x3 x4 : Statement (.fsub x0 x1 x2 x3 x4) := by
  intro h w hw
  obtain rfl := Option.some.inj hw
  rw [decode_fmtA]
  change decodeFloat 0x101 _ = _
  simp only [Instr.wf, Bool.and_eq_true, Bool.or_eq_true] at h
  simp [decodeFloat, chk, coded, h]

theorem fmul x0 x1 x2 x3 x4 : Statement (.fmul x0 x1 x2 x3 x4) := by
  intro h w hw
  obtain rfl := Option.some.inj hw
  rw [decode_fmtA]
  change decodeFloat 0x102 _ = _
  simp only [Instr.wf, Bool.and_eq_true, Bool.or_eq_true] at h
  simp [decodeFloat, chk, coded, h]

theorem ffma x0 x1 x2 x3 x4 x5 : Statement (.ffma x0 x1 x2 x3 x4 x5) := by
  intro h w hw
  obtain rfl := Option.some.inj hw
  rw [decode_fmtA]
  change decodeFloat 0x103 _ = _
  simp only [Instr.wf, Bool.and_eq_true, Bool.or_eq_true] at h
  simp [decodeFloat, chk, coded, h]

theorem fmin x0 x1 x2 x3 : Statement (.fmin x0 x1 x2 x3) := by
  intro h w hw
  obtain rfl := Option.some.inj hw
  rw [decode_fmtA]
  change decodeFloat 0x104 _ = _
  simp only [Instr.wf, Bool.and_eq_true, Bool.or_eq_true] at h
  simp [decodeFloat, chk, coded, h]

theorem fmax x0 x1 x2 x3 : Statement (.fmax x0 x1 x2 x3) := by
  intro h w hw
  obtain rfl := Option.some.inj hw
  rw [decode_fmtA]
  change decodeFloat 0x105 _ = _
  simp only [Instr.wf, Bool.and_eq_true, Bool.or_eq_true] at h
  simp [decodeFloat, chk, coded, h]

theorem fcmp x0 x1 x2 x3 x4 : Statement (.fcmp x0 x1 x2 x3 x4) := by
  intro h w hw
  obtain rfl := Option.some.inj hw
  rw [decode_fmtA]
  change decodeFloat 0x106 _ = _
  simp only [Instr.wf, Bool.and_eq_true, Bool.or_eq_true] at h
  simp [decodeFloat, chk, coded, h]

theorem fclass x0 x1 x2 : Statement (.fclass x0 x1 x2) := by
  intro h w hw
  obtain rfl := Option.some.inj hw
  rw [decode_fmtA]
  change decodeFloat 0x107 _ = _
  simp only [Instr.wf, Bool.and_eq_true, Bool.or_eq_true] at h
  simp [decodeFloat, chk, coded, h]

theorem frcp x0 x1 x2 : Statement (.frcp x0 x1 x2) := by
  intro h w hw
  obtain rfl := Option.some.inj hw
  rw [decode_fmtA]
  change decodeFloat 0x110 _ = _
  simp only [Instr.wf, Bool.and_eq_true, Bool.or_eq_true] at h
  simp [decodeFloat, chk, coded, h]

theorem frsq x0 x1 x2 : Statement (.frsq x0 x1 x2) := by
  intro h w hw
  obtain rfl := Option.some.inj hw
  rw [decode_fmtA]
  change decodeFloat 0x111 _ = _
  simp only [Instr.wf, Bool.and_eq_true, Bool.or_eq_true] at h
  simp [decodeFloat, chk, coded, h]

theorem fsqrt x0 x1 x2 x3 : Statement (.fsqrt x0 x1 x2 x3) := by
  intro h w hw
  obtain rfl := Option.some.inj hw
  rw [decode_fmtA]
  change decodeFloat 0x112 _ = _
  simp only [Instr.wf, Bool.and_eq_true, Bool.or_eq_true] at h
  simp [decodeFloat, chk, coded, h]

theorem fex2 x0 x1 x2 : Statement (.fex2 x0 x1 x2) := by
  intro h w hw
  obtain rfl := Option.some.inj hw
  rw [decode_fmtA]
  change decodeFloat 0x113 _ = _
  simp only [Instr.wf, Bool.and_eq_true, Bool.or_eq_true] at h
  simp [decodeFloat, chk, coded, h]

theorem flg2 x0 x1 x2 : Statement (.flg2 x0 x1 x2) := by
  intro h w hw
  obtain rfl := Option.some.inj hw
  rw [decode_fmtA]
  change decodeFloat 0x114 _ = _
  simp only [Instr.wf, Bool.and_eq_true, Bool.or_eq_true] at h
  simp [decodeFloat, chk, coded, h]

theorem fsin x0 x1 x2 : Statement (.fsin x0 x1 x2) := by
  intro h w hw
  obtain rfl := Option.some.inj hw
  rw [decode_fmtA]
  change decodeFloat 0x115 _ = _
  simp only [Instr.wf, Bool.and_eq_true, Bool.or_eq_true] at h
  simp [decodeFloat, chk, coded, h]

theorem fcos x0 x1 x2 : Statement (.fcos x0 x1 x2) := by
  intro h w hw
  obtain rfl := Option.some.inj hw
  rw [decode_fmtA]
  change decodeFloat 0x116 _ = _
  simp only [Instr.wf, Bool.and_eq_true, Bool.or_eq_true] at h
  simp [decodeFloat, chk, coded, h]

theorem padd2 x0 x1 x2 x3 x4 x5 : Statement (.padd2 x0 x1 x2 x3 x4 x5) := by
  intro h w hw
  obtain rfl := Option.some.inj hw
  rw [decode_fmtA]
  change decodeFloat 0x120 _ = _
  simp only [Instr.wf, Bool.and_eq_true, Bool.or_eq_true] at h
  simp [decodeFloat, chk, coded, h]

theorem pmul2 x0 x1 x2 x3 x4 x5 : Statement (.pmul2 x0 x1 x2 x3 x4 x5) := by
  intro h w hw
  obtain rfl := Option.some.inj hw
  rw [decode_fmtA]
  change decodeFloat 0x121 _ = _
  simp only [Instr.wf, Bool.and_eq_true, Bool.or_eq_true] at h
  simp [decodeFloat, chk, coded, h]

theorem pfma2 x0 x1 x2 x3 x4 x5 x6 : Statement (.pfma2 x0 x1 x2 x3 x4 x5 x6) := by
  intro h w hw
  obtain rfl := Option.some.inj hw
  rw [decode_fmtA]
  change decodeFloat 0x122 _ = _
  simp only [Instr.wf, Bool.and_eq_true, Bool.or_eq_true] at h
  simp [decodeFloat, chk, coded, h]

theorem pdot2 x0 x1 x2 x3 x4 x5 x6 : Statement (.pdot2 x0 x1 x2 x3 x4 x5 x6) := by
  intro h w hw
  obtain rfl := Option.some.inj hw
  rw [decode_fmtA]
  change decodeFloat 0x123 _ = _
  simp only [Instr.wf, Bool.and_eq_true, Bool.or_eq_true] at h
  simp [decodeFloat, chk, coded, h]

theorem idot4 x0 x1 x2 x3 x4 x5 x6 x7 : Statement (.idot4 x0 x1 x2 x3 x4 x5 x6 x7) := by
  intro h w hw
  obtain rfl := Option.some.inj hw
  rw [decode_fmtA]
  change decodeFloat 0x124 _ = _
  simp only [Instr.wf, Bool.and_eq_true, Bool.or_eq_true] at h
  simp [decodeFloat, chk, coded, h]

theorem cvt x0 x1 x2 x3 x4 x5 x6 x7 x8 : Statement (.cvt x0 x1 x2 x3 x4 x5 x6 x7 x8) := by
  intro h w hw
  obtain rfl := Option.some.inj hw
  rw [decode_fmtA]
  change decodeLane 0x180 _ = _
  simp only [Instr.wf, Bool.and_eq_true, Bool.or_eq_true] at h
  simp [decodeLane, chk, coded, h]
  intro e
  have q := h.2
  simp [e] at q
  exact ⟨q.1, by simp [polBit, q.2]⟩

theorem cbdec x0 x1 x2 x3 x4 : Statement (.cbdec x0 x1 x2 x3 x4) := by
  intro h w hw
  obtain rfl := Option.some.inj hw
  rw [decode_fmtA]
  change decodeLane 0x181 _ = _
  simp only [Instr.wf, Bool.and_eq_true, Bool.or_eq_true] at h
  simp [decodeLane, chk, coded, h]

theorem scal x0 x1 x2 x3 x4 x5 : Statement (.scal x0 x1 x2 x3 x4 x5) := by
  intro h w hw
  obtain rfl := Option.some.inj hw
  rw [decode_fmtA]
  change decodeLane 0x182 _ = _
  simp only [Instr.wf, Bool.and_eq_true, Bool.or_eq_true] at h
  simp [decodeLane, chk, coded, h]

theorem shfl x0 x1 x2 x3 x4 x5 : Statement (.shfl x0 x1 x2 x3 x4 x5) := by
  intro h w hw
  obtain rfl := Option.some.inj hw
  rw [decode_fmtA]
  change decodeLane 0x190 _ = _
  simp only [Instr.wf, Bool.and_eq_true, Bool.or_eq_true] at h
  simp [decodeLane, chk, coded, h]

theorem vote x0 x1 x2 x3 x4 : Statement (.vote x0 x1 x2 x3 x4) := by
  intro h w hw
  obtain rfl := Option.some.inj hw
  rw [decode_fmtA]
  change decodeLane 0x191 _ = _
  simp only [Instr.wf, Bool.and_eq_true, Bool.or_eq_true] at h
  simp [decodeLane, chk, coded, h]
  intro e
  simpa [e] using h.2

theorem matchLanes x0 x1 x2 x3 x4 : Statement (.matchLanes x0 x1 x2 x3 x4) := by
  intro h w hw
  obtain rfl := Option.some.inj hw
  rw [decode_fmtA]
  change decodeLane 0x192 _ = _
  simp only [Instr.wf, Bool.and_eq_true, Bool.or_eq_true] at h
  simp [decodeLane, chk, coded, h]

theorem lred x0 x1 x2 x3 : Statement (.lred x0 x1 x2 x3) := by
  intro h w hw
  obtain rfl := Option.some.inj hw
  rw [decode_fmtA]
  change decodeLane 0x193 _ = _
  simp only [Instr.wf, Bool.and_eq_true, Bool.or_eq_true] at h
  simp [decodeLane, chk, coded, h]

theorem lscan x0 x1 x2 x3 x4 : Statement (.lscan x0 x1 x2 x3 x4) := by
  intro h w hw
  obtain rfl := Option.some.inj hw
  rw [decode_fmtA]
  change decodeLane 0x194 _ = _
  simp only [Instr.wf, Bool.and_eq_true, Bool.or_eq_true] at h
  simp [decodeLane, chk, coded, h]

theorem ld x0 x1 x2 x3 x4 x5 x6 : Statement (.ld x0 x1 x2 x3 x4 x5 x6) := by
  intro h w hw
  obtain rfl := Option.some.inj hw
  rw [decode_fmtM]
  change decodeMemory 0x1C0 _ = _
  simp only [Instr.wf, Bool.and_eq_true, Bool.or_eq_true] at h
  simp [decodeMemory, chk, coded, h]

theorem st x0 x1 x2 x3 x4 x5 x6 : Statement (.st x0 x1 x2 x3 x4 x5 x6) := by
  intro h w hw
  obtain rfl := Option.some.inj hw
  rw [decode_fmtM]
  change decodeMemory 0x1C1 _ = _
  simp only [Instr.wf, Bool.and_eq_true, Bool.or_eq_true] at h
  simp [decodeMemory, chk, coded, h]

theorem ldl x0 x1 x2 x3 x4 x5 : Statement (.ldl x0 x1 x2 x3 x4 x5) := by
  intro h w hw
  obtain rfl := Option.some.inj hw
  rw [decode_fmtM]
  change decodeMemory 0x1C2 _ = _
  simp only [Instr.wf, Bool.and_eq_true, Bool.or_eq_true] at h
  simp [decodeMemory, chk, coded, h]

theorem stl x0 x1 x2 x3 x4 x5 : Statement (.stl x0 x1 x2 x3 x4 x5) := by
  intro h w hw
  obtain rfl := Option.some.inj hw
  rw [decode_fmtM]
  change decodeMemory 0x1C3 _ = _
  simp only [Instr.wf, Bool.and_eq_true, Bool.or_eq_true] at h
  simp [decodeMemory, chk, coded, h]

theorem ldp x0 x1 x2 x3 x4 x5 : Statement (.ldp x0 x1 x2 x3 x4 x5) := by
  intro h w hw
  obtain rfl := Option.some.inj hw
  rw [decode_fmtM]
  change decodeMemory 0x1C4 _ = _
  simp only [Instr.wf, Bool.and_eq_true, Bool.or_eq_true] at h
  simp [decodeMemory, chk, coded, h]

theorem stp x0 x1 x2 x3 x4 x5 : Statement (.stp x0 x1 x2 x3 x4 x5) := by
  intro h w hw
  obtain rfl := Option.some.inj hw
  rw [decode_fmtM]
  change decodeMemory 0x1C5 _ = _
  simp only [Instr.wf, Bool.and_eq_true, Bool.or_eq_true] at h
  simp [decodeMemory, chk, coded, h]

theorem ldu x0 x1 x2 x3 x4 x5 x6 : Statement (.ldu x0 x1 x2 x3 x4 x5 x6) := by
  intro h w hw
  obtain rfl := Option.some.inj hw
  rw [decode_fmtM]
  change decodeMemory 0x1C6 _ = _
  simp only [Instr.wf, Bool.and_eq_true, Bool.or_eq_true] at h
  simp [decodeMemory, chk, coded, h]

theorem pref x0 x1 x2 x3 : Statement (.pref x0 x1 x2 x3) := by
  intro h w hw
  obtain rfl := Option.some.inj hw
  rw [decode_fmtM]
  change decodeMemory 0x1CD _ = _
  simp only [Instr.wf, Bool.and_eq_true, Bool.or_eq_true] at h
  simp [decodeMemory, chk, coded, h]

theorem atom x0 x1 x2 x3 x4 x5 x6 x7 : Statement (.atom x0 x1 x2 x3 x4 x5 x6 x7) := by
  intro h w hw
  obtain rfl := Option.some.inj hw
  rw [decode_fmtA]
  change decodeMemory 0x1C8 _ = _
  simp only [Instr.wf, Bool.and_eq_true, Bool.or_eq_true] at h
  simp [decodeMemory, chk, coded, h]

theorem acas x0 x1 x2 x3 x4 x5 x6 x7 : Statement (.acas x0 x1 x2 x3 x4 x5 x6 x7) := by
  intro h w hw
  obtain rfl := Option.some.inj hw
  rw [decode_fmtA]
  change decodeMemory 0x1C9 _ = _
  simp only [Instr.wf, Bool.and_eq_true, Bool.or_eq_true] at h
  simp [decodeMemory, chk, coded, h]

theorem red x0 x1 x2 x3 x4 x5 x6 : Statement (.red x0 x1 x2 x3 x4 x5 x6) := by
  intro h w hw
  obtain rfl := Option.some.inj hw
  rw [decode_fmtA]
  change decodeMemory 0x1CA _ = _
  simp only [Instr.wf, Bool.and_eq_true, Bool.or_eq_true] at h
  simp [decodeMemory, chk, coded, h]

theorem fence x0 x1 x2 : Statement (.fence x0 x1 x2) := by
  intro h w hw
  obtain rfl := Option.some.inj hw
  rw [decode_fmtA]
  change decodeMemory 0x1CC _ = _
  simp only [Instr.wf, Bool.and_eq_true, Bool.or_eq_true] at h
  simp [decodeMemory, chk, coded, h]

theorem binit x0 x1 x2 : Statement (.binit x0 x1 x2) := by
  intro h w hw
  obtain rfl := Option.some.inj hw
  rw [decode_fmtA]
  change decodeMemory 0x1E1 _ = _
  simp only [Instr.wf, Bool.and_eq_true, Bool.or_eq_true] at h
  simp [decodeMemory, chk, coded, h]

theorem barv x0 x1 x2 : Statement (.barv x0 x1 x2) := by
  intro h w hw
  obtain rfl := Option.some.inj hw
  rw [decode_fmtA]
  change decodeMemory 0x1E2 _ = _
  simp only [Instr.wf, Bool.and_eq_true, Bool.or_eq_true] at h
  simp [decodeMemory, chk, coded, h]

theorem bwait x0 x1 x2 : Statement (.bwait x0 x1 x2) := by
  intro h w hw
  obtain rfl := Option.some.inj hw
  rw [decode_fmtA]
  change decodeMemory 0x1E3 _ = _
  simp only [Instr.wf, Bool.and_eq_true, Bool.or_eq_true] at h
  simp [decodeMemory, chk, coded, h]

theorem csub x0 x1 x2 : Statement (.csub x0 x1 x2) := by
  intro h w hw
  obtain rfl := Option.some.inj hw
  rw [decode_fmtA]
  change decodeMemory 0x1E0 _ = _
  simp only [Instr.wf, Bool.and_eq_true, Bool.or_eq_true] at h
  simp [decodeMemory, chk, coded, h]

theorem wqry x0 x1 x2 : Statement (.wqry x0 x1 x2) := by
  intro h w hw
  obtain rfl := Option.some.inj hw
  rw [decode_fmtA]
  change decodeMemory 0x1E4 _ = _
  simp only [Instr.wf, Bool.and_eq_true, Bool.or_eq_true] at h
  simp [decodeMemory, chk, coded, h]

theorem qres x0 x1 x2 x3 : Statement (.qres x0 x1 x2 x3) := by
  intro h w hw
  obtain rfl := Option.some.inj hw
  rw [decode_fmtA]
  change decodeQueue 0x240 _ = _
  simp only [Instr.wf, Bool.and_eq_true, Bool.or_eq_true] at h
  simp [decodeQueue, chk, coded, h]

theorem qput x0 x1 x2 x3 x4 x5 x6 : Statement (.qput x0 x1 x2 x3 x4 x5 x6) := by
  intro h w hw
  obtain rfl := Option.some.inj hw
  rw [decode_fmtA]
  change decodeQueue 0x241 _ = _
  simp only [Instr.wf, Bool.and_eq_true, Bool.or_eq_true] at h
  simp [decodeQueue, chk, coded, h]

theorem qrp x0 x1 x2 x3 x4 x5 x6 : Statement (.qrp x0 x1 x2 x3 x4 x5 x6) := by
  intro h w hw
  obtain rfl := Option.some.inj hw
  rw [decode_fmtA]
  change decodeQueue 0x242 _ = _
  simp only [Instr.wf, Bool.and_eq_true, Bool.or_eq_true] at h
  simp [decodeQueue, chk, coded, h]

theorem qget x0 x1 x2 x3 x4 x5 : Statement (.qget x0 x1 x2 x3 x4 x5) := by
  intro h w hw
  obtain rfl := Option.some.inj hw
  rw [decode_fmtA]
  change decodeQueue 0x243 _ = _
  simp only [Instr.wf, Bool.and_eq_true, Bool.or_eq_true] at h
  cases x2 <;> cases x3 <;> cases x4 <;> simp [SizeCode.code, SizeCode.ofCode, decodeQueue, chk, coded, h, optSrc, optPol]

theorem qtry x0 x1 x2 x3 x4 x5 : Statement (.qtry x0 x1 x2 x3 x4 x5) := by
  intro h w hw
  obtain rfl := Option.some.inj hw
  rw [decode_fmtA]
  change decodeQueue 0x244 _ = _
  simp only [Instr.wf, Bool.and_eq_true, Bool.or_eq_true] at h
  cases x2 <;> cases x4 <;> simp [SizeCode.code, SizeCode.ofCode, decodeQueue, chk, coded, h, optSrc, optPol]

theorem qcan x0 x1 x2 : Statement (.qcan x0 x1 x2) := by
  intro h w hw
  obtain rfl := Option.some.inj hw
  rw [decode_fmtA]
  change decodeQueue 0x245 _ = _
  simp only [Instr.wf, Bool.and_eq_true, Bool.or_eq_true] at h
  simp [decodeQueue, chk, coded, h]

theorem qstatQ x0 x1 x2 : Statement (.qstatQ x0 x1 x2) := by
  intro h w hw
  obtain rfl := Option.some.inj hw
  rw [decode_fmtA]
  change decodeQueue 0x246 _ = _
  simp only [Instr.wf, Bool.and_eq_true, Bool.or_eq_true] at h
  simp [decodeQueue, chk, coded, h]

theorem qstatR x0 x1 x2 : Statement (.qstatR x0 x1 x2) := by
  intro h w hw
  obtain rfl := Option.some.inj hw
  rw [decode_fmtA]
  change decodeQueue 0x246 _ = _
  simp only [Instr.wf, Bool.and_eq_true, Bool.or_eq_true] at h
  simp [decodeQueue, chk, coded, h]

theorem gname x0 x1 : Statement (.gname x0 x1) := by
  intro h w hw
  obtain rfl := Option.some.inj hw
  rw [decode_fmtA]
  change decodeQueue 0x248 _ = _
  simp only [Instr.wf, Bool.and_eq_true, Bool.or_eq_true] at h
  simp [decodeQueue, chk, coded, h]

theorem gfree x0 : Statement (.gfree x0) := by
  intro h w hw
  obtain rfl := Option.some.inj hw
  rw [decode_fmtA]
  change decodeQueue 0x249 _ = _
  simp only [Instr.wf, Bool.and_eq_true, Bool.or_eq_true] at h
  simp [decodeQueue, chk, coded, h]

theorem rput x0 x1 x2 x3 x4 : Statement (.rput x0 x1 x2 x3 x4) := by
  intro h w hw
  obtain rfl := Option.some.inj hw
  rw [decode_fmtA]
  change decodeQueue 0x24A _ = _
  simp only [Instr.wf, Bool.and_eq_true, Bool.or_eq_true] at h
  simp [decodeQueue, chk, coded, h]

theorem await x0 x1 x2 : Statement (.await x0 x1 x2) := by
  intro h w hw
  obtain rfl := Option.some.inj hw
  rw [decode_fmtA]
  change decodeQueue 0x24B _ = _
  simp only [Instr.wf, Bool.and_eq_true, Bool.or_eq_true] at h
  have e : ∀ b : BitVec 1, (BitVec.extractLsb' 1 1 (b ++ 0#2) = 0#1) ∧ (BitVec.extractLsb' 0 1 (b ++ 0#2) = 0#1) := by decide
  cases x1 <;> simp [decodeQueue, chk, coded, h, AwaitForm.polField, AwaitForm.code, AwaitForm.reg, e]

theorem recruit x0 x1 x2 x3 x4 x5 : Statement (.recruit x0 x1 x2 x3 x4 x5) := by
  intro h w hw
  obtain rfl := Option.some.inj hw
  rw [decode_fmtA]
  change decodeQueue 0x260 _ = _
  simp only [Instr.wf, Bool.and_eq_true, Bool.or_eq_true] at h
  simp [decodeQueue, chk, coded, h]

theorem hnext x0 : Statement (.hnext x0) := by
  intro h w hw
  obtain rfl := Option.some.inj hw
  rw [decode_fmtA]
  change decodeQueue 0x261 _ = _
  simp only [Instr.wf, Bool.and_eq_true, Bool.or_eq_true] at h
  simp [decodeQueue, chk, coded, h]

theorem hquit x0 : Statement (.hquit x0) := by
  intro h w hw
  obtain rfl := Option.some.inj hw
  rw [decode_fmtA]
  change decodeQueue 0x262 _ = _
  simp only [Instr.wf, Bool.and_eq_true, Bool.or_eq_true] at h
  simp [decodeQueue, chk, coded, h]

theorem hjoin x0 x1 : Statement (.hjoin x0 x1) := by
  intro h w hw
  obtain rfl := Option.some.inj hw
  rw [decode_fmtA]
  change decodeQueue 0x263 _ = _
  simp only [Instr.wf, Bool.and_eq_true, Bool.or_eq_true] at h
  simp [decodeQueue, chk, coded, h]

theorem hjoinComplete x0 x1 x2 : Statement (.hjoinComplete x0 x1 x2) := fun _ _ h => nomatch h

theorem mwin x0 x1 x2 : Statement (.mwin x0 x1 x2) := by
  intro h w hw
  obtain rfl := Option.some.inj hw
  rw [decode_fmtA]
  change decodeMatrix 0x2C0 _ = _
  simp only [Instr.wf, Bool.and_eq_true, Bool.or_eq_true] at h
  simp [decodeMatrix, chk, coded, h]

theorem mlend x0 x1 x2 : Statement (.mlend x0 x1 x2) := by
  intro h w hw
  obtain rfl := Option.some.inj hw
  rw [decode_fmtA]
  change decodeMatrix 0x2C1 _ = _
  simp only [Instr.wf, Bool.and_eq_true, Bool.or_eq_true] at h
  simp [decodeMatrix, chk, coded, h]

theorem mrd x0 x1 x2 x3 x4 : Statement (.mrd x0 x1 x2 x3 x4) := by
  intro h w hw
  obtain rfl := Option.some.inj hw
  rw [decode_fmtA]
  change decodeMatrix 0x2C2 _ = _
  simp only [Instr.wf, Bool.and_eq_true, Bool.or_eq_true] at h
  simp [decodeMatrix, chk, coded, h]

theorem mwr x0 x1 x2 x3 : Statement (.mwr x0 x1 x2 x3) := by
  intro h w hw
  obtain rfl := Option.some.inj hw
  rw [decode_fmtA]
  change decodeMatrix 0x2C3 _ = _
  simp only [Instr.wf, Bool.and_eq_true, Bool.or_eq_true] at h
  simp [decodeMatrix, chk, coded, h]

theorem mma x0 x1 x2 x3 x4 x5 x6 : Statement (.mma x0 x1 x2 x3 x4 x5 x6) := by
  intro h w hw
  obtain rfl := Option.some.inj hw
  rw [decode_fmtA]
  change decodeMatrix 0x300 _ = _
  simp only [Instr.wf, Bool.and_eq_true, Bool.or_eq_true] at h
  have e := (by decide : ∀ k : BitVec 2, k.extractLsb' 1 1 ++ k.extractLsb' 0 1 = k) x5
  have h1 : x4.toNat ≤ 8 := by simpa using h.1
  have h2 : ¬x4 = 0#4 ∨ x5 = 0#2 := by simpa using h.2
  simp [decodeMatrix, chk, coded, e, h1, h2]

theorem mscale x0 x1 x2 x3 x4 x5 x6 : Statement (.mscale x0 x1 x2 x3 x4 x5 x6) := by
  intro h w hw
  obtain rfl := Option.some.inj hw
  rw [decode_fmtA]
  change decodeMatrix 0x301 _ = _
  simp only [Instr.wf, Bool.and_eq_true, Bool.or_eq_true] at h
  simp [decodeMatrix, chk, coded, h]

theorem mclr x0 x1 x2 x3 : Statement (.mclr x0 x1 x2 x3) := by
  intro h w hw
  obtain rfl := Option.some.inj hw
  rw [decode_fmtA]
  change decodeMatrix 0x302 _ = _
  simp only [Instr.wf, Bool.and_eq_true, Bool.or_eq_true] at h
  simp [decodeMatrix, chk, coded, h]

theorem mtab x0 x1 x2 x3 : Statement (.mtab x0 x1 x2 x3) := by
  intro h w hw
  obtain rfl := Option.some.inj hw
  rw [decode_fmtA]
  change decodeMatrix 0x303 _ = _
  simp only [Instr.wf, Bool.and_eq_true, Bool.or_eq_true] at h
  simp [decodeMatrix, chk, coded, h]

theorem msig x0 x1 x2 x3 x4 : Statement (.msig x0 x1 x2 x3 x4) := by
  intro h w hw
  obtain rfl := Option.some.inj hw
  rw [decode_fmtA]
  change decodeMatrix 0x304 _ = _
  simp only [Instr.wf, Bool.and_eq_true, Bool.or_eq_true] at h
  simp [decodeMatrix, chk, coded, h]

theorem mdrn x0 x1 x2 x3 x4 x5 x6 : Statement (.mdrn x0 x1 x2 x3 x4 x5 x6) := by
  intro h w hw
  obtain rfl := Option.some.inj hw
  rw [decode_fmtA]
  change decodeMatrix 0x305 _ = _
  simp only [Instr.wf, Bool.and_eq_true, Bool.or_eq_true] at h
  simp [decodeMatrix, chk, coded, h]

theorem mmaStep x0 x1 : Statement (.mmaStep x0 x1) := fun _ _ h => nomatch h

theorem mmaStepCommit x0 x1 : Statement (.mmaStepCommit x0 x1) := fun _ _ h => nomatch h

theorem entryDieCheck x0 : Statement (.entryDieCheck x0) := fun _ _ h => nomatch h

theorem launchForward x0 : Statement (.launchForward x0) := fun _ _ h => nomatch h

theorem forwardedCopyTake x0 : Statement (.forwardedCopyTake x0) := fun _ _ h => nomatch h

theorem teamPlacement x0 : Statement (.teamPlacement x0) := fun _ _ h => nomatch h

theorem drainTarget x0 : Statement (.drainTarget x0) := fun _ _ h => nomatch h

theorem trafficWindow x0 : Statement (.trafficWindow x0) := fun _ _ h => nomatch h

theorem groupExchange x0 x1 x2 : Statement (.groupExchange x0 x1 x2) := fun _ _ h => nomatch h

theorem pendingExchange x0 x1 x2 : Statement (.pendingExchange x0 x1 x2) := fun _ _ h => nomatch h

theorem clauseStart x0 : Statement (.clauseStart x0) := fun _ _ h => nomatch h

theorem groupEnd x0 x1 x2 : Statement (.groupEnd x0 x1 x2) := fun _ _ h => nomatch h

theorem workDeal x0 : Statement (.workDeal x0) := fun _ _ h => nomatch h

theorem loadDataReturn x0 x1 : Statement (.loadDataReturn x0 x1) := fun _ _ h => nomatch h

theorem atomicAtHomeSlice x0 x1 : Statement (.atomicAtHomeSlice x0 x1) := fun _ _ h => nomatch h

theorem l2Eviction x0 x1 : Statement (.l2Eviction x0 x1) := fun _ _ h => nomatch h

theorem recordStart x0 x1 x2 x3 : Statement (.recordStart x0 x1 x2 x3) := fun _ _ h => nomatch h

theorem recordFinish x0 x1 x2 x3 : Statement (.recordFinish x0 x1 x2 x3) := fun _ _ h => nomatch h

theorem reservationRequest x0 : Statement (.reservationRequest x0) := fun _ _ h => nomatch h

theorem putDataArrival x0 : Statement (.putDataArrival x0) := fun _ _ h => nomatch h

theorem getRequest x0 : Statement (.getRequest x0) := fun _ _ h => nomatch h

theorem cellarMoveComplete x0 x1 x2 : Statement (.cellarMoveComplete x0 x1 x2) := fun _ _ h => nomatch h

theorem queueAnswer x0 : Statement (.queueAnswer x0) := fun _ _ h => nomatch h

theorem queueTimeout x0 : Statement (.queueTimeout x0) := fun _ _ h => nomatch h

theorem waiterResend x0 : Statement (.waiterResend x0) := fun _ _ h => nomatch h

theorem ringDelivery x0 x1 x2 : Statement (.ringDelivery x0 x1 x2) := fun _ _ h => nomatch h

theorem registerPutLanding x0 x1 x2 : Statement (.registerPutLanding x0 x1 x2) := fun _ _ h => nomatch h

theorem elementForward x0 : Statement (.elementForward x0) := fun _ _ h => nomatch h

theorem portPutAnswer x0 : Statement (.portPutAnswer x0) := fun _ _ h => nomatch h

theorem faultOverflowPut x0 x1 : Statement (.faultOverflowPut x0 x1) := fun _ _ h => nomatch h

theorem delupFrameReceive x0 x1 : Statement (.delupFrameReceive x0 x1) := fun _ _ h => nomatch h

theorem rekeyStart x0 : Statement (.rekeyStart x0) := fun _ _ h => nomatch h

theorem keyReadyReceive x0 x1 : Statement (.keyReadyReceive x0 x1) := fun _ _ h => nomatch h

theorem keyConfirmReceive x0 : Statement (.keyConfirmReceive x0) := fun _ _ h => nomatch h

theorem rekeyStop x0 : Statement (.rekeyStop x0) := fun _ _ h => nomatch h

theorem resume x0 : Statement (.resume x0) := fun _ _ h => nomatch h

theorem kill x0 : Statement (.kill x0) := fun _ _ h => nomatch h

theorem preempt x0 : Statement (.preempt x0) := fun _ _ h => nomatch h

theorem release x0 : Statement (.release x0) := fun _ _ h => nomatch h

theorem preemptStopBound x0 x1 x2 : Statement (.preemptStopBound x0 x1 x2) := fun _ _ h => nomatch h

theorem contextSave x0 x1 : Statement (.contextSave x0 x1) := fun _ _ h => nomatch h

theorem teamResume x0 : Statement (.teamResume x0) := fun _ _ h => nomatch h

theorem pageWalkComplete x0 x1 x2 : Statement (.pageWalkComplete x0 x1 x2) := fun _ _ h => nomatch h

theorem helperIterationTimeout x0 x1 x2 x3 : Statement (.helperIterationTimeout x0 x1 x2 x3) := fun _ _ h => nomatch h

theorem ack x0 : Statement (.ack x0) := fun _ _ h => nomatch h

theorem openConn x0 : Statement (.openConn x0) := fun _ _ h => nomatch h

theorem put x0 : Statement (.put x0) := fun _ _ h => nomatch h

theorem get x0 : Statement (.get x0) := fun _ _ h => nomatch h

theorem write x0 : Statement (.write x0) := fun _ _ h => nomatch h

theorem read x0 : Statement (.read x0) := fun _ _ h => nomatch h

theorem close x0 : Statement (.close x0) := fun _ _ h => nomatch h

theorem retransmissionTimeout x0 : Statement (.retransmissionTimeout x0) := fun _ _ h => nomatch h

theorem invalidateVa x0 : Statement (.invalidateVa x0) := fun _ _ h => nomatch h

theorem invalidateQid x0 : Statement (.invalidateQid x0) := fun _ _ h => nomatch h

theorem process x0 : Statement (.process x0) := fun _ _ h => nomatch h

theorem slot x0 : Statement (.slot x0) := fun _ _ h => nomatch h

theorem share x0 : Statement (.share x0) := fun _ _ h => nomatch h

theorem routes x0 : Statement (.routes x0) := fun _ _ h => nomatch h

theorem rowRepair x0 x1 : Statement (.rowRepair x0 x1) := fun _ _ h => nomatch h

theorem rowRepairComplete x0 x1 : Statement (.rowRepairComplete x0 x1) := fun _ _ h => nomatch h

theorem laneSwap x0 x1 : Statement (.laneSwap x0 x1) := fun _ _ h => nomatch h

theorem retireCore x0 : Statement (.retireCore x0) := fun _ _ h => nomatch h

theorem excludeDie x0 : Statement (.excludeDie x0) := fun _ _ h => nomatch h

theorem renumber x0 : Statement (.renumber x0) := fun _ _ h => nomatch h

theorem keyInstall x0 : Statement (.keyInstall x0) := fun _ _ h => nomatch h

theorem linkReset x0 : Statement (.linkReset x0) := fun _ _ h => nomatch h

theorem selftest x0 x1 : Statement (.selftest x0 x1) := fun _ _ h => nomatch h

theorem port x0 : Statement (.port x0) := fun _ _ h => nomatch h

theorem linkTrainingComplete x0 x1 x2 : Statement (.linkTrainingComplete x0 x1 x2) := fun _ _ h => nomatch h

theorem linkTrainingTimeout x0 x1 : Statement (.linkTrainingTimeout x0 x1) := fun _ _ h => nomatch h

theorem bringup x0 : Statement (.bringup x0) := fun _ _ h => nomatch h

theorem hostPortTrainRetry x0 : Statement (.hostPortTrainRetry x0) := fun _ _ h => nomatch h

theorem targetedTestStart x0 : Statement (.targetedTestStart x0) := fun _ _ h => nomatch h

theorem targetedTestComplete x0 x1 : Statement (.targetedTestComplete x0 x1) := fun _ _ h => nomatch h

theorem thermalReport x0 : Statement (.thermalReport x0) := fun _ _ h => nomatch h

theorem thermalTrip : Statement (.thermalTrip) := fun _ _ h => nomatch h

theorem linkDown x0 x1 : Statement (.linkDown x0 x1) := fun _ _ h => nomatch h

theorem powerDown : Statement (.powerDown) := fun _ _ h => nomatch h

theorem unassignedOpcode x0 : Statement (.unassignedOpcode x0) := by
  intro h w hw
  obtain rfl := Option.some.inj hw
  have e : opcodeAssigned (x0.extractLsb' 54 10).toNat = false := by
    simpa [Instr.wf, bits_opcode] using h
  exact decodeOp_unassigned _ _ e

theorem droppedFrame x0 : Statement (.droppedFrame x0) := fun _ _ h => nomatch h

theorem refusedCommand x0 : Statement (.refusedCommand x0) := fun _ _ h => nomatch h

end Sys2Proof.Laws.RoundTrip
end

