-- ==== Sys2Proof/Tests/Slice0.lean ====
section
/-! SUPPORT. The model's own tests: words written out from the encodings of 05_encoding.md and decoded; ill-formed terms refused;
one step of an instruction on a small state, its result worked out by hand from the spec; and for every statement, clause by
clause, a state and operands that meet its hypotheses together. -/

set_option Elab.async false

namespace Sys2Proof.Tests
open Sys2Proof Sys2Proof.Machine

abbrev noG : Guard := ⟨0#4, false⟩
/-- Guard field `g`. -/
abbrev gd (g : BitVec 4) : Guard := ⟨g, false⟩
/-- A source read under policy 0. -/
abbrev r (n : BitVec 10) : Src := ⟨n, false⟩


/-- The agent of the small states: fragment 0 of group 0 of the team that `State.place` lays out on die 0 (16 lanes, 256 v and 384 s
registers). -/
abbrev fr : Agent := .frag 0 0 0 0

/-- A panel on which `i` is the instruction to issue next, with the group's v registers (keyed register × 64 + lane) and s registers
as given and zero elsewhere. -/
def demo (i : Instr) (v s : List (Nat × Word) := []) : State :=
  let p := State.reset.place ((encode i).getD 0#64)
  { p with cur := some fr, groups := amod p.groups 0 fun g => { g with v := v, s := s } }

/-- What a function reads of the next state. -/
def got {α : Type} (o : Host.Outcome State Fault Refusal) (f : State → α) : Option α :=
  match o with
  | .next t => some (f t)
  | .fault _ | .refused _ => none

/-- Register `x` of the demo group in a lane after `i`. -/
def res (i : Instr) (v s : List (Nat × Word)) (x lane : Nat) : Option Word := got (exec i (demo i v s)) (·.rdReg fr x lane)

/-- STICKY_FLAGS of the demo group after `i` (bits: 0 invalid, 1 divide by zero, 2 overflow, 3 underflow, 4 inexact, 5 saturation). -/
def flagsOf (i : Instr) (v s : List (Nat × Word)) : Option (BitVec 6) :=
  got (exec i (demo i v s)) fun t => ((t.group? 0).map (·.sticky)).getD 0#6

/-- v1, v2 and v3 in lane 0. -/
def abc (a b c : Word) : List (Nat × Word) := [(64, a), (128, b), (192, c)]

/-- The group of a state, changed. -/
def withGroup (f : Group → Group) (s : State) : State := { s with groups := amod s.groups 0 f }
/-- The fragment at the demo instruction of class `c`. -/
def demoFrag (c : Nat) : Fragment := { clause := 0x10000#48, hdr := some (demoHeader c), mask := fullMask 16 }
/-- The header at 0x10000 with the landing flag set. -/
def landing (s : State) : State := s.stackWrite 0 0x10000 (wordBytes (demoHeader 4 ||| 0x10000000000000#64))
/-- A page of class `c` (0 CORE, 1 DIE), readable and writable, at 0x20000 of process 1, on the stack at 0x20000. -/
def demoPage (c : Nat) : TlbEntry :=
  { leaf := BitVec.ofNat 64 (2 ^ 63 + 2 ^ 62 + c * 2 ^ 60 + 2 ^ 59 + 2 ^ 58 + 0x20000), level := 4 }
/-- That page cached on die 0. -/
def withPage (c : Nat) (s : State) : State := s.modDie 0 fun x => { x with tlb := aput x.tlb (pageKey 1#12 0x20000) (demoPage c) }
/-- Code and DETAIL of the fault the demo group is parked with. -/
def parkOf (o : Host.Outcome State Fault Refusal) : Option (Nat × Nat) :=
  (got o fun t => ((t.group? 0).bind (·.parked)).map fun p => (p.fault.code, p.fault.detail.toNat)).bind id
/-- The fragment of the demo group's entry `e`. -/
def fragOf (o : Host.Outcome State Fault Refusal) (e : Nat) : Option Fragment :=
  (got o fun t => (t.group? 0).bind fun g => aget g.frags e).bind id
/-- The 16 lanes of the demo group. -/
abbrev all16 : Mask := 0xFFFF#64

/-- The sequencer of the demo team at an instruction of class `c`. -/
def atSeq (c : Nat) (s : State) : State :=
  { s with cur := some (.seq 0 0) }.modSeq 0 0 fun q => { q with front := { clause := 0x10000#48, hdr := some (demoHeader c), mask := 1#64 } }

/-- The front fragment with an access in flight under number `id` behind it in program order (R179). -/
def behind (id : Nat) (s : State) : State := withGroup (fun g => { g with frags := g.frags.map fun x => (x.1, { x.2 with past := [id] }) }) s
/-- A store of the demo group in flight: four bytes of local memory at 64, lane 2. -/
def pendingStore (s : State) : State :=
  behind 0 { s with
    flight := [(0, { s.newAccess fr (demoFrag 4) .store .loc with pieces := [{ lane := 2, addr := 64, va := 64, len := 4, cls := 0, reg := 0, data := 1 }] })] }

/-- The demo group with fragments and defer records of the test's own. -/
def parts (fs : List (Nat × Fragment)) (ds : List DeferRec) (s : State) : State := withGroup (fun g => { g with frags := fs, defer := ds }) s


/-! Words printed in spec/05_encoding.md and in the entries of the other files. -/

theorem test_decode_csub : decode 0x7800005000000000#64 = .ok (.csub 0#3 (r 20#10) noG) ∧
    decode 0x7800005000000001#64 = .ok (.csub 1#3 (r 20#10) noG) := by decide +kernel
theorem test_decode_qput : decode 0x9050641008404402#64 = .ok (.qput 262#10 (r 260#10) (r 8#10) (r 257#10) .s64 false (gd 1#4)) := by
  decide +kernel
theorem test_decode_qget : decode 0x90C084010106041A#64 =
    .ok (.qget 8#10 (r 256#10) (some (r 257#10)) (some 24#10) .s64 (gd 1#4)) := by decide +kernel
theorem test_decode_qrp : decode 0x9091440014060800#64 = .ok (.qrp 276#10 (r 256#10) (r 20#10) (r 24#10) .s16 false (gd 2#4)) := by
  decide +kernel
theorem test_decode_rput : decode 0x92906401020A0000#64 = .ok (.rput 262#10 (r 256#10) (r 258#10) (r 40#10) noG) := by decide +kernel
theorem test_decode_hjoin : decode 0x98C0C05000000000#64 = .ok (.hjoin 12#10 (r 20#10)) := by decide +kernel
theorem test_decode_hnext : decode 0x9840000000000000#64 = .ok (.hnext noG) ∧ decode 0x9880000000000000#64 = .ok (.hquit noG) := by
  decide +kernel
theorem test_decode_mlend : decode 0xB042000000000003#64 = .ok (.mlend 32#10 3#3 noG) := by decide +kernel
theorem test_decode_mrd : decode 0xB081041000060003#64 = .ok (.mrd 16#10 (r 260#10) 24#10 3#3 noG) := by decide +kernel
theorem test_decode_msig : decode 0xC100005015000001#64 = .ok (.msig 20#10 21#10 true false noG) := by decide +kernel
theorem test_decode_spawn : decode 0x0400040800000800#64 = .ok (.spawn (r 258#10) (gd 2#4)) := by decide +kernel
theorem test_decode_ldu : decode 0x71902A1800000018#64 = .ok (.ldu 258#10 (r 646#10) 0#20 .w64 .rlx false noG) := by decide +kernel
theorem test_decode_ld : decode 0x7000440800040010#64 = .ok (.ld 4#10 (r 258#10) 16#20 .w32 .rlx false noG) := by decide +kernel
theorem test_decode_wqry : decode 0x7900049000000000#64 = .ok (.wqry 0#3 (r 292#10) noG) := by decide +kernel
theorem test_decode_vote : decode 0x645043C400000007#64 = .ok (.vote 260#10 (r 241#10) .ballot true noG) := by decide +kernel

/-! Words put together field by field from R80: opcode 63:54, D 53:44, A 43:34, B 33:24, C 23:14, guard 13:10, negate 9, policy 8:6,
modifier 5:0. -/

/-- A format A word (R80). -/
def wordA (op d a b c g n pol m : Nat) : Code :=
  BitVec.ofNat 64 (op * 2 ^ 54 + d * 2 ^ 44 + a * 2 ^ 34 + b * 2 ^ 24 + c * 2 ^ 14 + g * 2 ^ 10 + n * 2 ^ 9 + pol * 2 ^ 6 + m)

theorem test_decode_fadd : decode (wordA 0x100 1 2 3 0 4 1 0 1) = .ok (.fadd 1#10 (r 2#10) (r 3#10) .rz ⟨4#4, true⟩) := by decide +kernel
theorem test_decode_ffma_policies : decode (wordA 0x103 1 2 3 5 0 0 5 3) = .ok (.ffma 1#10 ⟨2#10, true⟩ (r 3#10) ⟨5#10, true⟩ .rd noG) := by
  decide +kernel
theorem test_decode_fsqrt : decode (wordA 0x112 1 2 0 0 0 0 0 2) = .ok (.fsqrt 1#10 (r 2#10) .ru noG) := by decide +kernel
theorem test_decode_padd2 : decode (wordA 0x120 9 8 7 0 0 0 0 8) = .ok (.padd2 9#10 (r 8#10) (r 7#10) .bf16 .rne noG) := by decide +kernel
theorem test_decode_shfl : decode (wordA 0x190 9 8 7 0 0 0 0 0x0E) = .ok (.shfl 9#10 (r 8#10) (r 7#10) .down .s16 noG) := by decide +kernel
theorem test_decode_nop : decode (wordA 0x001 0 0 0 0 0 0 0 0) = .ok .nop := by decide +kernel
theorem test_decode_fadd_mode4 : decode (wordA 0x100 1 2 3 0 0 0 0 4) = .error .modifier := by decide +kernel
theorem test_decode_fadd_unused_c : (decode (wordA 0x100 1 2 3 1 0 0 0 0)).toOption = none := by decide +kernel
theorem test_decode_negate_alone : (decode (wordA 0x100 1 2 3 0 0 1 0 0)).toOption = none := by decide +kernel
theorem test_decode_nop_field : (decode (wordA 0x001 1 0 0 0 0 0 0 0)).toOption = none := by decide +kernel
/-! WellFormed: for each check a term that breaks it alone, which it refuses, beside one that it admits. -/

/-- A term is refused and its neighbour admitted. -/
def told (bad good : Instr) : Bool := !bad.wf && good.wf

theorem smoke_negate : told (.exit ⟨0#4, true⟩) (.exit ⟨1#4, true⟩) := by decide +kernel
theorem smoke_bfx_length : told (.bfxImm 0#10 (r 1#10) 0#5 33#6 false noG) (.bfxImm 0#10 (r 1#10) 0#5 32#6 false noG) := by
  decide +kernel
theorem smoke_stochastic_outside_cvt : told (.fadd 0#10 (r 1#10) (r 2#10) .sr noG) (.fadd 0#10 (r 1#10) (r 2#10) .rd noG) := by
  decide +kernel
theorem smoke_cvt_same_format : told (.cvt 0#10 (r 1#10) (r 0#10) .f32 .f32 .rne false 0#2 noG)
    (.cvt 0#10 (r 1#10) (r 0#10) .f32 .int32 .rne false 0#2 noG) := by decide +kernel
theorem smoke_cvt_int_mode : told (.cvt 0#10 (r 1#10) (r 0#10) .uint32 .int32 .rz false 0#2 noG)
    (.cvt 0#10 (r 1#10) (r 0#10) .uint32 .int32 .rne false 0#2 noG) := by decide +kernel
theorem smoke_cvt_saturating_int : told (.cvt 0#10 (r 1#10) (r 0#10) .f32 .int32 .rne true 0#2 noG)
    (.cvt 0#10 (r 1#10) (r 3#10) .f32 .f16 .rne true 0#2 noG) := by decide +kernel
theorem smoke_cvt_stochastic_source : told (.cvt 0#10 (r 1#10) (r 3#10) .f16 .bf16 .sr false 0#2 noG)
    (.cvt 0#10 (r 1#10) (r 3#10) .f32 .bf16 .sr false 0#2 noG) := by decide +kernel
theorem smoke_cvt_index : told (.cvt 0#10 (r 1#10) (r 3#10) .f32 .bf16 .rne false 2#2 noG)
    (.cvt 0#10 (r 1#10) (r 3#10) .f32 .bf16 .rne false 1#2 noG) := by decide +kernel
theorem smoke_cvt_unused_c : told (.cvt 0#10 (r 1#10) (r 3#10) .f32 .int32 .rne false 0#2 noG)
    (.cvt 0#10 (r 1#10) (r 0#10) .f32 .int32 .rne false 0#2 noG) := by decide +kernel
theorem smoke_vote_wide : told (.vote 0#10 (r 1#10) .any true noG) (.vote 0#10 (r 1#10) .ballot true noG) := by decide +kernel
theorem smoke_load_order : told (.ld 0#10 (r 2#10) 0#20 .w32 .rel false noG) (.ld 0#10 (r 2#10) 0#20 .w32 .acq false noG) := by
  decide +kernel
theorem smoke_store_order : told (.st (r 0#10) (r 2#10) 0#20 .w32 .acq false noG) (.st (r 0#10) (r 2#10) 0#20 .w32 .rel false noG) := by
  decide +kernel
theorem smoke_atom_wide_float : told (.atom 0#10 (r 2#10) (r 4#10) .fadd true false .rlx noG)
    (.atom 0#10 (r 2#10) (r 4#10) .fadd false false .rlx noG) := by decide +kernel
theorem smoke_red_order : told (.red (r 2#10) (r 4#10) .add true false .acq noG) (.red (r 2#10) (r 4#10) .add true false .rel noG) := by
  decide +kernel
theorem smoke_mma_ring : told (.mma 0#10 4#10 8#10 2#10 9#4 0#2 .bf16) (.mma 0#10 4#10 8#10 2#10 8#4 0#2 .bf16) := by decide +kernel
theorem smoke_mma_counter_without_ring : told (.mma 0#10 4#10 8#10 2#10 0#4 1#2 .bf16) (.mma 0#10 4#10 8#10 2#10 1#4 1#2 .bf16) := by
  decide +kernel
theorem smoke_die : told (.resume 128) (.resume 127) := by decide +kernel
theorem smoke_slot : told (.groupEnd 0 2048 0) (.groupEnd 0 2047 0) := by decide +kernel
theorem smoke_group : told (.groupEnd 0 0 16) (.groupEnd 0 0 15) := by decide +kernel
theorem smoke_entry : told (.clauseStart (.frag 0 0 0 8)) (.clauseStart (.frag 0 0 0 7)) := by decide +kernel
theorem smoke_helper : told (.clauseStart (.helper 0 0 0 63)) (.clauseStart (.helper 0 0 0 62)) := by decide +kernel
theorem smoke_iteration_helper : told (.helperIterationTimeout 0 0 0 63) (.helperIterationTimeout 0 0 0 62) := by decide +kernel
theorem smoke_atomic_lane : told (.atomicAtHomeSlice 0 64) (.atomicAtHomeSlice 0 63) := by decide +kernel
theorem smoke_l2_line : told (.l2Eviction 0 201326592) (.l2Eviction 0 201326591) := by decide +kernel
theorem smoke_record_core : told (.recordStart 0 128 0 0) (.recordFinish 0 127 0 0) := by decide +kernel
theorem smoke_port : told (.ringDelivery 0 4 0) (.ringDelivery 0 3 0) := by decide +kernel
theorem smoke_queue_slot : told (.ringDelivery 0 0 4096) (.ringDelivery 0 0 4095) := by decide +kernel
theorem smoke_process_tag : told (.faultOverflowPut 0 4096) (.faultOverflowPut 0 4095) := by decide +kernel
theorem smoke_page : told (.pageWalkComplete 0 0 4294967296) (.pageWalkComplete 0 0 4294967295) := by decide +kernel
theorem smoke_delup_link : told (.rekeyStart 32) (.rekeyStart 31) := by decide +kernel
theorem smoke_d2d_link : told (.linkDown false 512) (.linkDown false 511) := by decide +kernel
theorem smoke_connection : told (.retransmissionTimeout 65536) (.retransmissionTimeout 65535) := by decide +kernel
theorem smoke_assigned_opcode : told (.unassignedOpcode 0x02C0000000000000#64) (.unassignedOpcode 0x0000000000000000#64) := by
  decide +kernel
/-! Computing instructions: v0 := op(v1, v2, v3) in lane 0, worked out from 09_isa_compute.md. -/

theorem test_iadd : res (.iadd 0#10 (r 1#10) (r 2#10) .wrap noG) (abc 0xFFFFFFFF#32 2#32 0#32) [] 0 0 = some 1#32 ∧
    res (.iadd 0#10 (r 1#10) (r 2#10) .sat noG) (abc 0x7FFFFFFF#32 1#32 0#32) [] 0 0 = some 0x7FFFFFFF#32 ∧
    flagsOf (.iadd 0#10 (r 1#10) (r 2#10) .sat noG) (abc 0x7FFFFFFF#32 1#32 0#32) [] = some 0x20#6 := by decide +kernel
theorem test_isub : res (.isub 0#10 (r 1#10) (r 2#10) .usat noG) (abc 3#32 5#32 0#32) [] 0 0 = some 0#32 ∧
    flagsOf (.isub 0#10 (r 1#10) (r 2#10) .wrap noG) (abc 3#32 5#32 0#32) [] = some 0#6 := by decide +kernel
theorem test_iadd_imm_lane : res (.iaddImm 1#10 (r 640#10) 3#20 .wrap noG) [] [] 1 5 = some 8#32 ∧
    res (.iaddImm 1#10 (r 640#10) 3#20 .wrap noG) [] [] 1 16 = some 0#32 := by decide +kernel
theorem test_isub_imm : res (.isubImm 0#10 (r 1#10) 0xFFFFF#20 .wrap noG) (abc 1#32 0#32 0#32) [] 0 0 = some 2#32 := by decide +kernel
theorem test_addc : res (.addc 4#10 (r 1#10) (r 2#10) (r 3#10) noG) (abc 0xFFFFFFFF#32 0#32 3#32) [] 4 0 = some 0#32 ∧
    res (.addc 4#10 (r 1#10) (r 2#10) (r 3#10) noG) (abc 0xFFFFFFFF#32 0#32 3#32) [] 5 0 = some 1#32 := by decide +kernel
theorem test_subb : res (.subb 4#10 (r 1#10) (r 2#10) (r 3#10) noG) (abc 0#32 0#32 1#32) [] 4 0 = some 0xFFFFFFFF#32 ∧
    res (.subb 4#10 (r 1#10) (r 2#10) (r 3#10) noG) (abc 0#32 0#32 1#32) [] 5 0 = some 1#32 := by decide +kernel
theorem test_imul : res (.imul 0#10 (r 1#10) (r 2#10) noG) (abc 0x10001#32 0x10001#32 0#32) [] 0 0 = some 0x20001#32 ∧
    res (.imulImm 0#10 (r 1#10) 0xFFFFF#20 noG) (abc 5#32 0#32 0#32) [] 0 0 = some 0xFFFFFFFB#32 := by decide +kernel
theorem test_imulh : res (.imulh 0#10 (r 1#10) (r 2#10) true noG) (abc 0xFFFFFFFF#32 0xFFFFFFFF#32 0#32) [] 0 0 = some 0xFFFFFFFE#32 ∧
    res (.imulh 0#10 (r 1#10) (r 2#10) false noG) (abc 0xFFFFFFFF#32 0xFFFFFFFF#32 0#32) [] 0 0 = some 0#32 := by decide +kernel
theorem test_imad : res (.imad 0#10 (r 1#10) (r 2#10) (r 3#10) noG) (abc 3#32 4#32 5#32) [] 0 0 = some 17#32 := by decide +kernel
theorem test_imadw : res (.imadw 4#10 (r 1#10) (r 2#10) (r 6#10) false noG) (abc 0xFFFFFFFF#32 2#32 0#32 ++ [(384, 1#32)]) [] 4 0 =
      some 0xFFFFFFFF#32 ∧
    res (.imadw 4#10 (r 1#10) (r 2#10) (r 6#10) true noG) (abc 0xFFFFFFFF#32 2#32 0#32 ++ [(384, 1#32)]) [] 5 0 = some 1#32 := by
  decide +kernel
theorem test_imin_imax : res (.imin 0#10 (r 1#10) (r 2#10) false noG) (abc 0xFFFFFFFF#32 1#32 0#32) [] 0 0 = some 0xFFFFFFFF#32 ∧
    res (.imin 0#10 (r 1#10) (r 2#10) true noG) (abc 0xFFFFFFFF#32 1#32 0#32) [] 0 0 = some 1#32 ∧
    res (.imaxImm 0#10 (r 1#10) 0xFFFFF#20 false noG) (abc 0x80000000#32 0#32 0#32) [] 0 0 = some 0xFFFFFFFF#32 ∧
    res (.iminImm 0#10 (r 1#10) 7#20 true noG) (abc 9#32 0#32 0#32) [] 0 0 = some 7#32 ∧
    res (.imax 0#10 (r 1#10) (r 2#10) true noG) (abc 9#32 0xFFFFFFFF#32 0#32) [] 0 0 = some 0xFFFFFFFF#32 := by decide +kernel
theorem test_iabs_ineg : res (.iabs 0#10 (r 1#10) false noG) (abc 0x80000000#32 0#32 0#32) [] 0 0 = some 0x80000000#32 ∧
    res (.iabs 0#10 (r 1#10) true noG) (abc 0x80000000#32 0#32 0#32) [] 0 0 = some 0x7FFFFFFF#32 ∧
    flagsOf (.ineg 0#10 (r 1#10) true noG) (abc 0x80000000#32 0#32 0#32) [] = some 0x20#6 ∧
    res (.ineg 0#10 (r 1#10) false noG) (abc 1#32 0#32 0#32) [] 0 0 = some 0xFFFFFFFF#32 := by decide +kernel
theorem test_logic : res (.and 0#10 (r 1#10) (r 2#10) noG) (abc 0xC#32 0xA#32 0#32) [] 0 0 = some 0x8#32 ∧
    res (.or 0#10 (r 1#10) (r 2#10) noG) (abc 0xC#32 0xA#32 0#32) [] 0 0 = some 0xE#32 ∧
    res (.xor 0#10 (r 1#10) (r 2#10) noG) (abc 0xC#32 0xA#32 0#32) [] 0 0 = some 0x6#32 ∧
    res (.andn 0#10 (r 1#10) (r 2#10) noG) (abc 0xC#32 0xA#32 0#32) [] 0 0 = some 0x4#32 := by decide +kernel
theorem test_logic_imm : res (.andImm 0#10 (r 1#10) 0xFFFF0#20 noG) (abc 0x8000000F#32 0#32 0#32) [] 0 0 = some 0x80000000#32 ∧
    res (.orImm 0#10 (r 1#10) 0x80000#20 noG) (abc 1#32 0#32 0#32) [] 0 0 = some 0xFFF80001#32 ∧
    res (.xorImm 0#10 (r 1#10) 0xFFFFF#20 noG) (abc 1#32 0#32 0#32) [] 0 0 = some 0xFFFFFFFE#32 ∧
    res (.andnImm 0#10 (r 1#10) 1#20 noG) (abc 3#32 0#32 0#32) [] 0 0 = some 2#32 := by decide +kernel
theorem test_shifts : res (.shl 0#10 (r 1#10) (r 2#10) noG) (abc 1#32 32#32 0#32) [] 0 0 = some 0#32 ∧
    res (.shr 0#10 (r 1#10) (r 2#10) noG) (abc 0x80000000#32 31#32 0#32) [] 0 0 = some 1#32 ∧
    res (.sar 0#10 (r 1#10) (r 2#10) noG) (abc 0x80000000#32 0xFFFFFFFF#32 0#32) [] 0 0 = some 0xFFFFFFFF#32 ∧
    res (.rol 0#10 (r 1#10) (r 2#10) noG) (abc 0x80000001#32 33#32 0#32) [] 0 0 = some 3#32 := by decide +kernel
theorem test_shift_imm : res (.shlImm 0#10 (r 1#10) 31#5 noG) (abc 3#32 0#32 0#32) [] 0 0 = some 0x80000000#32 ∧
    res (.shrImm 0#10 (r 1#10) 4#5 noG) (abc 0xF0#32 0#32 0#32) [] 0 0 = some 0xF#32 ∧
    res (.sarImm 0#10 (r 1#10) 4#5 noG) (abc 0x80000000#32 0#32 0#32) [] 0 0 = some 0xF8000000#32 ∧
    res (.rolImm 0#10 (r 1#10) 8#5 noG) (abc 0x12345678#32 0#32 0#32) [] 0 0 = some 0x34567812#32 := by decide +kernel
theorem test_bit_fields : res (.bfx 0#10 (r 1#10) (r 2#10) true noG) (abc 0x0000F0#32 0x0404#32 0#32) [] 0 0 = some 0xFFFFFFFF#32 ∧
    res (.bfxImm 0#10 (r 1#10) 4#5 4#6 false noG) (abc 0x0000F0#32 0#32 0#32) [] 0 0 = some 0xF#32 ∧
    res (.bfi 0#10 (r 1#10) (r 2#10) (r 3#10) noG) (abc 0xFFFFFFFF#32 0x0408#32 0x12345678#32) [] 0 0 = some 0x12345F78#32 := by
  decide +kernel
theorem test_counts : res (.popc 0#10 (r 1#10) noG) (abc 0xF0F0#32 0#32 0#32) [] 0 0 = some 8#32 ∧
    res (.clz 0#10 (r 1#10) noG) (abc 0#32 0#32 0#32) [] 0 0 = some 32#32 ∧
    res (.brev 0#10 (r 1#10) noG) (abc 6#32 0#32 0#32) [] 0 0 = some 0x60000000#32 := by decide +kernel
theorem test_icmp : res (.icmp 0#10 (r 1#10) (r 2#10) .lt false noG) (abc 0xFFFFFFFF#32 1#32 0#32) [] 0 0 = some 1#32 ∧
    res (.icmp 0#10 (r 1#10) (r 2#10) .lt true noG) (abc 0xFFFFFFFF#32 1#32 0#32) [] 0 0 = some 0#32 ∧
    res (.icmpImm 0#10 (r 1#10) 0xFFFFF#20 .ge true noG) (abc 0xFFFFFFFF#32 0#32 0#32) [] 0 0 = some 1#32 := by decide +kernel
theorem test_moves : res (.sel 0#10 (r 1#10) (r 2#10) (r 3#10) noG) (abc 7#32 8#32 2#32) [] 0 0 = some 8#32 ∧
    res (.mov 4#10 (r 2#10) true noG) (abc 7#32 8#32 9#32) [] 5 0 = some 9#32 ∧
    res (.movi 300#10 0xDEADBEEF#32 noG) [] [] 300 0 = some 0xDEADBEEF#32 := by decide +kernel
theorem test_lea : res (.lea 4#10 (r 2#10) (r 1#10) 2#3 true noG) (abc 0x80000000#32 0xFFFFFFFC#32 1#32) [] 4 0 = some 0xFFFFFFFC#32 ∧
    res (.lea 4#10 (r 2#10) (r 1#10) 2#3 true noG) (abc 0x80000000#32 0xFFFFFFFC#32 1#32) [] 5 0 = some 3#32 ∧
    res (.leaImm 4#10 (r 2#10) 0xFFFFF#20 3#3 false noG) (abc 0#32 0#32 1#32) [] 5 0 = some 0#32 := by decide +kernel
theorem test_s_destination : res (.iaddImm 256#10 (r 640#10) 3#20 .wrap noG) [] [] 256 0 = some 3#32 := by decide +kernel
theorem test_guard : res (.movi 0#10 7#32 (gd 1#4)) [(241 * 64 + 2, 1#32)] [] 0 2 = some 7#32 ∧
    res (.movi 0#10 7#32 (gd 1#4)) [(241 * 64 + 2, 1#32)] [] 0 3 = some 0#32 ∧
    res (.movi 0#10 7#32 ⟨1#4, true⟩) [(241 * 64 + 2, 1#32)] [] 0 3 = some 7#32 := by decide +kernel

/-! Floating forms: FP32 1.0 is 0x3F800000. -/

theorem test_fadd : res (.fadd 0#10 (r 1#10) (r 2#10) .rne noG) (abc 0x3F800000#32 0x3F800000#32 0#32) [] 0 0 = some 0x40000000#32 ∧
    res (.fadd 0#10 (r 1#10) (r 2#10) .ru noG) (abc 0x3F800000#32 0x00000001#32 0#32) [] 0 0 = some 0x3F800001#32 ∧
    flagsOf (.fadd 0#10 (r 1#10) (r 2#10) .ru noG) (abc 0x3F800000#32 0x00000001#32 0#32) [] = some 0x10#6 := by decide +kernel
theorem test_fsub_inf : res (.fsub 0#10 (r 1#10) (r 2#10) .rne noG) (abc 0x7F800000#32 0x7F800000#32 0#32) [] 0 0 = some 0x7FC00000#32 ∧
    flagsOf (.fsub 0#10 (r 1#10) (r 2#10) .rne noG) (abc 0x7F800000#32 0x7F800000#32 0#32) [] = some 1#6 := by decide +kernel
theorem test_fmul_overflow : res (.fmul 0#10 (r 1#10) (r 2#10) .rz noG) (abc 0x7F000000#32 0x40800000#32 0#32) [] 0 0 = some 0x7F7FFFFF#32 ∧
    flagsOf (.fmul 0#10 (r 1#10) (r 2#10) .rz noG) (abc 0x7F000000#32 0x40800000#32 0#32) [] = some 0x14#6 := by decide +kernel
theorem test_ffma : res (.ffma 0#10 (r 1#10) (r 2#10) (r 3#10) .rne noG) (abc 0x40000000#32 0x40400000#32 0xC0C00000#32) [] 0 0 =
    some 0#32 := by decide +kernel
theorem test_fmin_fmax : res (.fmin 0#10 (r 1#10) (r 2#10) noG) (abc 0#32 0x80000000#32 0#32) [] 0 0 = some 0x80000000#32 ∧
    res (.fmax 0#10 (r 1#10) (r 2#10) noG) (abc 0x7FC00001#32 0x80000000#32 0#32) [] 0 0 = some 0x80000000#32 := by decide +kernel
theorem test_fcmp_fclass : res (.fcmp 0#10 (r 1#10) (r 2#10) .eq noG) (abc 0#32 0x80000000#32 0#32) [] 0 0 = some 1#32 ∧
    res (.fcmp 0#10 (r 1#10) (r 2#10) .un noG) (abc 0x7F800001#32 0#32 0#32) [] 0 0 = some 1#32 ∧
    res (.fclass 0#10 (r 1#10) noG) (abc 0x80000000#32 0#32 0#32) [] 0 0 = some 8#32 := by decide +kernel
theorem test_sfu : res (.frcp 0#10 (r 1#10) noG) (abc 0x80000000#32 0#32 0#32) [] 0 0 = some 0xFF800000#32 ∧
    flagsOf (.frcp 0#10 (r 1#10) noG) (abc 0x80000000#32 0#32 0#32) [] = some 2#6 ∧
    res (.frsq 0#10 (r 1#10) noG) (abc 0x40800000#32 0#32 0#32) [] 0 0 = some 0x3F000000#32 ∧
    res (.fsqrt 0#10 (r 1#10) .rne noG) (abc 0x41100000#32 0#32 0#32) [] 0 0 = some 0x40400000#32 ∧
    res (.fex2 0#10 (r 1#10) noG) (abc 0x40400000#32 0#32 0#32) [] 0 0 = some 0x41000000#32 ∧
    res (.flg2 0#10 (r 1#10) noG) (abc 0x41000000#32 0#32 0#32) [] 0 0 = some 0x40400000#32 := by decide +kernel
theorem test_fsin_fcos : res (.fsin 0#10 (r 1#10) noG) (abc 0#32 0#32 0#32) [] 0 0 = some 0#32 ∧
    res (.fcos 0#10 (r 1#10) noG) (abc 0#32 0#32 0#32) [] 0 0 = some 0x3F800000#32 := by decide +kernel
theorem test_packed : res (.padd2 0#10 (r 1#10) (r 2#10) .f16 .rne noG) (abc 0x40003C00#32 0x3C003C00#32 0#32) [] 0 0 = some 0x42004000#32 ∧
    res (.pmul2 0#10 (r 1#10) (r 2#10) .bf16 .rne noG) (abc 0x40003F80#32 0x40404000#32 0#32) [] 0 0 = some 0x40C04000#32 ∧
    res (.pfma2 0#10 (r 1#10) (r 2#10) (r 3#10) .f16 .rne noG) (abc 0x40003C00#32 0x40003C00#32 0x3C003C00#32) [] 0 0 =
      some 0x45004000#32 ∧
    res (.pdot2 0#10 (r 1#10) (r 2#10) (r 3#10) .f16 .rne noG) (abc 0x40003C00#32 0x40003C00#32 0x3F800000#32) [] 0 0 =
      some 0x40C00000#32 := by decide +kernel
theorem test_idot4 : res (.idot4 0#10 (r 1#10) (r 2#10) (r 3#10) false false false noG) (abc 0x040302FF#32 0x01010101#32 10#32) [] 0 0 =
    some 18#32 ∧
    res (.idot4 0#10 (r 1#10) (r 2#10) (r 3#10) true true true noG) (abc 0x000000FF#32 0x000000FF#32 0x7FFFFFFF#32) [] 0 0 =
      some 0x7FFFFFFF#32 := by decide +kernel
theorem test_cvt : res (.cvt 0#10 (r 1#10) (r 0#10) .f32 .int32 .rne false 0#2 noG) (abc 0x40200000#32 0#32 0#32) [] 0 0 = some 2#32 ∧
    res (.cvt 0#10 (r 1#10) (r 3#10) .f32 .f16 .rne false 1#2 noG) (abc 0x3F800000#32 0#32 0x12345678#32) [] 0 0 =
      some 0x3C005678#32 ∧
    res (.cvt 0#10 (r 1#10) (r 0#10) .f32 .uint32 .rz false 0#2 noG) (abc 0xBF800000#32 0#32 0#32) [] 0 0 = some 0#32 ∧
    flagsOf (.cvt 0#10 (r 1#10) (r 0#10) .f32 .uint32 .rz false 0#2 noG) (abc 0xBF800000#32 0#32 0#32) [] = some 0x20#6 := by
  decide +kernel
theorem test_cvt_sr_advances : got (exec (.cvt 0#10 (r 1#10) (r 3#10) .f32 .bf16 .sr false 0#2 noG)
    (demo (.cvt 0#10 (r 1#10) (r 3#10) .f32 .bf16 .sr false 0#2 noG))) (fun t => (t.core 0 0).seed t.clock 0) = some 0x80200003#32 := by
  decide +kernel
theorem test_scal : res (.scal 0#10 (r 1#10) (r 2#10) false .rne noG) (abc 0x3F800000#32 0x000007F0#32 0#32) [] 0 0 = some 0x3F800000#32 ∧
    res (.scal 0#10 (r 1#10) (r 2#10) true .rne noG) (abc 0x3F800000#32 0x07F80000#32 0#32) [] 0 0 = some 0x3FC00000#32 := by
  decide +kernel

/-! Cross-lane forms. -/

/-- v1 of lanes 0 to 3. -/
def lanes4 (a b c d : Word) : List (Nat × Word) := [(64, a), (65, b), (66, c), (67, d)]
theorem test_shfl : res (.shfl 0#10 (r 1#10) (r 300#10) .down .s4 noG) (lanes4 10#32 11#32 12#32 13#32) [(44, 1#32)] 0 1 = some 12#32 ∧
    res (.shfl 0#10 (r 1#10) (r 300#10) .down .s4 noG) (lanes4 10#32 11#32 12#32 13#32) [(44, 1#32)] 0 3 = some 13#32 ∧
    res (.shfl 0#10 (r 1#10) (r 300#10) .xor .s4 noG) (lanes4 10#32 11#32 12#32 13#32) [(44, 3#32)] 0 0 = some 13#32 := by decide +kernel
theorem test_vote : res (.vote 0#10 (r 1#10) .ballot false noG) (lanes4 1#32 0#32 3#32 2#32) [] 0 9 = some 5#32 ∧
    res (.vote 0#10 (r 1#10) .any false noG) (lanes4 1#32 0#32 3#32 2#32) [] 0 0 = some 1#32 ∧
    res (.vote 0#10 (r 1#10) .all false noG) (lanes4 1#32 0#32 3#32 2#32) [] 0 0 = some 0#32 ∧
    res (.vote 0#10 (r 1#10) .eq false noG) [] [] 0 0 = some 1#32 := by decide +kernel
theorem test_match : res (.matchLanes 0#10 (r 1#10) false false noG) (lanes4 7#32 8#32 7#32 8#32) [] 0 2 = some 5#32 ∧
    res (.matchLanes 0#10 (r 1#10) false false noG) (lanes4 7#32 8#32 7#32 8#32) [] 0 4 = some 0xFFF0#32 := by decide +kernel
theorem test_lred_lscan : res (.lred 300#10 (r 1#10) .add noG) (lanes4 7#32 8#32 7#32 8#32) [] 300 0 = some 30#32 ∧
    res (.lscan 0#10 (r 1#10) .add true noG) (lanes4 7#32 8#32 7#32 8#32) [] 0 2 = some 15#32 ∧
    res (.lscan 0#10 (r 1#10) .max false noG) (lanes4 7#32 0xFFFFFFFF#32 9#32 8#32) [] 0 2 = some 9#32 ∧
    res (.lscan 0#10 (r 1#10) .min true noG) (lanes4 7#32 8#32 7#32 8#32) [] 0 0 = some 0x7FFFFFFF#32 := by decide +kernel
theorem test_cbdec_unsigned_zero : (res (.cbdec 0#10 (r 1#10) false false noG) [] [] 0 0).isSome = true := by decide +kernel
/-! Witnesses: states and operands that meet the hypotheses of a statement together, clause by clause. -/


/-- Operand lists of the computing instructions, with destinations of one and of two registers, at the lowest and at the highest
registers of the group, under both policies and from the environment. -/
def operandLists : List (List (Src × Nat)) :=
  [[], [(r 1#10, 1)], [(r 255#10, 1)], [(r 639#10, 1)], [(r 671#10, 1)], [(r 2#10, 2)], [(r 254#10, 2)], [(r 1#10, 1), (r 2#10, 1)],
   [(⟨1#10, true⟩, 1), (r 2#10, 1)], [(r 2#10, 2), (r 1#10, 1)], [(r 1#10, 1), (r 2#10, 1), (r 3#10, 1)],
   [(r 1#10, 1), (r 2#10, 1), (r 4#10, 2)]]

/-- O1 to O9 and O12: the issue checks pass for every operand list of a computing instruction, in the form that a sequencer admits
and in the form that it does not, for a destination of one and of two registers. -/
theorem witness_computing : ∀ a ∈ operandLists, ∀ x ∈ [true, false], ∀ d ∈ [(0#10, 1), (255#10, 1), (639#10, 1), (4#10, 2), (638#10, 2)],
    (demo (.iadd 0#10 (r 1#10) (r 2#10) .wrap noG)).ready fr all16 (aluSpec x noG a d.1 d.2) = true := by decide +kernel

/-- The same under a guard that lane 3 alone passes. -/
theorem witness_guarded : (demo (.movi 0#10 7#32 (gd 1#4)) [(241 * 64 + 3, 1#32)]).ready fr 8#64 (aluSpec true (gd 1#4) [] 0#10 1) =
    true := by decide +kernel

/-- A helper at the first instruction of a clause of class `c`. -/
def demoHelper (c : Nat) : Helper :=
  { front := { clause := 0x10000#48, hdr := some (demoHeader c), mask := 1#64 }, iter := 5#28, dealt := 0, ckpt := 0#32, bank := 0,
    slice := 1, v := [(0, 40#32)] }

/-- A recruitment of that helper by lane 0 of fragment 0. -/
def demoRecruit (c : Nat) : Recruit :=
  { op := .add, lo := 0#28, hi := 9#28, next := 6#28, dealing := true, g := 0, entry := 0, lane := 0, target := 0x10000#48,
    helpers := [(5, demoHelper c)] }

/-- The same in a helper: a running helper of the demo group stands at the instruction. -/
def withHelper (c : Nat) (s : State) : State :=
  { s with cur := some (.helper 0 0 0 5), groups := amod s.groups 0 fun g => { g with recruit := some (demoRecruit c) } }

theorem witness_computing_helper : (withHelper 0 (demo (.iadd 0#10 (r 1#10) (r 2#10) .wrap noG))).ready (.helper 0 0 0 5) 1#64
    (aluSpec true noG [(r 1#10, 1), (r 255#10, 1)] 31#10 1) = true := by decide +kernel

/-- O6: the demo group with its fragment, and a helper of it; core 0 is logical core 0 of a whole pair, a later one would not be. -/
theorem witness_environment : ∀ s ∈ [demo .nop, withHelper 0 (demo .nop)],
    (s.group? (groupKey 0 0 0)).any (fun g => aget g.frags 0 == some (demoFrag 4) && g.core == 0) = true ∧ (s.team? 0 0).isSome = true ∧
    (s.die 0).coreMap[0]? = some 0 ∧ (s.die 0).coreMap.Nodup ∧ 0 < 2 * (s.die 0).pairs ∧ s.dieMap[0]? = some 0 ∧ s.dieMap.Nodup := by decide +kernel
theorem witness_environment_helper : ((withHelper 0 (demo .nop)).group? (groupKey 0 0 0)).any (fun g =>
    g.recruit.any fun rc => aget rc.helpers 5 == some (demoHelper 0)) = true ∧ (640 : Nat) ≤ (r 640#10).r.toNat ∧ (671#10 : RegNo).toNat = 640 + 31 := by
  decide +kernel
/-- R64: e2 and e5 of the demo group, e11 of a fragment and of a helper, e4 its width. -/
theorem test_environment : let s := withHelper 0 (demo .nop)
    ([2, 4, 11].map fun i => s.rdReg fr (640 + i) 3) = [0#32, 16#32, 0xFFFFFFFF#32] ∧ s.rdReg (.helper 0 0 0 5) 651 0 = 5#32 ∧
    s.rdReg (.helper 0 0 0 5) 669 0 = 0x80000005#32 := by decide +kernel
/-- O7: an SFU instruction passes its checks in an SFU clause; the words of its special cases exist. -/
theorem witness_sfu : (demo (.frcp 0#10 (r 1#10) noG)).ready fr all16 (sfuSpec (r 1#10) 0#10 noG) = true := by decide +kernel
theorem witness_nan : IsNan32 0x7F800001#32 ∧ IsNan32 0xFFFFFFFF#32 ∧ ¬IsNan32 0x7F800000#32 := by unfold IsNan32; decide
/-- O7: CBDEC passes where no grist entry is in error. -/
theorem witness_cbdec : let s := demo (.cbdec 0#10 (r 1#10) true false noG)
    s.ready fr all16 (aluSpec false noG [(r 1#10, 1)] 0#10 1) = true ∧ s.cbdecMeets (aluSpec false noG [(r 1#10, 1)] 0#10 1) true = false := by
  decide +kernel
/-- O8, O9, O10: finite values of every format, among them the largest, the least and zero; a negative one. -/
theorem witness_finite_one : finiteValue f32 0x3F800000 = some 1 := by
  norm_num [finiteValue, f32, Nat.testBit, Nat.shiftRight_eq_div_pow]
theorem witness_finite_zero : finiteValue f32 0 = some 0 ∧ finiteValue f16 0 = some 0 ∧ finiteValue bf16 0 = some 0 := by
  norm_num [finiteValue, f32, f16, bf16]
theorem witness_finite_two : finiteValue f32 0xC0000000 = some (-2) ∧ finiteValue f16 0x3C00 = some 1 ∧ finiteValue bf16 0x3F80 = some 1 := by
  refine ⟨?_, ?_, ?_⟩ <;> norm_num [finiteValue, f32, f16, bf16, Nat.testBit, Nat.shiftRight_eq_div_pow]
/-- O8: a scale with exponent field 127; O9: formats of every kind and a value of each width. -/
theorem witness_scale : (0x07F0 : Nat) % 2 ^ 12 / 16 ≠ 255 := by decide
theorem witness_conversions : nfFmt .f32 = some f32 ∧ (nfFmt .f16).isSome = true ∧ nfFmt .int32 = none ∧ nfFmt .uint8 = none ∧
    (0x3F800000 : Nat) < 2 ^ nfWidth .f32 ∧ (255 : Nat) < 2 ^ nfWidth .uint8 := by decide +kernel
/-- O9: a saturating conversion that overflows, and one that does not. -/
theorem witness_saturating : (cvtElem .f32 .f16 .rne true 0x7F7FFFFF).2.ovf = true ∧ (cvtElem .f32 .f16 .rne true 0x3F800000).2.ovf = false := by
  decide +kernel
/-- O9: an element that is NaN, infinities of both signs, and a format without them. -/
theorem witness_special_elements : NanElem f32 0x7FC00000 ∧ f32.noInf = false ∧ (0xFF800000 : Nat) = signAt f32 true + (2 ^ f32.eb - 1) * 2 ^ f32.mb ∧
    (0x7C00 : Nat) = signAt f16 false + (2 ^ f16.eb - 1) * 2 ^ f16.mb ∧ (nfFmt .f8e4).map (·.noInf) = some true := by
  unfold NanElem; decide +kernel
/-- O11: the demo group, and a format that a stochastic conversion admits. -/
theorem witness_stochastic : ((demo (.cvt 0#10 (r 1#10) (r 3#10) .f32 .bf16 .sr false 0#2 noG)).group? 0).isSome = true ∧
    (nfFmt .bf16).isSome = true ∧ (demo (.cvt 0#10 (r 1#10) (r 3#10) .f32 .bf16 .sr false 0#2 noG)).ready fr all16
      (aluSpec false noG [(r 1#10, 1), (r 3#10, 1)] 0#10 1) = true := by decide +kernel
/-- O11: a write of ROUND_SEED that acts from the next clock. -/
theorem witness_seed_write : let c := (exec (.csrw 0x100#12 (r 1#10) noG) (demo (.csrw 0x100#12 (r 1#10) noG) [(64, 9#32)]))
    got c (fun t => ((aget (t.core 0 0).seedWrites 0).map fun w => (w.clock, w.value), (t.core 0 0).seed 0 0, (t.core 0 0).seed 1 0)) =
      some (some (0, 9#32), 1#32, 9#32) := by decide +kernel
theorem witness_stochastic_values : finiteValue f32 0x3F800000 = some 1 ∧ (1 : ℚ) ≠ 0 ∧ IsNan32 0x7F800001#32 ∧ (0xFF800000#32 : Word) = inf32 true := by
  refine ⟨witness_finite_one, by norm_num, by unfold IsNan32; decide, by decide⟩
/-- O12: a segment no wider than the group of fewer than 64 lanes, and active lanes. -/
theorem witness_lanes : let s := demo (.shfl 0#10 (r 1#10) (r 2#10) .down .s16 noG)
    segWidth (s.width fr) .s16 ≤ s.width fr ∧ s.width fr < 64 ∧ lanesOf all16 = 0 :: (List.range 15).map (· + 1) := by decide +kernel
/-- O18: NOP passes in a clause of any class. -/
theorem witness_nop : (demo .nop).ready fr all16 { cls := 4, any := true, seq := true } = true ∧
    (demo (.iadd 0#10 (r 1#10) (r 2#10) .wrap noG)).ready fr all16 { cls := 2, any := true, seq := true } = true := by decide +kernel
/-- O18: a NOP word with a field set at the turn of an agent that may issue; and an agent that stands at a word of no assigned opcode. -/
theorem witness_nop_field : let s := State.reset.place 0x0040000000000001#64
    s.agenda = [.issue fr] ∧ (s.front? fr).any (fun f => f.hdr.isSome && s.mayIssue fr f &&
      decide (s.agFetch fr f = .inl 0x0040000000000001#64)) = true ∧
    bits (0x0040000000000001#64) 63 54 = 1 ∧ bits (0x0040000000000001#64) 53 0 ≠ 0 := by decide +kernel
theorem witness_unassigned : (demo (.unassignedOpcode 0#64)).cur = some fr ∧ ((demo (.unassignedOpcode 0#64)).front? fr).isSome = true := by
  decide +kernel
/-- O37: a well-formed instruction with a word. -/
theorem witness_encoding : (Instr.iadd 0#10 (r 1#10) (r 2#10) .wrap noG).wf = true ∧
    (encode (.iadd 0#10 (r 1#10) (r 2#10) .wrap noG)).isSome = true := by decide +kernel
/-- O38: the demo group and its fragment; destinations in v and in s registers. -/
theorem witness_frame : let s := demo (.iadd 0#10 (r 1#10) (r 2#10) .wrap noG)
    (s.group? (agKey fr)).any (fun g => (aget g.frags 0).isSome) = true ∧ all16 ≠ 0#64 ∧
    ((255#10 : RegNo).toNat + 1 ≤ 256) ∧ (256 ≤ (638#10 : RegNo).toNat ∧ (638#10 : RegNo).toNat + 2 ≤ 640) := by decide +kernel
theorem witness_frame_helper : let s := withHelper 0 (demo (.iadd 0#10 (r 1#10) (r 2#10) .wrap noG))
    (s.group? (agKey (.helper 0 0 0 5))).any (fun g => g.recruit.any fun rc => (aget rc.helpers 5).isSome) = true ∧
    ((31#10 : RegNo).toNat + 1 ≤ 32) := by decide +kernel
/-! Control flow, fragments, faults and status registers. -/

theorem test_bra : fragOf (exec (.bra 0x3FFFFFFF#30 noG) (demo (.bra 0x3FFFFFFF#30 noG))) 0 =
    some { clause := 0x10000#48, mask := all16 } := by decide +kernel
theorem test_call_link : res (.call 4#10 0x3FFFFFFF#30 noG) [] [] 4 7 = some 0x10010#32 ∧ res (.call 4#10 0x3FFFFFFF#30 noG) [] [] 5 7 = some 0#32 := by
  decide +kernel
theorem test_brx_badtarget : parkOf (exec (.brx (r 256#10) noG) (demo (.brx (r 256#10) noG) [] [(0, 0x10000#32)])) = some (6, 0) := by
  decide +kernel
theorem test_brx_landing : fragOf (exec (.brx (r 256#10) noG) (landing (demo (.brx (r 256#10) noG) [] [(0, 0x10000#32)]))) 0 =
    some { clause := 0x10000#48, mask := all16 } := by decide +kernel
theorem test_ret_callx : fragOf (exec (.ret (r 256#10) noG) (landing (demo (.ret (r 256#10) noG) [] [(0, 0x10000#32)]))) 0 =
      some { clause := 0x10000#48, mask := all16 } ∧
    got (exec (.callx 4#10 (r 256#10) noG) (landing (demo (.callx 4#10 (r 256#10) noG) [] [(0, 0x10000#32)]))) (·.rdReg fr 4 0) =
      some 0x10010#32 := by decide +kernel
theorem test_loop : got (exec (.loop 1#2 (r 1#10) 0#30) (demo (.loop 1#2 (r 1#10) 0#30) [(64, 5#32)])) (·.loopCount fr 1) = some 5#32 ∧
    fragOf (exec (.loop 1#2 (r 1#10) 0x3FFFFFFF#30) (demo (.loop 1#2 (r 1#10) 0x3FFFFFFF#30))) 0 =
      some { clause := 0x10000#48, mask := all16 } := by decide +kernel
theorem test_endlp : (fragOf (exec (.endlp 0#2 0x3FFFFFFF#30) (demo (.endlp 0#2 0x3FFFFFFF#30))) 0).map (·.clause) = some 0x10010#48 ∧
    got (exec (.endlp 0#2 0x3FFFFFFF#30) (withGroup (fun g => { g with lc := [(0, 3#32)] }) (demo (.endlp 0#2 0x3FFFFFFF#30))))
      (·.loopCount fr 0) = some 2#32 := by decide +kernel
theorem test_exit : got (exec (.exit (gd 1#4)) (demo (.exit (gd 1#4)) [(241 * 64 + 3, 1#32)])) (fun t => (t.group? 0).map fun g =>
    (g.retired, g.ended, g.frags.map (·.2.mask))) = some (some (8#64, false, [0xFFF7#64])) := by decide +kernel
theorem test_exit_last : got (exec (.exit noG) (demo (.exit noG))) (fun t => (t.group? 0).map (·.ended)) = some (some true) := by
  decide +kernel
theorem test_exit_s : fragOf (exec (.exitS 0x3FFFFFFF#30 none) (landing (demo (.exitS 0x3FFFFFFF#30 none) [(64, 9#32)]))) 0 =
      some { clause := 0x10000#48, mask := all16 } ∧
    got (exec (.exitS 0x3FFFFFFF#30 none) (landing (demo (.exitS 0x3FFFFFFF#30 none) [(64, 9#32)]))) (·.rdReg fr 1 0) = some 0#32 := by
  decide +kernel
theorem test_trap_parks : parkOf (exec (.trap 77#20 noG) (demo (.trap 77#20 noG))) = some (1, 77) := by decide +kernel
theorem test_tret_outside : parkOf (exec .tret (demo .tret)) = some (2, 0) := by decide +kernel
theorem test_csrr_clock_reserved : parkOf (exec (.csrr 1#10 0x7FF#12 noG) (demo (.csrr 1#10 0x7FF#12 noG))) = some (2, 0) := by decide +kernel
theorem test_csrw_trap_vector : got (exec (.csrw 0#12 (r 1#10) noG) (demo (.csrw 0#12 (r 1#10) noG) [(64, 0x1234F#32)])) (fun t =>
    (t.group? 0).map (·.trapVec)) = some (some 0x12348#48) := by decide +kernel
theorem test_ltrig : got (exec (.ltrig noG) (demo (.ltrig noG))) (fun t => (t.group? 0).map (·.ltrig)) = some (some true) := by decide +kernel
theorem test_yield_alone : (fragOf (exec (.yield noG) (demo (.yield noG))) 0).map (·.clause) = some 0x10010#48 := by decide +kernel
theorem test_spawn : got (exec (.spawn (r 256#10) noG) (withPage 1 (demo (.spawn (r 256#10) noG) [] [(0, 0x20000#32)]))) (fun t =>
    (t.die 0).launchQ.map fun e => (e.origin, e.ptag, e.recAddr)) = some (List.replicate 16 (1, 1#12, 0x20000#48)) := by decide +kernel

/-! Witnesses of the statements O13 to O25. -/

/-- A fragment that waits at the JOIN of the demo clause. -/
def joined (w : Wait) (m : Mask) : Fragment := { demoFrag 4 with join := some 0x10000#48, mask := m, wait := w }
/-- O13: JOIN of a fragment with no join address, of one alone, and of the last of two. -/
theorem witness_join_elsewhere : let s := demo .join
    s.ready fr all16 { cls := 4, first := true } = true ∧ (s.group? (agKey fr)).isSome = true ∧
    (s.front? fr).any (fun f => f.join != some f.clause) = true := by decide +kernel
theorem witness_join_alone : let s := parts [(0, joined .run all16)] [] (demo .join)
    s.ready fr all16 { cls := 4, first := true } = true ∧ (s.group? (agKey fr)).any (fun g => g.frags == [(0, joined .run all16)] && g.defer == []) =
      true := by decide +kernel
theorem witness_join_last : let f := joined .run 0xF0F0#64
    let f2 := joined .join 0x0F0F#64
    let s := parts (aput [(0, f)] 7 f2) [{ join := 0x10000#48, outer := none, arm := none }] (demo .join)
    s.ready fr 0xF0F0#64 { cls := 4, first := true } = true ∧ (s.group? (agKey fr)).any (fun g => aget g.frags 0 == some f) = true ∧
    f.join = some f.clause ∧ (0 : Nat) ≠ 7 ∧ f2.wait = .join ∧ (f2.clause, f2.idx, f2.hdr, f2.join) = (f.clause, f.idx, f.hdr, f.join) := by
  decide +kernel
/-- O13: the last of two, the other of which the handler's entry holds. -/
theorem witness_join_held : let f := joined .run 0xF0F0#64
    let f2 := joined .join 0x0F0F#64
    let s := withGroup (fun g => { g with handler := some { entry := 0, mask := all16, clause := 0x10000#48, held := [7] } })
      (parts (aput [(0, f)] 7 f2) [{ join := 0x10000#48, outer := none, arm := none }] (demo .join))
    s.ready fr 0xF0F0#64 { cls := 4, first := true } = true ∧ (s.group? (agKey fr)).any (fun g => g.holds 7 && !g.holds 0) = true := by decide +kernel
theorem witness_regang : let f := joined .run 0xF0F0#64
    let f2 : Fragment := { f with hdr := none, mask := 0x0F0F#64 }
    let s := parts (aput [(0, f)] 7 f2) [] (demo .regang)
    s.ready fr 0xF0F0#64 { cls := 4, first := true } = true ∧ (s.group? (agKey fr)).any (fun g => g.handler == none) = true ∧
    f.wait = .run ∧ f2.wait = .run ∧ (f2.clause, f2.idx, f2.hdr, f2.join) = (f.clause, 0, none, f.join) := by decide +kernel

/-- The target of a transfer by −1: the header of the demo clause. -/
theorem header_there (i : Instr) (c : Nat) (v s : List (Nat × Word)) (h : (demo i v s).fetchWord 0 1#12 0x10000#48 = .inl (demoHeader c))
    (hp : (demo i v s).ptagOf (agKey fr) = 1#12) (hb : bits (demoHeader c) 63 60 = 15) : (demo i v s).headerAt fr 0x10000#48 :=
  ⟨demoHeader c, by rw [hp]; exact h, hb⟩

/-- O14: a direct transfer of the whole fragment to a header, with and without a link pair. -/
theorem witness_bra : let s := demo (.bra 0x3FFFFFFF#30 noG)
    s.front? fr = some (demoFrag 4) ∧ s.headerAt fr 0x10000#48 ∧ (demoFrag 4).pc + BitVec.ofInt 48 (8 * (0x3FFFFFFF#30).toInt) = 0x10000#48 ∧
    s.ready fr (demoFrag 4).mask { ctlSpec noG [] with seq := true } = true ∧
    s.ready fr (demoFrag 4).mask { ctlSpec noG [] with dsts := [(254#10, 2)], seq := true } = true :=
  ⟨by decide +kernel, header_there _ 4 [] [] (by decide +kernel) (by decide +kernel) (by decide +kernel), by decide +kernel,
    by decide +kernel, by decide +kernel⟩

/-- O14: an indirect transfer whose lanes name one landing header, and one whose lanes name what is none. -/
theorem witness_indirect : let s := landing (demo (.brx (r 256#10) noG) [] [(0, 0x10000#32)])
    s.front? fr = some (demoFrag 4) ∧ s.landingAt 0 (s.ptagOf (agKey fr)) 0x10000#48 = true ∧
    (∀ l ∈ lanesOf all16, (s.src fr (r 256#10) 1 l ++ s.src fr (r 256#10) 0 l).setWidth 48 = 0x10000#48) ∧
    s.ready fr all16 (ctlSpec noG [(r 256#10, 2)]) = true ∧ s.ready fr all16 { ctlSpec noG [(r 256#10, 2)] with seq := true } = true ∧
    s.ready fr all16 { ctlSpec noG [(r 256#10, 2)] with dsts := [(4#10, 2)] } = true := by decide +kernel
theorem witness_indirect_bad : let s := demo (.brx (r 256#10) noG) [] [(0, 0x10000#32)]
    (lanesOf all16).filter (fun l => !s.landingAt 0 (s.ptagOf (agKey fr)) ((s.src fr (r 256#10) 1 l ++ s.src fr (r 256#10) 0 l).setWidth 48)) =
      0 :: (List.range 15).map (· + 1) ∧
    s.ready fr all16 (ctlSpec noG [(r 256#10, 2)]) = true ∧ s.ready fr all16 { ctlSpec noG [(r 256#10, 2)] with seq := true } = true ∧
    s.ready fr all16 { ctlSpec noG [(r 256#10, 2)] with dsts := [(4#10, 2)] } = true := by decide +kernel

/-- A group whose lane 3 alone is active and whose v0/v1 name the landing header at 0x10000; the fragments and records given. -/
def splitting (fs : List (Nat × Fragment)) (ds : List DeferRec) : State :=
  landing (parts fs ds (demo (.brx (r 2#10) (gd 1#4)) [(241 * 64 + 3, 1#32), (2 * 64 + 3, 0x10000#32)]))
/-- O14: a transfer of lane 3 that leaves the other lanes behind: two parts, with room for both, with none, with and without a join address. -/
theorem witness_split : ∀ f ∈ [demoFrag 4, { demoFrag 4 with hdr := some (demoHeader 4 ||| 5#64) }], ∀ n ∈ [1, 8], ∀ d ∈ [0, 16],
    let s := splitting ((List.range n).map fun i => (i, f)) (List.replicate d { join := 0#48, outer := none, arm := none })
    s.ready fr 8#64 (ctlSpec (gd 1#4) [(r 2#10, 2)]) = true ∧ s.ready fr 8#64 { ctlSpec (gd 1#4) [(r 2#10, 2)] with seq := true } = true ∧
    s.ready fr 8#64 { ctlSpec (gd 1#4) [(r 2#10, 2)] with dsts := [(4#10, 2)] } = true ∧
    (s.group? (agKey fr)).any (fun g => aget g.frags 0 == some f && (g.vacant.length == 8 - n)) = true ∧
    (∀ l ∈ lanesOf 8#64, (s.src fr (r 2#10) 1 l ++ s.src fr (r 2#10) 0 l).setWidth 48 = 0x10000#48) ∧
    s.agFetchBusy fr 0x10000#48 = false ∧ s.landingAt 0 (s.ptagOf (agKey fr)) 0x10000#48 = true ∧
    (∀ l, l < 64 → (8#64 : Mask).getLsbD l = ((lanesOf 8#64).contains l && true)) ∧ f.mask &&& ~~~8#64 = 0xFFF7#64 := by decide +kernel
theorem test_brx_split : let j : Fragment := { demoFrag 4 with hdr := some (demoHeader 4 ||| 5#64) }
    let o := exec (.brx (r 2#10) (gd 1#4)) (splitting ((List.range 8).map fun i => (i, j)) [])
    (fragOf o 0).map (fun f => (f.mask, f.clause)) = some (0xFFF7#64, 0x10010#48) ∧
    (got o fun t => (t.group? 0).map fun g => g.defer.map fun x => (x.join, x.arm.map fun a => (a.mask, a.pc))) =
      some (some [(0x10028#48, some (8#64, 0x10000#48))]) := by decide +kernel
/-- A fragment of a clause whose header names a join address. -/
def joining : Fragment := { demoFrag 4 with hdr := some (demoHeader 4 ||| 5#64) }
/-- The divergent branch of lane 3, from a group in the state given. -/
def diverging (fs : List (Nat × Fragment)) (ds : List DeferRec) : State :=
  parts fs ds (demo (.bra 0x3FFFFFFF#30 (gd 1#4)) [(241 * 64 + 3, 1#32)])
/-- Eight live entries. -/
def eight (f : Fragment) : List (Nat × Fragment) := (List.range 8).map fun i => (i, f)
/-- Sixteen records. -/
def sixteen : List DeferRec := List.replicate 16 { join := 0#48, outer := none, arm := none }

theorem test_bra_divergent : let o := exec (.bra 0x3FFFFFFF#30 (gd 1#4)) (diverging (eight joining) [])
    (fragOf o 0).map (·.mask) = some 0xFFF7#64 ∧ (fragOf o 0).map (·.join) = some (some 0x10028#48) ∧
    (match o with
      | .next t => (t.group? (agKey fr)).map fun g => g.defer.map fun r => r.arm.map fun d => (d.pc, d.mask, d.owner)
      | _ => none) = some [some (0x10000#48, 8#64, 0)] := by decide +kernel
/-- O15: lanes that split the fragment, whose branch target is a header; the joins, the free entries and the room of each clause. -/
theorem witness_divergent : ∀ f ∈ [demoFrag 4, joining], ∀ fs ∈ [[(0, f)], eight f], ∀ ds ∈ [[], sixteen], let s := diverging fs ds
    s.ready fr 8#64 { ctlSpec (gd 1#4) [] with seq := true } = true ∧ (s.group? (agKey fr)).any (fun g => aget g.frags 0 == some f) = true ∧
    8#64 ≠ f.mask ∧ s.fetchWord 0 (s.ptagOf (agKey fr)) 0x10000#48 = .inl (demoHeader 4) ∧ bits (demoHeader 4) 63 60 = 15 ∧
    f.pc + BitVec.ofInt 48 (8 * (0x3FFFFFFF#30).toInt) = 0x10000#48 := by decide +kernel
theorem witness_divergent_cases : (demoFrag 4).joinAddr = none ∧ joining.joinAddr = some 0x10028#48 ∧
    (∀ i, i < 8 → (aget (eight joining) i).isSome = true) ∧ aget [(0, joining)] 7 = none ∧ sixteen.length = 16 := by decide +kernel

/-- O14 to O18: the header that a transfer goes to is not under test, and a fragment of 16 lanes issues in one gang. -/
theorem witness_fetch_free : ∀ s ∈ [demo (.bra 0x3FFFFFFF#30 noG), landing (demo (.brx (r 256#10) noG) [] [(0, 0x10000#32)]), demo (.exitS 0x3FFFFFFF#30 none)],
    s.agFetchBusy fr 0x10000#48 = false ∧ s.agFetchBusy fr 0x10008#48 = false ∧ s.gangWaits fr (demoFrag 4) = false := by decide +kernel
/-- O16: LOOP with a count and without one; ENDLP at 0, at 1 and above. -/
theorem witness_loop : let i : Instr := .loop 1#2 (r 1#10) 0x3FFFFFFF#30
    (demo i [(64, 5#32)]).ready fr all16 { ctlSpec noG [(r 1#10, 1)] with seq := true, lone := [0] } = true ∧ (demo i [(64, 5#32)]).src fr (r 1#10) 0 0 ≠ 0#32 ∧
    (demo i).ready fr all16 { ctlSpec noG [(r 1#10, 1)] with seq := true, lone := [0] } = true ∧ (demo i).src fr (r 1#10) 0 0 = 0#32 ∧
    lowLane (demoFrag 4).mask = 0 := by decide +kernel
theorem witness_loop_header : (demo (.loop 1#2 (r 1#10) 0x3FFFFFFF#30)).headerAt fr 0x10000#48 :=
  header_there _ 4 [] [] (by decide +kernel) (by decide +kernel) (by decide +kernel)
/-- The demo group with loop counter 0 at a value, at its ENDLP. -/
def counting (n : Word) : State := withGroup (fun g => { g with lc := [(0, n)] }) (demo (.endlp 0#2 0x3FFFFFFF#30))
theorem witness_endlp_zero : (counting 0#32).ready fr all16 { ctlSpec noG [] with seq := true } = true ∧ (counting 0#32).loopCount fr 0 = 0#32 := by
  decide +kernel
theorem witness_endlp_one : (counting 1#32).ready fr all16 { ctlSpec noG [] with seq := true } = true ∧ (counting 1#32).loopCount fr 0 = 1#32 := by
  decide +kernel
theorem witness_endlp_two : (counting 2#32).ready fr all16 { ctlSpec noG [] with seq := true } = true ∧ (counting 2#32).loopCount fr 0 = 2#32 ∧
    (counting 2#32).fetchWord 0 1#12 0x10000#48 = .inl (demoHeader 4) := by decide +kernel

/-- O17: EXIT of a group with one fragment, of all its lanes and of some; EXIT of a sequencer; the end of an ended group. -/
theorem witness_exit_some : let s := demo (.exit (gd 1#4)) [(241 * 64 + 3, 1#32)]
    s.ready fr 8#64 { ctlSpec (gd 1#4) [] with hlp := false, seq := true } = true ∧ 8#64 ≠ (demoFrag 4).mask ∧
    (s.group? (agKey fr)).any (fun g => g.frags == [(0, demoFrag 4)] && g.defer == []) = true ∧ (demoFrag 4).wait = .run := by decide +kernel
theorem witness_exit_all : let s := demo (.exit noG)
    s.ready fr all16 { ctlSpec noG [] with hlp := false, seq := true } = true ∧ all16 = (demoFrag 4).mask ∧
    (s.group? (agKey fr)).any (fun g => g.frags == [(0, demoFrag 4)] && g.defer == []) = true := by decide +kernel
theorem witness_exit_sequencer : (atSeq 4 (demo (.exit noG))).ready (.seq 0 0) 1#64 { ctlSpec noG [] with hlp := false, seq := true } = true := by
  decide +kernel
theorem witness_group_end : let s := withGroup (fun g => { g with ended := true, frags := [] }) (demo (.exit noG))
    (s.group? (groupKey 0 0 0)).any (fun g => g.ended && g.ac == []) = true ∧ s.flight = [] ∧ s.pends = [] ∧
    ((demo (.exit noG)).group? 0).any (fun g => !g.ended) = true := by decide +kernel
theorem witness_exit_s_fragments : let s := parts [(0, demoFrag 4), (1, demoFrag 4)] [] (demo (.exitS 0x3FFFFFFF#30 none))
    s.ready fr all16 { ctlSpec noG [] with hlp := false } = true ∧ (s.group? (agKey fr)).any (fun g => g.frags.length != 1) = true := by
  decide +kernel
theorem witness_exit_s_record : let s := parts [(0, demoFrag 4)] sixteen (demo (.exitS 0x3FFFFFFF#30 none))
    s.ready fr all16 { ctlSpec noG [] with hlp := false } = true ∧ (s.group? (agKey fr)).any (fun g => g.defer != []) = true := by decide +kernel
theorem witness_exit_s_lanes : let s := parts [(0, { demoFrag 4 with mask := 3#64 })] [] (demo (.exitS 0x3FFFFFFF#30 none))
    s.ready fr 3#64 { ctlSpec noG [] with hlp := false } = true ∧
    (s.group? (agKey fr)).any (fun g => 3#64 != fullMask (recW (s.recOf (agKey fr))) &&& ~~~g.retired) = true := by decide +kernel
/-- O17: EXIT.S with a word of kept windows; window 0 of the v and of the s registers is kept. -/
theorem witness_exit_s : ∀ q ∈ [none, some (r 300#10)], let s := landing (demo (.exitS 0x3FFFFFFF#30 q) [] [(44, 1#32), (45, 1#32)])
    s.ready fr all16 { ctlSpec noG (match q with | some q => [(q, 4)] | none => []) with hlp := false } = true ∧
    (s.group? (agKey fr)).any (fun g => g.frags == [(0, demoFrag 4)] && g.defer == [] && g.ac == [] && g.tags == [] && g.retired == 0#64) = true ∧
    (demoFrag 4).mask = fullMask (recW (s.recOf (agKey fr))) ∧ s.landingAt 0 (s.ptagOf (agKey fr)) 0x10000#48 = true := by decide +kernel

/-- The demo group in the active set and groups 1 to `n` of its team in the pending set, ready. -/
def queued (n : Nat) (s : State) : State :=
  let s := { s with groups := (List.range n).foldl (fun l i => aput l (i + 1) { uid := 9 + i, core := 0, part := 0, frags := [(0, demoFrag 4)] }) s.groups }
  s.modCore 0 0 fun c => { c with pending := [(0, (List.range n).map (· + 1))] }

/-- O19: YIELD with an empty pending set and with a ready group in it. -/
theorem witness_yield : let s := demo (.yield noG)
    s.ready fr all16 { cls := 4, guard := noG } = true ∧ partSet (s.core 0 0).pending 0 = [] ∧
    let t := queued 1 s
    t.ready fr all16 { cls := 4, guard := noG } = true ∧ partSet (t.core 0 0).pending 0 = [1] ∧ t.groupReady 1 = true ∧ 1 ≠ agKey fr := by
  decide +kernel
/-- O19: a group of the active set whose one fragment waits at a barrier, for its phase, or for an armed register. -/
theorem witness_exchange : ∀ f ∈ [{ demoFrag 4 with stall := .armed [8] }, { demoFrag 4 with wait := .bar 0x40 0#32 }, { demoFrag 4 with stall := .barrier }],
    let s := queued 1 (parts [(0, f)] [] (demo (.yield noG)))
    (0 : Nat) ∈ partSet (s.core 0 0).active 0 ∧ s.groupReady 0 = false ∧ partSet (s.core 0 0).pending 0 = [1] ∧ s.groupReady 1 = true := by
  decide +kernel
/-- O19: a group of the pending set ready since clock 0, at clock 512, with a full active set. -/
theorem witness_pending_exchange : let s := queued 8 (demo (.yield noG))
    let t := { s with clock := 512, groups := amod s.groups 8 fun g => { g with readySince := some 0 } }.modCore 0 0 fun c =>
      { c with active := [(0, List.range 8)], pending := [(0, [8])] }
    (8 : Nat) ∈ partSet (t.core 0 0).pending 0 ∧ t.groupReady 8 = true ∧ ((t.group? 8).bind (·.readySince)) = some 0 ∧ 0 + 512 ≤ t.clock ∧
    partSet (t.core 0 0).active 0 = 0 :: (List.range 7).map (· + 1) ∧ groupKey 0 0 8 = 8 := by decide +kernel

/-- O20: TRAP with a landing header as vector and a writable page for the frame. -/
theorem witness_trap : let s := withGroup (fun g => { g with trapVec := 0x10000#48, trapFrame := 0x20040#48 }) (withPage 1 (landing (demo (.trap 77#20 noG))))
    s.ready fr all16 (ctlSpec noG []) = true ∧
    (s.group? (agKey fr)).any (fun g => g.handler == none && g.parked == none && g.held == [] && !g.ended && g.trapVec != 0#48 &&
      g.trapFrame != 0#48 && !s.entryBusy (agKey fr) g) = true ∧
    s.landingAt 0 (s.ptagOf (agKey fr)) 0x10000#48 = true ∧ s.chkNow 0 (s.ptagOf (agKey fr)) 0x20040 64 .write = .ok 0x20040 1 := by decide +kernel
/-- O21: the four reasons for which a fault parks its group, and a group that is parked already. -/
theorem witness_park : let s := demo (.trap 77#20 noG)
    (s.group? (agKey fr)).any (fun g => (aget g.frags 0).isSome && !g.ended && g.parked == none && g.held == [] && g.trapVec == 0#48 && !s.entryBusy (agKey fr) g) = true ∧
    (14 < 33) ∧ (33 : Nat) ∉ [1, 11, 12, 13, 14] ∧ s.landingAt 0 (s.ptagOf (agKey fr)) 0x10000#48 = false := by decide +kernel
theorem witness_parked : let s := withGroup (fun g => { g with parked := some { fault := { code := 2 }, inHandler := true },
                                                               handler := some { entry := 0, mask := all16, clause := 0x10000#48, held := [] } }) (demo .tret)
    (s.group? (agKey fr)).any (fun g => g.parked.isSome && g.handler.isSome) = true := by decide +kernel
/-- The 64 bytes of a frame at 0x20000: CLAUSE 0x10000, INDEX 0, JOIN none, ACTIVE lanes 0 to 7. -/
def frameBytes : List Byte := bytesOf 64 (0x10000 * 2 ^ 160 + 0xFF * 2 ^ 256)
/-- O22: TRET outside a handler, and in one whose frame names a point to return to. -/
theorem witness_tret_outside : (demo .tret).ready fr all16 { ctlSpec noG [] with hlp := false } = true ∧
    ((demo .tret).group? 0).any (fun g => g.handler == none && g.frags == [(0, demoFrag 4)]) = true := by decide +kernel
theorem witness_tret : let h : Handler := { entry := 0, mask := all16, clause := 0x10000#48, held := [7] }
    let s := withGroup (fun g => { g with handler := some h, trapFrame := 0x20000#48, frags := [(0, demoFrag 4), (7, { demoFrag 4 with mask := 0xF00#64 })] })
      ((withPage 1 (demo .tret)).stackWrite 0 0x20000 frameBytes)
    let b : BitVec 512 := BitVec.ofNat 512 (s.coreRead 0 0 0x20000 64 1).2
    s.ready fr all16 { ctlSpec ⟨0#4, false⟩ [] with hlp := false } = true ∧ s.earlier fr (demoFrag 4) = [] ∧
    (s.group? 0).any (fun g => g.frags.all fun x => x.1 == 0 || h.held.contains x.1) = true ∧ (s.core 0 0).l1 = [] ∧
    s.xlateBusy 0 (s.ptagOf (agKey fr)) 0x20000 = false ∧ s.coreBusy 0 0 0x20000 false = false ∧ s.meetStack 0 0 0x20000 = .clean ∧ s.agFetchBusy fr 0x10000#48 = false ∧
    s.chkNow 0 (s.ptagOf (agKey fr)) 0x20000 64 .read = .ok 0x20000 1 ∧ b.extractLsb' 256 64 = 0xFF#64 ∧ b.extractLsb' 160 48 = 0x10000#48 ∧
    bits b 35 32 = 0 ∧ 0xFF#64 &&& ~~~h.mask = 0#64 ∧ s.fetchWord 0 (s.ptagOf (agKey fr)) 0x10000#48 = .inl (demoHeader 4) ∧
    bits (demoHeader 4) 63 60 = 15 := by decide +kernel
/-- R330: a live fragment that the handler's entry does not hold. -/
theorem witness_tret_created : let h : Handler := { entry := 0, mask := all16, clause := 0x10000#48, held := [] }
    let s := withGroup (fun g => { g with handler := some h, frags := [(0, demoFrag 4), (7, demoFrag 4)] }) (demo .tret)
    s.ready fr all16 { ctlSpec ⟨0#4, false⟩ [] with hlp := false } = true ∧
    (s.group? 0).any (fun g => g.frags.any fun x => x.1 != 0 && !h.held.contains x.1) = true ∧ parkOf (exec .tret s) = some (2, 0) := by decide +kernel
/-- R296: TRET returns to the point the frame names; lanes 8 to 15 retire, and the held fragment goes on where it stood. -/
theorem test_tret : let h : Handler := { entry := 0, mask := all16, clause := 0x10000#48, held := [7] }
    let s := withGroup (fun g => { g with handler := some h, trapFrame := 0x20000#48, frags := [(0, demoFrag 4), (7, demoFrag 4)] })
      ((withPage 1 (demo .tret)).stackWrite 0 0x20000 frameBytes)
    got (exec .tret s) (fun t => (t.group? 0).map fun g => (g.handler.isSome, g.retired, g.frags.map fun x => (x.2.mask, x.2.hdr.isSome))) =
      some (some (false, 0xFF00#64, [(0xFF#64, false), (all16, true)])) := by decide +kernel
/-- O23: every lane names a readable DIE page. -/
theorem witness_spawn : let s := withPage 1 (demo (.spawn (r 256#10) noG) [] [(0, 0x20000#32)])
    s.ready fr all16 { cls := 4, guard := noG, srcs := [(r 256#10, 2)], hlp := false } = true ∧ s.earlier fr (demoFrag 4) = [] ∧
    (s.die 0).launchQ.length + (lanesOf all16).length ≤ 8192 ∧ s.poison = [] ∧ s.ue = [] ∧
    ∀ l ∈ lanesOf all16, s.chkIssue 0 0 (s.ptagOf (agKey fr)) ((s.src fr (r 256#10) 1 l ++ s.src fr (r 256#10) 0 l).setWidth 48 : Addr).toNat 128 .read =
      .ok 0x20000 1 ∧ s.stackBusy 0 0x20000 = false := by decide +kernel
/-- O24: LTRIG with nothing in flight, and with an earlier access. -/
theorem witness_ltrig : ∀ s ∈ [demo (.ltrig noG), pendingStore (demo (.ltrig noG))],
    s.ready fr all16 { cls := 4, guard := noG, hlp := false } = true ∧ (s.group? (agKey fr)).any (fun g => (aget g.frags 0).isSome) = true := by
  decide +kernel
theorem witness_ltrig_earlier : (demo (.ltrig noG)).earlierOf fr = [] ∧ (pendingStore (demo (.ltrig noG))).earlierOf fr ≠ [] := by decide +kernel
/-- O25: status registers of every kind, in a privileged launch and in one that is not. -/
theorem witness_csr : let s := demo (.csrr 255#10 0x8#12 noG)
    s.ready fr all16 { cls := 4, guard := noG, dsts := [(255#10, 1)] } = true ∧
    s.ready fr all16 { cls := 4, guard := noG, srcs := [(r 1#10, 1)], hlp := false, lone := [0] } = true ∧ s.privileged fr = true ∧
    (s.modTeam 0 0 fun t => { t with priv := false }).privileged fr = false ∧
    (s.modTeam 0 0 fun t => { t with priv := false }).ready fr all16 { cls := 4, guard := noG, dsts := [(255#10, 1)] } = true ∧
    csrAccess 0x2FF = .none ∧ csrAccess 0x205 ≠ .none ∧ csrAccess 0x300 = .pv ∧ csrAccess 0x316 = .pw := by decide +kernel
/-- O25: numbers of every clause, the fields of an access to one that no row assigns and of a write that only reads. -/
theorem witness_csr_numbers : csrUnassigned 6 ∧ csrUnassigned 0x2FF ∧ csrUnassigned 0x318 ∧ csrReadOnly 9 ∧ csrReadOnly 0x205 ∧
    ¬csrUnassigned 0x317 ∧ ¬csrReadOnly 0x13 := by
  unfold csrUnassigned csrReadOnly; omega
theorem witness_csr_fields : let s := demo (.csrr 1#10 0x2FF#12 noG)
    s.fieldsPass fr (demoFrag 4) { cls := 4, guard := noG, dsts := [(1#10, 1)] } ∧
    s.fieldsPass fr (demoFrag 4) { cls := 4, guard := noG, srcs := [(r 1#10, 1)], hlp := false } := by
  unfold State.fieldsPass; decide +kernel
theorem witness_csr_map : let s := demo (.csrr 1#10 0x317#12 noG)
    (s.die 0).coreMap[1]? = some 1 ∧ (s.die 0).coreMap.length ≤ 2 ∧ (s.group? 0).any (fun g => g.name == none) = true := by decide +kernel
/-! Memory, atomics, fences, barriers, the copy engine and the work distributor. -/

/-- The demo group about to issue `i` with the DIE page at 0x20000, whose address the pair s0 holds; s2 = `x`. -/
def paged (i : Instr) (x : Word := 0#32) : State := withPage 1 (demo i [] [(0, 0x20000#32), (2, x)])
/-- One access of fragment 0 in flight under number 3, before what the fragment does next. -/
def flying (k : AccKind) (sp : Space) (dst ndst : Nat) (y : Piece) (s : State) : State :=
  behind 3 <| withGroup (fun g => { g with tags := if ndst = 0 then [] else [(dst, { empty := true })] })
    { s with flight := [(3, { s.newAccess fr (demoFrag 2) k sp with pieces := [y], dst := dst, ndst := ndst, act := laneBit y.lane })] }
/-- Four bytes of lane 2 at stack offset 0x20010 of a DIE page. -/
def piece (data : Nat) (data2 : Nat := 0) : Piece :=
  { lane := 2, addr := 0x20010, va := 0x20010, len := 4, cls := 1, reg := 0, data := data, data2 := data2 }
/-- The word at stack offset 0x20010. -/
def cell (w : Nat) (s : State) : State := s.stackWrite 0 0x20010 (bytesOf 4 w)

theorem test_ld_marks_empty : got (exec (.ld 5#10 (r 256#10) 0x10#20 .w32 .rlx false noG) (paged (.ld 5#10 (r 256#10) 0x10#20 .w32 .rlx false noG)))
    (fun t => ((t.rdTag fr 5).empty, t.flight.map fun e => e.2.pieces.map (·.addr))) = some (true, [List.replicate 16 0x20010]) := by decide +kernel
theorem test_ld_page_fault : let i : Instr := .ld 5#10 (r 1#10) 0#20 .w32 .rlx false noG
    parkOf (exec i (paged i)) = some (2, 2) := by decide +kernel
theorem test_ldu_align : let i : Instr := .ldu 257#10 (r 256#10) 2#20 .w32 .rlx false noG
    parkOf (exec i (paged i)) = some (5, 0) := by decide +kernel
theorem test_ld_prot : let i : Instr := .st (r 5#10) (r 256#10) 0#20 .w32 .rlx false noG
    let s := demo i [] [(0, 0x10000#32)]
    parkOf (exec i s) = some (34, 2) := by decide +kernel
theorem test_load_returns : got (exec (.loadDataReturn 3 4#64) (cell 0xCAFEBABE (flying .load .glob 5 1 (piece 0) (demo (.fence .ar .die noG)))))
    (fun t => (t.rdReg fr 5 2, (t.rdTag fr 5).empty, t.flight.length)) = some (0xCAFEBABE#32, false, 0) := by decide +kernel
theorem test_store_performs : got (step { flying .store .glob 0 0 (piece 0xCAFEBABE) (demo (.fence .ar .die noG)) with agenda := [.perform 3 4#64] })
    (fun t => (t.stackRead 0 0x20010 4, t.stackByte 0 0x20010, t.flight.length)) = some (0xCAFEBABE, 0xBE#8, 0) := by decide +kernel
theorem test_atomic_umax : got (exec (.atomicAtHomeSlice 3 2) (cell 7 (flying (.rmw .umax false) .glob 5 1 (piece 9) (demo (.fence .ar .die noG)))))
    (fun t => (t.stackRead 0 0x20010 4, t.rdReg fr 5 2)) = some (9, 7#32) := by decide +kernel
theorem test_atomic_cas : got (exec (.atomicAtHomeSlice 3 2) (cell 7 (flying (.cas false) .glob 5 1 (piece 6 9) (demo (.fence .ar .die noG)))))
    (fun t => (t.stackRead 0 0x20010 4, t.rdReg fr 5 2)) = some (7, 7#32) := by decide +kernel
theorem test_atom_lanecoll : let i : Instr := .atom 5#10 (r 256#10) (r 1#10) .add false false .rlx noG
    parkOf (exec i (paged i)) = some (4, 0) := by decide +kernel
theorem test_stl_issue : let i : Instr := .stl (r 5#10) (r 1#10) 0x40#20 .w16 .rlx noG
    got (exec i (demo i [(5 * 64 + 2, 0x12345678#32)])) (fun t => t.flight.map fun e => (e.2.pieces[2]?).map fun p => (p.addr, p.len, p.data % 65536)) =
      some [some (0x40, 2, 0x5678)] := by decide +kernel
theorem test_fence_holds : got (exec (.fence .ar .die noG) (flying .store .glob 0 0 (piece 1) (demo (.fence .ar .die noG)))) (fun t =>
    (t.front? fr).map fun f => (f.fenceInv, decide (0 < f.fenceAll))) = some (some (true, true)) := by decide +kernel
theorem test_pref_unmapped : let i : Instr := .pref (r 2#10) 0#20 false noG
    (fragOf (exec i (demo i)) 0).map (·.clause) = some 0x10010#48 := by decide +kernel
theorem test_barv : let i : Instr := .barv (r 256#10) (r 257#10) noG
    got (exec i ((demo i [] [(0, 0x40#32), (1, 3#32)]).modTeam 0 0 fun t => t.localWrite 0x40 (bytesOf 16 3))) (fun t =>
      (t.team? 0 0).map fun t => t.localRead 0x40 12) = some (some (3 + 1 * 2 ^ 64)) := by decide +kernel
theorem test_bwait_waits : let i : Instr := .bwait (r 256#10) (r 257#10) noG
    (fragOf (exec i (demo i [] [(0, 0x40#32), (1, 0#32)])) 0).map (fun f => (f.clause, f.wait)) = some (0x10000#48, .bar 0x40 0#32) ∧
    (fragOf (exec i (demo i [] [(0, 0x40#32), (1, 0xFFFFFFFF#32)])) 0).map (·.clause) = some 0x10010#48 := by decide +kernel
theorem test_csub : let i : Instr := .csub 2#3 (r 256#10) noG
    got (exec i (demo i [] [(0, 0x40#32)])) (fun t => ((t.group? 0).map fun g => g.counter 2, (t.core 0 0).subs.map fun e => e.2.ready)) =
      some (some 1, [[(0x40, true)]]) := by decide +kernel

/-! Witnesses of the statements O26 to O35 and O39 to O42. -/

/-- Nothing holds the fragment back (R205). -/
theorem not_held {s : State} {f : Fragment} (h : s.fenceHeld fr f = false) (h' : s.earlier fr f = []) (b : Bool) : s.notHeldBack fr f b :=
  ⟨h, fun _ => h'⟩
/-- O26: LD, LDU and ST whose lanes name a page that admits them. -/
theorem witness_global : let s := paged (.ld 5#10 (r 256#10) 0x10#20 .w128 .sc false noG)
    s.ready fr all16 { cls := 2, guard := noG, srcs := [(r 256#10, 2)], dsts := [(252#10, Width.regs .w128)] } = true ∧
    s.ready fr all16 { cls := 2, guard := noG, srcs := [(r 256#10, 2)], dsts := [(252#10, Width.regs .w128)], lone := [0] } = true ∧
    s.ready fr all16 { cls := 2, guard := noG, srcs := [(r 256#10, 2), (r 252#10, Width.regs .w128)] } = true ∧
    s.front? fr = some (demoFrag 2) ∧ s.fenceHeld fr (demoFrag 2) = false ∧ s.earlier fr (demoFrag 2) = [] ∧
    s.chkIssue 0 0 (s.ptagOf (agKey fr)) 0x2FFF0 16 .read = .ok 0x2FFF0 1 ∧ s.chkIssue 0 0 (s.ptagOf (agKey fr)) 0x2FFF0 16 .write = .ok 0x2FFF0 1 ∧
    (s.src fr (r 256#10) 1 7 ++ s.src fr (r 256#10) 0 7).setWidth 48 = 0x20000#48 := by decide +kernel
/-- O27: LDL and STL whose lanes name the last bytes of local memory, of a group and of the sequencer; LDP and STP at the last offset. -/
theorem witness_local : let s := demo (.ldl 5#10 (r 1#10) 0#20 .w32 .rlx noG) ((List.range 16).map fun l => (64 + l, 0x3FFC#32))
    s.ready fr all16 { cls := s.memClass, guard := noG, srcs := [(r 1#10, 1)], dsts := [(5#10, 1)], seq := true } = true ∧
    s.ready fr all16 { cls := s.memClass, guard := noG, srcs := [(r 1#10, 1), (r 5#10, 1)], seq := true } = true ∧
    s.front? fr = some (demoFrag 2) ∧ s.fenceHeld fr (demoFrag 2) = false ∧
    (∀ l ∈ lanesOf all16, (s.src fr (r 1#10) 0 l).toNat % 4 = 0 ∧ (s.src fr (r 1#10) 0 l).toNat + 4 ≤ recL (s.recOf (agKey fr))) := by decide +kernel
theorem witness_local_sequencer : let s := atSeq 5 (demo (.ldl 5#10 (r 1#10) 0#20 .w32 .rlx noG))
    s.ready (.seq 0 0) 1#64 { cls := s.memClass, guard := noG, srcs := [(r 1#10, 1)], dsts := [(5#10, 1)], seq := true } = true ∧
    s.ready (.seq 0 0) 1#64 { cls := s.memClass, guard := noG, srcs := [(r 1#10, 1), (r 5#10, 1)], seq := true } = true := by decide +kernel
theorem witness_private : let s := withGroup (fun g => { g with privBase := 0x20000#48 }) (withPage 0 (demo (.ldp 4#10 (r 256#10) 0#20 .w64 false noG) [] [(0, 248#32)]))
    s.ready fr all16 { cls := 2, guard := noG, srcs := [(r 256#10, 2)], dsts := [(4#10, 2)], hlp := false } = true ∧
    s.ready fr all16 { cls := 2, guard := noG, srcs := [(r 256#10, 2), (r 4#10, 2)], hlp := false } = true ∧ 248 + 8 ≤ recP (s.recOf (agKey fr)) ∧
    (∀ l ∈ lanesOf all16, ∀ i ∈ [0, 1], s.chkIssue 0 0 (s.ptagOf (agKey fr)) (0x20000 + (248 + 4 * i) / 4 * 4 * 16 + 4 * l) 4 .read =
      .ok (0x20000 + (248 + 4 * i) / 4 * 4 * 16 + 4 * l) 0) ∧
    (∀ l ∈ lanesOf all16, ∀ i ∈ [0, 1], s.chkIssue 0 0 (s.ptagOf (agKey fr)) (0x20000 + (248 + 4 * i) / 4 * 4 * 16 + 4 * l) 4 .write =
      .ok (0x20000 + (248 + 4 * i) / 4 * 4 * 16 + 4 * l) 0) := by decide +kernel
/-- O28: lanes that name addresses of their own, in local memory and in a DIE page; and lanes that name one. -/
theorem witness_atomics : let s := demo (.atom 5#10 (r 1#10) (r 3#10) .add false true .rlx noG) ((List.range 16).map fun l => (64 + l, BitVec.ofNat 32 (4 * l)))
    s.ready fr all16 { cls := 2, guard := noG, srcs := [(r 1#10, 1), (r 3#10, 1)], dsts := [(5#10, 1)] } = true ∧
    s.ready fr all16 { cls := 2, guard := noG, srcs := [(r 1#10, 1), (r 3#10, 1)] } = true ∧
    s.ready fr all16 { cls := 2, guard := noG, srcs := [(r 1#10, 1), (r 3#10, 1)] ++ [(r 7#10, 1)], dsts := [(5#10, 1)] } = true ∧
    (∀ l ∈ lanesOf all16, (s.src fr (r 1#10) 0 l).toNat = 4 * l) := by decide +kernel
theorem witness_atomics_global : let s := withPage 1 (demo (.atom 6#10 (r 2#10) (r 4#10) .add true false .rlx noG)
      ((List.range 16).map fun l => (128 + l, BitVec.ofNat 32 (0x20000 + 8 * l))))
    s.ready fr all16 { cls := 2, guard := noG, srcs := [(r 2#10, 2), (r 4#10, 2)], dsts := [(6#10, 2)] } = true ∧
    (∀ l ∈ lanesOf all16, s.chkIssue 0 0 (s.ptagOf (agKey fr)) ((s.src fr (r 2#10) 1 l ++ s.src fr (r 2#10) 0 l).setWidth 48 : Addr).toNat 8 .both =
      .ok (0x20000 + 8 * l) 1) := by decide +kernel
theorem witness_lanecoll : let s := paged (.red (r 256#10) (r 4#10) .add false false .rlx noG)
    s.ready fr all16 { cls := 2, guard := noG, srcs := [(r 256#10, 2), (r 4#10, 1)] } = true ∧ (0 ∈ lanesOf all16) ∧ (15 ∈ lanesOf all16) ∧
    s.chkIssue 0 0 (s.ptagOf (agKey fr)) 0x20000 4 .both = .ok 0x20000 1 := by decide +kernel
/-- O29, O30: a store, a load and an atomic of one lane in flight that may be performed. -/
theorem witness_store_performs : let s := { flying .store .glob 0 0 (piece 5) (demo (.fence .ar .die noG)) with agenda := [.perform 3 (laneBit 2)] }
    s.agenda = .perform 3 (laneBit (piece 5).lane) :: [] ∧ s.poison = [] ∧ s.ue = [] ∧ (piece 5).done = false ∧ (piece 5).cls ≠ 0 ∧
    (aget s.flight 3).any (fun x => x.pieces == [piece 5] && x.ag == fr && x.kind == .store && x.space == .glob && !x.chunked && x.bad == 0#64 &&
      x.ndst == 0 && !x.acq && s.mayPerform x (piece 5)) = true ∧ (piece 5).addr + (piece 5).len ≤ 2 ^ 36 := by decide +kernel
theorem witness_load_returns : let s := flying .load .glob 5 1 (piece 0) (demo (.fence .ar .die noG))
    s.poison = [] ∧ s.ue = [] ∧ (s.core 0 0).l1 = [] ∧ (piece 0).addr % 4 = 0 ∧ (s.group? (agKey fr)).isSome = true ∧
    (aget s.flight 3).any (fun x => x.pieces == [piece 0] && x.ag == fr && x.kind == .load && x.space == .glob && !x.chunked && x.bad == 0#64 &&
      x.ndst == 1 && !x.acq && !x.uniform && x.core == 0 && s.mayPerform x (piece 0)) = true := by decide +kernel
theorem witness_atomic : let s := flying (.rmw .add false) .glob 5 1 (piece 9) (demo (.fence .ar .die noG))
    (aget s.flight 3).any (fun x => x.pieces == [piece 9] && x.kind == .rmw .add false && x.ndst == (piece 9).len / 4 && !x.acq && !x.uniform &&
      x.bad == 0#64 && s.mayPerform x (piece 9)) = true ∧ (piece 9).cls = 1 ∧ (piece 9).reg = 0 ∧ (piece 9).data < 2 ^ (8 * (piece 9).len) := by
  decide +kernel
/-- O31: FENCE with a store in flight; PREF of an address that fails its check. -/
theorem witness_fence : let s := flying .store .glob 0 0 (piece 1) (demo (.fence .ar .die noG))
    s.ready fr all16 { cls := 2, guard := noG } = true ∧ s.flight.any (fun e => decide (e.1 = 3)) = true ∧
    (demo (.pref (r 2#10) 0#20 false noG)).ready fr all16 { cls := 2, guard := noG, srcs := [(r 2#10, 2)], ownErr := true } = true := by decide +kernel
/-- O32: a barrier object inside local memory; an earlier access and none; a phase before, one that is reached, and one passed long since. -/
theorem witness_barrier : let s := demo (.barv (r 256#10) (r 257#10) noG) [] [(0, 0x3FF0#32), (1, 3#32)]
    s.ready fr all16 { cls := 2, guard := noG, srcs := [(r 256#10, 1), (r 257#10, 1)], hlp := false, lone := [0, 1] } = true ∧
    (s.team? 0 0).any (fun t => t.localPoison == [] && t.localUe == [] && decide (0x3FF0 + 16 ≤ recL t.recd)) = true ∧
    (demoFrag 2).fenceInv = false ∧ s.preemptAsked 0 = false ∧ s.fenceHeld fr (demoFrag 2) = false ∧ s.earlier fr (demoFrag 2) = [] ∧
    (pendingStore s).earlierOf fr ≠ [] ∧ ((pendingStore s).flight.all fun e => !e.2.acq) = true ∧ (s.src fr (r 256#10) 0 0).toNat % 16 = 0 ∧
    s.rangeBusy 0 0 0x3FF0 16 = false := by decide +kernel
/-- O32: a fragment that waits at the object for phase 0, and an arrival that completes the phase. -/
def arriving : State :=
  (parts [(0, demoFrag 2), (7, { demoFrag 2 with wait := .bar 0x40 0#32, mask := 0xF0#64 })] [] (demo (.barv (r 256#10) (r 257#10) noG) [] [(0, 0x40#32), (1, 1#32)])).modTeam 0 0
    fun t => { t with localMem := (bytesOf 16 1).zip (List.range 16) |>.filterMap fun x => if x.1 = 0#8 then none else some (0x40 + x.2, x.1) }
theorem witness_barrier_wakes : (arriving.group? 0).any (fun g => decide (g.frags = aput [(0, demoFrag 2)] 7 { demoFrag 2 with wait := .bar 0x40 0#32, mask := 0xF0#64 })) = true := by
  decide +kernel
theorem test_barrier_wakes : (fragOf (exec (.barv (r 256#10) (r 257#10) noG) arriving) 7).map (fun f => (f.wait == .run, f.clause)) = some (true, 0x10010#48) := by
  decide +kernel
theorem witness_barrier_phases : ((0#32 - 0xFFFFFFFF#32).toNat = 1) ∧ ((0x80000000#32 - 0#32).toNat = 2 ^ 31) ∧ ((3#32 - 3#32).toNat = 0) ∧
    ((0x80000001#32 - 0#32).toNat = 2 ^ 31 + 1) := by decide
/-- O33: a record inside local memory; an answer address; a query that stands with the distributor, with items left and without. -/
theorem witness_csub : let s := demo (.csub 2#3 (r 256#10) noG) [] [(0, 0x3FC0#32)]
    s.ready fr all16 { cls := 2, guard := noG, srcs := [(r 256#10, 1)], hlp := false } = true ∧ s.earlier fr (demoFrag 2) = [] ∧
    s.ready fr all16 { cls := 2, guard := noG, srcs := [(r 256#10, 1)], hlp := false, lone := [0] } = true ∧
    s.fenceHeld fr (demoFrag 2) = false ∧ (s.core 0 0).subs.length < 16 ∧
    (∀ l ∈ lanesOf all16, (s.src fr (r 256#10) 0 l).toNat % 64 = 0 ∧ (s.src fr (r 256#10) 0 l).toNat + 64 ≤ recL (s.recOf (agKey fr))) ∧
    (s.group? 0).any (fun g => decide (g.counter 2 < 65535)) = true := by decide +kernel
/-- A share of a launch with 3 × 2 work items, `n` of them dealt. -/
def dealing (n : Nat) : State :=
  let s := withGroup (fun g => { g with wq := [(2, 0x40, 0x10008#48, all16)], ac := [(2, 1#16)] }) (demo (.wqry 2#3 (r 256#10) noG))
  { s with clock := 1 }.modDie 0 fun x => { x with
    queries := [(0, some 0)]
    shares := [(0, { recd := BitVec.ofNat 1024 (3 * 2 ^ 352 + 2 * 2 ^ 368), map := 0#256, ptag := 1#12, priv := false, preds := [], workNext := n })] }
theorem witness_work : ∀ n ∈ [5, 6], ((dealing n).die 0).queries = [(groupKey 0 0 0, some 0)] ∧ 0 < (dealing n).clock ∧ (dealing n).rangeBusy 0 0 0x40 8 = false ∧
    ((dealing n).group? 0).any (fun g => g.wq == [(2, 0x40, 0x10008#48, all16)] && decide (1 ≤ g.counter 2)) = true ∧
    ((dealing n).team? 0 0).any (fun t => t.localPoison == [] && t.localUe == [] && t.share == 0) = true ∧
    (aget ((dealing n).die 0).shares 0).isSome = true := by decide +kernel
/-- O33: a query on its way, at its turn; two queries that came at one clock, and at two. -/
theorem witness_reach : let s := { (dealing 5).modDie 0 fun x => { x with queries := [(0, none)] } with agenda := [.reach 0 0] }
    (s.die 0).queries = [(0, none)] ∧ got (step s) (fun t => (t.die 0).queries) = some [(0, some 1)] := by decide +kernel
theorem witness_query_order : ∀ c ∈ [1, 2, 3], let s := { (dealing 5).modDie 0 fun x => { x with queries := [(0, some 2), (1, some c)] } with clock := 4 }
    (s.die 0).queries = [(0, some 2), (1, some c)] ∧ 2 < s.clock ∧ c < s.clock ∧ (s.nextQuery 0).map (·.1) = some (if c = 1 then 1 else 0) := by
  decide +kernel
theorem test_work_deal : got (exec (.workDeal 0) (dealing 4)) (fun t => ((t.group? 0).map fun g => (g.workX, g.workY, g.counter 2),
    (t.team? 0 0).map fun t => t.localRead 0x40 8)) = some (some (1#32, 1#32, 0), some (1 + 1 * 2 ^ 32)) ∧
    got (exec (.workDeal 0) (dealing 6)) (fun t => (t.group? 0).map (·.workX)) = some (some 0xFFFFFFFF#32) := by decide +kernel
/-- O34: a walk under way, in a table that maps the page and in one that does not. The table of process 1 lies at 0x30000; entries at
0x30000, 0x31000 and 0x32000 lead to a leaf at level 4 for page 2. -/
def walking (leaf : Nat) : State :=
  let s := (demo .nop).modDie 0 fun x => { x with procs := [(1, { root := 0x30000, qtab := 0, qlen := 0 })], walks := [pageKey 1#12 0x20000] }
  ((((s.stackWrite 0 0x30000 (bytesOf 8 (2 ^ 63 + 0x31000))).stackWrite 0 0x31000 (bytesOf 8 (2 ^ 63 + 0x32000))).stackWrite 0 0x32000
    (bytesOf 8 (2 ^ 63 + 0x33000))).stackWrite 0 0x33010 (bytesOf 8 leaf))
theorem witness_walk : pageKey 1#12 0x20000 ∈ ((walking (2 ^ 63 + 2 ^ 62 + 2 ^ 60 + 2 ^ 59 + 0x20000)).die 0).walks ∧
    ((walking 0).die 0).walkWait = [] ∧ (walking 0).walkBusy 0 1#12 0x20000 = false ∧ ((walking 0).die 0).tlb.length < 32768 ∧
    (walking (2 ^ 63 + 2 ^ 62 + 2 ^ 60 + 2 ^ 59 + 0x20000)).walk 0 1#12 (2 * 65536) =
      .ok { leaf := BitVec.ofNat 64 (2 ^ 63 + 2 ^ 62 + 2 ^ 60 + 2 ^ 59 + 0x20000), level := 4 } ∧
    (walking 0).walk 0 1#12 (2 * 65536) = .fail { level := 4, mchk := false, addr := 0 } := by decide +kernel
theorem test_walk_completes : got (exec (.pageWalkComplete 0 1 2) (walking (2 ^ 63 + 2 ^ 62 + 2 ^ 60 + 2 ^ 59 + 0x20000))) (fun t =>
    (aget (t.die 0).tlb (pageKey 1#12 0x20000)).map fun e => (e.phys 0x2ABCD, e.cls, e.wr)) = some (some (0x2ABCD, 1, false)) := by decide +kernel
/-- O34: no L1 of die 3 holds a line. -/
theorem witness_eviction (c : Nat) : ((demo .nop).core 3 c).l1 = [] ∧ 201326591 * 256 + 256 ≤ 2 ^ 36 := by
  refine ⟨?_, by norm_num⟩
  have h : aget (demo .nop).cores (coreKey 3 c) = none := by
    have e : (demo .nop).cores = [(0, { active := [(0, [0])] })] := by decide +kernel
    rw [e]
    simp only [aget, coreKey, Config.nCores]
    exact if_neg (by omega)
  simp [State.core, agetD, h]
theorem test_eviction : evictCells 0x20000 0x20100 [(0x20010, 0xBE#8), (0x200FF, 0#8), (0x20100, 1#8)] [(0x200FF, 7#8)] =
    ([(0x20100, 1#8)], [(0x20010, 0xBE#8)]) := by decide +kernel
/-- O35: a turn of an agent at an instruction, at a header, of one that may not issue, of an event; and a header that starts. -/
theorem witness_step : let s := State.reset.place ((encode (.movi 1#10 5#32 noG)).getD 0#64)
    s.agenda = [.issue fr] ∧ s.front? fr = some (demoFrag 0) ∧ s.mayIssue fr (demoFrag 0) = true ∧ (demoFrag 0).hdr.isSome = true ∧
    s.chkNow 0 (s.ptagOf (agKey fr)) (demoFrag 0).pc.toNat 8 .fetch = .ok 0x10008 2 ∧
    s.fetchBusy 0 (s.ptagOf (agKey fr)) (demoFrag 0).pc = false ∧ s.poison = [] ∧ s.ue = [] ∧
    decode (BitVec.ofNat 64 (s.stackRead 0 0x10008 8)) = .ok (.movi 1#10 5#32 noG) := by decide +kernel
/-- The helper of `withHelper` at an instruction, at its turn, and the gang of its bank. -/
def helperTurn (gangs : List (Nat × HelperGang)) : State :=
  { withHelper 0 (State.reset.place ((encode (.movi 1#10 5#32 noG)).getD 0#64)) with cur := none, agenda := [.issue (.helper 0 0 0 5)] }.modCore 0 0 fun c =>
    { c with gangs := gangs }
/-- O35: a helper at its turn, its bank free, held by a gang of an earlier clock, and held in this one; one at a clause header. -/
theorem witness_helper_turn : let g (c : Nat) : HelperGang := { clock := c, key := 0, pc := 0x10010, helpers := [4] }
    (helperTurn []).mayIssue (.helper 0 0 0 5) (demoHelper 0).front = true ∧ (helperTurn []).helper? 0 5 = some (demoHelper 0) ∧
    ((demoRecruit 0).helpers.map (·.1)).Nodup ∧ (helperTurn []).gangMates 0 5 (demoHelper 0).front = [(5, demoHelper 0)] ∧
    ((helperTurn []).takeGang 0 5 (demoHelper 0).front [(5, demoHelper 0)]).isSome = true ∧
    ((helperTurn [(0, g 0)]).takeGang 0 5 (demoHelper 0).front [(5, demoHelper 0)]).isNone = true ∧
    ((helperTurn [(1, g 0)]).takeGang 0 5 (demoHelper 0).front [(5, demoHelper 0)]).isSome = true ∧
    (({ helperTurn [(0, g 0)] with clock := 1 }).takeGang 0 5 (demoHelper 0).front [(5, demoHelper 0)]).isSome = true ∧
    (demoHelper 0).front.hdr.isSome = true := by decide +kernel
theorem test_helper_turn : got (step (helperTurn [])) (fun t => (((t.group? 0).bind (·.recruit)).bind fun r => aget r.helpers 5).map fun h => sget 0#32 h.v 1) =
    some (some 5#32) ∧ got (step (helperTurn [(0, { clock := 0, key := 0, pc := 0x10010, helpers := [4] })])) (fun t =>
      (((t.group? 0).bind (·.recruit)).bind fun r => aget r.helpers 5).map fun h => sget 0#32 h.v 1) = some (some 0#32) := by decide +kernel
/-- A fragment that stands at the header of the demo clause. -/
def starting : State := parts [(0, { demoFrag 0 with hdr := none })] [] (State.reset.place ((encode (.movi 1#10 5#32 noG)).getD 0#64))
theorem witness_clause_turn : let f : Fragment := { demoFrag 0 with hdr := none }
    starting.agenda = [.issue fr] ∧ starting.front? fr = some f ∧ starting.mayIssue fr f = true ∧
    (parts [(0, { f with wait := .hjoin })] [] starting).mayIssue fr { f with wait := .hjoin } = false ∧
    starting.fetchWord 0 (starting.ptagOf (agKey fr)) f.clause = .inl (demoHeader 0) ∧ bits (demoHeader 0) 63 60 = 15 ∧ bits (demoHeader 0) 59 57 < 6 ∧
    (∀ lo ∈ [22, 29, 36, 43], bits (demoHeader 0) (lo + 6) lo < 80 ∨ bits (demoHeader 0) (lo + 6) lo = 127) ∧ starting.preemptAsked 0 = false ∧
    (starting.group? 0).any (fun g => g.ac == []) = true := by decide +kernel
theorem test_step_runs : got (step (State.reset.place ((encode (.movi 1#10 5#32 noG)).getD 0#64))) (·.rdReg fr 1 3) = some 5#32 := by decide +kernel
theorem test_clause_start : got (step starting) (fun t => ((t.front? fr).bind (·.hdr)).isSome) = some true := by decide +kernel
/-- O39: an instruction in a clause of another class; one that names a register the group has not; one that its agent does not admit; a
guard register that is EMPTY; no active lane; sources EMPTY under each policy; a destination that is EMPTY; a source in error; none of these. -/
theorem witness_checks : let s := demo (.iadd 0#10 (r 1#10) (r 2#10) .wrap (gd 1#4)) [(241 * 64 + 2, 1#32)]
    let sp : Spec := { aluSpec false (gd 1#4) [(r 1#10, 1), (⟨2#10, true⟩, 1)] 0#10 1 with cls := 0 }
    let tag (x : Nat) (t : RegTag) : State := withGroup (fun g => { g with tags := [(x, t)] }) s
    s.cur = some fr ∧ s.front? fr = some (demoFrag 0) ∧ (∀ r ∈ (opRegs sp.srcs).map (·.1) ++ dstRegs sp.dsts, s.regBusy fr r = false) ∧ sp.reads 4#64 = [(1, 4#64), (2, 4#64)] ∧ sp.ownErr = false ∧
    clauseRules (demoFrag 0) { sp with cls := 2 } = false ∧ clauseRules (demoFrag 0) sp = true ∧
    s.dstOk fr (640#10, 1) = false ∧ Spec.admits { sp with grp := false } fr = false ∧ sp.illop = false ∧
    ((tag 241 { empty := true }).rdTag fr (guardReg fr 1#4)).empty = true ∧ s.active fr (demoFrag 0) (gd 2#4) = 0#64 ∧
    s.active fr (demoFrag 0) (gd 1#4) = 4#64 ∧ (tag 1 { empty := true }).srcEmpty fr 1 = true ∧ agPolicy fr (1, false) = false ∧
    (tag 2 { empty := true }).srcEmpty fr 2 = true ∧ agPolicy fr (2, true) = true ∧ opRegs sp.srcs = (1, false) :: (2, true) :: [] ∧
    (tag 0 { lent := true }).dstHeld fr 0 = true ∧ ((tag 1 { poison := all16 }).rdTag fr 1).poison = all16 ∧ s.ready fr 4#64 sp = true := by
  decide +kernel
/-- O40: every kind of turn that the schedule can hold. O41: a step from memory in canonical form. -/
theorem witness_scheduled : Scheduled { State.reset with agenda := [.happen .thermalTrip] } ∧ Scheduled { State.reset with agenda := [.tick 0] } :=
  ⟨show encode .thermalTrip = none by decide +kernel, trivial⟩
theorem witness_step_from_form : Memory.wf State.reset.mem = true ∧ (got (step State.reset) (fun t => t.phase)) = some .up := by decide +kernel
/-! Queues, names, landing, and the links between panels. -/

/-- A queue-table entry in use: both rights, generation 0, port 0 of die 0 of panel 0, slot `n`. -/
def entryOf (n : Nat) : BitVec 64 := BitVec.ofNat 64 (2 ^ 63 + 2 ^ 56 + 2 ^ 55 + n * 2 ^ 23)
/-- A queue of process 1 with elements of 16 bytes and a window of 20. -/
def plainQ : Queue := { owner := 1#12, gen := 0#6, kind := 0, size := 0#3, window := 20, cellarBase := 0#48, cellarPages := 0, landing := none }
/-- A cask of process 1. -/
def cask : Queue := { plainQ with kind := 1, window := 4 }
/-- Entry 1 of the table of process 1 names the queue in slot 5, entry 2 the cask in slot 6. -/
def fabric (q c : Queue) (s : State) : State :=
  { s with queues := [(5, q), (6, c)] }.modDie 0 fun x =>
    { x with procs := [(1, { root := 0, qtab := 0x40000, qlen := 3 })], qcache := [(2 ^ 30 + 1, entryOf 5), (2 ^ 30 + 2, entryOf 6)] }
/-- The home of slot `n`. -/
def homeOf (n : BitVec 12) : QHome := { panel := 0#8, die := 0#7, port := 0#2, slot := n }
/-- A group about to issue `i` with s0 = the qid `q`, s2 = x and s3 = y; `n` of the reservation records are open. -/
def asking (i : Instr) (q x y : Word) (n : Nat) : State :=
  withGroup (fun g => { g with resv := (List.range n).map fun j => (j, { qid := 1#32, home := homeOf 5#12, gen := 0#6, next := 7#32, rem := 20 }) })
    (fabric plainQ cask (demo i [] [(0, q), (2, x), (3, y)]))

/-- A request of fragment 0 under number 3, the first of its stream. -/
def request (a : Ask) (slot : BitVec 12) : Msg :=
  { sender := .group 0 1 fr, qid := 1#32, home := homeOf slot, gen := 0#6, ptag := 1#12, stream := 0, seq := 0#32, ask := a, sent := 0, srcDie := 0
    arrived := some 0 }
/-- That request at its home port, whose queue is `q`, a clock after it came. -/
def atPort (a : Ask) (q : Queue) : State := { fabric q cask (demo .nop) with msgs := [(3, request a 5#12)], clock := 1 }
/-- An element of 16 bytes. -/
def elem (b : Byte) : Elem := { data := List.replicate 16 b, tag := 9#16 }
/-- A granted position that holds it. -/
def held (b : Byte) : QPos := { elem := some (elem b), inWin := true }
/-- What a waiting instruction of fragment 0 keeps: form `n`, destination v8 or s8. -/
def kept (n : Nat) (d : RegNo) : Pend := { form := n, key := 0, ag := fr, pc := 0x10008#48, act := 5#64, d := d, n := 4, rec_ := if n = 6 then some 20#10 else none }
/-- Fragment 0 waits for request 3. -/
def waiting (w : Wait) (p : Pend) (s : State) : State :=
  { parts [(0, { demoFrag 3 with wait := w })] [] s with pends := [(3, p)] }

theorem test_qres_sends : got (exec (.qres 260#10 (r 256#10) (r 258#10) noG) (asking (.qres 260#10 (r 256#10) (r 258#10) noG) 1#32 3#32 0#32 0)) (fun t =>
    (t.msgs.map fun e => (e.2.qid, e.2.home, e.2.ask), (t.front? fr).map fun f => f.wait == .answer 2)) =
    some ([(1#32, homeOf 5#12, .reserve 3)], some true) := by decide +kernel
theorem test_qres_noentry : parkOf (exec (.qres 260#10 (r 256#10) (r 258#10) noG) (asking (.qres 260#10 (r 256#10) (r 258#10) noG) 9#32 3#32 0#32 0)) =
    some (35, 9) := by decide +kernel
theorem test_qstat_r : got (exec (.qstatR 260#10 (r 258#10) noG) (asking (.qstatR 260#10 (r 258#10) noG) 1#32 0#32 0#32 1)) (fun t =>
    (t.rdReg fr 260 0, t.rdReg fr 261 0)) = some (0x80000014#32, 7#32) := by decide +kernel
theorem test_reservation : got (exec (.reservationRequest 3) (atPort (.reserve 30) { plainQ with head := 7#32, tail := 7#32 })) (fun t =>
    (aget t.answers 3, (aget t.queues 5).map fun q => (q.head, q.tail, q.pos.length))) = some (some (.granted 7#32 20), some (7#32, 27#32, 20)) := by
  decide +kernel
theorem test_put_data : got (exec (.putDataArrival 3) (atPort (.put 0#3 1#32 [elem 8#8]) { plainQ with tail := 2#32, pos := [{ inWin := true }, { inWin := true }] }))
    (fun t => (aget t.queues 5).map fun q => q.pos.map (·.elem)) = some (some [none, some (elem 8#8)]) := by decide +kernel
/-- Two elements to a destination of two registers a lane at v8; the receipt word at v20. -/
def served : Host.Outcome State Fault Refusal :=
  exec (.getRequest 3) (waiting (.get 3) (kept 6 8#10) (atPort (.get 0#3 2 false) { plainQ with tail := 3#32, pos := [held 1#8, held 2#8, held 3#8] }))
theorem test_get_served : got served (fun t => (t.rdReg fr 8 0, t.rdReg fr 11 2)) = some (0x01010101#32, 0x02020202#32) ∧
    got served (fun t => (t.rdReg fr 20 2, (t.rdTag fr 8).empty)) = some (0x10009#32, false) ∧
    got served (fun t => (aget t.queues 5).map fun q => (q.head, q.pos.length)) = some (some (2#32, 1)) := by decide +kernel
theorem test_get_sleeps : got (exec (.getRequest 3) (waiting (.get 3) (kept 6 8#10) (atPort (.get 0#3 2 false) { plainQ with tail := 1#32, pos := [held 1#8] })))
    (fun t => ((aget t.queues 5).map (·.waiters), (aget t.msgs 3).map (·.linked))) = some (some [3], some true) := by decide +kernel
theorem test_answer : got (exec (.queueAnswer 3) (waiting (.answer 3) (kept 2 264#10) { atPort (.reserve 0) plainQ with answers := [(3, .full)] })) (fun t =>
    (t.rdReg fr 264 0, (t.front? fr).map (·.clause), t.pends.length)) = some (0x10000000#32, some 0x10010#48, 0) := by decide +kernel
theorem test_answer_refused : parkOf (exec (.queueAnswer 3) (waiting (.answer 3) (kept 2 264#10) { atPort (.reserve 0) plainQ with answers := [(3, .refuse 4)] })) =
    some (35, 1) := by decide +kernel

/-! Witnesses of the statements O43 to O49. -/

/-- O43: a queue instruction whose checks pass, whose qid translates for each right and kind; records none, open and all open. -/
theorem witness_qres : let i : Instr := .qres 260#10 (r 256#10) (r 258#10) noG
    (asking i 1#32 0xFFFF#32 0#32 3).ready fr all16 (queSpec noG [(r 256#10, 1), (r 258#10, 1)] [(260#10, 2)] false [0, 1]) = true ∧
    (asking i 1#32 0#32 0#32 0).ready fr all16 (queSpec noG [(r 256#10, 1), (r 258#10, 1)] [(260#10, 2)] false [0, 1]) = true ∧
    (asking i 1#32 3#32 0#32 4).ready fr all16 (queSpec noG [(r 256#10, 1), (r 258#10, 1)] [(260#10, 2)] false [0, 1]) = true ∧
    (asking i 1#32 3#32 0#32 4).resvBusy 0 = 4 ∧ (asking i 1#32 3#32 0#32 3).resvBusy 0 < 4 ∧ (demoFrag 3).fenceInv = false ∧
    (asking i 1#32 3#32 0#32 3).front? fr = some (demoFrag 3) ∧ (asking i 1#32 3#32 0#32 3).fenceHeld fr (demoFrag 3) = false ∧
    (asking i 1#32 3#32 0#32 3).agRoom fr 1#32 = true ∧ (asking i 1#32 3#32 0#32 3).earlier fr (demoFrag 3) = [] := by decide +kernel
theorem witness_translations : let s := asking (.qres 260#10 (r 256#10) (r 258#10) noG) 1#32 3#32 0#32 1
    bits (1#32) 31 30 ≠ 3 ∧ bits (0x40000002#32) 31 30 ≠ 3 ∧
    s.transQ 0 (s.ptagOf 0) 1#32 .produce true [0] = .ok (homeOf 5#12, 0#6) ∧ s.transQ 0 (s.ptagOf 0) 1#32 .either true [0, 1] = .ok (homeOf 5#12, 0#6) ∧
    s.transQ 0 (s.ptagOf 0) 1#32 .consume true [0, 1] = .ok (homeOf 5#12, 0#6) ∧
    s.transQ 0 (s.ptagOf 0) 0x40000002#32 .produce true [1] = .ok (homeOf 6#12, 0#6) := by decide +kernel
theorem witness_records : let s := asking (.qcan 260#10 (r 258#10) noG) 1#32 0#32 0#32 1
    s.ready fr all16 (queSpec noG [(r 258#10, 1)] [(260#10, 1)] false) = true ∧ s.ready fr all16 (queSpec noG [(r 258#10, 1)] [(260#10, 4)] true) = true ∧
    s.ready fr all16 (queSpec noG [(r 258#10, 1)] [(260#10, 2)] true) = true ∧ (s.resvOf fr 0).any (fun x => x.rem == 20 && s.agRoom fr x.qid) = true ∧
    s.resvHeld fr 0 = false ∧ popMask all16 ≤ 20 := by decide +kernel
theorem witness_puts : let s := asking (.qput 260#10 (r 256#10) (r 8#10) (r 257#10) .s64 false noG) 0#32 0x3F80#32 2#32 1
    s.ready fr all16 { queSpec noG [(r 256#10, 1), (r 8#10, SizeCode.bytes .s64 / 4), (r 257#10, 1)] [(260#10, 1)] false with illop := !s.elemBase 8#10 .s64 } = true ∧
    s.ready fr all16 { queSpec noG [(r 256#10, 1), (r 8#10, SizeCode.bytes .s64 / 4), (r 257#10, 1)] [(260#10, 1)] true with illop := !s.elemBase 8#10 .s64 } = true ∧
    s.ready fr all16 (queSpec noG [(r 256#10, 1), (r 258#10, 2), (r 257#10, 1)] [(260#10, 1)] false (putLone true)) = true ∧
    s.ready fr all16 (queSpec noG [(r 256#10, 1), (r 258#10, 2), (r 257#10, 1)] [(260#10, 1)] true (putLone true)) = true ∧
    s.ready fr all16 (queSpec noG [(r 256#10, 1), (r 258#10, 1), (r 8#10, 1)] [(260#10, 1)] true [0, 1]) = true ∧
    (s.team? 0 0).any (fun t => t.localPoison == [] && t.localUe == []) = true ∧ (s.src fr (r 258#10) 0 0).toNat = 0x3F80 ∧
    bits (s.src fr (r 258#10) 1 0) 15 0 = 2 ∧ 0x3F80 % 16 = 0 ∧ 0x3F80 + 2 * SizeCode.bytes .s64 ≤ s.localLimit fr ∧ s.rangeBusy 0 0 0x3F80 (2 * SizeCode.bytes .s64) = false ∧
    (s.nextSeq fr 0x40000002#32).1.agRoom fr 0x40000002#32 = true := by decide +kernel
theorem witness_gets : let s := asking (.qget 8#10 (r 256#10) (some (r 258#10)) (some 24#10) .s64 noG) 1#32 0#32 0#32 0
    s.ready fr all16 { queSpec noG [(r 256#10, 1), (r 258#10, 1)] [(8#10, 16), (24#10, 1)] false with
      illop := !s.elemBase 8#10 .s64 || !receiptOk 24#10 8#10 16 } = true ∧
    s.ready fr all16 { queSpec noG [(r 256#10, 1)] [(8#10, 16)] false with illop := !s.elemBase 8#10 .s64 } = true ∧
    s.ready fr all16 { queSpec noG [(r 256#10, 1)] [(8#10, 16), (24#10, 1)] true with illop := !s.elemBase 8#10 .s64 || !receiptOk 24#10 8#10 16 } = true := by
  decide +kernel

/-- O43: a qid of KIND 0b11. -/
theorem witness_kind : let s := asking (.qres 260#10 (r 256#10) (r 258#10) noG) 0xC0000001#32 3#32 0#32 0
    bits (s.src fr (r 256#10) 0 0) 31 30 = 3 ∧ s.agRoom fr 0xC0000001#32 = true ∧
    s.ready fr all16 (queSpec noG [(r 256#10, 1), (r 258#10, 1)] [(260#10, 2)] false [0, 1]) = true ∧
    s.ready fr all16 (queSpec noG [(r 256#10, 1)] [(260#10, 4)] true) = true := by decide +kernel
/-- The demo group named by the cask in slot 6. -/
def named (s : State) : State :=
  withGroup (fun g => { g with name := some (0x40000002#32, 6), tags := [(7, { empty := true, arm := 3#64 })] })
    { s with queues := aput s.queues 6 { cask with bound := some (0, 0x40000002#32) } }
/-- O44: GNAME of a named group, with no cask left, and with a free one; GFREE without and with a name; AWAIT of every form. -/
theorem witness_gname : let s := asking (.gname 260#10 noG) 0#32 0#32 0#32 0
    s.ready fr all16 (queSpec noG [] [(260#10, 1)] false) = true ∧ (named s).ready fr all16 (queSpec noG [] [(260#10, 1)] false) = true ∧
    ((named s).group? 0).bind (·.name) = some (0x40000002#32, 6) ∧ ((s.group? 0).bind (·.name)) = none ∧ s.findCask 0 (s.ptagOf 0) = some (2, 6) ∧
    (aget s.queues 6).isSome = true ∧ (named s).findCask 0 (s.ptagOf 0) = none ∧ { s with queues := [] }.findCask 0 (s.ptagOf 0) = none := by decide +kernel
theorem witness_gfree : let s := asking (.gfree noG) 0#32 0#32 0#32 0
    s.ready fr all16 (queSpec noG [] [] false) = true ∧ (named s).ready fr all16 (queSpec noG [] [] false) = true ∧
    ((named s).group? 0).any (fun g => decide (g.tags.map (·.1)).Nodup) = true := by decide +kernel
theorem witness_await : let s := named (asking (.await 8#10 .all noG) 0xFFFF#32 0#32 0#32 0)
    (∀ a ∈ [.one (r 256#10), .pair (r 256#10), .all], s.ready fr all16 { queSpec noG (awaitSrcs a) [(8#10, 1)] false with
      illop := decide (recNv (s.recOf 0) ≤ (8#10 : RegNo).toNat) || ((s.group? 0).map fun g => g.name.isNone).getD true } = true) ∧
    fullMask (s.width fr) = all16 := by decide +kernel
theorem test_gname_binds : got (exec (.gname 260#10 noG) (asking (.gname 260#10 noG) 0#32 0#32 0#32 0)) (fun t =>
    (t.rdReg fr 260 0, (aget t.queues 6).bind (·.bound))) = some (0x40000002#32, some (0, 0x40000002#32)) := by decide +kernel
theorem test_await_arms : got (exec (.await 8#10 .all noG) (named (asking (.await 8#10 .all noG) 0#32 0#32 0#32 0))) (fun t =>
    ((t.rdTag fr 8).empty, (t.rdTag fr 8).arm)) = some (true, all16) := by decide +kernel

/-- O45: a request whose turn it is at its home port; a queue with room, a full one and one with two granted positions; one of another
process; an element on its way from the cellar. -/
theorem witness_port : let s := atPort (.reserve 30) plainQ
    aget s.msgs 3 = some (request (.reserve 30) 5#12) ∧ s.canServe 3 (request (.reserve 30) 5#12) = true ∧ (request (.reserve 30) 5#12).dead = false ∧
    s.homeCheck (homeOf 5#12) 1#12 0#6 false = .ok (5, plainQ) ∧ 0 < min 30 plainQ.free ∧ s.homeCheck (homeOf 5#12) 2#12 0#6 false = .error (.refuse 4) ∧
    s.homeCheck (homeOf 5#12) 1#12 1#6 false = .error .stale ∧ { plainQ with pos := List.replicate 20 (held 1#8) }.free = 0 ∧
    (1#3 : BitVec 3) ≠ plainQ.size ∧ [elem 1#8, elem 2#8].length ≤ plainQ.free := by decide +kernel
theorem witness_port_plain : ({ plainQ with pos := [held 1#8, { inWin := true }] } : Queue).plain ∧ (elem 8#8).void = false ∧
    ((1#32 : BitVec 32) - 0#32).toNat + [elem 8#8].length ≤ [held 1#8, { inWin := true }].length := by
  refine ⟨⟨rfl, by decide, ?_⟩, rfl, by decide⟩
  intro p hp
  simp only [List.mem_cons, List.not_mem_nil, or_false] at hp
  rcases hp with rfl | rfl <;> exact ⟨rfl, rfl, rfl⟩
theorem witness_cellar : let q : Queue := { plainQ with window := 2, cellarPages := 1, pos := [held 1#8, { held 2#8 with moving := true }] }
    q.waiters = [] ∧ q.pos[1]?.map (·.moving) = some true ∧ q.pos[0]?.map (·.moving) = some false ∧
    (∀ y ∈ q.pos, y.isVoid = false ∧ y.inWin = true) ∧ queueKey 0 0 5 = 5 := by decide +kernel
/-- A cellar page of process 1 at 0x20000, and a queue whose third position lies in it: granted and not filled, or on its way. -/
def cellarQ (e : Option Elem) (m : Bool) : Queue :=
  { plainQ with window := 2, cellarPages := 1, cellarBase := 0x20000#48, pos := [held 1#8, held 2#8, { elem := e, inWin := m, moving := m }] }
theorem witness_cellar_plan : let s := withPage 1 (fabric (cellarQ none false) cask (demo .nop))
    s.cellarPlan 5 (cellarQ none false) 2#32 16 = some (spanCuts 0x20020 16 16) ∧ 0x20020 + 16 ≤ 2 ^ 36 ∧ s.poison = [] ∧ s.ue = [] ∧ s.portBusy 5 = false ∧
    s.bulkBusy 0 (spanCuts 0x20020 16 16) = false ∧ (cellarQ (some (elem 3#8)) true).pos.all (fun y => !y.isVoid && y.inWin) = true ∧
    (2#32 - (cellarQ none false).head).toNat = 2 := by decide +kernel
theorem test_cellar : let s := withPage 1 (fabric (cellarQ none false) cask (demo .nop))
    ((s.fillQueue 5 (cellarQ none false) 2#32 [elem 3#8]).stackRead 0 0x20020 4) = 0x03030303 ∧
    got (exec (.cellarMoveComplete 0 0 5) ((withPage 1 (fabric (cellarQ (some (elem 3#8)) true) cask (demo .nop))).stackWrite 0 0x20020 (List.replicate 16 9#8)))
      (fun t => (aget t.queues 5).map fun q => q.pos.map fun p => (p.elem.map (·.data), p.moving)) =
      some (some [(some (List.replicate 16 1#8), false), (some (List.replicate 16 2#8), false), (some (List.replicate 16 9#8), false)]) := by decide +kernel
/-- O46: a get whose elements stand at HEAD, one whose do not, a later try of a get that is not linked, and QSTAT.q. -/
theorem witness_get : let q : Queue := { plainQ with tail := 3#32, pos := [held 1#8, held 2#8, held 3#8] }
    let s := waiting (.get 3) (kept 6 8#10) (atPort (.get 0#3 2 false) q)
    (s.group? 0).any (fun g => aget g.frags 0 == some { demoFrag 3 with wait := .get 3 }) = true ∧ s.canServe 3 (request (.get 0#3 2 false) 5#12) = true ∧
    s.homeCheck (homeOf 5#12) 1#12 0#6 true = .ok (5, q) ∧ aget s.pends 3 = some (kept 6 8#10) ∧ 0#3 = q.size ∧ 2 ≤ q.window ∧ 2 = popMask (kept 6 8#10).act ∧
    s.preemptAsked 0 = false ∧ q.waiters = [] ∧ takeFrom q.pos 2 = some ([elem 1#8, elem 2#8], [held 3#8]) ∧
    ((kept 6 8#10).d.toNat + (kept 6 8#10).n ≤ 256) ∧ (kept 6 8#10).rec_ = some 20#10 ∧ ¬(8 ≤ (20#10 : RegNo).toNat ∧ (20#10 : RegNo).toNat < 12) ∧
    takeFrom [held 1#8] 2 = none ∧ s.portWaiters 0 < 2048 := by decide +kernel
/-- O46: a try of two lanes where one element stands, and one that finds none; a get with expected tags, met and not met; the way back up. -/
theorem witness_try : let q : Queue := { plainQ with tail := 1#32, pos := [held 1#8] }
    let s := waiting (.answer 3) (kept 7 8#10) (atPort (.get 0#3 2 true) q)
    s.canServe 3 (request (.get 0#3 2 true) 5#12) = true ∧ s.backUp (request (.get 0#3 2 true) 5#12) = true ∧ takeUpTo q.pos 2 = ([elem 1#8], []) ∧
    takeUpTo ([] : List QPos) 2 = ([], []) ∧ (kept 7 8#10).act = 5#64 := by decide +kernel
theorem test_try : let s := waiting (.answer 3) (kept 7 8#10) (atPort (.get 0#3 2 true) { plainQ with tail := 1#32, pos := [held 1#8] })
    got (exec (.getRequest 3) s) (fun t => (t.rdReg fr 8 0, t.rdReg fr 8 2, (aget t.queues 5).map (·.pos.length))) = some (0x01010101#32, 0#32, some 0) ∧
    got (exec (.getRequest 3) s) (fun t => ((t.front? fr).map (·.clause), (aget t.queues 5).map (·.waiters))) = some (some 0x10010#48, some []) := by
  decide +kernel
/-- Lane 0 expects tag 9 and lane 2 tag 7. -/
def wanting : State :=
  waiting (.get 3) { kept 6 8#10 with want := some [(0, 9#16), (2, 7#16)] }
    (atPort (.get 0#3 2 false) { plainQ with tail := 3#32, pos := [held 1#8, held 2#8, held 3#8] })
theorem witness_tags : (aget wanting.pends 3).any (fun p => p.want == some [(0, 9#16), (2, 7#16)]) = true ∧ lanesOf 5#64 = [0, 2] ∧
    ([(0, elem 1#8), (2, elem 2#8)].filter fun x => match aget [(0, 9#16), (2, 7#16)] x.1 with
      | some t => t != x.2.tag
      | none => false) = [(2, elem 2#8)] := by decide +kernel
theorem test_tagmismatch : parkOf (exec (.getRequest 3) wanting) = some (11, 7 * 65536 + 9) := by decide +kernel
theorem witness_resend : let m : Msg := { request (.get 0#3 2 false) 5#12 with accepted := true }
    let s := { waiting (.get 3) (kept 6 8#10) (atPort (.get 0#3 2 false) plainQ) with msgs := [(3, m)], clock := 1024 }
    aget s.msgs 3 = some m ∧ m.linked = false ∧ m.out = false ∧ m.lastTry + 1024 ≤ s.clock ∧ takeFrom plainQ.pos 2 = none ∧
    aget s.answers 3 = none ∧ s.pathUp m = true ∧ s.portBusy 5 = false ∧ s.backUp m = true := by decide +kernel
theorem test_resend : let m : Msg := { request (.get 0#3 2 false) 5#12 with accepted := true }
    let s := { waiting (.get 3) (kept 6 8#10) (atPort (.get 0#3 2 false) plainQ) with msgs := [(3, m)], clock := 1024 }
    got (exec (.waiterResend 3) s) (fun t => ((aget t.queues 5).map (·.waiters), (aget t.msgs 3).map (·.linked))) = some (some [3], some true) := by
  decide +kernel
theorem witness_stat : let s := atPort .stat plainQ
    s.canServe 3 (request .stat 5#12) = true ∧ (request .stat 5#12).accepted = false ∧ s.homeCheck (homeOf 5#12) 1#12 0#6 true = .ok (5, plainQ) := by
  decide +kernel
/-- O47: an answer of each kind to a waiting instruction; a refusal; a request without answer for 2^24 clocks. -/
theorem witness_answer : let s := waiting (.answer 3) (kept 2 264#10) { atPort (.reserve 0) plainQ with answers := [(3, .full)], clock := 2 ^ 24 }
    aget s.pends 3 = some (kept 2 264#10) ∧ (kept 2 264#10).form < 6 ∧ (kept 2 264#10).act ≠ 0#64 ∧ s.answerFree (kept 2 264#10) 1 = true ∧
    s.answerFree (kept 0 8#10) 2 = true ∧ s.backUp (request (.reserve 0) 5#12) = true ∧ (s.group? 0).any (fun g => g.recruit == none) = true ∧ (s.group? 0).any (fun g => !g.ended && aget g.resv 0 == none) = true ∧ aget s.answers 3 = some .full ∧
    (request (.reserve 0) 5#12).sent + 2 ^ 24 ≤ s.clock ∧ (request (.reserve 0) 5#12).ask.isFill = false ∧ (request (.reserve 0) 5#12).accepted = false ∧
    aget { s with answers := [] }.answers 3 = none := by decide +kernel
theorem witness_answer_record : let s := asking (.qcan 260#10 (r 258#10) noG) 1#32 0#32 0#32 1
    (s.group? 0).any (fun g => (aget g.resv 0).any fun x => decide (19 < x.rem)) = true ∧ (kept 1 264#10).handle < 4 := by decide +kernel
/-- O47: the answers that QTRY, QSTAT.q and the others take, and elements that waited on their way. -/
theorem witness_answer_kinds : let q : Queue := { plainQ with tail := 1#32, pos := [held 1#8] }
    let s := waiting (.answer 3) (kept 7 8#10) { atPort (.get 0#3 2 true) q with answers := [(3, .served [elem 1#8])] }
    aget s.answers 3 = some (.served [elem 1#8]) ∧ (kept 7 8#10).form = 7 ∧ s.backUp (request (.get 0#3 2 true) 5#12) = true ∧
    s.answerFree (kept 4 264#10) 4 = true ∧ (kept 3 264#10).form = 3 ∧ [elem 1#8].all (fun x => x.data.length == 16) = true := by decide +kernel
theorem test_answer_served : got (exec (.queueAnswer 3) (waiting (.answer 3) (kept 7 8#10) { atPort (.get 0#3 2 true) plainQ with answers := [(3, .served [elem 1#8])] }))
    (fun t => (t.rdReg fr 8 0, t.rdReg fr 8 2, (t.front? fr).map (·.clause))) = some (0x01010101#32, 0#32, some 0x10010#48) ∧
    got (exec (.queueAnswer 3) (waiting (.answer 3) (kept 4 264#10) { atPort .stat plainQ with answers := [(3, .stat [1#32, 2#32, 3#32, 4#32])] }))
      (fun t => [264, 265, 266, 267].map fun x => t.rdReg fr x 0) = some [1#32, 2#32, 3#32, 4#32] ∧
    got (exec (.queueAnswer 3) (waiting (.answer 3) (kept 2 264#10) { atPort (.reserve 0) plainQ with answers := [(3, .stale)] }))
      (fun t => t.rdReg fr 264 0) = some 0x20000000#32 := by decide +kernel
/-- A port's put of a fault element. -/
def portPut (c : PortPut) : Msg := { request (.qrp none [elem 1#8]) 5#12 with sender := .port 0 0, qid := 0#32, carry := some c }
theorem witness_port_put : let s := { fabric plainQ cask (demo .nop) with msgs := [(3, portPut (.fault 1#12 [1#8]))], answers := [(3, .full)] }
    aget s.msgs 3 = some (portPut (.fault 1#12 [1#8])) ∧ (portPut (.fault 1#12 [1#8])).sender = .port 0 0 ∧
    (agetD (s.die 0).overflow 1 []).length < 256 ∧ (portPut (.overflow 1#12)).carry = some (.overflow 1#12) := by decide +kernel
/-- Entry 0 of the table of process 1 names the queue in slot 5, and an element of its list waits. -/
def overflowing : State := (fabric plainQ cask (demo .nop)).modDie 0 fun x => { x with qcache := aput x.qcache (2 ^ 30) (entryOf 5), overflow := [(1, [[1#8], [2#8]])] }
/-- O47: a stream with no request unanswered, and one of a die whose puts wait. -/
theorem witness_put_room : overflowing.streamRoom (.port 0 0) 1#12 0#32 = true ∧ (overflowing.die 0).putWait = [] := by decide +kernel
theorem witness_overflow : agetD (overflowing.die 0).overflow 1 [] = [1#8] :: [[2#8]] ∧ overflowing.transQ 0 1#12 0#32 .none false [0] = .ok (homeOf 5#12, 0#6) ∧
    overflowing.msgs = [] := by decide +kernel
theorem test_overflow_put : got (exec (.faultOverflowPut 0 1) overflowing) (fun t => t.msgs.map fun e => (e.2.sender, e.2.qid)) = some [(.port 0 0, 0#32)] := by
  decide +kernel

/-- O48: a queue bound to the rings at 0x100 and 0x300 of team 0, with an element at HEAD. -/
def bindingOf (n : Nat) : Landing := { tag := recTag demoRec, team := 0#32, ring0 := 0x100, ring1 := some 0x300, slots := 4, active := some 0, delivered := n }
def landingQ (n : Nat) : Queue := { plainQ with landing := some (bindingOf n), tail := 1#32, pos := [held 8#8] }
def ringing (n : Nat) : State :=
  (fabric (landingQ n) cask (demo .nop)).modDie 0 fun x => { x with shares := [(0, { recd := demoRec, map := 0#256, ptag := 1#12, priv := true, preds := [] })] }
theorem witness_ring : aget (ringing 0).queues (queueKey 0 0 5) = some (landingQ 0) ∧ (landingQ 0).waiters = [] ∧ (landingQ 0).kind ≠ 1 ∧
    ((ringing 0).team? 0 0).any (fun t => t.saved == none && t.localPoison == [] && t.localUe == [] &&
      decide ((ringing 0).shareByTag 0 1#12 (recTag demoRec) = (aget ((ringing 0).die 0).shares 0).map fun x => (t.share, x)) &&
      (landingQ 0).ringsOk (bindingOf 0) (recL t.recd) && [0x100, 0x300].all fun a => decide ((0 + 2 ^ 32 - t.localRead (a + 0x20) 4) % 2 ^ 32 < 4)) = true ∧
    (elem 8#8).data.length = (landingQ 0).elemSize ∧ ([0x100, 0x300].all fun a => !(ringing 0).rangeBusy 0 0 a 64 && !(ringing 0).rangeBusy 0 0 (a + 0x40) 16) = true ∧
    (ringing 0).portBusy (queueKey 0 0 5) = false := by decide +kernel
theorem test_ring_delivery : got (exec (.ringDelivery 0 0 5) (ringing 0)) (fun t => (t.team? 0 0).map fun m =>
      (m.localRead 0x100 4, m.localRead 0x300 4)) = some (some (1, 1)) ∧
    got (exec (.ringDelivery 0 0 5) (ringing 0)) (fun t => (t.team? 0 0).map fun m => (m.localByte 0x140, m.localByte 0x34F, m.localByte 0x350)) =
      some (some (8#8, 8#8, 0#8)) ∧
    got (exec (.ringDelivery 0 0 5) (ringing 0)) (fun t => (aget t.queues 5).map fun q => (q.head, q.pos.length)) = some (some (1#32, 0)) := by decide +kernel
/-- A register put of 7 to lane 3 of v9. -/
def regPut : Elem := { data := bytesOf 8 (9 * 2 ^ 56) ++ bytesOf 8 8 ++ bytesOf 4 7 ++ List.replicate 252 0#8, tag := 0#16 }
/-- The cask of the named demo group with an element at HEAD; the lanes armed. -/
def caskHolding (e : Elem) (arm : Mask) : State :=
  let s := withGroup (fun g => { g with tags := [(9, { empty := true, arm := arm })] }) (named (fabric plainQ cask (demo .nop)))
  { s with queues := [(6, { cask with bound := some (0, 0x40000002#32), tail := 1#32, pos := [{ elem := some e, inWin := true }] })] }
theorem witness_register_put : regPut.target = (9, 0, [3]) ∧ regPut.putOk demoRec = true ∧
    ((caskHolding regPut 8#64).group? 0).any (fun g => (g.tag 9).arm.getLsbD 3 && !(g.tag 9).filled.getLsbD 3) = true ∧
    ((caskHolding regPut 4#64).group? 0).any (fun g => !(g.tag 9).arm.getLsbD 3) = true ∧ { regPut with data := bytesOf 16 (2 ^ 127) }.putOk demoRec = false ∧
    ((caskHolding regPut 8#64).teamOf? 0).any (fun t => t.saved == none) = true := by decide +kernel
/-- O48: an element whose producer's earlier one has not arrived stays, though its lane is armed. -/
def outrun : State :=
  let s := caskHolding regPut 8#64
  { s with queues := [(6, { cask with bound := some (0, 0x40000002#32), tail := 2#32, pos := [{ inWin := true }, { elem := some regPut, inWin := true }] })] }
theorem witness_outrun : (aget outrun.queues 6).any (fun q => q.pos == [{ elem := none, inWin := true, prodId := 0 }, { elem := some regPut, inWin := true, prodId := 0 }]) = true ∧
    regPut.prodId = 0 ∧ got (exec (.registerPutLanding 0 0 6) outrun) (fun t => (t.rdReg fr 9 3, (aget t.queues 6).map (·.pos.length))) = some (0#32, some 2) := by
  decide +kernel
theorem test_register_put : got (exec (.registerPutLanding 0 0 6) (caskHolding regPut 8#64)) (fun t => (t.rdReg fr 9 3, (t.rdTag fr 9).empty)) =
      some (7#32, false) ∧
    got (exec (.registerPutLanding 0 0 6) (caskHolding regPut 12#64)) (fun t => (t.rdReg fr 9 3, (t.rdTag fr 9).empty)) = some (7#32, true) ∧
    got (exec (.registerPutLanding 0 0 6) (caskHolding regPut 4#64)) (fun t => (aget t.queues 6).map (·.pos.length)) = some (some 1) := by decide +kernel

/-- O49: links in every state that a clause names. -/
def wire : WireMsg :=
  { op := 0#8, srcPanel := 3#8, dstPanel := 2#8, srcDie := 0#8, uid := 4, qid := 1#32, die := 0#7, port := 0#2, slot := 5#12, gen := 0#6, ptag := 1#12, seq := 0#32,
    size := 7#3, count := 1#16, pos := 0#32, elems := [], prod := [] }
/-- That message on its way from die 0. -/
def passing : Passing := { src := some 0, msg := wire }
def linked (x : Link) : State :=
  { demo .nop with links := [(9, x)], routes := some ([0#8, 0#8, 0x89#8] ++ List.replicate 253 0#8), transit := [(3, passing)],
                   msgs := [(4, { request (.reserve 3) 5#12 with home := { homeOf 5#12 with panel := 2#8 } })] }.modDie
    (stackOwner (routerSite 9)) fun v => { v with live := true }
theorem witness_forward : let s := linked { up := true }
    aget s.links 9 = some { up := true } ∧ aget s.transit 3 = some passing ∧ s.linkTo wire.dstPanel = some 9 ∧ s.wayOut 0 (routerSite 9) = true ∧ aget s.transit 4 = none ∧
    (aget s.msgs 4).any (fun m => !m.out && m.home.panel != s.panelNo && decide (s.linkTo m.home.panel = some 9) && !s.connWaits m) = true ∧
    (s.manager 9).isSome = true ∧ ({ s with dies := [] }).manager 9 = none := by decide +kernel
theorem test_forward : got (exec (.elementForward 3) (linked { up := true })) (fun t => (t.transit, t.wireOut)) =
      some ([], [(9, { epoch := 0#8, counter := 0#56, load := .msg wire 0 })]) ∧
    got (exec (.elementForward 3) (linked {})) (fun t => t.wireOut) = some [] := by decide +kernel
/-- O49: the way to the link's router down; a frame to send again; counters at the ends of their ranges. -/
theorem witness_way_down : let p := linkKey 0 (portOut 0 (routerSite 9))
    ({ linked { up := true } with d2dDown := [p] }).wayOut 0 (routerSite 9) = false ∧ (linked { up := true }).physDie? 0 = some 0 := by decide +kernel
def replaying : State :=
  { linked { up := true, txCount := 5 } with wireOut := [(9, { epoch := 0#8, counter := 4#56, load := .msg wire 0 })], agenda := [.replay 0] }
theorem witness_replay : replaying.wireOut[0]? = some (9, { epoch := 0#8, counter := 4#56, load := .msg wire 0 }) ∧
    (aget replaying.links 9).any (fun x => x.up && !x.txStopped && !x.confirmed && decide (x.txCount < 2 ^ 48)) = true := by decide +kernel
theorem test_replay : got (step replaying) (fun t => t.wireOut.map fun e => e.2.counter) = some [4#56, 5#56] := by decide +kernel
/-- O49: a request of another panel: of this panel's stream in its range, and for a third panel. -/
theorem witness_far_request : (0#32 - sget 0#32 (linked { up := true }).expects 0).toNat < 65536 ∧ wire.op.toNat < 8 ∧ wire.dstPanel ≠ (linked {}).panelNo ∧
    { wire with dstPanel := 0#8 }.dstPanel = (linked {}).panelNo := by decide +kernel
theorem witness_rekey : let x : Link := { up := true, txCount := 2 ^ 48, txKey := [1#8] }
    let y : Link := { x with txNext := some [2#8], txCount := 2 ^ 48 + 2 ^ 20 }
    x.txStopped = false ∧ x.txNext = none ∧ 2 ^ 48 ≤ x.txCount ∧ y.txNext.isSome = true ∧ y.confirmed = false ∧ 2 ^ 48 + 2 ^ 20 ≤ y.txCount ∧
    ({ up := true } : Link).txCount < 2 ^ 48 := by decide
theorem test_rekey_stop : got (exec (.rekeyStop 9) (linked { up := true, txNext := some [2#8], txCount := 2 ^ 48 + 2 ^ 20 })) (fun t => t.linkOpen 9) = some false ∧
    (let y : Link := ({ up := true, txNext := some [2#8], confirmed := true } : Link).frameOut
     (y.txKey, y.txEpoch, y.txCount) = ([2#8], 1, 1)) := by decide +kernel
/-- O49: the values a frame's tag is verified over; whether it verifies is free, and each outcome has a clause of its own. -/
theorem witness_frame_received : ∀ b : Bool, (∃ x : Bool, x = b) ∧ ({ up := true, rxHigh := some 4 } : Link).rxHigh = some 4 ∧ (4 < 5) ∧ ¬(4 < 4) := by decide
/-- O49: a manager of link 0, whose link is in training and whose link is up. -/
theorem witness_training : let s := { demo .nop with links := [(0, { training := some (0, true) })] }.modDie (stackOwner (routerSite 0)) fun x => { x with live := true }
    s.manager 0 = some (stackOwner (routerSite 0)) ∧ (s.die (stackOwner (routerSite 0))).rasQ.length < 4352 ∧
    (aget s.links 0).any (fun x => x.training == some (0, true) && !x.txStopped) = true ∧ s.clock < 0 + 400000000 ∧ (s.die (stackOwner (routerSite 0))).cmdBusy = none := by
  decide +kernel
theorem test_training_timeout : let s := { demo .nop with links := [(0, { training := some (0, false) })], clock := 400000000 }.modDie (stackOwner (routerSite 0)) fun x => { x with live := true }
    got (exec (.linkTrainingTimeout true 0) s) (fun t => ((aget t.links 0).map fun x => (x.up, x.training),
      (t.die (stackOwner (routerSite 0))).rasQ.map fun e => (e.kind, e.struct_, e.unit))) = some (some (false, none), [(3, 8, 0)]) := by decide +kernel

/-! Helpers, the tun and the sequencer. -/

/-- A lone lane about to recruit at most 9 helpers for iterations 4 to 9 at a landing header at 0x10040; the HJOIN follows. -/
def recruiting : State :=
  let f : Fragment := { demoFrag 3 with hdr := some (demoHeader 3 ||| 0x20000000000000#64), mask := 1#64 }
  parts [(0, f)] []
    (((demo (.recruit 260#10 (r 256#10) (r 258#10) (r 262#10) 1#4 noG) [] [(0, 4#32), (1, 10#32), (2, 0x10040#32), (6, 9#32)]).stackWrite 0 0x10010
      (wordBytes ((encode (.hjoin 8#10 (r 1#10))).getD 0#64))).stackWrite 0 0x10040 (wordBytes (demoHeader 0 ||| 0x10000000000000#64)))
theorem test_recruit : got (exec (.recruit 260#10 (r 256#10) (r 258#10) (r 262#10) 1#4 noG) recruiting) (fun t =>
    (t.rdReg fr 260 0, ((t.group? 0).bind (·.recruit)).map fun x => (x.next, x.helpers.map fun h => (h.1, h.2.iter)))) =
    some (6#32, some (10#28, [(0, 4#28), (1, 5#28), (2, 6#28), (3, 7#28), (4, 8#28), (5, 9#28)])) := by decide +kernel
theorem test_hnext : got (exec (.hnext noG) (withHelper 4 (demo (.hnext noG)))) (fun t => ((t.group? 0).bind (·.recruit)).map fun x =>
    (x.next, (aget x.helpers 5).map fun h => (h.iter, h.ckpt, h.front.hdr))) = some (some (7#28, some (6#28, 40#32, none))) := by decide +kernel
theorem test_hquit : got (exec (.hquit noG) (withHelper 4 (demo (.hquit noG)))) (fun t => ((t.group? 0).bind (·.recruit)).map fun x =>
    (aget x.helpers 5).map fun h => (h.life, h.ckpt)) = some (some (some (.retired, 40#32))) := by decide +kernel
/-- A join of ADD whose helper has ended with a checkpoint of 40; HJOIN waits with A = 2. -/
def joining2 (life : HelperLife) : Recruit :=
  { demoRecruit 4 with helpers := [(5, { demoHelper 4 with life := life, ckpt := 40#32 })], hjoin := some (8#10, 2#32, 0x10008#48) }
def hjoins (x : Recruit) : State := withGroup (fun g => { g with recruit := some x }) (parts [(0, { demoFrag 3 with wait := .hjoin })] [] (demo .nop))
theorem test_hjoin_complete : got (exec (.hjoinComplete 0 0 0) (hjoins (joining2 .retired))) (fun t => (t.rdReg fr 8 0, t.rdReg fr 9 0)) =
    some (42#32, 0x10000006#32) := by decide +kernel
/-- A helper whose iteration began at clock 0, at clock 65,536. -/
def overrun (n : Nat) : State := { withHelper 0 (demo .nop) with clock := n }
theorem test_iteration_timeout : got (exec (.helperIterationTimeout 0 0 0 5) (overrun 65536)) (fun t => ((t.group? 0).bind (·.recruit)).map fun x =>
    ((aget x.helpers 5).map (·.life), x.recs.length, x.timeout)) = some (some (some .stopped, 1, some 5#28)) := by decide +kernel

/-- O50: a recruitment whose checks pass, with helpers to recruit, with none left to deal, and the three ways a helper's iteration ends. -/
theorem witness_recruit : let s := recruiting
    let f : Fragment := { demoFrag 3 with hdr := some (demoHeader 3 ||| 0x20000000000000#64), mask := 1#64 }
    s.ready fr 1#64 { cls := 3, srcs := [(r 256#10, 2), (r 258#10, 2), (r 262#10, 1)], dsts := [(260#10, 1)] } = true ∧
    (s.group? 0).any (fun g => aget g.frags 0 == some f && !g.writesOut) = true ∧ popMask f.mask = 1 ∧ JoinOp.ofCode 1#4 = some .add ∧
    0 < bits (s.src fr (r 262#10) 0 0) 5 0 ∧ s.hjoinNext fr f = some (r 1#10) ∧ (s.rdTag fr 1).empty = false ∧ (s.rdTag fr 1).arm = 0#64 ∧
    s.agFetchBusy fr 0x10040#48 = false ∧ s.agFetchBusy fr (f.pc + 8#48) = false ∧ s.landingAt 0 (s.ptagOf 0) 0x10040#48 = true ∧ s.preemptAsked 0 = false ∧ ((s.teamOf? 0).map (·.killed)).getD false = false := by decide +kernel
theorem witness_helper : let s := withHelper 4 (demo (.hnext noG))
    s.ready (.helper 0 0 0 5) 1#64 (helperSpec noG) = true ∧ (s.group? 0).bind (·.recruit) = some (demoRecruit 4) ∧
    aget (demoRecruit 4).helpers 5 = some (demoHelper 4) ∧ (demoRecruit 4).dealing = true ∧ (demoRecruit 4).next.toNat < (demoRecruit 4).hi.toNat ∧
    (demoHelper 4).life = .running := by decide +kernel
theorem witness_helper_last : let x := { demoRecruit 4 with next := 9#28 }
    (withGroup (fun g => { g with recruit := some x }) (withHelper 4 (demo (.hnext noG)))).ready (.helper 0 0 0 5) 1#64 (helperSpec noG) = true ∧
    x.hi.toNat ≤ x.next.toNat ∧ { x with dealing := false }.dealing = false := by decide +kernel
theorem witness_hjoin : let s := withGroup (fun g => { g with recruit := some (demoRecruit 4) }) (demo (.hjoin 8#10 (r 1#10)))
    s.ready fr all16 { cls := 3, srcs := [(r 1#10, 1)], dsts := [(8#10, 2)], hlp := false } = true ∧ (demoRecruit 4).entry = 0 ∧
    (s.group? 0).any (fun g => aget g.frags 0 == some (demoFrag 3)) = true := by decide +kernel
theorem witness_hjoin_complete : let s := hjoins (joining2 .retired)
    (s.group? 0).any (fun g => g.recruit == some (joining2 .retired) && aget g.frags 0 == some { demoFrag 3 with wait := .hjoin } &&
      s.helpersDone 0 g (joining2 .retired) && g.trapVec == 0#48 && g.parked == none && g.held == []) = true ∧ (joining2 .retired).hjoin = some (8#10, 2#32, 0x10008#48) ∧
    (demoFrag 3).hdr.isSome = true ∧ (joining2 .retired).failure = none ∧ { joining2 .stopped with timeout := some 5#28 }.failure.isSome = true ∧
    (hjoins { joining2 .stopped with timeout := some 5#28 }).helpersDone 0 { uid := 1, core := 0, part := 0 } { joining2 .stopped with timeout := some 5#28 } = true ∧
    ((8#10 : RegNo).toNat + 2 ≤ 256 ∧ 0 < 64 ∨ 256 ≤ (638#10 : RegNo).toNat ∧ (638#10 : RegNo).toNat + 2 ≤ 640) := by decide +kernel
theorem witness_iteration : ((overrun 65535).group? 0).bind (·.recruit) = some (demoRecruit 0) ∧ aget (demoRecruit 0).helpers 5 = some (demoHelper 0) ∧
    (demoHelper 0).life = .running ∧ (overrun 65535).clock < (demoHelper 0).dealt + 65536 ∧ (demoHelper 0).dealt + 65536 ≤ (overrun 65536).clock ∧
    (demoRecruit 0).recs = [] := by decide +kernel

/-- O50: an HNEXT that its helper reaches too late, and in time; gangs with room and without. -/
theorem witness_late : let s := { withHelper 4 (demo (.hnext noG)) with clock := 65536 }
    s.ready (.helper 0 0 0 5) 1#64 (helperSpec noG) = true ∧ (demoHelper 4).dealt + 65536 ≤ s.clock ∧ (withHelper 4 (demo (.hnext noG))).clock < 65536 := by
  decide +kernel
theorem test_late : got (exec (.hnext noG) { withHelper 4 (demo (.hnext noG)) with clock := 65536 }) (fun t => ((t.group? 0).bind (·.recruit)).map fun x =>
    ((aget x.helpers 5).map (·.life), x.timeout)) = some (some (some .stopped, some 5#28)) := by decide +kernel
theorem test_gang : let y : HelperGang := { clock := 0, key := 0, pc := 8, helpers := [1] }
    ((helperTurn []).takeGang 0 5 (demoHelper 0).front [(5, demoHelper 0)]).map (fun t => aget (t.core 0 0).gangs 0) =
      some (some { clock := 0, key := 0, pc := 0x10008, helpers := [5] }) ∧
    ((helperTurn [(0, y)]).takeGang 0 5 (demoHelper 0).front [(5, demoHelper 0)]).isNone = true := by decide +kernel
/-- A matrix instruction of group 0 with v1 = x and v2 = y in every lane; its window is rows 16 to 63. -/
def tuned (i : Instr) (x y : Word) : State :=
  let s := demo i ((List.range 16).map (fun l => (64 + l, x)) ++ (List.range 16).map fun l => (128 + l, y))
  s.modTeam 0 0 fun t => { t with windows := [(0, (16, 64))] }
theorem test_mwin : got (exec (.mwin (r 1#10) (r 2#10) noG) (tuned (.mwin (r 1#10) (r 2#10) noG) 2#32 0x00200010#32)) (fun t =>
    (t.team? 0 0).map fun x => (x.window 2, x.window 0)) = some (some ((16, 32), (16, 64))) := by decide +kernel
theorem test_mlend : got (exec (.mlend 8#10 1#3 noG) (tuned (.mlend 8#10 1#3 noG) 0#32 0#32)) (fun t =>
    ([7, 8, 9, 10].map fun x => (t.rdTag fr x).lent)) = some [false, true, true, false] := by decide +kernel
/-- The same group with row 20 of the tun holding 77 in word 3, and an MRD of one register from it in flight. -/
def reading (i : Instr) (step : Word) : State :=
  let s := ((tuned i 20#32 0#32).modCore 0 0 fun c => { c with tun := [(20 * 16 + 3, 77#32)] }).modSeq 0 0 fun q => { q with stepCount := step }
  let y : Piece := { lane := 0, addr := 64 * 20, va := 0, len := 64, cls := 0, reg := 0, data := 0 }
  withGroup (fun g => { g with tags := [(8, { empty := true }), (4, { empty := true })] })
    { s with flight := [(3, { ag := fr, uid := 1, pc := 0x10008#48, kind := .load, space := .tun, pieces := [y], dst := 8, ndst := 1, cnt := some 4,
                              act := all16, before := [], core := 0 })] }
theorem test_mrd : let i : Instr := .mrd 8#10 (r 1#10) 4#10 0#3 noG
    got (exec i (tuned i 20#32 0#32)) (fun t => ((t.rdTag fr 8).empty, (t.rdTag fr 4).empty, t.flight.length)) = some (true, true, 1) ∧
    got (exec (.loadDataReturn 3 1#64) (reading i 5#32)) (fun t => (t.rdReg fr 8 3, t.rdReg fr 8 4, t.rdReg fr 4 0, (t.rdTag fr 8).empty)) =
      some (77#32, 0#32, 5#32, false) := by decide +kernel
theorem test_mrd_window : parkOf (exec (.mrd 8#10 (r 1#10) 4#10 0#3 noG) (tuned (.mrd 8#10 (r 1#10) 4#10 0#3 noG) 64#32 0#32)) =
    some (7, 16 + 64 * 65536) := by decide +kernel
theorem test_mwr : got (exec (.mwr (r 2#10) (r 1#10) 0#3 noG) (tuned (.mwr (r 2#10) (r 1#10) 0#3 noG) 63#32 5#32)) (fun t =>
    ((t.team? 0 0).map fun x => (t.tunWord 0 x 63 15, t.tunWord 0 x 62 15))) = some (some (5#32, 0#32)) := by decide +kernel
/-- Beside its bytes a placed word leaves the panel as it is at reset. -/
theorem placed (w : Code) (c : Nat) : ∃ l m, State.reset.placeBytes w c = { State.reset with l2 := l, mem := m } := by
  have h : ∀ (s : State) (a : Nat) (l : List Byte), s.stackWrite 0 a l = { s with l2 := (s.stackWrite 0 a l).l2, mem := (s.stackWrite 0 a l).mem } :=
    fun s a l => congrArg (fun x : State => { x with l2 := (s.stackWrite 0 a l).l2, mem := (s.stackWrite 0 a l).mem }) (State.stackWrite_rest 0 l s a)
  exact ⟨_, _, h State.reset _ _⟩
/-- O51: the four instructions on the demo team, inside the window, at its last row and outside it. -/
theorem witness_tun : let i : Instr := .mwin (r 1#10) (r 2#10) noG
    (tuned i 2#32 0x00200010#32).ready fr all16
      { mtxSpec (tuned i 2#32 0x00200010#32) noG [(r 1#10, 1), (r 2#10, 1)] [] false with lone := [0, 1] } = true ∧
    2 < recGroups demoRec ∧ recW demoRec = 16 ∧ recNv demoRec ≤ 256 ∧ (tuned i 2#32 0#32).notHeldBack fr (demoFrag 5) false ∧
    recGroups demoRec ≤ 4 ∧ 16 ≤ 32 ∧ outside (16, 64) 64 1 = some 64 ∧ outside (16, 64) 63 1 = none ∧ outside (16, 64) 63 2 = some 64 := by
  refine ⟨by decide +kernel, by decide +kernel, by decide +kernel, by decide +kernel, ⟨by decide +kernel, by decide⟩, by decide +kernel, by decide,
    by decide, by decide, by decide⟩
theorem witness_tun_clean (i : Instr) (x y : Word) : ∃ tm, (tuned i x y).team? 0 0 = some tm ∧ tm.seq.isSome = true ∧ (tuned i x y).tunClean 0 tm :=
  by
  obtain ⟨l, m, e⟩ := placed ((encode i).getD 0#64) (opClass (bits ((encode i).getD 0#64) 63 54))
  simp only [tuned, demo, State.place, e]
  refine ⟨_, rfl, rfl, rfl, rfl, 0, 1, rfl, by decide, by decide, by decide, ?_⟩
  intro c hc
  simp only [List.mem_cons, List.not_mem_nil, or_false] at hc
  rcases hc with rfl | rfl <;> exact ⟨rfl, rfl⟩
theorem witness_tun_moves : (tuned (.mlend 248#10 7#3 noG) 0#32 0#32).ready fr all16
      (mtxSpec (tuned (.mlend 248#10 7#3 noG) 0#32 0#32) noG [] ((regRun 248#10 8).map fun r => (r, 1)) (decide (4 ≤ 0) || !runOk demoRec 248#10 8)) = true ∧
    (tuned (.mrd 8#10 (r 1#10) 4#10 0#3 noG) 63#32 0#32).ready fr all16
      (mtxSpec (tuned (.mrd 8#10 (r 1#10) 4#10 0#3 noG) 63#32 0#32) noG [(r 1#10, 1)] [(8#10, 1), (4#10, 1)] (!runOk demoRec 8#10 1)) = true ∧
    (tuned (.mwr (r 2#10) (r 1#10) 0#3 noG) 63#32 5#32).ready fr all16
      (mtxSpec (tuned (.mwr (r 2#10) (r 1#10) 0#3 noG) 63#32 5#32) noG [(r 1#10, 1), (r 2#10, 1)] [] (!runOk demoRec 2#10 1)) = true := by decide +kernel

/-- O51: an MRD in flight whose row may be read, and an MWR that nothing holds back. -/
theorem witness_tun_read : let s := reading (.mrd 8#10 (r 1#10) 4#10 0#3 noG) 5#32
    (aget s.flight 3).any (fun x => x.pieces.any fun y => s.mayPerform x y && !y.done && y.lane == 0 && y.addr == 64 * 20 && y.len == 64) = true ∧
    20 + 1 ≤ 2048 ∧ ¬((8#10 : RegNo).toNat ≤ (4#10 : RegNo).toNat) := by decide +kernel
theorem witness_tun_write : let s := tuned (.mwr (r 2#10) (r 1#10) 0#3 noG) 63#32 5#32
    (s.team? 0 0).any (fun tm => !s.tunBusy 0 tm [63]) = true ∧ s.behind fr (demoFrag 5) .tun (tunPiece 63 1 all16) = false := by decide +kernel
/-- The sequencer about to issue, with m registers from m0 on. -/
def sequencing (i : Instr) (m : List Word) : State :=
  (atSeq 5 (demo i)).modSeq 0 0 fun q => { q with m := (List.range m.length).zip m }
theorem test_mclr : got (exec (.mclr 0#10 1#10 .ninf noG) (sequencing (.mclr 0#10 1#10 .ninf noG) [2047#32, 1#32])) (fun t =>
    (t.team? 0 0).map fun x => (t.tunWord 0 x 2047 15, t.tunWord 0 x 2046 15)) = some (some (0xFF800000#32, 0#32)) := by decide +kernel
theorem test_mdrn : got (exec (.mdrn 0#10 1#10 2#10 .f32 false false noG) ((sequencing (.mdrn 0#10 1#10 2#10 .f32 false false noG) [3#32, 64#32, 1#32]).modCore 0 0
    fun c => { c with tun := [(3 * 16 + 1, 0x01020304#32)] })) (fun t => (t.team? 0 0).bind fun x => x.localRead 64 8) = some (some 0x0102030400000000) := by
  decide +kernel
theorem test_msig : got (exec (.msig 0#10 1#10 false false noG) ((sequencing (.msig 0#10 1#10 false false noG) [32#32, 5#32]).modTeam 0 0 fun t =>
    { t with localMem := [(32, 9#8)] })) (fun t => (t.team? 0 0).bind fun x => x.localRead 32 16) = some (some (9 + 5 * 2 ^ 32)) := by decide +kernel
/-- R110, R351: an INT8 group: 3 × 4 in column 1 added to 100; the other columns' bytes of B do not count. -/
theorem test_one_group : oneGroup .int8 (fun _ => 0#32) 100#32 3 (4 * 256 ^ 16 + 9) 1 = 112#32 ∧ oneGroup .orAnd (fun _ => 0#32) 0#32 6 (4 * 65536) 1 = 1#32 := by
  decide +kernel
theorem test_mma_align : parkOf (exec (.mma 0#10 4#10 8#10 8#10 0#4 0#2 .bf16) (sequencing (.mma 0#10 4#10 8#10 8#10 0#4 0#2 .bf16)
    [0#32, 0#32, 0#32, 0#32, 16#32, 0#32, 0#32, 0#32, 1#32])) = some (5, 0) := by decide +kernel

/-- O52: each sequencer operation at the ends of its range. -/
theorem witness_sequencer (i : Instr) (m : List Word) : ∃ tm q, (sequencing i m).team? 0 0 = some tm ∧ tm.seq = some q ∧ q.mmas = [] ∧
    (sequencing i m).tunClean 0 tm ∧ tm.recd = demoRec ∧ recL demoRec = 16384 := by
  obtain ⟨l, m', e⟩ := placed ((encode i).getD 0#64) (opClass (bits ((encode i).getD 0#64) 63 54))
  simp only [sequencing, atSeq, demo, State.place, e]
  refine ⟨_, _, rfl, rfl, rfl, ⟨rfl, rfl, 0, 1, rfl, by decide, by decide, by decide, ?_⟩, rfl, by decide +kernel⟩
  intro c hc
  simp only [List.mem_cons, List.not_mem_nil, or_false] at hc
  rcases hc with rfl | rfl <;> exact ⟨rfl, rfl⟩
/-- O52, O53: no test runs, and no access of the sequencer is in flight. -/
theorem witness_quiet (i : Instr) (m : List Word) : (sequencing i m).earlierOf (.seq 0 0) = [] ∧ ∀ st u a, (sequencing i m).sramBusy 0 st u a = false := by
  obtain ⟨l, m', e⟩ := placed ((encode i).getD 0#64) (opClass (bits ((encode i).getD 0#64) 63 54))
  simp only [sequencing, atSeq, demo, State.place, e]
  exact ⟨rfl, fun _ _ _ => rfl⟩
theorem witness_mscale : let s := sequencing (.mscale 0#10 2#10 false true true false noG) [896#32, 0#32, 16256#32, 0#32]
    let v := fun j => (s.rdReg (.seq 0 0) j 0).toNat
    s.ready (.seq 0 0) 1#64 (seqSpec noG [(0#10, 2), (2#10, 2)]) = true ∧ v 0 ≤ 896 ∧ v 1 ≤ 896 ∧ v 2 % 2 = 0 ∧ v 2 + 128 ≤ 16384 ∧ v 3 + 128 ≤ 16384 ∧
    v 1 + 128 ≤ v 0 ∧ s.earlier (.seq 0 0) { clause := 0#48, mask := 1#64 } = [] := by decide +kernel
theorem witness_mclr : let s := sequencing (.mclr 0#10 1#10 .ninf noG) [2047#32, 1#32]
    s.ready (.seq 0 0) 1#64 (seqSpec noG [(0#10, 1), (1#10, 1)]) = true ∧ 0 < (s.rdReg (.seq 0 0) 1 0).toNat ∧
    (s.rdReg (.seq 0 0) 0 0).toNat + (s.rdReg (.seq 0 0) 1 0).toNat ≤ 2048 := by decide +kernel
theorem witness_mtab : let s := sequencing (.mtab 0#10 true false noG) [15360#32]
    s.ready (.seq 0 0) 1#64 (seqSpec noG [(0#10, 1)]) = true ∧ (s.rdReg (.seq 0 0) 0 0).toNat % 64 = 0 ∧
    (s.rdReg (.seq 0 0) 0 0).toNat + 1024 ≤ 16384 := by decide +kernel
theorem witness_msig : let s := sequencing (.msig 0#10 1#10 true false noG) [16368#32, 5#32]
    s.ready (.seq 0 0) 1#64 (seqSpec noG [(0#10, 1), (1#10, 1)]) = true ∧ (s.rdReg (.seq 0 0) 0 0).toNat % 16 = 0 ∧
    (s.rdReg (.seq 0 0) 0 0).toNat + 16 ≤ 16384 := by decide +kernel
theorem witness_mdrn : let s := sequencing (.mdrn 0#10 1#10 2#10 .f32 true false noG) [1792#32, 0#32, 256#32]
    s.ready (.seq 0 0) 1#64 (seqSpec noG [(0#10, 1), (1#10, 1), (2#10, 1)]) = true ∧ 0 < (s.rdReg (.seq 0 0) 2 0).toNat ∧
    (s.rdReg (.seq 0 0) 0 0).toNat + (s.rdReg (.seq 0 0) 2 0).toNat ≤ 2048 ∧ (s.rdReg (.seq 0 0) 1 0).toNat % 32 = 0 ∧
    (s.rdReg (.seq 0 0) 1 0).toNat + (s.rdReg (.seq 0 0) 2 0).toNat * (16 * 4) ≤ 16384 := by decide +kernel

/-- The operands of a BF16 MMA of two steps: tile 896, A at 0 and at 8192, rows 64 bytes apart, steps 32. -/
def mmaOps : List Word := [896#32, 0#32, 0#32, 0#32, 0#32, 8192#32, 64#32, 32#32, 2#32]
/-- That MMA in the queue, at a step. -/
def queuedMma (step : Nat) (busy : Option MmaStep) : Mma :=
  { pc := 0x10008#48, kind := .bf16, tile := 896, barrier := 0, a0 := 0, a1 := 8192, rs := 64, ks := 32, n := 2, bBase := 8, ring := 0, lcAt := 0, ctl := 2#32,
    before := [], step := step, busy := busy }
/-- The four crew groups, the registers of both steps lent. -/
def crew : List (Nat × Group) := (List.range 4).map fun g => (g, { uid := 1, core := g / 2, part := 0, tags := (List.range 16).map fun i => (8 + i, { lent := true }) })
def multiplying (x : Mma) (clock : Nat) : State :=
  { (demo .nop).modSeq 0 0 fun q => { q with mmas := [x] } with groups := crew, clock := clock }
/-- O53: an MMA whose checks pass; a step that may start; one in progress, before and at its last clock, which is the last and is not. -/
theorem witness_mma : let s := sequencing (.mma 0#10 4#10 8#10 8#10 0#4 0#2 .bf16) mmaOps
    let x := queuedMma 0 none
    s.ready (.seq 0 0) 1#64 (seqSpec ⟨0#4, false⟩ [(0#10, 2), (4#10, 4), (8#10, 1)]) = true ∧ (s.front? (.seq 0 0)).isSome = true ∧
    mmaIllegal 2#32 896 8 0 (quarterRegs (mmaForm .bf16) (recW demoRec)) (recNv demoRec) 2 = false ∧ x.misaligned (aBytes (mmaForm .bf16)) = false ∧
    x.outOfRange (aBytes (mmaForm .bf16)) (halfOf (recL demoRec)) (recL demoRec) = false := by decide +kernel
theorem witness_step_starts : let s := multiplying (queuedMma 0 none) 0
    (s.team? 0 0).any (fun t => t.seq.any fun q => t.stepsRun q) = true ∧ ctlBit 2#32 26 = false ∧ recW demoRec = 16 ∧
    8 + 1 * quarterRegs (mmaForm .bf16) 16 + quarterRegs (mmaForm .bf16) 16 ≤ 256 ∧
    (((List.range 4).map fun i => s.group? (groupKey 0 0 i))).all (fun g => g.any fun g => g.lends 8 (quarterRegs (mmaForm .bf16) 16)) = true := by decide +kernel
theorem witness_crew : ((List.range 4).map fun i => (multiplying (queuedMma 0 none) 0).group? (groupKey 0 0 i)) = (crew.map (·.2)).map some ∧
    ∀ g ∈ crew.map (·.2), ∀ i, (g.tag i).poison = 0#64 := by
  refine ⟨by decide +kernel, ?_⟩
  intro g hg i
  have h : ∀ l : List (Nat × RegTag), (∀ e ∈ l, e.2.poison = 0#64) → (sget {} l i).poison = 0#64 := by
    intro l hl
    induction l with
    | nil => rfl
    | cons e t ih =>
      simp only [sget]
      split
      · exact hl e (by simp)
      · exact ih fun x hx => hl x (by simp [hx])
  exact h g.tags (by simp only [crew, List.map_map, List.mem_map, Function.comp] at hg; obtain ⟨a, _, rfl⟩ := hg; simp)
/-- O53: no access of the sequencer keeps the step waiting, and no grist entry is in error. -/
theorem witness_step_free : let s := multiplying (queuedMma 0 none) 0
    (s.team? 0 0).any (fun t => !s.stepWaits 0 0 t (queuedMma 0 none) && t.cores == [0, 1]) = true ∧ (queuedMma 0 none).kept = [] ∧ (queuedMma 0 none).older = [] ∧
    (s.core 0 0).gristPoison = [] ∧ (s.core 0 1).gristUe = [] ∧ (s.die 0).tests = [] := by decide +kernel
/-- O24: kinds of every form, a NaN, an infinity and finite elements, and sums that are zero. -/
theorem witness_matrix_kinds : mmaForm .bf16 = .plus bf16 bf16 ∧ mmaForm .e4e5 = .plus f8e4 f8e5 ∧ NanElem bf16 0x7FC0 ∧ bf16.infMag = 0x7F80 ∧
    IsNan32 0x7FC00000#32 ∧ 0x7F800000#32 = inf32 false ∧ (255 * 16 : Nat) / 16 % 256 = 255 := by
  unfold NanElem IsNan32; decide +kernel
theorem test_matrix : oneGroup (.plus bf16 bf16) (fun _ => 0#32) 0x3F800000#32 0x4000 0x4040 0 = 0x40E00000#32 ∧
    oneGroup .cb2 (fun _ => 0x76543210#32) 5#32 2 0 0 = 5#32 ∧ mscaleW 0x3F800000#32 (partialVal true 6#32) (ue8m4 0x7F0) (ue8m4 0x7F0) = 0x40E00000#32 ∧
    drainBytes .bf16 0x3F808000#32 = bytesOf 2 0x3F80 ∧ drainBytes .f16 0x3F800000#32 = bytesOf 2 0x3C00 := by decide +kernel
theorem witness_step_commits : let x := queuedMma 1 (some ⟨0, List.replicate 4 [], []⟩)
    x.tile ≤ 896 ∧ x.step + 1 = x.n ∧ ctlBit x.ctl 26 = false ∧ (multiplying x 31).clock < 0 + mmaClocks (mmaForm x.kind) ∧
    0 + mmaClocks (mmaForm x.kind) ≤ (multiplying x 32).clock ∧ (queuedMma 0 (some ⟨0, [], []⟩)).step + 1 < 2 ∧
    (List.replicate 4 ([] : List Word)).length = 4 ∧ x.older = [] := by
  refine ⟨by decide, by decide, by decide, by decide +kernel, by decide +kernel, by decide, by decide, rfl⟩

/-! Launches, pre-emption and the host. -/

/-- A launch of one 16-lane group: entry 0x10040, the map at 0x20000, 8 v and 8 s registers, 1 KiB of local memory. -/
def plainRec : BitVec 1024 := BitVec.ofNat 1024 (0x10040 + 0x20000 * 2 ^ 192 + 2 ^ 320 + 2 ^ 542 + 4 * 2 ^ 548 + 2 ^ 560 + 2 ^ 576)
/-- One team on logical die 0. -/
def plainMap : BitVec 256 := BitVec.ofNat 256 (2 ^ 32)
/-- The launch-queue element. -/
def launch (origin : Nat) : LaunchElem :=
  { recd := plainRec, map := plainMap, origin := origin, entryDie := 0, privBit := false, ptag := 1#12, recAddr := 0#48, dirty := false }
/-- That element at die 0, whose cores are 0, 1 and 2; its map and its entry stand in memory. -/
def launching (e : LaunchElem) : State :=
  (((withPage 1 (demo .nop)).stackWrite 0 0x20004 [1#8]).stackWrite 0 0x10040 (wordBytes (demoHeader 0 ||| 0x10000000000000#64))).modDie 0 fun x =>
    { x with launchQ := [e], coreMap := [0, 1, 2] }
theorem test_entry_check : got (exec (.entryDieCheck 0) (launching (launch 0))) (fun t =>
    ((t.die 0).launchQ.length, (t.die 0).shares.map fun e => (e.2.life, e.2.map))) = some (0, [(.waiting, plainMap)]) := by decide +kernel
/-- A share that waits to be placed. -/
def share (r : BitVec 1024) : Share := { recd := r, map := plainMap, ptag := 1#12, priv := false, preds := [] }
def placing (r : BitVec 1024) : State := (launching (launch 0)).modDie 0 fun x => { x with launchQ := [], shares := [(9, share r)] }
theorem test_placement : got (exec (.teamPlacement 0) (placing plainRec)) (fun t =>
    ((t.team? 0 1).map fun m => (m.cores, m.index), (t.group? 16).map fun g => (g.core, g.frags.map fun e => e.2.clause))) =
    some (some ([1], 0#32), some (1, [0x10040#48])) := by decide +kernel
/-- O54: an element that passes, one that does not (W = 3), a copy, a copy to forward, a placement, and a share without a place. -/
theorem witness_launch : let s := (launching (launch 0)).modDie 0 fun v => { v with launchQ := [] }
    ((launching (launch 0)).die 0).launchQ = [launch 0] ∧ (launch 0).origin ≠ 2 ∧ (s.checkLaunch 0 (launch 0)).2 = .ok [plainMap] ∧ 0 < mapCount plainMap ∧
    mapDie plainMap = s.logDie 0 ∧ (s.checkLaunch 0 { launch 0 with recd := plainRec ||| BitVec.ofNat 1024 (3 * 2 ^ 531) }).2 = .refused 64 1 ∧
    s.predRefused 0 1#12 plainRec = false ∧ (launch 2).origin = 2 := by decide +kernel
/-- O54: nothing a launch reads is under test. -/
theorem witness_launch_free : ((launching (launch 0)).launchBusy 0 (launch 0)) = false ∧
    ((launching (launch 0)).launchBusy 0 { launch 0 with recd := plainRec ||| BitVec.ofNat 1024 (3 * 2 ^ 531) }) = false := by decide +kernel
theorem witness_launch_same : (((launching (launch 0)).modDie 0 fun v => { v with launchQ := [] }).checkLaunch 0 (launch 0)).1 =
    (launching (launch 0)).modDie 0 fun v => { v with launchQ := [] } := by decide +kernel
theorem witness_forwarding : let s := (launching (launch 0)).modDie 0 fun x => { x with forwards := [(3, launch 2)] }
    s.physDie? (mapDie (launch 2).map) = some 0 ∧ 0 < launchRoom (s.die 0) ∧ s.routeUp 0 0 = true := by decide +kernel
theorem witness_placement : (placing plainRec).nextPlacement 0 = some (9, share plainRec, 1, [1]) := by decide +kernel
/-- O54: another share's count of clocks without a place. -/
theorem witness_placement_other : let s := (placing plainRec).modDie 0 fun x => { x with noCore := some (4, 7) }
    s.nextPlacement 0 = some (9, share plainRec, 1, [1]) ∧ (s.die 0).noCore = some (4, 7) ∧ (4 : Nat) ≠ 9 ∧
    (got (exec (.teamPlacement 0) s) fun t => (t.die 0).noCore) = some (some (4, 7)) := by decide +kernel
/-- A record whose core split no busy core has. -/
def splitRec : BitVec 1024 := plainRec ||| BitVec.ofNat 1024 (2 ^ 529)
def draining (n : Nat) : State :=
  { (placing splitRec).modDie 0 fun x => { x with coreMap := [0, 1], noCore := some (9, 0) } with clock := n }
theorem witness_drain : let s := draining 65536
    (s.die 0).drain = none ∧ s.waitingTeams 0 = [] ∧ s.placeable 0 = [(9, share splitRec)] ∧ (s.die 0).noCore = some (9, 0) ∧
    s.findNew 0 splitRec = none ∧ 0 + 65536 ≤ s.clock ∧ s.drainChoice 0 splitRec [] = some [1] := by decide +kernel
theorem test_drain : got (exec (.drainTarget 0) (draining 65536)) (fun t => (t.die 0).drain) = some (some [1]) ∧
    got (exec (.drainTarget 0) (draining 65535)) (fun t => (t.die 0).drain) = some none := by decide +kernel
theorem witness_window : ∃ n, (({ demo .nop with clock := n } : State).dieClock 0).toNat % 65536 = 0 := by
  refine ⟨2 ^ 64 - (Config.dieSkew 0).toNat, ?_⟩
  have h := (Config.dieSkew 0).isLt
  simp only [State.dieClock, BitVec.toNat_add, BitVec.toNat_ofNat]
  omega
theorem witness_between : ∃ n, (({ demo .nop with clock := n } : State).dieClock 0).toNat % 65536 ≠ 0 := by
  refine ⟨2 ^ 64 - (Config.dieSkew 0).toNat + 1, ?_⟩
  have h := (Config.dieSkew 0).isLt
  simp only [State.dieClock, BitVec.toNat_add, BitVec.toNat_ofNat]
  omega

/-- An answer of the host to slot 0, group 0 of process 1: a command, its flags and a park count. -/
def answerOf (cmd flags count : Nat) : BitVec 128 := BitVec.ofNat 128 (cmd + flags * 2 ^ 8 + 2 ^ 100 + count * 2 ^ 112)
/-- The demo group parked by a MCHK that left v9 EMPTY, its lane 2 unread; the answer stands in the resume queue. -/
def answered (x : BitVec 128) : State :=
  (withGroup (fun g => { g with parked := some { fault := { code := 36 }, inHandler := false }, parkCount := 3#16, mchk := [⟨9, 4#64⟩],
                                tags := [(9, { empty := true })], v := [(9 * 64 + 2, 7#32), (9 * 64 + 3, 8#32)] }) (demo .nop)).modDie 0 fun v =>
    { v with resumeQ := [x] }
theorem test_resume : got (exec (.resume 0) (answered (answerOf 1 1 3))) (fun t => (t.group? 0).map fun g =>
    (g.parked.isSome, g.rd 9 2, g.rd 9 3, (g.tag 9).empty)) = some (some (false, 0#32, 8#32, false)) := by decide +kernel
theorem test_resume_stale : got (exec (.resume 0) (answered (answerOf 1 1 2))) (fun t => ((t.group? 0).map fun g => g.parked.isSome, (t.die 0).resumeQ)) =
    some (some true, []) := by decide +kernel
theorem test_kill : got (exec (.kill 0) (answered (answerOf 2 0 0))) (fun t => (t.team? 0 0).map fun m => m.killed) = some (some true) := by decide +kernel
theorem test_preempt : got (exec (.preempt 0) { answered (answerOf 3 2 0) with clock := 50 }) (fun t => (t.team? 0 0).map (·.preempt)) =
    some (some (some { hold := true, since := 50 })) := by decide +kernel
/-- O55: each command of the resume queue, RESUME with and without FILL_ZERO, and a group before and at 2^20 clocks. -/
theorem witness_resume : let s := answered (answerOf 1 1 3)
    (s.die 0).resumeQ = [answerOf 1 1 3] ∧ s.resumeOk 0 (answerOf 1 1 3) = true ∧ ResumeElem.slot (answerOf 1 1 3) = 0 ∧ ResumeElem.cmd (answerOf 1 1 3) = 1 ∧
    ResumeElem.fill (answerOf 1 1 3) = true ∧ ResumeElem.grp (answerOf 1 1 3) = 0 ∧ (s.team? 0 0).any (fun t => t.saved == none && !t.killed) = true ∧
    (s.group? 0).any (fun g => g.held == [] && (g.parked.map fun p => p.fault.source) == some 0 && (g.tag 9).empty && (g.tag 9).arm == 0#64) = true ∧
    ([⟨9, 4#64⟩].map fun m : MchkReg => m.reg).Nodup ∧
    (answered (answerOf 1 0 3)).resumeOk 0 (answerOf 1 0 3) = true ∧ ResumeElem.fill (answerOf 1 0 3) = false := by decide +kernel
theorem witness_commands : (answered (answerOf 2 0 0)).resumeOk 0 (answerOf 2 0 0) = true ∧ (answered (answerOf 3 2 0)).resumeOk 0 (answerOf 3 2 0) = true ∧
    ResumeElem.all (answerOf 3 2 0) = false ∧ ResumeElem.hold (answerOf 3 2 0) = true ∧ ((answered 0#128).team? 0 0).any (fun t => t.preempt == none) = true := by
  decide +kernel
theorem witness_release : let s := (answered (answerOf 4 0 0)).modTeam 0 0 fun t => { t with saved := some (true, 6) }
    s.resumeOk 0 (answerOf 4 0 0) = true ∧ ResumeElem.cmd (answerOf 4 0 0) = 4 := by decide +kernel
theorem witness_stop_bound : let s := withGroup (fun g => { g with activeClocks := 2 ^ 20 }) ((demo .nop).modTeam 0 0 fun t => { t with preempt := some { hold := false, since := 0 } })
    (s.team? 0 0).any (fun t => t.preempt.isSome) = true ∧ (s.group? 0).any (fun g => !g.bound && decide (2 ^ 20 ≤ g.activeClocks)) = true ∧
    ((demo .nop).group? 0).any (fun g => decide (g.activeClocks < 2 ^ 20)) = true := by decide +kernel

/-- A page of the context block, at 0x400000 of process 1 and of the stack. -/
def ctxPages : List (Nat × TlbEntry) :=
  [0, 4, 5, 0x24].map fun i => (pageKey 1#12 (0x400000 + 65536 * i), { leaf := BitVec.ofNat 64 (2 ^ 63 + 2 ^ 62 + 2 ^ 60 + 2 ^ 59 + 2 ^ 58 + 0x400000 + 65536 * i), level := 4 })
/-- A team of `plainRec` in slot 0 on core 0, asked to stop, its group stopped at a clause with `w` in v1. -/
def stopping (w : Word) : State :=
  { (withGroup (fun g => { g with v := [(65, w)], frags := [(0, { clause := 0x10040#48, mask := fullMask 16, stopped := .safe })] }) (demo .nop)).modTeam 0 0 fun t =>
      { t with recd := plainRec, seq := none, cores := [0], ctxBase := 0x400000#48, preempt := some { hold := false, since := 0 }, localMem := [(3, 5#8)] } with
    dies := [(0, { live := true, coreMap := [0, 1], pairs := 1, tlb := ctxPages })] }
theorem test_save : (((stopping 0#32).team? 0 0).bind fun m => (((stopping 0#32).leaveCores 0 0 9 m [(0, 0#80)]).team? 0 0).map fun m => (m.cores, m.saved)) =
      some ([], some (false, 9)) ∧
    windowOff 16 0 0 = 0x40000 ∧ windowOff 16 1 32 = 0x70000 ∧
    ((stopping 0x01020304#32).group? 0).map (fun g => (g.windowBytes 16 0).drop 68 |>.take 4) = some [4#8, 3#8, 2#8, 1#8] := by decide +kernel
/-- O56: a team that may be saved. -/
theorem witness_save : let s := stopping 0x01020304#32
    (s.team? 0 0).any (fun t => s.teamSettled 0 0 t && t.localUe == [] && t.preempt.map (·.hold) == some false && t.seq == none && t.cores == [0]) = true ∧
    s.poison = [] ∧ s.ue = [] ∧ (s.core 0 0).l1 = [] ∧ (s.groupsOf 0 0).length = 1 ∧
    (s.group? 0).any (fun g => g.resv == [] && g.liveTab == 0#48 && g.tags == [] && !g.stateUe) = true ∧
    (s.team? 0 0).any (fun t => !s.ctxBusy 0 0 t [0] [0, 0x1000, 0x240000]) = true := by decide +kernel
/-- The saved team's cells: the device's own blocks of save 7. -/
def sealedCells (n : Nat) : List Host.Cell := (List.range' 0 n).map fun i => (0x400000 + i, Config.sealByte 7 i)
/-- The same team, saved and waiting for a place. -/
def savedTeam (n : Nat) : State :=
  { (withGroup (fun g => { g with v := [], s := [] }) (stopping 0#32)).modTeam 0 0 fun t =>
      { t with preempt := none, cores := [], localMem := [], saved := some (false, 7), savedWin := [(0, 1#80)] } with l2 := sealedCells n }
theorem witness_back : let t := ((savedTeam 0x1100).team? 0 0)
    t.any (fun t => (savedTeam 0x1100).nextResume 0 == some (0, t, [0]) && t.saved == some (false, 7) && t.heldResume == [] && t.seq == none) = true := by decide +kernel
theorem aget_run (f : Nat → Byte) (b j n : Nat) : ∀ a, a ≤ j → j < a + n → aget ((List.range' a n).map fun i => (b + i, f i)) (b + j) = some (f j) := by
  induction n with
  | zero => intro a h1 h2; omega
  | succ n ih =>
    intro a h1 h2
    simp only [List.range'_succ, List.map_cons, aget]
    by_cases h : b + j = b + a
    · rw [if_pos h, show j = a by omega]
    · rw [if_neg h]; exact ih (a + 1) (by omega) (by omega)
/-- Where a check of a context block's offset leads. -/
def ctxTo (s : State) (t : Team) (o : Nat) : Bool :=
  match s.ctxAt 0 0 t o .read with
  | .ok p => p == 0x400000 + o
  | .error _ => false
theorem sealed_block (s : State) (h2 : s.l2 = sealedCells 0x1100) (o : Nat) (h : o + 64 ≤ 0x1100) :
    bytesOf 64 (s.stackRead 0 (0x400000 + o) 64) = (sealBlock 7 o).data := by
  have e : (List.range 64).map (fun i => s.stackByte 0 (0x400000 + o + i)) = (List.range 64).map fun i => Config.sealByte 7 (o + i) := by
    apply List.map_congr_left
    intro i hi
    have hi := List.mem_range.1 hi
    have e : aget s.l2 (stackKey 0 (0x400000 + o + i)) = some (Config.sealByte 7 (o + i)) := by
      rw [h2, show stackKey 0 (0x400000 + o + i) = 0x400000 + (o + i) by simp only [stackKey]; omega]
      exact aget_run (Config.sealByte 7) 0x400000 (o + i) 0x1100 0 (by omega) (by omega)
    simp only [State.stackByte, e]
  rw [State.stackRead, e]
  exact (congrArg (fun n => bytesOf n (natOfBytes ((List.range 64).map fun i => Config.sealByte 7 (o + i)))) (by simp)).trans
    (bytesOf_natOfBytes ((List.range 64).map fun i => Config.sealByte 7 (o + i)))
theorem ctx_read (s : State) (hp : s.poison = []) (hu : s.ue = []) (t : Team) (o n : Nat) (h : ctxTo s t o = true) :
    s.ctxRead 0 0 t o n = (s, .ok (bytesOf n (s.stackRead 0 (0x400000 + o) n), false)) := by
  have hm : ∀ p, s.meetHome 0 p = .clean := fun p => by simp [State.meetHome, hp, hu]
  unfold ctxTo at h
  unfold State.ctxRead
  split at h
  · rename_i p hq
    have hq' : p = 0x400000 + o := by simpa using h
    simp only [hq, hq', hm, State.metHome, bne_self_eq_false]
  · cases h
theorem seal_holds (s : State) (hp : s.poison = []) (hu : s.ue = []) (h2 : s.l2 = sealedCells 0x1100) (t : Team) :
    ∀ l : List Nat, (∀ o ∈ l, ctxTo s t o = true ∧ o + 64 ≤ 0x1100) → s.checkSeal 0 0 7 t l = (s, none) := by
  intro l
  induction l with
  | nil => intro _; rfl
  | cons o l ih =>
    intro h
    have ho := h o List.mem_cons_self
    rw [State.checkSeal, ctx_read s hp hu t o 64 ho.1]
    dsimp only
    rw [if_pos (sealed_block s h2 o ho.2)]
    exact ih fun x hx => h x (List.mem_cons_of_mem o hx)
theorem body_holds (s : State) (hp : s.poison = []) (hu : s.ue = []) (t : Team) :
    ∀ l : List (Nat × Nat), (∀ o ∈ l, ctxTo s t o.1 = true) → ∃ b, s.readBody 0 0 t l = (s, .ok b) := by
  intro l
  induction l with
  | nil => intro _; exact ⟨[], rfl⟩
  | cons o l ih =>
    intro h
    obtain ⟨b, hb⟩ := ih fun x hx => h x (by simp [hx])
    exact ⟨_, by rw [State.readBody, ctx_read s hp hu t o.1 o.2 (h o (by simp))]; dsimp only; rw [hb]⟩
/-- O56: a team that may be resumed: its seals hold and its body can be read. -/
theorem witness_seal : ∃ t b, (savedTeam 0x1100).team? 0 0 = some t ∧
    (savedTeam 0x1100).checkSeal 0 0 7 t ((savedTeam 0x1100).sealOffs 0 0) = (savedTeam 0x1100, none) ∧
    (savedTeam 0x1100).readBody 0 0 t ((savedTeam 0x1100).bodyOffs 0 0 t) = (savedTeam 0x1100, .ok b) := by
  have hs : ((savedTeam 0x1100).team? 0 0).any (fun t => ((savedTeam 0x1100).sealOffs 0 0).all (fun o => ctxTo (savedTeam 0x1100) t o && decide (o + 64 ≤ 0x1100)) &&
      ((savedTeam 0x1100).bodyOffs 0 0 t).all fun o => ctxTo (savedTeam 0x1100) t o.1) = true := by decide +kernel
  have hp : (savedTeam 0x1100).poison = [] := rfl
  have hu : (savedTeam 0x1100).ue = [] := rfl
  have h2 : (savedTeam 0x1100).l2 = sealedCells 0x1100 := rfl
  generalize savedTeam 0x1100 = s at *
  cases ht : s.team? 0 0 with
  | none => rw [ht] at hs; cases hs
  | some t =>
    rw [ht] at hs
    simp only [Option.any_some, Bool.and_eq_true, List.all_eq_true, decide_eq_true_eq] at hs
    obtain ⟨b, hb⟩ := body_holds s hp hu t _ hs.2
    exact ⟨t, b, rfl, seal_holds s hp hu h2 t _ hs.1, hb⟩
/-- O56: no access to a block of the saved team waits for a test. -/
theorem witness_resume_free : ((savedTeam 0).team? 0 0).any (fun t => !(savedTeam 0).ctxBusy 0 0 t [0] ((savedTeam 0).sealOffs 0 0 ++ ((savedTeam 0).bodyOffs 0 0 t).map (·.1))) = true := by
  decide +kernel
/-- O56: every piece of the save lies on a page that admits it. -/
theorem witness_pieces : (((stopping 0#32).team? 0 0).map fun t => ((stopping 0#32).savePieces 0 0 9 t [(0, allWindows plainRec)]).map (·.off)).any
    (fun l => l.all fun o => (tlbHit ((stopping 0#32).die 0).tlb 1#12 (0x400000 + o)).any fun e =>
      match (stopping 0#32).chkEntry 0 e (0x400000 + o) .write with
      | .ok p _ => p == 0x400000 + o
      | .bad _ _ | .mchk _ | .miss => false) = true := by decide +kernel

/-! The host port, the commands, power, and the copy engine. -/

/-- A connection of the host with a window of 4. -/
def conn : Conn := { window := 4, frame := 1518, timeout := 10 }
/-- A frame of connection 7 to die 0 for process 1. -/
def frame (typ : BitVec 8) (p : List Byte) (seq : BitVec 32 := 0#32) (ack : BitVec 32 := 0#32) : HostFrame :=
  { mac := 0#48, etype := 0x88B5#16, data := DevFrame.bytes { seq := seq, typ := typ, ack := ack, ptag := 1#12, die := 0#8, payload := p } 7 }
/-- TYPE and the payload of what leaves the host port. -/
def outs (t : State) : List (Nat × List Byte) := t.hostOut.map fun e => (fieldAt e.2 2 1, e.2.drop 16)
/-- Die 0 with the fabric's queues, the host port up and connection 7. -/
def hosted (q : Queue) (x : Conn) : State := { withPage 1 (fabric q cask (demo .nop)) with hostPort := true, conns := [(7, x)] }
/-- A PUT of one element of 16 bytes with tag 9 to queue `q`. -/
def putOf (q : Nat) (z : Nat) : HostFrame := frame 3#8 (bytesOf 4 q ++ bytesOf 2 1 ++ bytesOf 2 0 ++ bytesOf 8 9 ++ List.replicate z 8#8)
theorem test_put : got (exec (.put (putOf 1 16)) (hosted plainQ conn)) (fun t => (t.msgs.map fun e => (e.2.sender, e.2.qid, e.2.ask), outs t)) =
    some ([(.host 7 0#32 false, 1#32, .qrp (some 0#3) [elem 8#8])], []) := by decide +kernel
theorem test_put_noentry : got (exec (.put (putOf 0 16)) (hosted plainQ conn)) (fun t => (outs t).map fun e => fieldAt e.2 4 4) = some [3] := by
  decide +kernel
/-- A GET of up to two elements from queue 1. -/
def getOf : HostFrame := frame 4#8 (bytesOf 4 1 ++ bytesOf 2 2 ++ bytesOf 2 0)
/-- A GET of one element from queue 1 that stands. -/
def standOf : HostFrame := frame 4#8 (bytesOf 4 1 ++ bytesOf 2 1 ++ bytesOf 2 1)
theorem test_get : got (exec (.get getOf) (hosted plainQ conn)) (fun t => (t.msgs.map fun e => (e.2.sender, e.2.ask), outs t)) =
    some ([(.host 7 0#32 false, .get 7#3 2 true)], []) ∧
    got (exec (.get standOf) (hosted plainQ conn)) (fun t => (t.msgs.map fun e => (e.2.sender, e.2.ask), outs t)) =
      some ([(.host 7 0#32 true, .get 7#3 1 false)], []) := by decide +kernel
/-- A host's request of connection 7 under number 3, at the home port a clock after it came. -/
def hostMsg (st : Bool) (a : Ask) (panel : BitVec 8 := 0#8) : Msg :=
  { request a 5#12 with sender := .host 7 0#32 st, home := { homeOf 5#12 with panel := panel } }
def hostAt (q : Queue) (m : Msg) (l : List (Nat × Answer)) : State := { hosted q conn with msgs := [(3, m)], answers := l, clock := 1 }
theorem test_host_get_served : got (exec (.getRequest 3) (hostAt { plainQ with tail := 1#32, pos := [held 8#8] } (hostMsg false (.get 7#3 2 true)) [])) (fun t =>
    ((aget t.queues 5).map fun q => (q.head, q.pos.length), (outs t).map fun e => (e.1, fieldAt e.2 8 4))) =
    some (some (1#32, 0), [(5, 0x08080808), (8, 1)]) := by decide +kernel
theorem test_host_answer : got (exec (.portPutAnswer 3) (hostAt plainQ (hostMsg false (.qrp (some 0#3) [elem 8#8])) [(3, .full)])) (fun t =>
    ((outs t).map fun e => (e.1, fieldAt e.2 4 4), t.msgs.length, t.answers.length)) = some ([(8, 1)], 0, 0) ∧
    got (exec (.portPutAnswer 3) (hostAt plainQ (hostMsg true (.get 7#3 1 false) 2#8) [(3, .served [elem 8#8])])) (fun t =>
      ((outs t).map (·.1), t.msgs.map fun e => (e.2.told, e.2.seq, e.2.out), t.answers.length)) = some ([8, 5], [(true, 0#32, false)], 0) := by decide +kernel
/-- A WRITE of three bytes, and a READ of three, at stack address 0x20000. -/
def writeOf (seq : BitVec 32 := 0#32) : HostFrame := frame 6#8 (bytesOf 8 1 ++ bytesOf 8 0x20000 ++ [1#8, 2#8, 3#8]) seq
/-- A frame of VERSION 2. -/
def badFrame : HostFrame := { writeOf with data := writeOf.data.set 1 0x80#8 }
def readOf : HostFrame := frame 7#8 (bytesOf 8 1 ++ bytesOf 8 0x20000 ++ bytesOf 4 3)
theorem test_write : got (exec (.write writeOf) (hosted plainQ conn)) (fun t => (t.stackRead 0 0x20000 4, (outs t).map (·.1))) =
    some (0x00030201, [8]) := by decide +kernel
theorem test_read : got (exec (.read readOf) ((hosted plainQ conn).stackWrite 0 0x20000 [7#8, 8#8, 9#8])) (fun t => (outs t).map fun e => (e.1, e.2.take 3)) =
    some [(5, [7#8, 8#8, 9#8]), (8, [0#8, 0#8, 0#8])] := by decide +kernel
theorem test_sequence : got (exec (.write (writeOf 1#32)) (hosted plainQ conn)) (fun t => (t.stackRead 0 0x20000 4, (outs t).map (·.1))) =
    some (0, [0]) := by decide +kernel
theorem test_dropped : got (exec (.droppedFrame badFrame) (hosted plainQ conn)) (·.dropped) = some 1 := by decide +kernel
/-- O57: frames of each type on a connection with room, one for nobody, a window with frames to acknowledge. -/
theorem witness_frames : let s := hosted plainQ conn
    s.portUp = true ∧ s.frameBad badFrame = true ∧ s.frameBad (frame 1#8 (List.replicate 8 0#8)) = false ∧ s.manager 0 = some 0 ∧ s.conns.length + s.msgs.length < 2 ^ 16 ∧
    s.frameBad (frame 9#8 []) = false ∧ aget s.conns 7 = some conn ∧ s.physDie? 0 = some 0 ∧ conn.unacked = [] ∧ conn.rxSeq = 0#32 ∧ 0 < conn.window := by
  decide +kernel
/-- R365: the header of a frame, byte by byte: LENGTH 3 and VERSION 1, TYPE, DIE, PTAG above four reserved bits, CONNECTION, SEQUENCE, ACK. -/
theorem test_header : DevFrame.bytes { seq := 0x11121314#32, typ := 5#8, ack := 0x21222324#32, ptag := 0xABC#12, die := 9#8, payload := [1#8, 2#8, 3#8] } 0x3132 =
    [3#8, 0x40#8, 5#8, 9#8, 0xC0#8, 0xAB#8, 0x32#8, 0x31#8, 0x14#8, 0x13#8, 0x12#8, 0x11#8, 0x24#8, 0x23#8, 0x22#8, 0x21#8, 1#8, 2#8, 3#8] := by decide +kernel
/-- A frame not acknowledged yet. -/
def sentFrame : DevFrame := { seq := 0#32, typ := 8#8, ack := 0#32, ptag := 1#12, die := 0#8, payload := [] }
theorem witness_ack : let x := { conn with unacked := [sentFrame] }
    (hosted plainQ x).frameBad (frame 0#8 [] 0#32 1#32) = false ∧ x.backlog = [] ∧ 0 < (1#32 - sentFrame.seq).toNat ∧
    (1#32 - sentFrame.seq).toNat ≤ x.unacked.length ∧ x.retries < 64 ∧ (hosted plainQ x).clock < x.lastAck + x.timeout * 800 ∧
    x.lastAck + x.timeout * 800 ≤ { hosted plainQ x with clock := 8000 }.clock := by decide +kernel
/-- O57: a PUT and each GET that translate, one that does not; an answer and elements for a request of the connection, and a GET of it
at its home port. -/
theorem witness_put : let s := hosted plainQ conn
    s.frameBad (putOf 1 16) = false ∧ s.hostReady (putOf 1 16) .produce [0] = true ∧ putElems (putOf 1 16).payload = some [elem 8#8] ∧ qidKind 1#32 ≠ 2 ∧
    s.transQ 0 1#12 1#32 .produce false [0] = .ok (homeOf 5#12, 0#6) ∧ sizeCodeOf (elem 8#8).data.length = 0#3 ∧
    s.hostReady (putOf 0x40000002 16) .produce [0] = true ∧ s.transQ 0 1#12 0x40000002#32 .produce false [0] = .error 2 ∧ qidKind 0x40000002#32 ≠ 2 := by
  decide +kernel
theorem witness_put_launch : let s := hosted plainQ conn
    s.frameBad (putOf 0x80000000 256) = false ∧ s.hostReady (putOf 0x80000000 256) .produce [0] = true ∧
    (putElems (putOf 0x80000000 256).payload).any (fun es => es.length == 1 && es.all fun e => e.data.length == 256) = true ∧ qidKind 0x80000000#32 = 2 ∧
    sysQueue 0x80000000#32 (s.logDie 0) = some 0 ∧ 1 ≤ launchRoom (s.die 0) := by decide +kernel
theorem witness_host_get : let s := hosted plainQ conn
    (∀ f ∈ [getOf, standOf], s.frameBad f = false ∧ s.hostReady f .consume [0, 1] = true ∧ 7 ≤ f.payload.length ∧ 0 < fieldAt f.payload 4 2) ∧
    fieldAt getOf.payload 6 1 = 0 ∧ fieldAt standOf.payload 6 1 = 1 ∧ s.transQ 0 1#12 1#32 .consume false [0, 1] = .ok (homeOf 5#12, 0#6) := by decide +kernel
theorem witness_host_answer : let s := hostAt plainQ (hostMsg true (.get 7#3 1 false) 2#8) [(3, .served [elem 8#8])]
    aget s.msgs 3 = some (hostMsg true (.get 7#3 1 false) 2#8) ∧ s.backUp (hostMsg true (.get 7#3 1 false) 2#8) = true ∧ conn.backlog = [] ∧
    conn.unacked.length + [elem 8#8].length < conn.window ∧ (hostMsg true (.get 7#3 1 false) 2#8).home.panel ≠ s.panelNo ∧
    { s with answers := adel s.answers 3, msgs := adel s.msgs 3 }.streamRoom (.host 7 0#32 true) 1#12 1#32 = true := by decide +kernel
theorem witness_host_home : let q : Queue := { plainQ with tail := 1#32, pos := [held 8#8] }
    let m := hostMsg false (.get 7#3 2 true)
    (hostAt q m []).canServe 3 m = true ∧ (hostAt q m []).backUp m = true ∧ (hostAt q m []).homeCheck m.home m.ptag m.gen true = .ok (5, q) ∧
    2 ≤ q.window ∧ takeUpTo q.pos 2 = ([elem 8#8], []) ∧ q.landing = none := by decide +kernel
theorem witness_bulk : let s := hosted plainQ conn
    s.hostReach 0 = true ∧ s.bulkReady writeOf 3 = true ∧ s.bulkReady readOf 3 = true ∧ s.poison = [] ∧ s.ue = [] ∧ s.frameBad writeOf = false ∧ s.frameBad readOf = false ∧ fieldAt writeOf.payload 0 1 ≤ 1 ∧
    fieldAt readOf.payload 16 4 = 3 ∧ 0x20000 < Config.stackBytes ∧ min 8192 (conn.frame - 34) = 1484 ∧ (3 + 1484 - 1) / 1484 < conn.window ∧
    (spanCuts 0x20000 3 3).all (fun p => match s.bulkAt 0 1#12 1 p.1 p.2 with
      | .ok a => a == 0x20000 + (p.1 - 0x20000)
      | .error _ => false) = true ∧
    (spanCuts 0x20000 3 3).all (fun p => match s.bulkAt 0 1#12 0 p.1 p.2 with
      | .ok a => a == 0x20000 + (p.1 - 0x20000)
      | .error _ => false) = true := by decide +kernel

/-- A command of 64 bytes: its code, and operand bytes from 8 on. -/
def cmd (code : Nat) (ops : List Byte) : List Byte := bytesOf 8 code ++ ops ++ List.replicate (56 - ops.length) 0#8
/-- A command queue that holds it, on a die that manages Delup link 0. -/
def commanded (c : List Byte) : State :=
  { (fabric plainQ cask (demo .nop)).modDie 0 fun x => { x with cmdQ := [c] } with links := [(0, {})] }
theorem test_process : got (exec (.process 0) (commanded (cmd 3 (bytesOf 8 6 ++ bytesOf 8 0x500 ++ bytesOf 8 0x40 ++ bytesOf 4 4)))) (fun t =>
    (aget (t.die 0).procs 6, (t.die 0).rasQ.map fun e => (e.kind, e.detail))) = some (some { root := 0x500, qtab := 0x40, qlen := 4 }, [(2, 0)]) := by
  decide +kernel
theorem test_refused : got (exec (.process 0) (commanded (cmd 3 (bytesOf 8 6 ++ bytesOf 8 0x501 ++ bytesOf 8 0x40 ++ bytesOf 4 4)))) (fun t =>
    (aget (t.die 0).procs 6, (t.die 0).rasQ.map fun e => (e.kind, e.detail))) = some (none, [(2, 65536)]) := by decide +kernel
theorem test_exclude : got (exec (.excludeDie 0) (commanded (cmd 10 []))) (fun t => (t.exclNow, t.dieMap)) = some (1#128, [0]) := by decide +kernel
/-- The SLOT command of slot 9 on port 0: owner 1, 16-byte elements, a window of 4. -/
def slotCmd : List Byte := cmd 4 (bytesOf 2 0 ++ bytesOf 2 9 ++ bytesOf 2 1 ++ bytesOf 2 0 ++ bytesOf 2 4)
theorem test_slot : got (exec (.slot 0) (commanded slotCmd)) (fun t => aget t.queues 9) =
    some (some { owner := 1#12, gen := 0#6, kind := 0, size := 0#3, window := 4, cellarBase := 0#48, cellarPages := 0, landing := none }) := by decide +kernel
/-- O58: a command of each code within its range. -/
theorem witness_command (c : List Byte) : ((commanded c).die 0).cmdQ = [c] ∧ ((commanded c).die 0).rasQ.length < 4351 ∧ ((commanded c).die 0).cmdBusy = none := by
  exact ⟨rfl, show 0 < 4351 by decide, rfl⟩
/-- O58: no row that a command reads is under test; the keys of both TLBs without repeats. -/
theorem witness_command_free : (∀ c ∈ [slotCmd, cmd 6 (bytesOf 8 0 ++ bytesOf 8 0x30000), cmd 12 ([0#8, 1#8, 0#8, 0#8] ++ bytesOf 4 6 ++ bytesOf 8 0x30000)],
      (commanded c).cmdBusyRows 0 c = false) ∧ (((commanded slotCmd).die 0).tlb.map (·.1)).Nodup ∧ (((commanded slotCmd).core 0 0).tlb.map (·.1)).Nodup := by
  decide +kernel
/-- O58: a SLOT element with a byte that its table does not list; the removal of a slot in range. -/
theorem witness_slot_range : slotRange slotCmd = true ∧ slotRange (cmd 4 (bytesOf 2 4 ++ bytesOf 2 9)) = false ∧ slotRange (cmd 4 (bytesOf 2 0 ++ bytesOf 2 9 ++ bytesOf 2 1)) = true ∧
    fieldAt (cmd 4 (bytesOf 2 0 ++ bytesOf 2 9 ++ bytesOf 2 1)) 16 2 = 0 := by decide +kernel
theorem test_slot_refused : got (exec (.slot 0) (commanded (cmd 4 (bytesOf 2 4 ++ bytesOf 2 9)))) (fun t => (aget t.queues 9, (t.die 0).rasQ.map fun e => e.detail)) =
    some (none, [65536]) := by decide +kernel
/-- O58: a LANE_SWAP of a Delup link, begun and at the end of its training. -/
def swapping (x : Link) (busy : Option (List Byte)) (q : List (List Byte)) : State :=
  { (commanded []).modDie 0 fun v => { v with cmdQ := q, cmdBusy := busy } with links := [(0, x)] }
theorem witness_lane_swap : let c := cmd 8 [1#8, 0#8, 0#8, 17#8]
    let s := swapping { up := true } none [c]
    s.linkOwned 0 1 0 = true ∧ (agetD s.flash.spares (2 ^ 16) []).length < 2 ∧ fieldAt c 8 1 = 1 ∧ fieldAt c 11 1 = 17 ∧
    (swapping { training := some (0, true) } (some c) [c]).manager 0 = some 0 ∧ (swapping { training := some (0, true) } (some c) [c]).clock < 400000000 ∧
    ({ training := some (0, true) } : Link).txStopped = false := by
  decide +kernel
/-- O58: a SELFTEST whose location a RAS element could name, and one of a core that the die has not. -/
theorem witness_selftest : (commanded []).selftestOk 0 4 127 0 0 = true ∧ (commanded []).selftestOk 0 4 128 0 0 = false ∧
    (commanded []).selftestOk 0 8 0 0 17 = true ∧ (commanded []).selftestOk 0 8 9 0 17 = false := by decide +kernel
theorem test_selftest : (∀ n ∈ [127, 128], got (exec (.selftest 0 .pass) (commanded (cmd 14 ([4#8, 0#8, 0#8, 0#8] ++ bytesOf 4 n)))) (fun t =>
    (t.die 0).rasQ.map fun e => (e.kind, e.detail)) = some (if n = 127 then [(1, 0), (2, 0)] else [(2, 65536)])) := by decide +kernel
/-- What a training finds. -/
def trainedInfo : TrainInfo :=
  { ours := [], theirs := [], partner := 0#64, partnerLink := 0#8, fastOut := false, fastIn := false,
    proof := { epoch := 0#8, counter := 0#56, body := [], tag := [], carried := [] } }
theorem test_lane_swap : let c := cmd 8 [1#8, 0#8, 0#8, 17#8]
    got (exec (.laneSwap 0 true) (swapping { up := true } none [c])) (fun t => ((aget t.links 0).map fun x => (x.up, x.training.isSome), (t.die 0).rasQ.length)) =
      some (some (false, true), 0) ∧
    got (exec (.linkTrainingComplete true 0 trainedInfo)
      (swapping { training := some (0, true) } (some c) [c])) (fun t => ((aget t.links 0).map fun x => (x.up, x.training.isSome), (t.die 0).cmdBusy)) =
      some (some (true, false), none) := by decide +kernel
theorem witness_zero : (∀ c ∈ [cmd 1 (bytesOf 8 1 ++ bytesOf 8 0x10000 ++ bytesOf 4 1), cmd 2 (bytesOf 4 1 ++ bytesOf 4 0 ++ bytesOf 4 3),
      cmd 3 (bytesOf 8 4095 ++ bytesOf 8 0x500 ++ bytesOf 8 0x40 ++ bytesOf 4 4), slotCmd, cmd 4 (bytesOf 2 0 ++ bytesOf 2 5), cmd 5 (bytesOf 4 1 ++ bytesOf 4 2),
      cmd 6 (bytesOf 8 0 ++ bytesOf 8 0x30000), cmd 7 (bytesOf 4 95 ++ bytesOf 4 77), cmd 8 [1#8, 0#8, 0#8, 17#8], cmd 9 [5#8], cmd 10 [0#8], cmd 11 [],
      cmd 12 ([0#8, 1#8, 0#8, 0#8] ++ bytesOf 4 6 ++ bytesOf 8 0x30000), cmd 13 [1#8, 0#8], cmd 13 [0#8, 1#8], cmd 14 ([9#8, 0#8, 0#8, 0#8] ++ bytesOf 4 3),
      cmd 15 (bytesOf 2 0x88B6)], cmdZero c = true ∧ c.length = 64) := by decide +kernel
theorem witness_ranges : (commanded slotCmd).vaBusy 0 (cmd 1 (bytesOf 8 1 ++ bytesOf 8 0x10000 ++ bytesOf 4 1)) = false ∧
    (((commanded slotCmd).modDie 0 fun v => { v with cmdQ := [] }).slotQueue 0 9 slotCmd).any (fun q => q.landing == none) = true ∧
    (aget (commanded slotCmd).queues 9).isNone = true ∧ ((commanded []).queues.all fun e => e.2.waiters == []) = true ∧
    (List.range 256).all (fun i => bits ((commanded []).stackByte 0 (0x30000 + i)) 6 5 == 0) = true ∧ (0 : Nat) = (commanded []).panelNo.toNat := by
  decide +kernel
theorem witness_links : let s := commanded []
    s.manager 0 = some 0 ∧ s.linkOwned 0 1 0 = true ∧ s.linkOwned 0 0 1 = true ∧ s.poison = [] ∧ s.ue = [] ∧ aget s.links 0 = some {} := by decide +kernel
theorem witness_cores : ((demo .nop).fusedCores 0).getLsbD 5 = false ∧ ((demo .nop).die 0).retired.getLsbD 5 = false ∧ ((demo .nop).die 0).hold.getLsbD 5 = false ∧
    (demo .nop).coreEmpty 0 5 = true := by decide +kernel
theorem witness_idle : { demo .nop with teams := [] }.launchResident = false := by decide +kernel
theorem witness_busy : let s := (commanded slotCmd).modDie 0 fun v => { v with cmdBusy := some (cmd 7 (bytesOf 4 1 ++ bytesOf 4 2)) }
    (s.die 0).cmdBusy = some (cmd 7 (bytesOf 4 1 ++ bytesOf 4 2)) ∧ fieldAt (cmd 7 (bytesOf 4 1 ++ bytesOf 4 2)) 0 1 = 7 ∧ s.ue = [] ∧
    fieldAt (cmd 1 (bytesOf 8 1)) 0 1 = 1 ∧ fieldAt (cmd 16 []) 0 1 = 16 := by decide +kernel

/-- O59: the panel off and up, a port to train, tests in their order. -/
def testOf (run : Bool) : Test := { struct_ := 2, unit := 4, addr := 0, detail := 5, sev := 2, time := 7, running := run }
theorem witness_power : State.reset.phase = .off ∧ (demo .nop).phase = .up ∧ (demo .nop).hostPort = false ∧ ((demo .nop).manager 0).isSome = true ∧
    ({ demo .nop with dies := [] } : State).manager 0 = none ∧ (∀ e ∈ (demo .nop).links, e.2.training = none) ∧
    ((demo .nop).die 0).live = true ∧ ((demo .nop).die 0).rasQ.length < 4352 := by decide +kernel
theorem witness_tests : let s := (demo .nop).modDie 0 fun v => { v with tests := [testOf true, testOf false] }
    (s.die 0).tests = [testOf true] ++ testOf false :: [] ∧ (s.die 0).tests.find? (·.running) = some (testOf true) := by decide +kernel
theorem test_trip : got (exec .thermalTrip (demo .nop)) (fun t => (t.phase, t.teams.length, t.mem)) = some (.off, 0, []) := by decide +kernel
theorem test_train_retry : got (exec (.hostPortTrainRetry true) (demo .nop)) (·.hostPort) = some true := by decide +kernel
theorem test_test_start : got (exec (.targetedTestStart 0) ((demo .nop).modDie 0 fun v => { v with tests := [testOf true, testOf false] })) (fun t =>
    (t.die 0).tests.map (·.running)) = some [true, true] := by decide +kernel

/-- A COPY of four bytes from 0x200 to 0x300, both local; its successors as given. -/
def copyRec (s0 s1 : Nat) : List Byte :=
  bytesOf 64 (2 ^ 11 + 2 ^ 12 + s0 * 2 ^ 32 + s1 * 2 ^ 64 + (2 ^ 32 - 1) * 2 ^ 96 + 0x200 * 2 ^ 128 + 0x300 * 2 ^ 192 + 4 * 2 ^ 256 + 2 ^ 288)
/-- A submission of a0 whose record stands at 0x100, ready or running; its successor at 0x140 has PRED_COUNT 1. -/
def submitted (ready : List (Nat × Bool)) (running : List (Nat × RunRec)) (s0 : Nat) : State :=
  let m := localPut (localPut (localPut [] 0x100 (copyRec s0 noLink)) 0x142 [1#8]) 0x200 [1#8, 2#8, 3#8, 4#8]
  (withGroup (fun g => { g with ac := [(0, 1#16)] }) ((demo .nop).modTeam 0 0 fun t => { t with localMem := m })).modCore 0 0 fun c =>
    { c with subs := [(2, { die := 0, slot := 0, g := 0, uid := 1, k := 0, ready := ready, running := running, nextRec := 1 })] }
def running (s0 : Nat) (todo : List EngMove := []) : List (Nat × RunRec) :=
  [(0, { addr := 0x100, fields := BitVec.ofNat 512 (natOfBytes (copyRec s0 noLink)), result := 1, todo := todo })]
theorem test_record_start : got (exec (.recordStart 0 0 2 0x100) (submitted [(0x100, true)] [] noLink)) (fun t =>
    (aget (t.core 0 0).subs 2).map fun u => (u.ready.length, u.running.map fun e => e.2.todo.map fun m => (m.src.map (·.addr), m.dst.addr))) =
    some (some (0, [[(some 0x200, 0x300), (some 0x201, 0x301), (some 0x202, 0x302), (some 0x203, 0x303)]])) := by decide +kernel
/-- A byte that a record has still to move, in local memory. -/
def byteMove (src dst : Nat) : EngMove := { src := some { loc := true, addr := src, cls := 0 }, byte := 0#8, dst := { loc := true, addr := dst, cls := 0 } }
/-- A record with a byte to move at 0x307 and two at 0x308, at the engine's turn for the second. -/
def moving : State :=
  { submitted [] (running noLink [byteMove 0x200 0x307, byteMove 0x201 0x308, byteMove 0x202 0x309]) noLink with agenda := [.engine 0 0 2 0 1] }
theorem test_engine_turn : got (step moving) (fun t => (((t.team? 0 0).bind fun m => m.localRead 0x307 3),
    (aget (t.core 0 0).subs 2).map fun u => u.running.map fun e => e.2.todo.map (·.dst.addr))) = some (some (2 * 256 + 3 * 65536), some [[0x307]]) := by
  decide +kernel
theorem test_record_finish : got (exec (.recordFinish 0 0 2 0) (submitted [] (running noLink) noLink)) (fun t =>
    ((t.team? 0 0).bind fun m => m.localRead 0x138 4, (t.core 0 0).subs.length, (t.group? 0).map (·.counter 0))) = some (some 1, 1, some 1) := by
  decide +kernel
/-- A submission with no record left, at the turn that completes it. -/
def settling (running : List (Nat × RunRec)) : State := { submitted [] running noLink with agenda := [.settle 0 0 2] }
theorem test_settle : got (step (settling [])) (fun t => ((t.core 0 0).subs.length, (t.group? 0).map (·.counter 0))) = some (0, some 0) ∧
    got (step (settling (running noLink))) (fun t => ((t.core 0 0).subs.length, (t.group? 0).map (·.counter 0))) = some (1, some 1) := by decide +kernel
theorem witness_settle : (settling []).agenda = .settle 0 0 2 :: [] ∧ ((settling []).group? 0).any (fun g => g.uid == 1) = true ∧
    (aget ((settling []).core 0 0).subs 2).any (fun u => u.uid == 1 && u.ready == [] && decide (u.running = [])) = true ∧ running noLink ≠ [] := by decide +kernel
/-- O60: a record that may start, one that is malformed, one that finishes alone and one with a successor. -/
theorem witness_record : let s := submitted [(0x100, true)] [] noLink
    let f : RecBits := BitVec.ofNat 512 (natOfBytes (copyRec noLink noLink))
    (aget (s.core 0 0).subs 2).any (fun u => u.slot == 0 && u.die == 0 && (u.ready.find? fun e => e.1 == 0x100) == some (0x100, true)) = true ∧
    (s.team? 0 0).any (fun t => !t.killed && t.localPoison == [] && t.localUe == [] && BitVec.ofNat 512 (t.localRead 0x100 64) == f) = true ∧
    (s.core 0 0).runningCount < 4 ∧ bits f 31 16 = 0 ∧ bits f 479 448 ≠ 2 ∧ f.malformed 16384 true = false ∧ f.rangeOk 16384 8192 = true ∧
    f.lowerOk 8192 = true ∧ f.dstLocal = true ∧ f.srcLocal = true ∧ (f.moves 8192).length = 4 ∧ ((f.moves 8192).map fun m => m.dst).Nodup ∧
    (f.moves 8192).all (fun m => (f.moves 8192).all fun m' => m.src != some m'.dst) = true ∧ (f ||| 1#512).kind = 1 ∧ (f ||| 7#512).malformed 16384 true = true := by
  decide +kernel
theorem witness_finish : let s := submitted [] (running noLink) noLink
    (aget (s.core 0 0).subs 2).any (fun u => (aget u.running 0).any fun x => x.result == 1 && RecBits.barrier x.fields == noLink &&
      RecBits.succs x.fields == [noLink, noLink]) = true ∧ (s.group? 0).any (fun g => g.uid == 1) = true ∧
    (aget ((submitted [] (running 0x140) 0x140).core 0 0).subs 2).any (fun u => (aget u.running 0).any fun x => RecBits.succs x.fields == [0x140, noLink]) = true ∧
    0x140 % 64 = 0 ∧ 0x140 + 64 ≤ recL demoRec ∧ 0x100 + 64 ≤ 0x140 ∧
    ((submitted [] (running 0x140) 0x140).team? 0 0).map (fun t => t.localRead 0x142 2) = some 1 := by decide +kernel

/-- O60: a record with bytes left, at the turn of one of them; bytes of two aligned eights. -/
theorem witness_engine_turn : moving.agenda = [.engine 0 0 2 0 1] ∧ ((0x307 : Nat) / 8 ≠ 0x308 / 8) ∧ (0x309 : Nat) / 8 = 0x308 / 8 ∧
    (aget (moving.core 0 0).subs 2).any (fun u => (aget u.running 0).any fun x => x.todo.length == 3 && !x.overlap &&
      x.todo.all fun m => m.dst.loc && m.src.all fun p => p.loc) = true ∧ (moving.die 0).tests = [] := by decide +kernel

/-! Two gangs, and what the statements ask beside the above. -/

/-- Fragment 0 with lanes in both halves of a 64-lane group at an IADD of v1 and s0, its lower gang issued or not. -/
def wide (q : Option LowGang) (clock : Nat) : State :=
  let i : Instr := .iadd 0#10 (r 1#10) (r 256#10) .wrap noG
  { parts [(0, { demoFrag 0 with mask := BitVec.allOnes 64, gang := q })] [] (demo i [(64, 1#32), (64 + 32, 2#32)] [(0, 7#32)]) with clock := clock }
/-- A lower gang of clock 3, for which s0 held 5. -/
def lowGang3 : LowGang := { clock := 3, s := [(0, 5#32)], workX := 9#32, workY := 0#32 }
theorem test_two_gangs : let i : Instr := .iadd 0#10 (r 1#10) (r 256#10) .wrap noG
    got (exec i (wide none 3)) (fun t => (t.rdReg fr 0 0, ((t.front? fr).bind (·.gang)).map (·.clock), (t.front? fr).map (·.idx))) = some (0#32, some 3, some 0) ∧
    got (exec i (wide (some lowGang3) 3)) (fun t => t.rdReg fr 0 32) = some 0#32 ∧
    got (exec i (wide (some lowGang3) 4)) (fun t => (t.rdReg fr 0 0, t.rdReg fr 0 32, (t.front? fr).bind (·.gang))) = some (6#32, 9#32, none) := by decide +kernel
/-- O39, O6: an instruction of two gangs before its lower gang, in its clock, and after it. -/
theorem witness_two_gangs : (wide none 3).gangWaits fr { demoFrag 0 with mask := BitVec.allOnes 64 } = true ∧
    (wide (some lowGang3) 3).gangWaits fr { demoFrag 0 with mask := BitVec.allOnes 64, gang := some lowGang3 } = true ∧
    (wide (some lowGang3) 4).gangWaits fr { demoFrag 0 with mask := BitVec.allOnes 64, gang := some lowGang3 } = false ∧
    ((wide none 3).group? 0).any (fun g => decide (aget g.frags 0 = some { demoFrag 0 with mask := BitVec.allOnes 64 })) = true := by decide +kernel
/-- O22, O31: no line of the core's L1 streamed. O33: no waiting instruction reads e14 or e15. O34: no row of the line's is under test. O43: the
table's row is not under test. O45: nor the cellar's tables. O46 to O48, O50: nor a register that is written. -/
theorem witness_free : ((demo .nop).core 0 0).l1 = [] ∧ (demo (.wqry 2#3 (r 256#10) noG)).workHeld fr = false ∧
    (∀ i ∈ [0, 1, 2, 3], (demo .nop).stackBusy 3 (201326591 * 256 + 64 * i) = false) ∧
    (asking (.qres 260#10 (r 256#10) (r 258#10) noG) 1#32 3#32 0#32 1).qBusy 0 1#12 1 = false ∧
    (withPage 1 (fabric (cellarQ none false) cask (demo .nop))).xlateBusy 0 1#12 0x20020 = false ∧
    (waiting (.get 3) (kept 6 8#10) (atPort (.get 0#3 2 false) plainQ)).pendBusy 3 = false ∧ (caskHolding regPut 8#64).regBusy fr 9 = false ∧
    (hjoins (joining2 .retired)).regsBusy fr 8 2 = false ∧ (joining2 .retired).hjoinBad = false ∧ (demoRecruit 0).recs = [] := by decide +kernel
/-- O46: a get that found no waiter record, 1,024 clocks on, and once it has come again. -/
theorem witness_again : let m : Msg := { request (.get 0#3 2 false) 5#12 with accepted := true }
    let s := { waiting (.get 3) (kept 6 8#10) (atPort (.get 0#3 2 false) plainQ) with msgs := [(3, { m with arrived := none })], clock := 1024 }
    s.pathUp { m with arrived := none } = true ∧ m.linked = false ∧ m.out = false ∧ m.lastTry + 1024 ≤ s.clock ∧ aget s.answers 3 = none ∧
    { s with msgs := [(3, m)] }.canServe 3 m = true := by decide +kernel
theorem test_arrive : let m : Msg := { request (.get 0#3 2 false) 5#12 with accepted := true, arrived := none }
    (∀ c ∈ [1023, 1024], (aget ({ atPort (.get 0#3 2 false) plainQ with msgs := [(3, m)], clock := c }.arrive 3).msgs 3).map (·.arrived) =
      some (if c = 1024 then some 1024 else none)) := by decide +kernel
/-- O55: a recruitment of the clock of the request, and one of an earlier clock. -/
def recruited (since : Option Nat) : State :=
  withGroup (fun g => { g with recruit := some { demoRecruit 0 with dst := 260, since := since } }) { answered (answerOf 3 2 0) with clock := 50 }
theorem witness_recruited : ((recruited (some 50)).group? 0).any (fun g => g.recruit.any fun x => x.since == some 50 && decide (x.lo.toNat < x.hi.toNat)) = true ∧
    ((recruited (some 49)).group? 0).any (fun g => g.recruit.any fun x => x.since == some 49) = true ∧ (recruited (some 50)).clock = 50 := by decide +kernel
theorem test_unrecruit : got (exec (.preempt 0) (recruited (some 50))) (fun t => (t.rdReg fr 260 0, ((t.group? 0).bind (·.recruit)).map fun x => (x.helpers.length, x.dealing))) =
      some (0x20000000#32, some (0, false)) ∧
    got (exec (.preempt 0) (recruited (some 49))) (fun t => (t.rdReg fr 260 0, ((t.group? 0).bind (·.recruit)).map fun x => (x.helpers.length, x.dealing))) =
      some (0#32, some (1, false)) := by decide +kernel
/-- O19: a get that has been accepted sleeps. -/
theorem witness_exchange_get : let m : Msg := { request (.get 0#3 2 false) 5#12 with accepted := true }
    let s := { queued 1 (parts [(0, { demoFrag 4 with wait := .get 3 })] [] (demo (.yield noG))) with msgs := [(3, m)] }
    (0 : Nat) ∈ partSet (s.core 0 0).active 0 ∧ s.groupReady 0 = false ∧ partSet (s.core 0 0).pending 0 = [1] ∧ s.groupReady 1 = true ∧
    aget s.answers 3 = none ∧ aget s.msgs 3 = some m := by decide +kernel

/-! Sources read in the lowest lane alone, errors, and the clauses that stand beside those above. -/

/-- The demo group with v1 in error in lane 5. -/
def marked (i : Instr) : State := withGroup (fun g => { g with tags := [(1, { poison := 0x20#64 })] }) (demo i)
/-- R198, R265: an error in a lane that is not read raises nothing; a source read in every lane raises it. -/
theorem test_lone : let s := marked (.loop 1#2 (r 1#10) 0#30)
    s.ready fr all16 { ctlSpec noG [(r 1#10, 1)] with seq := true, lone := [0] } = true ∧
    s.ready fr all16 { ctlSpec noG [(r 1#10, 1)] with seq := true } = false ∧ parkOf (exec (.iaddImm 0#10 (r 1#10) 3#20 .wrap noG)
      (marked (.iaddImm 0#10 (r 1#10) 3#20 .wrap noG))) = some (36, 0) := by decide +kernel
/-- O21: a fault behind a held one; a fault whose vector's row is under test. -/
theorem witness_held : let s := withGroup (fun g => { g with held := [{ code := 2 }] }) (demo (.trap 77#20 noG))
    (s.group? (agKey fr)).any (fun g => g.held != [] && g.parked == none) = true := by decide +kernel
def busyEntry : State :=
  (withGroup (fun g => { g with trapVec := 0x10000#48, trapFrame := 0x20040#48 }) (withPage 1 (landing (demo (.trap 77#20 noG))))).modDie 0
    fun x => { x with tests := [{ struct_ := 6, unit := 0, addr := 0x10000, detail := 0, sev := 2, time := 0, running := true }] }
theorem witness_entry_busy : (busyEntry.group? 0).any (fun g => g.handler == none && g.trapVec == 0x10000#48) = true ∧ classG 1 = true ∧
    ∀ g : Group, g.trapVec = 0x10000#48 → busyEntry.entryBusy 0 g = true := by
  have hc : busyEntry.chkNow 0 (busyEntry.ptagOf 0) 0x10000 8 .fetch = .ok 0x10000 2 := by decide +kernel
  have ht : (busyEntry.die 0).tests = [{ struct_ := 6, unit := 0, addr := 0x10000, detail := 0, sev := 2, time := 0, running := true }] := by decide +kernel
  exact ⟨by decide +kernel, by decide, fun g h => by simp [State.entryBusy, State.fetchBusy, State.stackBusy, keyDie, h, hc, ht]⟩
/-- Four bytes of lane 2 in a CORE page, and in local memory. -/
def corePiece (data : Nat) : Piece := { piece data with cls := 0 }
def localPiece (data : Nat) : Piece := { piece data with addr := 0x40, va := 0x40, cls := 0 }
/-- O29, O30: a CORE line that L1 has room for; a store, a load and an atomic of local memory; a load for every lane. -/
theorem witness_performs : (let s := flying .store .glob 0 0 (corePiece 5) (demo (.fence .ar .die noG))
      (aget s.flight 3).any (fun x => s.mayPerform x (corePiece 5)) && s.l1Room 0 0 (corePiece 5).addr && decide ((s.core 0 0).l1 = [])) = true ∧
    (∀ k ∈ [AccKind.store, .load, .rmw .fadd false, .rmw .fmin false, .rmw .fmax false],
      (let s := flying k .loc (if k = .store then 0 else 5) (if k = .store then 0 else 1) (localPiece 5) (demo (.fence .ar .die noG))
       (aget s.flight 3).any (fun x => s.mayPerform x (localPiece 5)) &&
       (s.team? 0 0).any fun t => t.localPoison == [] && t.localUe == [] && decide (0x40 + 4 ≤ recL t.recd)) = true) ∧
    (corePiece 5).addr % 64 + 4 ≤ 64 ∧ (corePiece 5).addr % 4 = 0 := by decide +kernel
theorem test_performs : got (step { flying .store .loc 0 0 (localPiece 0xCAFEBABE) (demo (.fence .ar .die noG)) with agenda := [.perform 3 4#64] })
      (fun t => ((t.team? 0 0).map fun m => m.localRead 0x40 4, t.flight.length)) = some (some 0xCAFEBABE, 0) ∧
    got (step { cell 7 (flying .store .glob 0 0 (corePiece 9) (demo (.fence .ar .die noG))) with agenda := [.perform 3 4#64] })
      (fun t => ((t.core 0 0).l1.map fun e => (e.1, lineRead e.2 16 4), t.stackRead 0 0x20010 4)) = some ([(0x800, 9)], 7) ∧
    got (exec (.atomicAtHomeSlice 3 2) (cell 7 (flying (.rmw .add false) .glob 5 1 (corePiece 9) (demo (.fence .ar .die noG)))))
      (fun t => ((t.core 0 0).l1.map fun e => lineRead e.2 16 4, t.rdReg fr 5 2, t.stackRead 0 0x20010 4)) = some ([16], 7#32, 7) ∧
    got (exec (.atomicAtHomeSlice 3 2) (flying (.rmw .fadd false) .loc 5 1 (localPiece 0x3F800000) (demo (.fence .ar .die noG))))
      (fun t => ((t.team? 0 0).map fun m => m.localRead 0x40 4, t.rdReg fr 5 2)) = some (some 0x3F800000, 0#32) := by decide +kernel
/-- Two chunks of a private access of lane 2. -/
def chunks : List Piece := [{ piece 5 with addr := 0x20080, len := 4 }, { piece 6 with addr := 0x200C0, len := 4, reg := 1 }]
def chunking (k : AccKind) (n : Nat) : State :=
  let s := flying k .glob 4 n (piece 0) (demo (.fence .ar .die noG))
  { s with flight := s.flight.map fun e => (e.1, { e.2 with chunked := true, pieces := chunks }), agenda := [.perform 3 (laneBit 2)] }
theorem witness_chunks : (aget (chunking .load 2).flight 3).any (fun x => x.chunked && x.pieces == chunks && x.kind == .load && x.ndst == 2 &&
      x.pieces.all fun p => (chunking .load 2).mayPerform x p) = true ∧
    (aget (chunking .store 0).flight 3).any (fun x => x.pieces.all fun p => (chunking .store 0).mayPerform x p) = true ∧
    chunks.Pairwise (fun p q => p.meets q = false) ∧ (∀ p ∈ chunks, p.len ∈ [1, 2, 4] ∧ p.addr % p.len = 0 ∧ p.reg < 2) := by decide +kernel
/-- O31: one lane's address that passes, clean, with room in L1 and in L2; an address register in error drops the lane. -/
def prefetching (l2 : Bool) : State := withPage 1 (demo (.pref (r 256#10) 0x40#20 l2 ⟨1#4, false⟩) [(241 * 64 + 2, 1#32)] [(0, 0x20000#32)])
theorem witness_pref : ∀ l2 ∈ [true, false], let s := prefetching l2
    s.ready fr (laneBit 2) { cls := 2, guard := gd 1#4, srcs := [(r 256#10, 2)], ownErr := true } = true ∧
    s.xlateBusy 0 (s.ptagOf (agKey fr)) 0x20040 = false ∧ s.chkNow 0 (s.ptagOf (agKey fr)) 0x20040 1 .read = .ok 0x20040 1 ∧
    s.coreBusy 0 0 0x20040 false = false ∧ s.l1Room 0 0 0x20040 = true ∧ s.l2Room 0 0x20040 = true ∧ (s.core 0 0).l1 = [] := by decide +kernel
theorem test_pref : got (exec (.pref (r 256#10) 0x40#20 false (gd 1#4)) (prefetching false)) (fun t => (t.l1Has 0 0 0x20040, t.groups.length)) = some (true, 1) ∧
    got (exec (.pref (r 256#10) 0x40#20 true (gd 1#4)) (prefetching true)) (fun t => (t.l1Has 0 0 0x20040, aget t.l2 (stackKey 0 0x2007F))) =
      some (false, some 0#8) ∧
    got (exec (.pref (r 256#10) 0x40#20 false (gd 1#4)) (withGroup (fun g => { g with tags := [(257, { poison := 4#64 })] }) (prefetching false)))
      (fun t => (t.l1Has 0 0 0x20040, (t.group? 0).map fun g => g.parked.isSome)) = some (false, some false) := by decide +kernel
/-- O35: two helpers of a bank at one header, at the turn of the higher. -/
def gangStart : State :=
  let h (i : BitVec 28) : Helper := { demoHelper 0 with front := { (demoHelper 0).front with hdr := none }, iter := i }
  { withGroup (fun g => { g with recruit := some { demoRecruit 0 with helpers := [(3, h 4#28), (5, h 5#28)] } })
      (State.reset.place ((encode (.movi 1#10 5#32 noG)).getD 0#64)) with agenda := [.issue (.helper 0 0 0 5)] }
theorem witness_gang_start : (gangStart.gangMates 0 5 { (demoHelper 0).front with hdr := none }).map (·.1) = [3, 5] ∧
    gangStart.mayIssue (.helper 0 0 0 5) { (demoHelper 0).front with hdr := none } = true ∧
    gangStart.agFetchBusy (.helper 0 0 0 5) 0x10000#48 = false ∧ gangStart.fetchWord 0 (gangStart.ptagOf 0) 0x10000#48 = .inl (demoHeader 0) := by decide +kernel
theorem test_gang_start : got (step gangStart) (fun t => (((t.group? 0).bind (·.recruit)).map fun x => x.helpers.map fun h => h.2.front.hdr.isSome)) =
    some (some [true, true]) := by decide +kernel
/-- O48: a bad put and a good one, their team saved. -/
theorem test_saved_put : let away := fun (s : State) => s.modTeam 0 0 fun t => { t with saved := some (false, 7) }
    got (exec (.registerPutLanding 0 0 6) (away (caskHolding { regPut with data := bytesOf 16 (2 ^ 127) } 8#64)))
      (fun t => (aget t.queues 6).map (·.pos.length)) = some (some 0) ∧
    got (exec (.registerPutLanding 0 0 6) (away (caskHolding regPut 8#64))) (fun t => (aget t.queues 6).map (·.pos.length)) = some (some 1) := by decide +kernel
/-- O49: links at each bound of the counter, before key-ready, after it, and confirmed. -/
theorem witness_bounds : let m := 2 ^ 48 + 2 ^ 20
    let x : Link := { up := true, txCount := 2 ^ 48 }
    (x.confirmed, x.txNext, x.txStopped) = (false, none, false) ∧ x.txCount + 1 + 1 ≤ m ∧ x.txCount + 1 > 2 ^ 48 ∧
    (let y : Link := { x with txNext := some [1#8], txCount := m - 1 }
     y.txNext.isSome = true ∧ y.txCount + 1 ≤ m ∧ m < y.txCount + 2) ∧
    (let z : Link := { x with txNext := some [1#8], txCount := m, confirmed := true }
     z.confirmed = true ∧ z.txNext = some [1#8]) := by decide
theorem test_rekey_ready : (got (exec (.elementForward 3) (linked { up := true, txCount := 2 ^ 48 })) fun t => t.wireOut.map fun e => e.2.load) =
    some [.keyReady, .msg wire 0] := by decide +kernel
theorem test_rekey_switch : (got (exec (.elementForward 3) (linked { up := true, txCount := 2 ^ 48 + 5, txNext := some [1#8], confirmed := true })) fun t =>
      (t.wireOut.map fun e => (e.2.epoch, e.2.counter), (aget t.links 9).map fun x => (x.txKey, x.txNext))) = some ([(1#8, 0#56)], some ([1#8], none)) ∧
    (got (exec (.elementForward 3) (linked { up := true, txCount := 2 ^ 48 + 2 ^ 20, txNext := some [1#8] })) fun t => t.wireOut.length) = some 0 := by decide +kernel
/-- O50: a v0 in error at HNEXT. -/
def badCkpt : State := withGroup (fun g => { g with recruit := some { demoRecruit 4 with helpers := [(5, { demoHelper 4 with tags := [(0, { poison := 1#64 })] })] } })
  (withHelper 4 (demo (.hnext noG)))
theorem witness_bad_ckpt : (badCkpt.rdTag (.helper 0 0 0 5) 0).poison ≠ 0#64 ∧ badCkpt.ready (.helper 0 0 0 5) 1#64 (helperSpec noG) = true ∧
    badCkpt.clock < (demoHelper 4).dealt + 65536 ∧ (demoRecruit 4).recs = [] := by decide +kernel
theorem test_bad_ckpt : got (exec (.hnext noG) badCkpt) (fun t => ((t.group? 0).bind (·.recruit)).map fun x =>
    ((aget x.helpers 5).map fun h => (h.life, h.ckpt), x.recs.length, x.dealing)) = some (some (some (.stopped, 0#32), 1, false)) := by decide +kernel
/-- O55: PREEMPT of every team of the process. -/
theorem witness_preempt_all : let s := answered (answerOf 3 6 0)
    ResumeElem.cmd (answerOf 3 6 0) = 3 ∧ ResumeElem.all (answerOf 3 6 0) = true ∧ (s.teams.map (·.1)).Nodup ∧ s.resumeOk 0 (answerOf 3 6 0) = true ∧
    (s.team? 0 0).any (fun t => t.ptag == ResumeElem.ptag (answerOf 3 6 0) && t.preempt == none && t.saved == none) = true := by decide +kernel
/-- The context block of a matrix team of 16 KiB: its pages, one for every 64 KiB that it touches. -/
def matrixPages : List (Nat × TlbEntry) :=
  [0, 4, 5, 0x24, 0x2E, 0x2F, 0x30].map fun i =>
    (pageKey 1#12 (0x400000 + 65536 * i), { leaf := BitVec.ofNat 64 (2 ^ 63 + 2 ^ 62 + 2 ^ 60 + 2 ^ 59 + 2 ^ 58 + 0x400000 + 65536 * i), level := 4 })
/-- The demo team, a matrix team, asked to stop, its group stopped at a clause. -/
def stoppingMatrix : State :=
  { (withGroup (fun g => { g with v := [(65, 1#32)], frags := [(0, { clause := 0x10000#48, mask := fullMask 16, stopped := .safe })] }) (demo .nop)).modTeam 0 0 fun t =>
      { t with ctxBase := 0x400000#48, preempt := some { hold := false, since := 0 } } with
    dies := [(0, { live := true, coreMap := [0, 1], pairs := 1, tlb := matrixPages })] }
/-- O56: a matrix team that may be saved, with every piece on a page that admits it. -/
theorem witness_save_matrix : (stoppingMatrix.team? 0 0).any (fun t => stoppingMatrix.teamSettled 0 0 t && t.cores == [0, 1] && t.seq.isSome && t.localUe == []) = true ∧
    [0, 1].all (fun c => (stoppingMatrix.core 0 c).l1 == [] && (stoppingMatrix.core 0 c).tunUe == [] && (stoppingMatrix.core 0 c).gristUe == []) = true ∧
    (stoppingMatrix.group? 0).any (fun g => g.savesAll && !stoppingMatrix.windowsBusy 0 g) = true := by decide +kernel
theorem witness_pieces_matrix : ((stoppingMatrix.team? 0 0).map fun t => (stoppingMatrix.savePieces 0 0 9 t [(0, allWindows demoRec)]).map (·.off)).any
    (fun l => l.all fun o => (tlbHit (stoppingMatrix.die 0).tlb 1#12 (0x400000 + o)).any fun e =>
      match stoppingMatrix.chkEntry 0 e (0x400000 + o) .write with
      | .ok p _ => p == 0x400000 + o
      | .bad _ _ | .mchk _ | .miss => false) = true := by decide +kernel
/-- The same team, saved and waiting for the pair. -/
def savedMatrix (n : Nat) : State :=
  { (withGroup (fun g => { g with v := [], s := [] }) stoppingMatrix).modTeam 0 0 fun t =>
      { t with preempt := none, cores := [], localMem := [], saved := some (false, 7), savedWin := [(0, 1#80)] } with l2 := sealedCells n }
theorem witness_back_matrix : ((savedMatrix 0x1100).team? 0 0).any (fun t => (savedMatrix 0x1100).nextResume 0 == some (0, t, [0, 1]) && t.seq.isSome &&
    t.heldResume == []) = true := by decide +kernel
/-- O56: its seals hold and its body, the tun and the sequencer's among it, can be read. -/
theorem witness_seal_matrix : ∃ t b, (savedMatrix 0x1100).team? 0 0 = some t ∧
    (savedMatrix 0x1100).checkSeal 0 0 7 t ((savedMatrix 0x1100).sealOffs 0 0) = (savedMatrix 0x1100, none) ∧
    (savedMatrix 0x1100).readBody 0 0 t ((savedMatrix 0x1100).bodyOffs 0 0 t) = (savedMatrix 0x1100, .ok b) := by
  have hs : ((savedMatrix 0x1100).team? 0 0).any (fun t => ((savedMatrix 0x1100).sealOffs 0 0).all (fun o => ctxTo (savedMatrix 0x1100) t o && decide (o + 64 ≤ 0x1100)) &&
      ((savedMatrix 0x1100).bodyOffs 0 0 t).all fun o => ctxTo (savedMatrix 0x1100) t o.1) = true := by decide +kernel
  have hp : (savedMatrix 0x1100).poison = [] := rfl
  have hu : (savedMatrix 0x1100).ue = [] := rfl
  have h2 : (savedMatrix 0x1100).l2 = sealedCells 0x1100 := rfl
  generalize savedMatrix 0x1100 = s at *
  cases ht : s.team? 0 0 with
  | none => rw [ht] at hs; cases hs
  | some t =>
    rw [ht] at hs
    simp only [Option.any_some, Bool.and_eq_true, List.all_eq_true, decide_eq_true_eq] at hs
    obtain ⟨b, hb⟩ := body_holds s hp hu t _ hs.2
    exact ⟨t, b, rfl, seal_holds s hp hu h2 t _ hs.1, hb⟩
/-- A live table at 0x20000 with one entry: a mask of windows 1 and 40 for the clause at `c`. The group stopped at 0x10000. -/
def tabled (c : Nat) : State :=
  withGroup (fun g => { g with liveTab := 0x20000#48, frags := [(0, { clause := 0x10000#48, mask := fullMask 16, stopped := .safe })],
                               tags := [(17, { empty := true })] })
    ((withPage 1 (demo .nop)).stackWrite 0 0x20000 (bytesOf 16 1 ++ bytesOf 10 (2 ^ 1 + 2 ^ 40) ++ bytesOf 6 c))
/-- O56: a table with an entry for the clause, and one without; one that is mapped nowhere. -/
theorem witness_table : (∀ c ∈ [0x10000, 0x10008], (tabled c).stackRead 0 0x20000 4 = 1 ∧ (tabled c).stackRead 0 (0x20000 + 26) 6 = c ∧
      (tabled c).poison = [] ∧ (tabled c).ue = [] ∧
      ∀ i ∈ [0, 1], (tabled c).chkNow 0 ((tabled c).ptagOf 0) (0x20000 + 16 * i) 16 .read = .ok (0x20000 + 16 * i) 1) ∧
    (demo .nop).chkNow 0 ((demo .nop).ptagOf 0) 0x20000 16 .read = .bad 32 257 := by decide +kernel
theorem test_windows : ((tabled 0x10000).group? 0).map (fun g => ((tabled 0x10000).saveWindows 0 g).2) = some (2 ^ 1 + 2 ^ 2 + 2 ^ 40 : BitVec 80) ∧
    ((tabled 0x10008).group? 0).map (fun g => ((tabled 0x10008).saveWindows 0 g).2) = some (allWindows demoRec) := by decide +kernel
/-- O57: a CLOSE out of its order, which an ACK answers. -/
theorem witness_out_of_order : (hosted plainQ conn).frameBad (frame 9#8 [] 4#32) = false ∧ (frame 9#8 [] 4#32).seq ≠ conn.rxSeq ∧
    (hosted plainQ conn).manager 0 = some 0 ∧ (hosted plainQ conn).logDie 0 = 0 := by decide +kernel
theorem test_out_of_order : got (exec (.close (frame 9#8 [] 4#32)) (hosted plainQ conn)) (fun t => (outs t).map (·.1)) = some [0] := by decide +kernel
theorem test_ack_die : got (exec (.close (frame 9#8 [] 4#32)) (hosted plainQ conn)) (fun t => t.hostOut.map fun e => fieldAt e.2 3 1) = some [0] := by
  decide +kernel
/-- O58: ROW_REPAIR by its second method; a LANE_SWAP of a die-to-die link, begun and in training. -/
theorem witness_repairs : let c := cmd 7 (bytesOf 4 95 ++ bytesOf 4 77 ++ [1#8])
    cmdZero c = true ∧ fieldAt c 16 1 = 1 ∧ (agetD (commanded c).flash.remaps (repairKey 0 c) []).length < 256 ∧ (commanded c).cmdBusyRows 0 c = false := by
  decide +kernel
theorem witness_d2d_swap : let c := cmd 8 [0#8, 1#8, 7#8, 3#8]
    cmdZero c = true ∧ (commanded c).linkOwned 0 0 1 = true ∧ agetD (commanded c).flash.spares ((0 * 4 + 1) * 8 + 7) [] = [] ∧
    fieldAt c 10 1 < 8 ∧ ({ swapping {} (some c) [c] with d2dTrain := [1] }).d2dTrain.contains (linkKey 0 1) = true := by decide +kernel
theorem test_d2d_swap : let c := cmd 8 [0#8, 1#8, 7#8, 3#8]
    got (exec (.laneSwap 0 true) (swapping {} none [c])) (fun t => (t.d2dDown, t.d2dTrain, (t.die 0).cmdBusy.isSome)) = some ([1], [1], true) ∧
    got (exec (.linkTrainingComplete false 1 trainedInfo) { swapping {} (some c) [c] with d2dDown := [1], d2dTrain := [1] }) (fun t =>
      (t.d2dDown, t.d2dTrain, (t.die 0).cmdBusy.isSome)) = some ([], [], false) := by decide +kernel

end Sys2Proof.Tests
end

section
/-! PROOFS. The status registers: CSRR and CSRW (R72, R73, R135). -/

namespace Sys2Proof.Machine

/-! Keys of groups and the parts of a panel that an agent's own move leaves. -/

theorem keyDie_groupKey {n m k : Nat} (hm : m < 2048) (hk : k < 16) : keyDie (groupKey n m k) = n := by
  unfold keyDie groupKey teamKey Config.nSlots; omega

theorem keySlot_groupKey {n m k : Nat} (hm : m < 2048) (hk : k < 16) : keySlot (groupKey n m k) = m := by
  unfold keySlot groupKey teamKey Config.nSlots; omega

/-- The team of a group is that of its key's die and slot. -/
theorem State.teamOf_groupKey (s : State) {n m k : Nat} (hm : m < 2048) (hk : k < 16) :
    s.teamOf? (groupKey n m k) = s.team? n m := by
  rw [State.teamOf?, keyDie_groupKey hm hk, keySlot_groupKey hm hk]

/-! The issue of a form whose own ILLOP condition holds. -/

/-- An entry's own ILLOP condition is raised once the clause and the fields have passed, before the guard is looked at (R85). -/
theorem issueWith_illop {s : State} {ag : Agent} {f : Fragment} {sp : Spec} (h : s.fieldsPass ag f sp)
    (k : State → Agent → Mask → State) :
    issueWith s { sp with illop := true } k = .next (s.raiseAt ag 2 0 0#48 (s.faultLanes ag f sp)) := by
  obtain ⟨hc, hf, hr, hg, hs, hd⟩ := h
  have hr' : clauseRules f { sp with illop := true } = true := hr
  simp [issueWith, hc, hf, State.gate, hr', hg, hs, hd, State.faultLanes, State.active]

theorem Flags.foldl_or_none {α : Type} (l : List α) : l.foldl (fun a _ => a.or Flags.none) Flags.none = Flags.none := by
  induction l with
  | nil => rfl
  | cons _ t ih => exact ih

/-- An instruction that raises no flag writes its destination and goes on. -/
theorem State.quietly_eq (s : State) (ag : Agent) (act : Mask) (d : RegNo) (w : Nat → List Word) :
    s.quietly ag act d w = (s.wrLanes ag d.toNat ((lanesOf act).map fun l => (l, w l))).advance ag := by
  simp [State.quietly, State.computed, Flags.foldl_or_none, State.addFlags]

/-! Which status registers there are, and who may write them (R72, R73). -/

theorem csrAccess_eq_none_iff {i : Nat} : csrAccess i = .none ↔ csrUnassigned i := by
  unfold csrAccess csrUnassigned
  simp only [Bool.or_eq_true, Bool.and_eq_true, decide_eq_true_eq]
  split_ifs <;> simp <;> omega

theorem csrAccess_readOnly_iff {i : Nat} : (csrAccess i = .gr ∨ csrAccess i = .dr) ↔ csrReadOnly i := by
  unfold csrAccess csrReadOnly
  simp only [Bool.or_eq_true, Bool.and_eq_true, decide_eq_true_eq]
  split_ifs <;> simp <;> omega

theorem csrAccess_eq_pv_iff {i : Nat} : csrAccess i = .pv ↔ 0x300 ≤ i ∧ i ≤ 0x317 ∧ i ≠ 0x316 := by
  unfold csrAccess
  simp only [Bool.or_eq_true, Bool.and_eq_true, decide_eq_true_eq]
  split_ifs <;> simp <;> omega

theorem csrAccess_eq_pw_iff {i : Nat} : csrAccess i = .pw ↔ i = 0x316 := by
  unfold csrAccess
  simp only [Bool.or_eq_true, Bool.and_eq_true, decide_eq_true_eq]
  split_ifs <;> simp <;> omega

/-- The registers of access code PV or PW are those from 0x300 on (R72). -/
theorem csrAccess_privileged {i : Nat} (h : ¬csrUnassigned i) : (csrAccess i = .pv ∨ csrAccess i = .pw) ↔ 0x300 ≤ i := by
  rw [csrAccess_eq_pv_iff, csrAccess_eq_pw_iff]
  unfold csrUnassigned at h; omega

/-- The numbers of access code G (R73): what a group reads and writes in any launch. -/
def csrOfGroup : List Nat := [0, 1, 2, 3, 4, 5, 8, 0x10, 0x11, 0x12, 0x13]

theorem csrAccess_ofGroup {i : Nat} (h : i ∈ csrOfGroup) : csrAccess i = .g := by
  revert i; unfold csrOfGroup; decide

/-! What CSRR and CSRW do once their checks pass, and where their own ILLOP condition holds (R72, R135). -/

section
variable {s : State} {ag : Agent} {act : Mask} {gr : Group} {f : Fragment} {d : RegNo} {a : Src} {num : BitVec 12} {g : Guard}

theorem execCsrr_illop (hu : csrUnassigned num.toNat) (h : s.fieldsPass ag f { cls := 4, guard := g, dsts := [(d, 1)] }) :
    exec (.csrr d num g) s = .next (s.raiseAt ag 2 0 0#48 (s.faultLanes ag f { cls := 4, guard := g, dsts := [(d, 1)] })) := by
  have hi : (csrAccess num.toNat == .none) = true := by simpa using csrAccess_eq_none_iff.mpr hu
  simp only [exec, execCsrr, hi]
  exact issueWith_illop h _

theorem execCsrw_illop (hu : csrUnassigned num.toNat ∨ csrReadOnly num.toNat)
    (h : s.fieldsPass ag f { cls := 4, guard := g, srcs := [(a, 1)], hlp := false, lone := [0] }) :
    exec (.csrw num a g) s =
      .next (s.raiseAt ag 2 0 0#48 (s.faultLanes ag f { cls := 4, guard := g, srcs := [(a, 1)], hlp := false, lone := [0] })) := by
  rw [← csrAccess_eq_none_iff, ← csrAccess_readOnly_iff] at hu
  have hi : (csrAccess num.toNat == .none || csrAccess num.toNat == .gr || csrAccess num.toNat == .dr) = true := by
    rcases hu with hu | hu | hu <;> rw [hu] <;> rfl
  simp only [exec, execCsrw, hi]
  exact issueWith_illop h _

theorem execCsrr_ready (h : s.ready ag act { cls := 4, guard := g, dsts := [(d, 1)] } = true) (hg : s.group? (agKey ag) = some gr)
    (hu : ¬csrUnassigned num.toNat) :
    exec (.csrr d num g) s = .next (if 0x300 ≤ num.toNat ∧ s.privileged ag = false then s.raiseAt ag 34 1 (num.setWidth 48) act
      else s.quietly ag act d fun _ => [s.csrRead ag gr num.toNat]) := by
  have hp := csrAccess_privileged hu
  rw [← csrAccess_eq_none_iff] at hu
  have hi : (csrAccess num.toNat == .none) = false := by simpa using hu
  simp only [exec, execCsrr, hi, issueWith_ready h, hg, s.quietly_eq, ← hp]
  congr 1
  refine if_congr (by simp) ?_ rfl
  simp [Need.bits, BitVec.ofNat_toNat]

theorem execCsrw_ready (h : s.ready ag act { cls := 4, guard := g, srcs := [(a, 1)], hlp := false, lone := [0] } = true)
    (hg : s.group? (agKey ag) = some gr) (hc : csrAccess num.toNat ∉ [.none, .gr, .dr]) :
    exec (.csrw num a g) s =
      .next (if csrAccess num.toNat = .pv ∨ csrAccess num.toNat = .pw ∧ s.privileged ag = false
        then s.raiseAt ag 34 2 (num.setWidth 48) act
        else (s.csrWrite ag gr num.toNat (s.src ag a 0 (lowLane act))).advance ag) := by
  have hi : (csrAccess num.toNat == .none || csrAccess num.toNat == .gr || csrAccess num.toNat == .dr) = false := by
    simpa [and_assoc] using hc
  simp only [exec, execCsrw, hi, issueWith_ready h, hg]
  congr 1
  refine if_congr (by simp) ?_ rfl
  simp [Need.bits, BitVec.ofNat_toNat]

end

/-! What the status registers that a group writes read, before and after a write (R73, R135). -/

theorem loWord_append (x : BitVec 16) (y : Word) : loWord ((x ++ y : BitVec 48).setWidth 64) = y := by
  refine BitVec.eq_of_getLsbD_eq fun i hi => ?_
  simp only [loWord, BitVec.getLsbD_setWidth, BitVec.getLsbD_append, hi, decide_true, if_true, Bool.true_and]
  simp [show i < 64 by omega]

theorem hiWord_append (x : BitVec 16) (y : Word) : hiWord ((x ++ y : BitVec 48).setWidth 64) = x.setWidth 32 := by
  refine BitVec.eq_of_getLsbD_eq fun i hi => ?_
  simp only [hiWord, BitVec.getLsbD_setWidth, BitVec.getLsbD_ushiftRight, BitVec.getLsbD_append, hi, decide_true, Bool.true_and]
  simp [show 32 + i < 64 by omega]

theorem loWord_addr (a : Addr) : loWord (a.setWidth 64) = a.extractLsb' 0 32 := by
  refine BitVec.eq_of_getLsbD_eq fun i hi => ?_
  simp [loWord, hi]

theorem hiWord_addr (a : Addr) : hiWord (a.setWidth 64) = (a.extractLsb' 32 16).setWidth 32 := by
  refine BitVec.eq_of_getLsbD_eq fun i hi => ?_
  simp only [hiWord, BitVec.getLsbD_setWidth, BitVec.getLsbD_ushiftRight, BitVec.getLsbD_extractLsb', hi, decide_true, Bool.true_and]
  by_cases h : i < 16
  · simp [h, show 32 + i < 64 by omega]
  · simp [h, BitVec.getLsbD_of_ge a (32 + i) (by omega)]

/-- The low half of an address register written: its cleared low bits, and the high half as before. -/
@[simp] theorem loWord_putHalf_low (a : Addr) (low : Nat) (w : Word) :
    loWord ((putHalf a false low w).setWidth 64) = (w >>> low) <<< low := loWord_append _ _

@[simp] theorem hiWord_putHalf_low (a : Addr) (low : Nat) (w : Word) :
    hiWord ((putHalf a false low w).setWidth 64) = hiWord (a.setWidth 64) := (hiWord_append _ _).trans (hiWord_addr a).symm

/-- The high half of an address register written: 16 bits of it, and the low half as before. -/
@[simp] theorem loWord_putHalf_high (a : Addr) (low : Nat) (w : Word) :
    loWord ((putHalf a true low w).setWidth 64) = loWord (a.setWidth 64) := (loWord_append _ _).trans (loWord_addr a).symm

@[simp] theorem hiWord_putHalf_high (a : Addr) (low : Nat) (w : Word) :
    hiWord ((putHalf a true low w).setWidth 64) = w &&& 0xFFFF#32 := by
  refine (hiWord_append _ _).trans (BitVec.eq_of_toNat_eq ?_)
  have h : w.toNat &&& 0xFFFF = w.toNat % 2 ^ 16 := Nat.and_two_pow_sub_one_eq_mod _ 16
  simp only [BitVec.toNat_setWidth, BitVec.extractLsb'_toNat, BitVec.toNat_and, BitVec.toNat_ofNat, Nat.shiftRight_zero,
    show 0xFFFF % 2 ^ 32 = 0xFFFF from rfl, h]
  omega

/-- Low bits that a shift there and back clears, those of the mask. -/
theorem shiftRight_shiftLeft_eq_and (w : Word) (low : Nat) : (w >>> low) <<< low = w &&& ~~~BitVec.ofNat 32 (2 ^ low - 1) := by
  refine BitVec.eq_of_getLsbD_eq fun i hi => ?_
  simp only [BitVec.getLsbD_shiftLeft, BitVec.getLsbD_ushiftRight, BitVec.getLsbD_and, BitVec.getLsbD_not, BitVec.getLsbD_ofNat,
    Nat.testBit_two_pow_sub_one, hi, decide_true, Bool.true_and]
  by_cases h' : i < low
  · simp [h']
  · simp [h', show low + (i - low) = i by omega]

/-- A status register of access code G, or LOGICAL_MAP_SELECT, as it reads in a fragment: of the group's own state alone. -/
def Group.csrOwn (g : Group) (i : Nat) : Word :=
  if 0x10 ≤ i ∧ i ≤ 0x13 then sget 0#32 g.lc (i - 0x10)
  else if i = 0 then loWord (g.trapVec.setWidth 64) &&& ~~~7#32 else if i = 1 then hiWord (g.trapVec.setWidth 64)
  else if i = 2 then loWord (g.trapFrame.setWidth 64) else if i = 3 then hiWord (g.trapFrame.setWidth 64)
  else if i = 4 then loWord (g.liveTab.setWidth 64) else if i = 5 then hiWord (g.liveTab.setWidth 64)
  else if i = 8 then g.sticky.setWidth 32 else if i = 0x316 then g.mapSel.setWidth 32 else 0#32

/-- Every other status register that a fragment reads, ROUND_SEED among them, and GROUP_STATUS (9) and LOGICAL_MAP_VALUE (0x317)
apart, depends on nothing that CSRW changes in its group. -/
theorem State.csrRead_other {s t : State} {n m k e : Nat} {g h : Group} {j : Nat} (hj : j ∉ csrOfGroup) (h9 : j ≠ 9) (h16 : j ≠ 0x316)
    (hsel : j = 0x317 → h.mapSel = g.mapSel)
    (hs : { t with groups := s.groups } = s)
    (hg : (h.core, h.part, h.name, h.ac, h.hrecs) = (g.core, g.part, g.name, g.ac, g.hrecs)) :
    t.csrRead (.frag n m k e) h j = s.csrRead (.frag n m k e) g j := by
  obtain ⟨gs, rfl⟩ : ∃ gs, t = { s with groups := gs } := ⟨t.groups, by rw [← hs]⟩
  simp only [Prod.mk.injEq] at hg
  obtain ⟨hc, hp, hn, ha, hr⟩ := hg
  have hlc : (decide (0x10 ≤ j) && decide (j ≤ 0x13)) = false := by
    by_contra hc
    simp only [Bool.not_eq_false, Bool.and_eq_true, decide_eq_true_eq] at hc
    obtain ⟨h1, h2⟩ := hc
    exact hj (by interval_cases j <;> decide)
  simp only [csrOfGroup, List.mem_cons, List.not_mem_nil, or_false, not_or] at hj
  unfold State.csrRead
  simp only [hc, hp, hn, ha, hr]
  split
  case h_20 => rw [hsel rfl]; rfl
  case h_21 =>
    simp only [hlc, Bool.false_eq_true, if_false]
    rfl
  case h_1 | h_2 | h_3 | h_4 | h_5 | h_6 | h_7 | h_8 | h_19 => omega
  all_goals rfl

theorem State.csrRead_own {s : State} {n m k e : Nat} {g : Group} {i : Nat} (hg : s.group? (groupKey n m k) = some g)
    (hi : i ∈ csrOfGroup ∨ i = 0x316) : s.csrRead (.frag n m k e) g i = g.csrOwn i := by
  have hg' : s.group? (agKey (.frag n m k e)) = some g := hg
  simp only [csrOfGroup, List.mem_cons, List.not_mem_nil, or_false] at hi
  rcases hi with (rfl | rfl | rfl | rfl | rfl | rfl | rfl | rfl | rfl | rfl | rfl) | rfl <;>
    simp [State.csrRead, Group.csrOwn, State.loopCount, hg']

theorem setWidth_setWidth_eq_and (w : Word) (k : Nat) : (w.setWidth k).setWidth 32 = w &&& BitVec.ofNat 32 (2 ^ k - 1) := by
  refine BitVec.eq_of_getLsbD_eq fun i hi => ?_
  simp only [BitVec.getLsbD_setWidth, BitVec.getLsbD_and, BitVec.getLsbD_ofNat, Nat.testBit_two_pow_sub_one, hi, decide_true, Bool.true_and]
  rw [Bool.and_comm]

/-- What a write of a group's status register changes: that register, in what the group's own registers read, and, of the group,
the fields those registers show (R73, R135). -/
def CsrPut (i : Nat) (w : Word) (g h : Group) : Prop :=
  h.csrOwn i = csrKept i w ∧ (∀ j, j ≠ i → h.csrOwn j = g.csrOwn j) ∧ (i ≠ 0x316 → h.mapSel = g.mapSel) ∧
  { h with trapVec := g.trapVec, trapFrame := g.trapFrame, liveTab := g.liveTab, sticky := g.sticky, mapSel := g.mapSel, lc := g.lc } = g

/-- A write of a loop counter. -/
theorem csrPut_lc (w : Word) (g : Group) {c : Nat} (hc : c < 4) : CsrPut (0x10 + c) w g { g with lc := sset 0#32 g.lc c w } := by
  refine ⟨?_, fun j hj => ?_, fun _ => rfl, rfl⟩
  · have hr : 0x10 ≤ 0x10 + c ∧ 0x10 + c ≤ 0x13 := by omega
    have hk : csrKept (0x10 + c) w = w := by interval_cases c <;> rfl
    simp only [Group.csrOwn, hr, and_self, if_true, sget_sset, Nat.add_sub_cancel_left, hk]
  · by_cases hr : 0x10 ≤ j ∧ j ≤ 0x13
    · simp only [Group.csrOwn, hr, and_self, if_true, sget_sset]
      rw [if_neg (by omega)]
    · simp only [Group.csrOwn, hr, if_false]

/-- A write of a register that the group writes changes that register alone. -/
theorem csrWrite_puts (s : State) (n m k e : Nat) (gr : Group) (w : Word) {i : Nat} (hi : i ∈ csrOfGroup ∨ i = 0x316) :
    ∃ p : Group → Group, s.csrWrite (.frag n m k e) gr i w = s.modGroup (groupKey n m k) p ∧ ∀ g, CsrPut i w g (p g) := by
  by_cases hlc : 0x10 ≤ i ∧ i ≤ 0x13
  · obtain ⟨c, rfl⟩ := Nat.exists_eq_add_of_le hlc.1
    have hc : c < 4 := by omega
    exact ⟨fun g => { g with lc := sset 0#32 g.lc c w }, by interval_cases c <;> rfl, fun g => csrPut_lc w g hc⟩
  · simp only [csrOfGroup, List.mem_cons, List.not_mem_nil, or_false] at hi
    have hi : i = 0 ∨ i = 1 ∨ i = 2 ∨ i = 3 ∨ i = 4 ∨ i = 5 ∨ i = 8 ∨ i = 0x316 := by omega
    rcases hi with rfl | rfl | rfl | rfl | rfl | rfl | rfl | rfl <;> refine ⟨_, rfl, fun g => ?_⟩
    all_goals
      refine ⟨?_, fun j hj => ?_, ?_, rfl⟩
      · simp [Group.csrOwn, csrKept, shiftRight_shiftLeft_eq_and, setWidth_setWidth_eq_and, BitVec.and_assoc]
      · simp [Group.csrOwn, hj]
      · simp

/-- A fragment past its instruction, after a change of its group: what its group is then. -/
theorem State.group_advance_modGroup (s : State) (n m k e : Nat) (p : Group → Group) {gr : Group}
    (hg : s.group? (groupKey n m k) = some gr) :
    ((s.modGroup (groupKey n m k) p).advance (.frag n m k e)).group? (groupKey n m k) =
      some { p gr with frags := amod (p gr).frags e Fragment.advance } := by
  simp [State.advance, State.modFront, State.modFrag, agKey, hg]

/-- CSRW of a register that a group writes: the register holds what is kept of the value, and nothing else changes but the
fragment's place (R73, R135). -/
theorem csrWrite_effect {s : State} {n m k e : Nat} {gr : Group} (w : Word) (hg : s.group? (groupKey n m k) = some gr) {i : Nat}
    (hi : i ∈ csrOfGroup ∨ i = 0x316) :
    ∃ gt, ((s.csrWrite (.frag n m k e) gr i w).advance (.frag n m k e)).group? (groupKey n m k) = some gt ∧
      ((s.csrWrite (.frag n m k e) gr i w).advance (.frag n m k e)).csrRead (.frag n m k e) gt i = csrKept i w ∧
      (∀ j, j ≠ i → i ≠ 0x316 ∨ j ≠ 0x317 → j ≠ 9 →
        ((s.csrWrite (.frag n m k e) gr i w).advance (.frag n m k e)).csrRead (.frag n m k e) gt j = s.csrRead (.frag n m k e) gr j) ∧
      (∀ r l, gt.rd r l = gr.rd r l) ∧
      { (s.csrWrite (.frag n m k e) gr i w).advance (.frag n m k e) with groups := s.groups } = s := by
  obtain ⟨p, hp, hput⟩ := csrWrite_puts s n m k e gr w hi
  obtain ⟨hown, hoth, hsel, hrest⟩ := hput gr
  have hgt := s.group_advance_modGroup n m k e p hg
  rw [hp]
  have hs : { (s.modGroup (groupKey n m k) p).advance (.frag n m k e) with groups := s.groups } = s := rfl
  refine ⟨_, hgt, (State.csrRead_own hgt hi).trans hown, fun j hj hj7 hj9 => ?_, fun r l => ?_, hs⟩
  · by_cases hj' : j ∈ csrOfGroup ∨ j = 0x316
    · rw [State.csrRead_own hgt hj', State.csrRead_own hg hj']
      exact hoth j hj
    · rw [not_or] at hj'
      refine State.csrRead_other hj'.1 hj9 hj'.2 (fun h7 => hsel (hj7.resolve_right (not_not.mpr h7))) hs ?_
      conv_rhs => rw [← hrest]
  · conv_rhs => rw [← hrest]
    rfl

/-! ROUND_SEED (R114, R135). -/

/-- A generator as it reads at the clock of the last look at it is not changed by taking in a write that acts by then. -/
theorem Core.sget_takeSeed (c : Core) (now p : Nat) : sget 1#32 (c.takeSeed now p).seeds p = c.seed now p := by
  unfold Core.takeSeed Core.seed
  cases aget c.seedWrites p with
  | none => rfl
  | some w => by_cases h : w.clock < now <;> simp [h]

/-- A write of ROUND_SEED by group `key` at a clock: what the generator reads then, and from the next clock on. -/
theorem Core.seed_of_write (c : Core) (now key p : Nat) (w : Word) (at_ : Nat) :
    ({ c.takeSeed now p with seedWrites := aput c.seedWrites p { clock := now, key := key, value := w } }).seed at_ p =
      if now < at_ then w else c.seed now p := by
  simp [Core.seed, c.sget_takeSeed now p]

/-- CSRW of ROUND_SEED: the generator's value from the next clock on, and at once as the group itself reads it. -/
theorem csrWrite_seed {s : State} {n m k e : Nat} {gr : Group} (w : Word) :
    let v := if w = 0#32 then 1#32 else w
    let t := (s.csrWrite (.frag n m k e) gr 0x100 w).advance (.frag n m k e)
    let core (u : State) := u.core (keyDie (groupKey n m k)) gr.core
    (∀ now, (core t).seed now gr.part = if s.clock < now then v else (core s).seed s.clock gr.part) ∧
      t.csrRead (.frag n m k e) gr 0x100 = v ∧ t.groups = (s.advance (.frag n m k e)).groups ∧
      { t with groups := s.groups, cores := s.cores } = s := by
  intro v t core
  have hc : core t = { (core s).takeSeed s.clock gr.part with
      seedWrites := aput (core s).seedWrites gr.part { clock := s.clock, key := groupKey n m k, value := v } } :=
    (State.core_modCore s _ _ _ _ fun c => { c.takeSeed s.clock gr.part with
      seedWrites := aput c.seedWrites gr.part { clock := s.clock, key := groupKey n m k, value := v } }).trans (if_pos rfl)
  refine ⟨fun now => ?_, ?_, rfl, rfl⟩
  · rw [hc, Core.seed_of_write]
  · show (core t).seedFor s.clock (groupKey n m k) gr.part = v
    rw [hc]
    simp [Core.seedFor]

/-! What the status registers read (R23, R24, R73). -/

theorem loWord_eq_extractLsb' (x : BitVec 64) : loWord x = x.extractLsb' 0 32 := by
  apply BitVec.eq_of_toNat_eq
  simp [loWord]

theorem hiWord_eq_extractLsb' (x : BitVec 64) : hiWord x = x.extractLsb' 32 32 := by
  apply BitVec.eq_of_toNat_eq
  simp [hiWord]

/-- A value of 64 bits from its two words. -/
theorem hiWord_append_loWord (x : BitVec 64) : hiWord x ++ loWord x = x := by
  rw [hiWord_eq_extractLsb', loWord_eq_extractLsb', BitVec.extractLsb'_append_extractLsb'_eq_extractLsb' (by decide)]
  exact extract_whole x

/-- TRAP_VECTOR reads with its three low bits zero. -/
theorem trapVec_words (a : Addr) :
    hiWord (a.setWidth 64) ++ (loWord (a.setWidth 64) &&& ~~~7#32) = ((a &&& ~~~7#48).setWidth 64 : BitVec 64) := by
  have hlo : loWord ((a &&& ~~~7#48).setWidth 64) = loWord (a.setWidth 64) &&& ~~~7#32 := by
    refine BitVec.eq_of_getLsbD_eq fun i hi => ?_
    have h48 : i < 48 := by omega
    have h64 : i < 64 := by omega
    simp only [loWord, BitVec.getLsbD_setWidth, BitVec.getLsbD_and, BitVec.getLsbD_not, BitVec.getLsbD_ofNat, hi, h48, h64,
      decide_true, Bool.true_and]
  have hhi : hiWord ((a &&& ~~~7#48).setWidth 64) = hiWord (a.setWidth 64) := by
    refine BitVec.eq_of_getLsbD_eq fun i hi => ?_
    have h7 : Nat.testBit 7 (32 + i) = false := Nat.testBit_lt_two_pow (show 7 < 2 ^ (32 + i) from
      lt_of_lt_of_le (by decide) (Nat.pow_le_pow_right (by decide) (Nat.le_add_right 32 i)))
    simp only [hiWord, BitVec.getLsbD_setWidth, BitVec.getLsbD_ushiftRight, BitVec.getLsbD_and, BitVec.getLsbD_not, BitVec.getLsbD_ofNat, h7,
      Bool.and_false, Bool.not_false, Bool.and_true]
    by_cases h48 : 32 + i < 48
    · simp only [h48, decide_true, Bool.and_true]
    · simp only [h48, decide_false, Bool.and_false, BitVec.getLsbD_of_ge a (32 + i) (by omega)]
  rw [← hlo, ← hhi]
  exact hiWord_append_loWord _

/-- A map of 128 bits from its four words (R73). -/
theorem mapWords (x : BitVec 128) : mapWord x 3 ++ (mapWord x 2 ++ (mapWord x 1 ++ mapWord x 0)) = x := by
  unfold mapWord
  rw [BitVec.extractLsb'_append_extractLsb'_eq_extractLsb' (by decide),
    BitVec.extractLsb'_append_extractLsb'_eq_extractLsb' (by decide), BitVec.extractLsb'_append_extractLsb'_eq_extractLsb' (by decide)]
  exact extract_whole x

/-- The value of LOGICAL_MAP_VALUE for a core below 128 is its number with bit 31 set. -/
theorem mapValue_of_core {d : Die} {sel c : Nat} (h : d.coreMap[sel]? = some c) (hc : c < 128) :
    mapValue d sel = BitVec.ofNat 32 (2 ^ 31 + c) := by
  unfold mapValue
  rw [h]
  interval_cases c <;> rfl

theorem deviceId_fields (f : Flash) :
    bits (deviceId f) 31 16 = 0x7C61 ∧ bits (deviceId f) 15 8 = f.stepping.toNat ∧ bits (deviceId f) 7 4 = f.grade.toNat ∧
      bits (deviceId f) 3 0 = 0 := by
  have h1 := f.stepping.isLt
  have h2 := f.grade.isLt
  simp only [bits, deviceId, BitVec.toNat_ofNat]
  omega

theorem groupStatus_eq (g : Group) (r : BitVec 1024) (p : Bool) :
    groupStatus g r p = BitVec.ofNat 32 (g.frags.length + 2 ^ 4 * g.defer.length + 2 ^ 9 * g.resv.length +
      2 ^ 12 * g.name.isSome.toNat + 2 ^ 13 * p.toNat + 2 ^ 14 * (r.getLsbD 524).toNat + 2 ^ 15 * bits r 532 531) := by
  have hb (b : Bool) (x : Nat) : (if b = true then x else 0) = x * b.toNat := by cases b <;> simp
  simp only [groupStatus, hb]
  simp only [recMatrix, recF]
  congr 1
  ring

/-- Settles O25: what CSRR and CSRW do once their checks pass or their own ILLOP condition holds, the frame of a write of a register
of the group, and each register's value. -/
theorem statusRegisters : Obligations.StatusRegisters := by
  unfold Obligations.StatusRegisters
  refine ⟨?_, ?_⟩
  · intro s n m k e act gr f d a num g ag key i rd wr hg
    refine ⟨fun h hu => ⟨fun hp => ?_, fun h3 hp => ?_⟩, execCsrr_illop, execCsrw_illop,
      fun h => ⟨fun hi => ?_, fun hi => ?_, fun hi => ?_⟩⟩
    · rw [execCsrr_ready h hg hu, if_neg]
      rcases hp with hp | hp
      · exact fun hn => absurd hp (Nat.not_lt.mpr hn.1)
      · simp [hp]
    · rw [execCsrr_ready h hg hu, if_pos ⟨h3, hp⟩]
    · have hi' : i ∈ csrOfGroup ∨ i = 0x316 := hi.imp id And.left
      obtain ⟨gt, heff⟩ := csrWrite_effect (e := e) (s.src ag a 0 (lowLane act)) hg hi'
      refine ⟨_, gt, ?_, heff⟩
      rcases hi with hi | ⟨hi, hp⟩
      · have hc := csrAccess_ofGroup hi
        rw [execCsrw_ready h hg (by rw [hc]; decide), if_neg (by rw [hc]; simp)]
      · have hc := csrAccess_eq_pw_iff.mpr hi
        rw [execCsrw_ready h hg (by rw [hc]; decide), if_neg (by rw [hc, hp]; simp)]
    · have hc : csrAccess i = .pt := by rw [hi]; rfl
      obtain ⟨hseed, hown, hgroups, hrest⟩ :=
        csrWrite_seed (s := s) (n := n) (m := m) (k := k) (e := e) (gr := gr) (s.src ag a 0 (lowLane act))
      refine ⟨_, ?_, ⟨fun now hnow => (hseed now).trans (if_pos hnow), (hseed s.clock).trans (if_neg (lt_irrefl _)), hown⟩,
        hgroups, hrest⟩
      rw [execCsrw_ready h hg (by rw [hc]; decide), if_neg (by rw [hc]; simp), show num.toNat = 0x100 from hi]
    · rw [← csrAccess_eq_pv_iff, ← csrAccess_eq_pw_iff] at hi
      have hc : csrAccess i ∉ [.none, .gr, .dr] := by rcases hi with hc | ⟨hc, -⟩ <;> rw [hc] <;> decide
      rw [execCsrw_ready h hg hc, if_pos hi]
  · intro s n m k e gr tm ag key die read whole hn hm hk hg ht
    have hd : keyDie (agKey ag) = n := keyDie_groupKey hm hk
    have htm : s.teamOf? (agKey ag) = some tm := (s.teamOf_groupKey hm hk).trans ht
    have hrec : s.recOf (agKey ag) = tm.recd := by rw [State.recOf, htm]; rfl
    have htag : s.ptagOf (agKey ag) = tm.ptag := by rw [State.ptagOf, htm]; rfl
    have hg' : s.group? (agKey ag) = some gr := hg
    refine ⟨trapVec_words _, hiWord_append_loWord _, hiWord_append_loWord _, ?sticky, ?status, ?noName, ?name, ?loops, ?arrivals,
      ?records, rfl, ?cores, ?pairs, ?split, deviceId_fields _, ?discards, mapWords _, mapWords _,
      ?fused, ?retired, ?hold, ?die, rfl, ?sel, ?value, ?noValue⟩
    case sticky => exact BitVec.toNat_setWidth_of_le (by decide)
    case status =>
      show groupStatus gr (s.recOf (agKey ag)) (((s.teamOf? (agKey ag)).map (·.priv)).getD false) = _
      rw [hrec, htm, groupStatus_eq]
      rfl
    case noName => intro h; show (gr.name.map (·.1)).getD 0#32 = _; rw [h]; rfl
    case name => intro q c h; show (gr.name.map (·.1)).getD 0#32 = _; rw [h]; rfl
    case loops =>
      intro i hi
      have hlc : read (0x10 + i) = s.loopCount ag i := by interval_cases i <;> rfl
      rw [hlc, State.loopCount, hg']
      rfl
    case arrivals =>
      intro i hi
      have hac : read (0x14 + i) = (sget 0#16 gr.ac i).setWidth 32 := by interval_cases i <;> rfl
      rw [hac]
      exact BitVec.toNat_setWidth_of_le (by decide)
    case records => intro i hi; interval_cases i <;> rfl
    case sel => exact BitVec.toNat_setWidth_of_le (by decide)
    case discards =>
      show sget 0#32 (s.die (keyDie (agKey ag))).discards (s.ptagOf (agKey ag)).toNat = _
      rw [hd, htag]
    case value => intro c hc h128; show mapValue (s.die (keyDie (agKey ag))) _ = _; rw [hd]; exact mapValue_of_core hc h128
    case noValue =>
      intro h
      show mapValue (s.die (keyDie (agKey ag))) _ = _
      rw [hd, mapValue, List.getElem?_eq_none h]
    case split =>
      show ((s.core (keyDie (agKey ag)) gr.core).split.setWidth 32).toNat = _
      rw [hd]
      exact BitVec.toNat_setWidth_of_le (by decide)
    case fused => rw [← hd]; exact mapWords _
    case retired => show _ = (s.die n).retired; rw [← hd]; exact mapWords _
    case hold => show _ = (s.die n).hold; rw [← hd]; exact mapWords _
    case die => show BitVec.ofNat 32 (keyDie (agKey ag)) = _; rw [hd]
    case cores => show BitVec.ofNat 32 (s.die (keyDie (agKey ag))).coreMap.length = _; rw [hd]
    case pairs => show BitVec.ofNat 32 (s.die (keyDie (agKey ag))).pairs = _; rw [hd]

end Sys2Proof.Machine
end

section
/-! PROOFS. The environment registers of a helper that has retired (R64, R320). -/

namespace Sys2Proof.Machine

/-! A helper that has retired keeps its record and its mask, and reads e30 and e31 no more: its fragment state is gone. -/

/-- A helper that has retired with lane 0 in its mask. -/
def retiredHelper : Helper :=
  { front := { clause := 0#48, mask := 1#64 }, iter := 0#28, dealt := 0, ckpt := 0#32, life := .retired, bank := 0, slice := 0 }

/-- Its recruitment. -/
def retiredRecruit : Recruit :=
  { op := .add, lo := 0#28, hi := 0#28, next := 0#28, dealing := false, g := 0, entry := 0, lane := 0, target := 0#48,
    helpers := [(0, retiredHelper)] }

/-- The group that recruited it. -/
def retiredGroup : Group := { uid := 0, core := 0, part := 0, recruit := some retiredRecruit }

/-- The group's team. -/
def retiredTeam : Team :=
  { recd := 0#1024, ptag := 0#12, priv := false, index := 0#32, share := 0, privBase := 0#48, ctxBase := 0#48, cores := [0] }

/-- A panel with that team alone. -/
def retiredPanel : State := { State.reset with teams := [(0, retiredTeam)], groups := [(0, retiredGroup)] }

/-- e31 and e30 of the retired helper read zero, where its mask names lane 0. -/
theorem retiredHelper_reads_no_mask :
    retiredPanel.rdReg (.helper 0 0 0 0) 671 0 ++ retiredPanel.rdReg (.helper 0 0 0 0) 670 0 ≠ retiredHelper.front.mask := by
  decide

/-- Refutes O6: a helper of the recruitment that has retired holds a mask, but has no fragment state any more, so that e30 and e31
read zero and not its mask. -/
theorem not_environmentValues : ¬ Obligations.EnvironmentValues := by
  unfold Obligations.EnvironmentValues
  intro h
  obtain ⟨-, hhelper, -⟩ := h retiredPanel 0 0 0 retiredGroup retiredTeam (by decide) (by decide) (by decide) rfl rfl
  obtain ⟨-, -, -, -, -, -, -, -, hmask⟩ := hhelper retiredRecruit 0 retiredHelper rfl rfl (by decide) 0 (by decide)
  exact retiredHelper_reads_no_mask hmask

end Sys2Proof.Machine
end

section
/-! PROOFS. Reset and the first step (R376, R393). -/

namespace Sys2Proof.Machine

/-! Bring-up of a panel with nothing fused off (R19, R20, R376). -/

/-- What bring-up is told of a panel whose dies, stacks and links are all sound. -/
def soundPanel : BringupInfo := { darkDies := [], deadStacks := [], d2dDown := [] }

theorem aget_map_key {α : Type} (f : Nat → α) (k : Nat) : ∀ l : List Nat,
    aget (l.map fun d => (d, f d)) k = if k ∈ l then some (f k) else none
  | [] => rfl
  | d :: t => by
    rw [List.map_cons, aget, aget_map_key f k t]
    by_cases h : k = d <;> simp [h]

/-- With no core gone the 128 cores are numbered as they lie, in 64 whole clusters (R20). -/
theorem numberCores_none : numberCores 0#128 = (List.range 128, 64) := by decide +kernel

/-- A die of a panel with nothing fused off, excluded or retired. -/
theorem bringDie_sound (d : Nat) :
    State.reset.blank.bringDie soundPanel d = { live := true, coreMap := List.range 128, pairs := 64 } := by
  have hr : sget 0#128 State.reset.blank.flash.retCores d ||| State.reset.blank.fusedCores d = 0#128 := BitVec.or_self
  have hp : State.reset.blank.takesPart soundPanel d = true := by
    simp [State.takesPart, State.blank, State.reset, soundPanel]
  unfold State.bringDie
  simp only [hr, hp, numberCores_none]
  rfl

/-- The first step from reset is the bring-up of a panel where all is sound; nothing then trains or is reported but the Delup
links. -/
theorem step_reset :
    step State.reset = .next (State.reset.blank.numberPanel soundPanel).startLinks := by
  have hr : (((State.reset.blank.numberPanel soundPanel).startLinks).bringReport soundPanel) =
      (State.reset.blank.numberPanel soundPanel).startLinks := by
    unfold State.bringReport
    split <;> rfl
  exact congrArg Host.Outcome.next hr

/-- Every die of the panel after its first step. -/
theorem die_after_reset {d : Nat} (hd : d < 128) :
    ((State.reset.blank.numberPanel soundPanel).startLinks).die d = { live := true, coreMap := List.range 128, pairs := 64 } := by
  have h := aget_map_key (State.reset.blank.bringDie soundPanel) d (List.range 128)
  rw [if_pos (List.mem_range.mpr hd), bringDie_sound] at h
  show agetD ((List.range 128).map fun d => (d, State.reset.blank.bringDie soundPanel d)) d ({} : Die) = _
  rw [agetD, h]

/-- All 128 dies are numbered as they lie. -/
theorem dieMap_after_reset : ((State.reset.blank.numberPanel soundPanel).startLinks).dieMap = List.range 128 := by
  show ((((List.range 128).map fun d => (d, State.reset.blank.bringDie soundPanel d)).filter fun e => e.2.live).map (·.1)) = _
  simp only [bringDie_sound]
  decide

/-- Settles O42. -/
theorem resetComesUp : Obligations.ResetComesUp := by
  unfold Obligations.ResetComesUp
  refine ⟨State.reset_wf, rfl, rfl, rfl, _, step_reset, rfl, dieMap_after_reset, rfl, rfl, rfl, rfl, fun d hd => ?_⟩
  rw [die_after_reset hd]
  exact ⟨rfl, rfl, rfl, fun _ _ _ => rfl⟩

end Sys2Proof.Machine
end

section
/-! PROOFS. What the end of a test or of a row repair wakes (R293, R383, R386). -/

namespace Sys2Proof.Machine

/-! A test or a repair that ends wakes the groups of its die, and a fault whose delivery waited is delivered then (R293, R383): more
of the panel changes than the die and the woken groups' registers. -/

/-- An ILLOP of fragment 0 that waits to be delivered. -/
def heldFault : FaultRec := { code := 2, entry := some 0 }

/-- A group on core 0 of die 0, with a trap vector. -/
def trapGroup : Group :=
  { uid := 0, core := 0, part := 0, frags := [(0, { clause := 0#48, mask := 1#64 })], trapVec := 8#48 }

/-- A panel of which die 0 is as given and has one group. -/
def onePanel (d : Die) (g : Group) (fl : Flash) : State := { State.reset with dies := [(0, d)], groups := [(0, g)], flash := fl }

/-- The group with its fault held: as the die is woken it is delivered. -/
theorem wakeDie_onePanel (d : Die) (fl : Flash) :
    (onePanel d { trapGroup with held := [heldFault] } fl).wakeDie 0 = (onePanel d trapGroup fl).deliver 0 heldFault := rfl

/-! O59: the end of a test. -/

/-- The test of a location that runs on a die. -/
def runningTest : Test := { struct_ := 9, unit := 0, addr := 0, detail := 0, sev := 1, running := true }

/-- The die of the test, and a group of it whose fault is held. -/
def testedPanel : State := onePanel { tests := [runningTest] } { trapGroup with held := [heldFault] } {}

/-- As the test ends the held fault is delivered: with no code mapped the vector is no header, and the group parks, which puts it
into its core's pending set. -/
theorem parked_when_test_ends : ∃ t, exec (.targetedTestComplete 0 .pass) testedPanel = .next t ∧ t.cores ≠ [] :=
  ⟨_, rfl, by decide⟩

/-- Refutes O59: where a fault of a group of the die is held, the test's end delivers it, and the core on which the group parks
changes besides the dies and the groups. -/
theorem not_powerAndTests : ¬ Obligations.PowerAndTests := by
  unfold Obligations.PowerAndTests
  intro h
  obtain ⟨-, -, -, -, htest, -⟩ := h testedPanel
  obtain ⟨t, e, ht, -, -, -, -, hrest, -⟩ := htest 0 runningTest .pass rfl (by decide)
  obtain ⟨t', ht', hcores⟩ := parked_when_test_ends
  obtain rfl : t = t' := Host.Outcome.next.inj (ht.symm.trans ht')
  exact hcores (congrArg State.cores hrest)

/-! O58: the end of a row repair. -/

/-- ROW_REPAIR of pseudo-channel `n`. -/
def repairOf (n : Nat) : List Byte := [7#8, 0#8, 0#8, 0#8, 0#8, 0#8, 0#8, 0#8, BitVec.ofNat 8 n]

/-- A panel of which die 0 has a next command, a command under way or none, a RAS queue, a process whose page table lies at `root`,
and one group. -/
def tablePanel (root : Nat) (b : Option (List Byte)) (q : List RasElem) (g : Group) (fl : Flash) : State :=
  onePanel { cmdQ := [[]], cmdBusy := b, rasQ := q, procs := [(0, { root := root, qtab := 0, qlen := 0 })] } g fl

/-- The panel whose fault is held while pseudo-channel `n` is under repair. -/
def repairedPanel (root n : Nat) : State := tablePanel root (some (repairOf n)) [] { trapGroup with held := [heldFault] } {}

/-- The pseudo-channel of a stack offset is one of 96 (R17). -/
theorem stackPlace_channel_lt (off : Nat) : stackPlace off / 2 ^ 24 < 96 := by
  have h (y : Nat) : (y / 2 ^ 24 % Config.nChannels * 2 ^ 24 + y % 2 ^ 24) / 2 ^ 24 < 96 := by
    have hc : y / 2 ^ 24 % Config.nChannels < 96 := Nat.mod_lt _ (by decide)
    omega
  exact h (Config.stackRow off)

theorem repairOf_channel {n : Nat} (h : n < 256) : fieldAt (repairOf n) 8 1 = n := by
  simp [fieldAt, repairOf, natOfBytes]
  omega

/-- While the pseudo-channel of an offset is under repair, the offset cannot be read (R386). -/
theorem stackBusy_of_repair {s : State} {d off n : Nat} (hb : (s.die d).cmdBusy = some (repairOf n)) (hn : stackPlace off / 2 ^ 24 = n) :
    s.stackBusy d off = true := by
  have hc : fieldAt (repairOf n) 8 1 = n := repairOf_channel (hn ▸ lt_trans (stackPlace_channel_lt off) (by decide))
  have h7 : fieldAt (repairOf n) 0 1 = 7 := rfl
  simp only [State.stackBusy, hb, hn, hc, h7, beq_self_eq_true, Bool.and_self, Bool.or_true, Bool.true_or]

section
variable {s : State} {d : Nat} {ptag : BitVec 12} {p : Proc}

/-- Memory that nothing has written reads zero. -/
theorem stackRead_blank (h2 : s.l2 = []) (hm : s.mem = []) (off n : Nat) : s.stackRead d off n = 0 := by
  have hb (i : Nat) : s.stackByte d i = 0#8 := by rw [State.stackByte, h2, hm]; rfl
  have hz : ∀ l : List Nat, natOfBytes (l.map fun _ => (0#8 : Byte)) = 0 := fun l => by
    induction l with
    | nil => rfl
    | cons _ t ih => rw [List.map_cons, natOfBytes, ih]; rfl
  simp only [State.stackRead, hb, hz]

/-- A page table that nothing has written: the walk ends at its first entry (R311). -/
structure BlankTable (s : State) (d : Nat) (ptag : BitVec 12) (p : Proc) : Prop where
  l2 : s.l2 = []
  mem : s.mem = []
  poison : s.poison = []
  ue : s.ue = []
  tlb : (s.die d).tlb = []
  table : aget (s.die d).procs ptag.toNat = some p

theorem badEntry_zero (level : Nat) : badEntry 0#64 level = true := by simp [badEntry]

theorem BlankTable.xlate (h : BlankTable s d ptag p) (va : Nat) : s.xlate d ptag va = .fail { level := 1, mchk := false, addr := 0 } := by
  have hm (a : Nat) : s.meetHome d a = .clean := by simp [State.meetHome, h.poison, h.ue]
  have ht : tlbHit (s.die d).tlb ptag va = none := by rw [h.tlb]; rfl
  simp [State.xlate, ht, State.walk, h.table, State.walkFrom, hm, stackRead_blank h.l2 h.mem, badEntry_zero]

/-- The walk waits for the row of that entry alone. -/
theorem BlankTable.xlateBusy (h : BlankTable s d ptag p) (va : Nat) :
    s.xlateBusy d ptag va = s.stackBusy d (p.root + 8 * walkIndex 1 va) := by
  have ht : tlbHit (s.die d).tlb ptag va = none := by rw [h.tlb]; rfl
  simp [State.xlateBusy, ht, State.walkBusy, h.table, State.walkBusyFrom, stackRead_blank h.l2 h.mem, badEntry_zero]

/-- No code can be fetched through it. -/
theorem BlankTable.chkFetch (h : BlankTable s d ptag p) (a : Addr) : ∃ c dt, s.chkNow d ptag a.toNat 8 .fetch = .bad c dt := by
  unfold State.chkNow
  rw [h.xlate]
  split
  · exact ⟨_, _, rfl⟩
  · exact ⟨_, _, rfl⟩

theorem BlankTable.fetchBusy (h : BlankTable s d ptag p) (a : Addr) :
    s.fetchBusy d ptag a = s.stackBusy d (p.root + 8 * walkIndex 1 a.toNat) := by
  obtain ⟨c, dt, hc⟩ := h.chkFetch a
  simp [State.fetchBusy, hc, h.xlateBusy]

theorem BlankTable.landingAt (h : BlankTable s d ptag p) (a : Addr) : s.landingAt d ptag a = false := by
  obtain ⟨c, dt, hc⟩ := h.chkFetch a
  simp [State.landingAt, State.fetchWord, hc]

theorem BlankTable.fetchMet (h : BlankTable s d ptag p) (a : Addr) : s.fetchMet d ptag a = s := by
  obtain ⟨c, dt, hc⟩ := h.chkFetch a
  simp [State.fetchMet, hc]

end

/-- A die with no test and no command under way keeps nobody waiting. -/
theorem stackBusy_of_idle {s : State} {d : Nat} (ht : (s.die d).tests = []) (hb : (s.die d).cmdBusy = none) (off : Nat) :
    s.stackBusy d off = false := by
  simp [State.stackBusy, State.sramBusy, ht, hb]

/-- A fault of class G whose handler's entry waits is held first (R293, R383). -/
theorem State.deliver_of_busy {s : State} {k e : Nat} {g : Group} {f : FaultRec} {r : Fragment} (hg : s.group? k = some g)
    (he : f.entry = some e) (hr : aget g.frags e = some r)
    (hc : (classG f.code && f.cause != 255 && g.trapVec != 0#48 && g.handler.isNone) = true) (hb : s.entryBusy k g = true) :
    s.deliver k f = s.modGroup k fun g => { g with held := f :: g.held } := by
  simp only [State.deliver, hg, he, hr, hc, hb, Option.bind_some, Option.map_some, if_true]

/-- One whose handler's entry does not wait enters it. -/
theorem State.deliver_of_not_busy {s : State} {k e : Nat} {g : Group} {f : FaultRec} {r : Fragment} (hg : s.group? k = some g)
    (he : f.entry = some e) (hr : aget g.frags e = some r)
    (hc : (classG f.code && f.cause != 255 && g.trapVec != 0#48 && g.handler.isNone) = true) (hb : s.entryBusy k g = false) :
    s.deliver k f = s.enterHandler k e g r f := by
  simp only [State.deliver, hg, he, hr, hc, hb, Option.bind_some, Option.map_some, if_true, Bool.false_eq_true, if_false]

section
variable (root : Nat) (b : Option (List Byte)) (q : List RasElem) (fl : Flash)

theorem blankTable_tablePanel : BlankTable (tablePanel root b q trapGroup fl) 0 0#12 { root := root, qtab := 0, qlen := 0 } :=
  ⟨rfl, rfl, rfl, rfl, rfl, rfl⟩

/-- The entry of the group's handler waits for the first row of the page table. -/
theorem fetchBusy_tablePanel :
    (tablePanel root b q trapGroup fl).fetchBusy 0 0#12 trapGroup.trapVec = (tablePanel root b q trapGroup fl).stackBusy 0 root :=
  (blankTable_tablePanel root b q fl).fetchBusy _

/-- During the repair the fault stays held when the groups of the die are woken. -/
theorem held_during_repair :
    (((repairedPanel root (stackPlace root / 2 ^ 24)).wakeDie 0).group? 0).map (·.held) = some [heldFault] := by
  have hfetch := fetchBusy_tablePanel root (some (repairOf (stackPlace root / 2 ^ 24))) [] {}
  rw [stackBusy_of_repair (n := stackPlace root / 2 ^ 24) rfl rfl] at hfetch
  unfold repairedPanel tablePanel
  rw [wakeDie_onePanel, State.deliver_of_busy (g := trapGroup) rfl rfl rfl rfl (Bool.or_eq_true_iff.mpr (.inl hfetch))]
  rfl

/-- When the repair has ended it is delivered, and no fault is held any more: the vector is no header, and the group parks. -/
theorem delivered_after_repair :
    (((tablePanel root none q { trapGroup with held := [heldFault] } fl).wakeDie 0).group? 0).map (·.held) = some [] := by
  have ht := blankTable_tablePanel root none q fl
  have hidle := stackBusy_of_idle (s := tablePanel root none q trapGroup fl) (d := 0) rfl rfl
  have hentry : (tablePanel root none q trapGroup fl).entryBusy 0 trapGroup = false :=
    Bool.or_eq_false_iff.mpr ⟨(fetchBusy_tablePanel root none q fl).trans (hidle _), (ht.xlateBusy _).trans (hidle _)⟩
  have hland :
      (tablePanel root none q trapGroup fl).landingAt (keyDie 0)
        ((tablePanel root none q trapGroup fl).ptagOf 0) trapGroup.trapVec = false :=
    ht.landingAt _
  have hmet :
      (tablePanel root none q trapGroup fl).fetchMet (keyDie 0)
        ((tablePanel root none q trapGroup fl).ptagOf 0) trapGroup.trapVec =
      (tablePanel root none q trapGroup fl) :=
    ht.fetchMet _
  have hpark : (tablePanel root none q trapGroup fl).deliver 0 heldFault =
      (tablePanel root none q trapGroup fl).park 0 { heldFault with vectorFail := true } := by
    rw [State.deliver_of_not_busy (g := trapGroup) rfl rfl rfl rfl hentry]
    simp only [State.enterHandler, hland, hmet, Bool.not_false, if_true]
  rw [show (tablePanel root none q { trapGroup with held := [heldFault] } fl).wakeDie 0 = _ from wakeDie_onePanel _ _]
  exact (congrArg (fun s : State => (s.group? 0).map (·.held)) hpark).trans rfl

/-- What ROW_REPAIR leaves as it completes: its element on the RAS queue, the row among the remapped ones, and the groups woken. -/
theorem exec_rowRepairComplete_repairedPanel (n : Nat) : ∃ q fl, exec (.rowRepairComplete 0 true) (repairedPanel root n) =
    .next ((tablePanel root none q { trapGroup with held := [heldFault] } fl).wakeDie 0) :=
  ⟨_, _, rfl⟩

end

/-- Whatever row the page table lies in, a repair of its pseudo-channel is a counterexample to O58. -/
theorem not_commands_of_repair (root : Nat) : ¬ Obligations.Commands := by
  unfold Obligations.Commands
  intro h
  obtain ⟨-, -, hbusy⟩ := h (repairedPanel root (stackPlace root / 2 ^ 24)) 0 [] [] rfl (show 0 < 4351 by decide)
  obtain ⟨-, -, -, hrepair⟩ := hbusy _ rfl
  obtain ⟨t, ht, ⟨-, -, -, hgroups, -⟩, -⟩ := hrepair true rfl rfl
  obtain ⟨q, fl, ht'⟩ := exec_rowRepairComplete_repairedPanel root (stackPlace root / 2 ^ 24)
  obtain rfl := Host.Outcome.next.inj (ht.symm.trans ht')
  have hd := delivered_after_repair root q fl
  have hh := held_during_repair root
  rw [State.group?] at hd hh
  rw [hgroups, hh] at hd
  cases hd

/-- Refutes O58: a row repair that ends lets a held fault be delivered whose handler's entry waited for the repair, so that the groups
are not what waking them during the repair leaves. -/
theorem not_commands : ¬ Obligations.Commands := not_commands_of_repair 0

end Sys2Proof.Machine
end

section
/-! PROOFS. Agents, their groups and fragments, and what a change of them leaves (R51, R78). -/

namespace Sys2Proof.Machine

/-! Sorted maps: a key written twice, and an entry that is there changed. -/

theorem aput_aput {α : Type} (k : Nat) (v w : α) : ∀ l : List (Nat × α), aput (aput l k v) k w = aput l k w
  | [] => by simp [aput]
  | (a, x) :: t => by
    by_cases h : k < a
    · simp [aput, h]
    · by_cases h' : k = a
      · simp [aput, h']
      · simp [aput, h, h', aput_aput k v w t]

theorem amod_of_aget {α : Type} {l : List (Nat × α)} {k : Nat} {v : α} (h : aget l k = some v) (f : α → α) :
    amod l k f = aput l k (f v) := by simp [amod, h]

theorem amod_amod {α : Type} (l : List (Nat × α)) (k : Nat) (f h : α → α) : amod (amod l k f) k h = amod l k fun v => h (f v) := by
  cases ha : aget l k with
  | none => simp [amod, ha]
  | some v => simp [amod, ha, aput_aput]

/-! A group that is there, changed. -/

theorem State.modGroup_of_group {s : State} {k : Nat} {g : Group} (h : s.group? k = some g) (f : Group → Group) :
    s.modGroup k f = { s with groups := aput s.groups k (f g) } := by
  rw [State.modGroup, amod_of_aget h]

theorem State.modGroup_modGroup (s : State) (k : Nat) (f h : Group → Group) :
    (s.modGroup k f).modGroup k h = s.modGroup k fun g => h (f g) := by simp [State.modGroup, amod_amod]

/-- A group put in the place of another. -/
theorem State.group_put (s : State) (k : Nat) (g : Group) : State.group? { s with groups := aput s.groups k g } k = some g := by
  simp [State.group?]

/-- A fragment of a group that is there (R51). -/
theorem State.front_frag {s : State} {n m k e : Nat} {g : Group} (h : s.group? (groupKey n m k) = some g) :
    s.front? (.frag n m k e) = aget g.frags e := by simp [State.front?, agKey, h]

/-- What changes a fragment changes its group's split table. -/
theorem State.modFront_frag {s : State} {n m k e : Nat} {g : Group} {f : Fragment} (h : s.group? (groupKey n m k) = some g)
    (hf : aget g.frags e = some f) (p : Fragment → Fragment) :
    s.modFront (.frag n m k e) p = s.modGroup (groupKey n m k) fun g => { g with frags := aput g.frags e (p f) } := by
  rw [State.modGroup_of_group h, State.modFront, State.modFrag, agKey, State.modGroup_of_group h, amod_of_aget hf]

/-- The fragment of a ready instruction stands in a started clause (R85). -/
theorem hdr_of_ready {s : State} {ag : Agent} {act : Mask} {sp : Spec} {f : Fragment} (h : s.ready ag act sp = true)
    (hf : s.front? ag = some f) : ∃ w, f.hdr = some w := by
  simp only [State.ready, hf, Bool.and_eq_true, clauseRules] at h
  cases hh : f.hdr with
  | none => simp [hh] at h
  | some w => exact ⟨w, rfl⟩

/-! A fragment past its instruction (R78). -/

@[simp] theorem Fragment.advance_mask (f : Fragment) : f.advance.mask = f.mask := by
  unfold Fragment.advance; split <;> [rfl; (split <;> rfl)]

@[simp] theorem Fragment.advance_join (f : Fragment) : f.advance.join = f.join := by
  unfold Fragment.advance; split <;> [rfl; (split <;> rfl)]

theorem Fragment.advance_wait {f : Fragment} {w : Code} (h : f.hdr = some w) : f.advance.wait = .run := by
  simp only [Fragment.advance, h]; split <;> rfl

/-- Where a fragment goes on depends on where it stands alone. -/
theorem Fragment.advance_place {f x : Fragment} (hc : x.clause = f.clause) (hi : x.idx = f.idx) (hh : x.hdr = f.hdr) :
    (x.advance.clause, x.advance.idx, x.advance.hdr) = (f.advance.clause, f.advance.idx, f.advance.hdr) := by
  unfold Fragment.advance
  rw [hh, hi, hc]
  cases hf : f.hdr with
  | none => simp [hi, hc, hf, hh]
  | some w => by_cases h : f.idx < bits w 56 53 <;> simp [h]

end Sys2Proof.Machine
end

section
/-! PROOFS. The fusion of fragments at JOIN and REGANG (R53, R54, R330). -/

namespace Sys2Proof.Machine

theorem Fragment.waitsAt_iff {f : Fragment} {a : Addr} : f.waitsAt a = true ↔ f.wait = .join ∧ f.clause = a := by
  simp [Fragment.waitsAt]

/-- A fragment that owns no DEFERRED record (R53). -/
theorem Group.newestArm_none {g : Group} (h : ∀ r ∈ g.defer, r.arm = none) (e : Nat) (a : Option Addr) : g.newestArm e a = none := by
  unfold Group.newestArm
  rw [List.head?_eq_none_iff, List.filterMap_eq_nil_iff]
  intro i _
  cases hi : g.defer[i]? with
  | none => rfl
  | some r => simp [h r (List.mem_of_getElem? hi)]

/-- Nothing fuses where nobody waits. -/
theorem Group.fuseAt_of_no_waiter {g : Group} {a : Addr} (h : ∀ x ∈ g.frags, x.2.waitsAt a = false) (now : Nat) (pair : Bool) :
    g.fuseAt a now pair = g := by
  have hw : (g.frags.filter fun e => e.2.waitsAt a) = [] := by
    rw [List.filter_eq_nil_iff]; intro x hx; simp [h x hx]
  simp [Group.fuseAt, hw]

/-- Nothing fuses where a fragment that the handler's entry holds waits (R330, log 69). -/
theorem Group.fuseAt_of_held {g : Group} {a : Addr} {x : Nat × Fragment} (hx : x ∈ g.frags) (hw : x.2.waitsAt a = true)
    (hh : g.holds x.1 = true) (now : Nat) (pair : Bool) : g.fuseAt a now pair = g := by
  have ha : ((g.frags.filter fun e => e.2.waitsAt a).any fun e => g.holds e.1) = true :=
    List.any_eq_true.mpr ⟨x, List.mem_filter.mpr ⟨hx, hw⟩, hh⟩
  simp [Group.fuseAt, ha]

/-- No fusion is due where each that is asked for changes nothing. -/
theorem Group.fuseAll_of_fixed {g : Group} {now : Nat} {pair : Bool}
    (h : ∀ x ∈ g.frags, x.2.wait = .join → g.fuseAt x.2.clause now pair = g) : ∀ n, g.fuseAll now pair n = g
  | 0 => rfl
  | n + 1 => by
    have hf : (((g.frags.filter fun e => e.2.wait == .join).map fun e => e.2.clause).foldl (fun g a => g.fuseAt a now pair) g) = g := by
      refine List.foldlRecOn (motive := (· = g)) _ _ rfl fun b hb a ha => ?_
      obtain ⟨x, hx, rfl⟩ := List.mem_map.mp ha
      rw [List.mem_filter, beq_iff_eq] at hx
      rw [hb, h x hx.1 hx.2]
    rw [Group.fuseAll, hf, Group.fuseAll_of_fixed h n]

/-- No fusion is due where no fragment waits at a JOIN. -/
theorem Group.fuseAll_of_running {g : Group} (h : ∀ x ∈ g.frags, x.2.wait ≠ .join) (now : Nat) (pair : Bool) (n : Nat) :
    g.fuseAll now pair n = g := Group.fuseAll_of_fixed (fun x hx hw => absurd hw (h x hx)) n

/-- The one fragment that a group's fragments waiting at `a` become: with all masks and the outer join address, past the JOIN (R53). -/
def Group.fusedFrag (g : Group) (a : Addr) (now : Nat) (pair : Bool) (x : Fragment) (others : List (Nat × Fragment)) : Fragment :=
  { (fuseInto x (others.map (·.2)) now pair).advance with
    join := ((g.defer.find? fun r => r.join == a).map (·.outer)).getD none, stopped := .no }

/-- The group of that fragment, which stands at the lowest entry. -/
def Group.fusedAt (g : Group) (a : Addr) (now : Nat) (pair : Bool) (x : Nat × Fragment) (others : List (Nat × Fragment)) : Group :=
  { g with
    defer := g.defer.filter fun r => r.join != a
    frags := [(x.1, g.fusedFrag a now pair x.2 others)] }

theorem Group.fuseAt_of_all_wait {g : Group} {a : Addr} {x : Nat × Fragment} {others : List (Nat × Fragment)}
    (hl : g.frags = x :: others) (hw : ∀ y ∈ g.frags, y.2.waitsAt a = true) (hh : ∀ y ∈ g.frags, g.holds y.1 = false)
    (now : Nat) (pair : Bool) : g.fuseAt a now pair = g.fusedAt a now pair x others := by
  have h1 : (g.frags.filter fun e => e.2.waitsAt a) = x :: others := by rw [List.filter_eq_self.mpr hw, hl]
  have h2 : (g.frags.filter fun e => !e.2.waitsAt a) = [] := by
    rw [List.filter_eq_nil_iff]; intro y hy; simp [hw y hy]
  have h3 : (g.frags.all fun e => e.2.waitsAt a || !g.boundFor a e.2) = true := by
    rw [List.all_eq_true]; intro y hy; simp [hw y hy]
  have h4 : ((x :: others).any fun e => g.holds e.1) = false := by
    rw [← hl, List.any_eq_false]; intro y hy; simp [hh y hy]
  simp only [Group.fuseAt, h1, h2, h3, h4, Group.fusedAt, Group.fusedFrag, aput, Bool.not_true, Bool.or_self, Bool.false_eq_true, if_false]

theorem Group.checkEnd_of_frags {g : Group} (h : g.frags ≠ []) : g.checkEnd = g := by
  simp [Group.checkEnd, h]

/-- Where every fragment of a group waits at one JOIN and none is held, they fuse, once (R53). -/
theorem Group.fuseAll_of_all_wait {g : Group} {a : Addr} {x : Nat × Fragment} {others : List (Nat × Fragment)} {w : Code}
    (hl : g.frags = x :: others) (hd : x.2.hdr = some w) (hw : ∀ y ∈ g.frags, y.2.waitsAt a = true)
    (hh : ∀ y ∈ g.frags, g.holds y.1 = false) (now : Nat) (pair : Bool) :
    (g.fuseAll now pair Config.nFrags).checkEnd = g.fusedAt a now pair x others := by
  have hr : ∀ y ∈ (g.fusedAt a now pair x others).frags, y.2.wait ≠ .join := by
    have : (fuseInto x.2 (others.map (·.2)) now pair).advance.wait = .run := Fragment.advance_wait (w := w) hd
    simp [Group.fusedAt, Group.fusedFrag, this]
  have hat : ((g.frags.filter fun e => e.2.wait == .join).map fun e => e.2.clause) = a :: others.map fun e => e.2.clause := by
    rw [List.filter_eq_self.mpr fun y hy => by simp [(Fragment.waitsAt_iff.mp (hw y hy)).1], hl, List.map_cons,
      (Fragment.waitsAt_iff.mp (hw x (by simp [hl]))).2]
  have hrest : ∀ l : List Addr, l.foldl (fun g a => g.fuseAt a now pair) (g.fusedAt a now pair x others) =
      g.fusedAt a now pair x others := by
    intro l
    refine List.foldlRecOn (motive := (· = g.fusedAt a now pair x others)) _ _ rfl fun b hb c _ => ?_
    rw [hb]
    exact Group.fuseAt_of_no_waiter (fun y hy => by simp [Fragment.waitsAt, hr y hy]) now pair
  rw [show Config.nFrags = 7 + 1 from rfl, Group.fuseAll, hat, List.foldl_cons, Group.fuseAt_of_all_wait hl hw hh, hrest,
    Group.fuseAll_of_running hr, Group.checkEnd_of_frags (by simp [Group.fusedAt])]

/-- A fragment's move and the fusions that follow it are one change of its group. -/
theorem State.settleGroup_modGroup (s : State) (k : Nat) (p : Group → Group) :
    (s.modGroup k p).settleGroup k = s.modGroup k fun g => ((p g).fuseAll s.fresh (s.pairOf k) Config.nFrags).checkEnd := by
  rw [State.settleGroup, State.modGroup_modGroup]; rfl

/-- JOIN at its join address (R53). -/
theorem exec_join_ready {s : State} {n m k e : Nat} {act : Mask} {f : Fragment}
    (h : s.ready (.frag n m k e) act { cls := 4, first := true } = true) (hf : s.front? (.frag n m k e) = some f) :
    exec .join s = .next (if f.join ≠ some f.clause then s.advance (.frag n m k e)
      else s.modGroup (groupKey n m k) fun g =>
        ((g.joinAt e f).fuseAll s.fresh (s.pairOf (groupKey n m k)) Config.nFrags).checkEnd) := by
  simp only [exec, execJoin, issueWith_ready h, hf, State.settleGroup_modGroup, agKey]

/-- JOIN at its join address, with the group that its fusions leave (R53). -/
theorem exec_join_at {s : State} {n m k e : Nat} {act : Mask} {f : Fragment} {gr g gt : Group}
    (h : s.ready (.frag n m k e) act { cls := 4, first := true } = true) (hg : s.group? (groupKey n m k) = some gr)
    (hf : s.front? (.frag n m k e) = some f) (hj : f.join = some f.clause)
    (hw : gr.joinAt e f = g) (ht : (g.fuseAll s.fresh (s.pairOf (groupKey n m k)) Config.nFrags).checkEnd = gt) :
    exec .join s = .next { s with groups := aput s.groups (groupKey n m k) gt } := by
  rw [exec_join_ready h hf, if_neg (by simp [hj]), State.modGroup_of_group hg, hw, ht]

theorem exec_regang_ready {s : State} {n m k e : Nat} {act : Mask} {f : Fragment}
    (h : s.ready (.frag n m k e) act { cls := 4, first := true } = true) (hf : s.front? (.frag n m k e) = some f) :
    exec .regang s = .next (s.modGroup (groupKey n m k) fun g =>
        ((g.regang e f s.fresh (s.pairOf (groupKey n m k))).fuseAll s.fresh (s.pairOf (groupKey n m k)) Config.nFrags).checkEnd) := by
  simp only [exec, execRegang, issueWith_ready h, hf, State.settleGroup_modGroup, agKey]

/-- Two entries of a split table, in ascending order. -/
theorem aput_pair {α : Type} {e e2 : Nat} (h : e ≠ e2) (f f2 : α) :
    aput [(e, f)] e2 f2 = if e < e2 then [(e, f), (e2, f2)] else [(e2, f2), (e, f)] := by
  unfold aput
  rcases Nat.lt_or_gt_of_ne h with h' | h'
  · simp [h', aput, h.symm, Nat.not_lt.mpr h'.le]
  · simp [h', Nat.not_lt.mpr h'.le]

/-- JOIN of a fragment that owns no DEFERRED record: it waits there (R53). -/
theorem Group.joinAt_eq {g : Group} (h : ∀ r ∈ g.defer, r.arm = none) (e : Nat) (f : Fragment) :
    g.joinAt e f = { g with frags := aput g.frags e { f with wait := .join, stall := .none } } := by
  simp [Group.joinAt, Group.newestArm_none h]

section
variable {s : State} {n m k e e2 : Nat} {act : Mask} {gr : Group} {f f2 : Fragment} {o : Option Addr}

/-- A fragment alone in its group goes on from the JOIN at its join address, with no join address (R53). -/
theorem join_alone (h : s.ready (.frag n m k e) act { cls := 4, first := true } = true) (hg : s.group? (groupKey n m k) = some gr)
    (hf : s.front? (.frag n m k e) = some f) (hj : f.join = some f.clause) (hl : gr.frags = [(e, f)]) (hd : gr.defer = [])
    (hh : gr.holds e = false) :
    ∃ t gt x, exec .join s = .next t ∧ t.group? (groupKey n m k) = some gt ∧ gt.frags = [(e, x)] ∧ x.mask = f.mask ∧
      x.join = none ∧ (x.clause, x.idx, x.hdr, x.wait) = (f.advance.clause, f.advance.idx, f.advance.hdr, Wait.run) ∧
      { t with groups := s.groups } = s := by
  obtain ⟨w, hw⟩ := hdr_of_ready h hf
  let g' : Group := { gr with frags := [(e, { f with wait := .join, stall := .none })] }
  have hjoin : gr.joinAt e f = g' := by rw [Group.joinAt_eq (by simp [hd]), hl]; simp [aput, g']
  have hfree : ∀ y ∈ g'.frags, g'.holds y.1 = false := fun y hy => by
    rw [List.mem_singleton.mp hy]; exact hh
  have hfuse := Group.fuseAll_of_all_wait (g := g') (a := f.clause) rfl (w := w) hw (by simp [g', Fragment.waitsAt])
    hfree s.fresh (s.pairOf (groupKey n m k))
  refine ⟨_, _, _, exec_join_at h hg hf hj hjoin hfuse, State.group_put _ _ _, rfl, Fragment.advance_mask _, ?_, ?_, rfl⟩
  · simp [Group.fusedFrag, g', hd]
  · have hp := Fragment.advance_place (f := f) (x := fuseInto { f with wait := .join, stall := .none } [] s.fresh
      (s.pairOf (groupKey n m k))) rfl rfl rfl
    have hr := Fragment.advance_wait (f := fuseInto { f with wait := .join, stall := .none } [] s.fresh
      (s.pairOf (groupKey n m k))) hw
    simp only [Prod.mk.injEq] at hp ⊢
    exact ⟨hp.1, hp.2.1, hp.2.2, hr⟩

/-- The two fragments of a group that wait at one JOIN, in the order of their entries. -/
theorem frags_pair (hne : e ≠ e2) (hl : gr.frags = aput [(e, f)] e2 f2) (x : Fragment) :
    aput gr.frags e x = if e < e2 then [(e, x), (e2, f2)] else [(e2, f2), (e, x)] := by
  rw [hl, aput_pair hne]
  rcases Nat.lt_or_gt_of_ne hne with h | h
  · simp [h, aput]
  · simp [aput, Nat.not_lt.mpr h.le, hne]

/-- The last of two fragments that executes JOIN at its join address goes on with both masks and the record's outer address (R53). -/
theorem join_pair (h : s.ready (.frag n m k e) act { cls := 4, first := true } = true) (hg : s.group? (groupKey n m k) = some gr)
    (hf : s.front? (.frag n m k e) = some f) (hj : f.join = some f.clause) (hne : e ≠ e2) (hl : gr.frags = aput [(e, f)] e2 f2)
    (hd : gr.defer = [{ join := f.clause, outer := o, arm := none }]) (hw2 : f2.wait = .join)
    (h2 : (f2.clause, f2.idx, f2.hdr, f2.join) = (f.clause, f.idx, f.hdr, f.join)) (hh : gr.holds e = false)
    (hh2 : gr.holds e2 = false) :
    ∃ t gt x, exec .join s = .next t ∧ t.group? (groupKey n m k) = some gt ∧ gt.frags = [(min e e2, x)] ∧
      x.mask = f.mask ||| f2.mask ∧ x.join = o ∧ gt.defer = [] ∧
      (x.clause, x.idx, x.hdr, x.wait) = (f.advance.clause, f.advance.idx, f.advance.hdr, Wait.run) ∧
      { t with groups := s.groups } = s := by
  obtain ⟨w, hw⟩ := hdr_of_ready h hf
  simp only [Prod.mk.injEq] at h2
  obtain ⟨h2c, h2i, h2h, -⟩ := h2
  let f' : Fragment := { f with wait := .join, stall := .none }
  let g' : Group := { gr with frags := aput gr.frags e f' }
  have hjoin : gr.joinAt e f = g' := Group.joinAt_eq (by simp [hd]) e f
  have hwait : ∀ y ∈ g'.frags, y.2.waitsAt f.clause = true := by
    simp only [g', frags_pair hne hl]
    split <;> simp [Fragment.waitsAt, f', hw2, h2c]
  have hfree : ∀ y ∈ g'.frags, g'.holds y.1 = false := by
    intro y hy
    have hy : y.1 = e ∨ y.1 = e2 := by
      simp only [g', frags_pair hne hl] at hy
      split at hy <;> aesop
    exact hy.elim (fun h => h ▸ hh) fun h => h ▸ hh2
  -- the lower entry `x` stays; `y` joins it
  obtain ⟨x, y, hxy, hx, hmask⟩ : ∃ x y : Nat × Fragment, g'.frags = [x, y] ∧
      (x.1 = min e e2 ∧ x.2.clause = f.clause ∧ x.2.idx = f.idx ∧ x.2.hdr = f.hdr) ∧ x.2.mask ||| y.2.mask = f.mask ||| f2.mask := by
    rcases Nat.lt_or_gt_of_ne hne with hlt | hlt
    · exact ⟨(e, f'), (e2, f2), by simp only [g', frags_pair hne hl, hlt, if_true],
        ⟨(Nat.min_eq_left hlt.le).symm, rfl, rfl, rfl⟩, rfl⟩
    · exact ⟨(e2, f2), (e, f'), by simp only [g', frags_pair hne hl, Nat.not_lt.mpr hlt.le, if_false],
        ⟨(Nat.min_eq_right hlt.le).symm, h2c, h2i, h2h⟩, BitVec.or_comm _ _⟩
  obtain ⟨hx1, hxc, hxi, hxh⟩ := hx
  have hfuse := Group.fuseAll_of_all_wait hxy (w := w) (hxh.trans hw) hwait hfree s.fresh (s.pairOf (groupKey n m k))
  refine ⟨_, _, _, exec_join_at h hg hf hj hjoin hfuse, State.group_put _ _ _,
    congrArg (fun i => [(i, g'.fusedFrag f.clause s.fresh (s.pairOf (groupKey n m k)) x.2 [y])]) hx1, ?_, ?_, ?_, ?_, rfl⟩
  · rw [← hmask]; exact Fragment.advance_mask _
  · simp [Group.fusedFrag, g', hd]
  · simp [Group.fusedAt, g', hd]
  · have hp := Fragment.advance_place (f := f) (x := fuseInto x.2 [y.2] s.fresh (s.pairOf (groupKey n m k))) hxc hxi hxh
    have hr := Fragment.advance_wait (f := fuseInto x.2 [y.2] s.fresh (s.pairOf (groupKey n m k))) (hxh.trans hw)
    simp only [Prod.mk.injEq] at hp ⊢
    exact ⟨hp.1, hp.2.1, hp.2.2, hr⟩

/-- Where a held fragment waits at the JOIN, the executing one waits there too (R330, log 69). -/
theorem join_held (h : s.ready (.frag n m k e) act { cls := 4, first := true } = true) (hg : s.group? (groupKey n m k) = some gr)
    (hf : s.front? (.frag n m k e) = some f) (hj : f.join = some f.clause) (hne : e ≠ e2) (hl : gr.frags = aput [(e, f)] e2 f2)
    (hd : gr.defer = [{ join := f.clause, outer := o, arm := none }]) (hw2 : f2.wait = .join) (h2c : f2.clause = f.clause)
    (hh2 : gr.holds e2 = true) :
    exec .join s = .next (s.modGroup (groupKey n m k) fun g =>
      { g with frags := aput g.frags e { f with wait := .join, stall := .none } }) := by
  let g' : Group := { gr with frags := aput gr.frags e { f with wait := .join, stall := .none } }
  have hjoin : gr.joinAt e f = g' := Group.joinAt_eq (by simp [hd]) e f
  have hmem : (e2, f2) ∈ g'.frags := by simp only [g', frags_pair hne hl]; split <;> simp
  have hclause : ∀ x ∈ g'.frags, x.2.clause = f.clause := by
    simp only [g', frags_pair hne hl]
    split <;> simp [h2c]
  have hfix := Group.fuseAll_of_fixed (now := s.fresh) (pair := s.pairOf (groupKey n m k)) (fun x hx _ => by
    rw [hclause x hx]
    exact Group.fuseAt_of_held hmem (Fragment.waitsAt_iff.mpr ⟨hw2, h2c⟩) hh2 _ _) Config.nFrags
  rw [exec_join_ready h hf, if_neg (by simp [hj]), State.modGroup_of_group hg, State.modGroup_of_group hg, hjoin, hfix,
    Group.checkEnd_of_frags (List.ne_nil_of_mem hmem)]

/-- REGANG: the fragment at the header of the executing one's clause, with its join address, joins it (R54). -/
theorem regang_pair (h : s.ready (.frag n m k e) act { cls := 4, first := true } = true) (hg : s.group? (groupKey n m k) = some gr)
    (hf : s.front? (.frag n m k e) = some f) (hgh : gr.handler = none) (hw2 : f2.wait = .run) (hne : e ≠ e2)
    (hl : gr.frags = aput [(e, f)] e2 f2) (h2 : (f2.clause, f2.idx, f2.hdr, f2.join) = (f.clause, 0, none, f.join)) :
    ∃ t gt x, exec .regang s = .next t ∧ t.group? (groupKey n m k) = some gt ∧ gt.frags = [(e, x)] ∧
      x.mask = f.mask ||| f2.mask ∧ x.join = f.join ∧ gt.defer = gr.defer ∧
      (x.clause, x.idx, x.hdr) = (f.advance.clause, f.advance.idx, f.advance.hdr) ∧ { t with groups := s.groups } = s := by
  obtain ⟨w, hw⟩ := hdr_of_ready h hf
  simp only [Prod.mk.injEq] at h2
  obtain ⟨h2c, h2i, -, h2j⟩ := h2
  let x := (fuseInto f [f2] s.fresh (s.pairOf (groupKey n m k))).advance
  have hre : gr.regang e f s.fresh (s.pairOf (groupKey n m k)) = { gr with frags := [(e, x)] } := by
    unfold Group.regang
    rw [hgh, hl, aput_pair hne]
    by_cases hlt : e < e2 <;> simp [hlt, h2c, h2i, h2j, hw2, hne, hne.symm, aput, x]
  have hrun : x.wait = .run := Fragment.advance_wait (w := w) hw
  have hend : (Group.fuseAll { gr with frags := [(e, x)] } s.fresh (s.pairOf (groupKey n m k)) Config.nFrags).checkEnd =
      { gr with frags := [(e, x)] } := by
    rw [Group.fuseAll_of_running (by simp [hrun]), Group.checkEnd_of_frags (by simp)]
  refine ⟨_, { gr with frags := [(e, x)] }, x, ?_, State.group_put _ _ _, rfl, Fragment.advance_mask _, Fragment.advance_join _, rfl,
    Fragment.advance_place rfl rfl rfl, rfl⟩
  rw [exec_regang_ready h hf, State.modGroup_of_group hg, hre, hend]

end

/-- Settles O13: JOIN alone, as the last of two and with one held, and REGANG with one other, are one lemma each; the fusions that follow
are those of `Group.fuseAll`. -/
theorem fragmentsFuse : Obligations.FragmentsFuse := by
  unfold Obligations.FragmentsFuse
  refine ⟨?_, ?_⟩
  · intro s n m k e e2 act gr f f2 o ag h hg he
    have hf : s.front? (.frag n m k e) = some f := (State.front_frag hg).trans he
    refine ⟨fun hj => ?_, fun hj hl hd hh => join_alone h hg hf hj hl hd hh, fun hj hne hl hd hw2 h2 hh => ⟨fun hh2 => ?_, fun hh2 => ?_⟩⟩
    · rw [exec_join_ready h hf, if_pos hj]
    · exact join_pair h hg hf hj hne hl hd hw2 h2 hh hh2
    · simp only [Prod.mk.injEq] at h2
      exact join_held h hg hf hj hne hl hd hw2 h2.1 hh2
  · intro s n m k e e2 act gr f f2 ag h hg hgh _ hw2 hne hl h2
    have he : aget gr.frags e = some f := by rw [hl, aget_aput, if_neg hne]; simp [aget]
    exact regang_pair h hg ((State.front_frag hg).trans he) hgh hw2 hne hl h2

end Sys2Proof.Machine
end

section
/-! PROOFS. Divergent branches (R52, R119, R291). -/

namespace Sys2Proof.Machine

theorem toInt_signExtend_shiftLeft (t : BitVec 30) : (t.signExtend 48 <<< 3 : BitVec 48) = BitVec.ofInt 48 (8 * t.toInt) := by
  apply BitVec.eq_of_toNat_eq
  rw [BitVec.signExtend, BitVec.toNat_shiftLeft, BitVec.toNat_ofInt, BitVec.toNat_ofInt, Nat.shiftLeft_eq]
  omega

/-- The target of a direct transfer: the address of the instruction and eight times the sign-extended offset (R84). -/
theorem Fragment.target_eq (f : Fragment) (t : BitVec 30) : f.target t = f.pc + BitVec.ofInt 48 (8 * t.toInt) := by
  rw [Fragment.target, toInt_signExtend_shiftLeft]

theorem State.directTarget_of_header {s : State} {ag : Agent} {a : Addr} (h : s.headerAt ag a) : s.directTarget ag a = none := by
  obtain ⟨w, hw, hb⟩ := h
  simp [State.directTarget, hw, isHeader, hb]

/-- A branch to a header that no test holds back (R119). -/
theorem State.branch_of_header {s : State} {ag : Agent} {f : Fragment} {tgt : BitVec 30} (hf : s.front? ag = some f)
    (hh : s.headerAt ag (f.target tgt)) (hb : s.agFetchBusy ag (f.target tgt) = false) (act : Mask) (pre : State → State) :
    s.branch ag act tgt pre = ((s.takeBranch ag f act (f.target tgt)).map pre).getD (s.divDepth ag act) := by
  simp only [State.branch, hf, hb, State.directTarget_of_header hh, Bool.false_eq_true, if_false]
  cases s.takeBranch ag f act (f.target tgt) <;> rfl

theorem Group.freeEntries_eq_vacant (g : Group) : g.freeEntries = g.vacant := rfl

/-- A free entry is drawn where there is one (R52). -/
theorem Group.freeEntry_cases (g : Group) (k : Nat) :
    (g.vacant = [] ∧ g.freeEntry k = none) ∨ (g.vacant ≠ [] ∧ ∃ i ∈ g.vacant, g.freeEntry k = some i) := by
  by_cases h : g.vacant = []
  · exact .inl ⟨h, by simp [Group.freeEntry, g.freeEntries_eq_vacant, h]⟩
  · have hl : Config.freeNat k % g.vacant.length < g.vacant.length := Nat.mod_lt _ (List.length_pos_of_ne_nil h)
    exact .inr ⟨h, _, List.getElem_mem hl, by
      rw [Group.freeEntry, g.freeEntries_eq_vacant, List.getElem?_eq_getElem hl]⟩

theorem State.divDepth_of_group {s : State} {ag : Agent} {gr : Group} (h : s.group? (agKey ag) = some gr) (act : Mask) :
    s.divDepth ag act = s.raiseAt ag 8 (gr.defer.length + gr.vacant.length * 256) 0#48 act := by
  simp [State.divDepth, h, Group.divDetail, Group.freeCount, Group.freeEntries_eq_vacant]

/-- BRA by some of the lanes of its fragment, to a header that no test holds back: the group it leaves, or DIVDEPTH (R52). -/
theorem exec_bra_divergent {s : State} {n m k e : Nat} {act : Mask} {gr : Group} {f : Fragment} {tgt : BitVec 30} {g : Guard}
    (h : s.ready (.frag n m k e) act { ctlSpec g [] with seq := true } = true) (hg : s.group? (groupKey n m k) = some gr)
    (hf : aget gr.frags e = some f) (hh : s.headerAt (.frag n m k e) (f.target tgt))
    (hb : s.agFetchBusy (.frag n m k e) (f.target tgt) = false) (ha : act ≠ f.mask) :
    exec (.bra tgt g) s = .next (((gr.diverge s.tick e f act (f.target tgt)).map fun g =>
        { s with groups := aput s.groups (groupKey n m k) g, tick := s.tick + 1 }).getD
      (s.raiseAt (.frag n m k e) 8 (gr.defer.length + gr.vacant.length * 256) 0#48 act)) := by
  have hfr : s.front? (.frag n m k e) = some f := (State.front_frag hg).trans hf
  simp only [exec, execBra, issueWith_ready h, State.branch_of_header hfr hh hb, State.takeBranch, ha, if_false, agKey, hg,
    Option.bind_some, State.divDepth_of_group (ag := .frag n m k e) hg]
  cases gr.diverge s.tick e f act (f.target tgt) <;> rfl

/-- Settles O15. -/
theorem divergentBranch : Obligations.DivergentBranch := by
  unfold Obligations.DivergentBranch
  intro s n m k e act gr f tgt g ag target rest full free h hg hf hh hb ha
  have htgt : f.target tgt = target := f.target_eq tgt
  have hx := exec_bra_divergent h hg hf (htgt ▸ hh) (htgt ▸ hb) ha
  rw [htgt] at hx
  rcases gr.freeEntry_cases s.tick with ⟨hv, hfree⟩ | ⟨hv, i, hi, hfree⟩
  · -- no entry is free
    refine ⟨fun _ hn => absurd hv hn, fun _ _ _ hn => absurd hv hn, fun j hj hd _ => ?_, fun hfull => ?_⟩
    · rw [Group.diverge, hj, hfree] at hx
      simp only [Config.deferDepth, Nat.not_le.mpr hd, if_false, Option.map_some, Option.getD_some] at hx
      exact ⟨_, hx, rfl, rfl⟩
    · rw [hx]
      rcases hfull with ⟨hj, -⟩ | ⟨hj, hd⟩
      · simp [Group.diverge, hj, hfree, ag]
      · obtain ⟨j, hj⟩ := Option.isSome_iff_exists.mp hj
        simp [Group.diverge, hj, Config.deferDepth, hd, ag]
  · -- entry `i` is free
    refine ⟨fun hj _ => ?_, fun j hj hd _ => ?_, fun _ _ _ hn => absurd hn hv, fun hfull => ?_⟩
    · rw [Group.diverge, hj, hfree] at hx
      exact ⟨_, i, hx, hi, rfl, rfl⟩
    · rw [Group.diverge, hj, hfree] at hx
      simp only [Config.deferDepth, Nat.not_le.mpr hd, if_false, Option.map_some, Option.getD_some] at hx
      exact ⟨_, i, hx, hi, rfl, rfl⟩
    · rw [hx]
      rcases hfull with ⟨-, hn⟩ | ⟨hj, hd⟩
      · exact absurd hn hv
      · obtain ⟨j, hj⟩ := Option.isSome_iff_exists.mp hj
        simp [Group.diverge, hj, Config.deferDepth, hd, ag]

end Sys2Proof.Machine
end

section
/-! PROOFS. What the report of an error and the sending of an element leave of the panel (R176, R241, R298, R385, R397). -/

namespace Sys2Proof.Machine

/-- Two dies differ at most in what errors and port puts leave there: reports, tests and counts of errors, cached entries of queue
tables, traffic, and port puts and fault elements that wait. -/
def Die.mails (x y : Die) : Prop :=
  { y with
    qcache := x.qcache, traffic := x.traffic, overflow := x.overflow, lostFaults := x.lostFaults, rasQ := x.rasQ
    rasLost := x.rasLost, putWait := x.putWait, tests := x.tests, errCounts := x.errCounts } = x

theorem Die.mails_refl (x : Die) : x.mails x := rfl

theorem Die.mails_trans {x y z : Die} (h : x.mails y) (h' : y.mails z) : x.mails z := by
  unfold Die.mails at h h' ⊢
  rw [← h'] at h
  exact h

/-- Two panels differ at most in what errors that are met and port puts leave: requests and their streams, marked sectors, and what
`Die.mails` names of each die. -/
def State.mails (s t : State) : Prop :=
  { t with
    dies := s.dies, poison := s.poison, ue := s.ue, ueL2 := s.ueL2, msgs := s.msgs, streams := s.streams
    streamIds := s.streamIds, fresh := s.fresh } = s ∧
  ∀ d, (s.die d).mails (t.die d)

theorem State.mails_refl (s : State) : s.mails s := ⟨rfl, fun _ => rfl⟩

theorem State.mails_trans {s t u : State} (h : s.mails t) (h' : t.mails u) : s.mails u := by
  refine ⟨?_, fun d => Die.mails_trans (h.2 d) (h'.2 d)⟩
  have h1 := h.1
  rw [← h'.1] at h1
  exact h1

section
variable {s t : State} (h : s.mails t)
include h

theorem State.mails.groups : t.groups = s.groups := (congrArg State.groups h.1 :)
theorem State.mails.cores : t.cores = s.cores := (congrArg State.cores h.1 :)
theorem State.mails.teams : t.teams = s.teams := (congrArg State.teams h.1 :)
theorem State.mails.mem : t.mem = s.mem := (congrArg State.mem h.1 :)
theorem State.mails.l2 : t.l2 = s.l2 := (congrArg State.l2 h.1 :)
theorem State.mails.flight : t.flight = s.flight := (congrArg State.flight h.1 :)
theorem State.mails.queues : t.queues = s.queues := (congrArg State.queues h.1 :)
theorem State.mails.clock : t.clock = s.clock := (congrArg State.clock h.1 :)
theorem State.mails.pends : t.pends = s.pends := (congrArg State.pends h.1 :)
theorem State.mails.answers : t.answers = s.answers := (congrArg State.answers h.1 :)
theorem State.mails.group (k : Nat) : t.group? k = s.group? k := by rw [State.group?, h.groups]; rfl
theorem State.mails.core (d c : Nat) : t.core d c = s.core d c := by rw [State.core, h.cores]; rfl
theorem State.mails.team (d n : Nat) : t.team? d n = s.team? d n := by rw [State.team?, h.teams]; rfl
theorem State.mails.sameMem : s.sameMem t := ⟨h.mem, h.l2⟩
theorem State.mails.shares (d : Nat) : (t.die d).shares = (s.die d).shares := (congrArg Die.shares (h.2 d) :)
theorem State.mails.launchQ (d : Nat) : (t.die d).launchQ = (s.die d).launchQ := (congrArg Die.launchQ (h.2 d) :)
theorem State.mails.forwards (d : Nat) : (t.die d).forwards = (s.die d).forwards := (congrArg Die.forwards (h.2 d) :)

end

/-- A die changed in those parts alone. -/
theorem State.modDie_mails (s : State) (d : Nat) {f : Die → Die} (h : (s.die d).mails (f (s.die d))) : s.mails (s.modDie d f) := by
  refine ⟨rfl, fun d' => ?_⟩
  rw [State.die_modDie]
  split
  · next e => rw [e]; exact h
  · exact Die.mails_refl _

theorem State.rasAt_mails (s : State) (d time : Nat) (e : RasElem) : s.mails (s.rasAt d time e) := by
  refine s.modDie_mails d ?_
  split <;> rfl

theorem State.errorElem_mails (s : State) (d a b c e f g i : Nat) : s.mails (s.errorElem d a b c e f g i) := s.rasAt_mails _ _ _

theorem State.reportError_mails (s : State) (d a b c e f : Nat) : s.mails (s.reportError d a b c e f) := by
  have h : ∀ m : Die → List (Nat × ErrCount), s.mails (s.modDie d fun x => { x with errCounts := m x }) := fun m => s.modDie_mails d rfl
  unfold State.reportError
  dsimp only
  split
  · exact h _
  · split
    · exact State.mails_trans (h _) (State.modDie_mails _ d rfl)
    · exact State.mails_trans (h _) (State.errorElem_mails _ _ _ _ _ _ _ _ _)

theorem State.metHome_mails (s : State) (d off : Nat) : s.mails (s.metHome d off) := by
  have hr : s.mails (s.reportHome d off) := by
    unfold State.reportHome; split <;> exact s.reportError_mails _ _ _ _ _ _
  unfold State.metHome
  split
  · exact State.mails_trans hr ⟨rfl, fun _ => rfl⟩
  · exact s.mails_refl
  · exact s.mails_refl

theorem State.fetchMet_mails (s : State) (d : Nat) (p : BitVec 12) (a : Addr) : s.mails (s.fetchMet d p a) := by
  unfold State.fetchMet
  split
  · exact s.metHome_mails _ _
  · exact s.metHome_mails _ _
  · exact s.mails_refl
  · exact s.mails_refl

theorem State.qMet_mails (s : State) (d : Nat) (p : BitVec 12) (x : Nat) : s.mails (s.qMet d p x) := by
  unfold State.qMet
  cases s.qAddr d p x with
  | none => exact s.mails_refl
  | some a => exact s.metHome_mails d a

theorem State.overflowAdd_mails (s : State) (d : Nat) (p : BitVec 12) (e : List Byte) : s.mails (s.overflowAdd d p e) := by
  refine s.modDie_mails d ?_
  dsimp only
  split <;> rfl

theorem State.streamOf_mails (s : State) (k : List Nat) : s.mails (s.streamOf k).1 := by
  unfold State.streamOf
  split
  · exact s.mails_refl
  · exact ⟨rfl, fun _ => rfl⟩

theorem State.qCache_mails (s : State) (d : Nat) (p : BitVec 12) (x : Nat) : s.mails (s.qCache d p x) := by
  unfold State.qCache
  split
  · exact s.modDie_mails d rfl
  · exact s.mails_refl

theorem State.addTraffic_mails (s : State) (d : Nat) (p : BitVec 12) (n : Nat) : s.mails (s.addTraffic d p n) := s.modDie_mails d rfl

/-- A request put among those on their way. -/
theorem State.mails.sent {s u : State} (h : s.mails u) (k : Nat) (n : BitVec 32) (m : Msg) :
    s.mails { u with streams := sset 0#32 u.streams k n, msgs := aput u.msgs u.fresh m, fresh := u.fresh + 1 } := ⟨h.1, h.2⟩

/-- A request sent (R241). -/
theorem State.post_mails (s : State) (x : Sender) (d : Nat) (p : BitVec 12) (q : BitVec 32) (h : QHome) (g : BitVec 6) (a : Ask)
    (c : Option PortPut) : s.mails (s.post x d p q h g a c).1 :=
  (State.mails_trans (State.mails_trans (s.streamOf_mails _) (State.qCache_mails _ d p _)) (State.addTraffic_mails _ d p _)).sent _ _ _

theorem State.portSend_mails (s : State) (d : Nat) (w : WaitPut) : s.mails (s.portSend d w) := by
  unfold State.portSend
  split
  · exact s.modDie_mails d rfl
  · exact s.post_mails _ _ _ _ _ _ _ _

theorem State.faultPut_mails (s : State) (d port : Nat) (p : BitVec 12) (e : List Byte) : s.mails (s.faultPut d port p e) := by
  unfold State.faultPut
  split
  · exact s.overflowAdd_mails _ _ _
  · split
    · exact State.mails_trans (s.qMet_mails _ _ _) (State.overflowAdd_mails _ _ _ _)
    · exact s.portSend_mails _ _

theorem State.notice_mails (s : State) (d : Nat) (p : BitVec 12) (n : Notice) : s.mails (s.notice d p n) := s.faultPut_mails _ _ _ _

theorem State.completionPut_mails (s : State) (d : Nat) (p : BitVec 12) (tag : Word) (q : BitVec 32) (e : List Byte) :
    s.mails (s.completionPut d p tag q e) := by
  unfold State.completionPut
  split
  · refine State.mails_trans ?_ (State.notice_mails _ _ _ _)
    split
    · exact s.qMet_mails _ _ _
    · exact s.mails_refl
  · exact s.portSend_mails _ _

end Sys2Proof.Machine
end

section
/-! PROOFS. A fault of class G that parks its group, or is held (R292, R293, R295, R297). -/

namespace Sys2Proof.Machine

theorem partSet_aput (l : List (Nat × List Nat)) (p : Nat) (x : List Nat) : partSet (aput l p x) p = x := by
  simp [partSet, agetD]

/-- The state with one group replaced. -/
def State.putGroup (s : State) (k : Nat) (g : Group) : State := { s with groups := aput s.groups k g }

theorem State.modGroup_eq_putGroup {s : State} {k : Nat} {g : Group} (h : s.group? k = some g) (f : Group → Group) :
    s.modGroup k f = s.putGroup k (f g) := State.modGroup_of_group h f

theorem State.group_putGroup (s : State) (k : Nat) (g : Group) : (s.putGroup k g).group? k = some g := State.group_put _ _ _

theorem State.putGroup_putGroup (s : State) (k : Nat) (g g' : Group) : (s.putGroup k g).putGroup k g' = s.putGroup k g' := by
  simp [State.putGroup, aput_aput]

/-- What parking leaves (R297): the group parked with the fault, its park count advanced, in the pending set and no other; memory
stays. -/
theorem State.park_spec {s : State} {k : Nat} {g : Group} (hg : s.group? k = some g) (f : FaultRec) :
    (s.park k f).group? k =
      some { g with parked := some { fault := f, inHandler := g.handler.isSome }, parkCount := g.parkCount + 1#16, readySince := none } ∧
    k ∈ partSet ((s.park k f).core (keyDie k) g.core).pending g.part ∧
    k ∉ partSet ((s.park k f).core (keyDie k) g.core).active g.part := by
  simp only [State.park, hg]
  have hm := State.notice_mails ((s.modGroup k fun g' =>
    { g' with parked := some { fault := f, inHandler := g.handler.isSome }, parkCount := g'.parkCount + 1#16, readySince := none }).modCore
      (keyDie k) g.core fun c =>
        { c.leave g.part k with pending := aput (c.leave g.part k).pending g.part (partSet (c.leave g.part k).pending g.part ++ [k]) })
  refine ⟨?_, ?_, ?_⟩
  · rw [(hm _ _ _).group, State.group_modCore, State.group_modGroup, if_pos rfl, hg, Option.map_some]
  · rw [(hm _ _ _).core, State.core_modCore, if_pos rfl, partSet_aput]; simp
  · rw [(hm _ _ _).core, State.core_modCore, if_pos rfl]
    simp [Core.leave, partSet_aput]

section
variable {s : State} {n m k e : Nat} {gr : Group} {f : Fragment} {c : FaultRec}

/-- The group of a fragment whose instruction faults: no gang of it stands issued any more (R27). -/
def Group.ungang (gr : Group) (e : Nat) (f : Fragment) : Group := { gr with frags := aput gr.frags e { f with gang := none } }

/-- A fault whose resume point is its instruction, charged to a fragment's group (R293). -/
theorem raise_frag_eq (hg : s.group? (groupKey n m k) = some gr) (hf : aget gr.frags e = some f) (hend : gr.ended = false)
    (hc : c.code ∉ [1, 11, 12, 13, 14]) :
    s.raise (.frag n m k e) c =
      if gr.parked.isSome || !gr.held.isEmpty then
        s.putGroup (groupKey n m k) { gr.ungang e f with held := gr.held ++ [{ c with entry := some e }] }
      else (s.putGroup (groupKey n m k) (gr.ungang e f)).deliver (groupKey n m k) { c with entry := some e } := by
  have hr : resumeAfter c.code = false := by
    simp only [List.mem_cons, List.not_mem_nil, or_false, not_or] at hc
    simp only [resumeAfter, Bool.or_eq_false_iff, beq_eq_false_iff_ne, decide_eq_false_iff_not]
    omega
  have hu : (gr.ungang e f).ended = false := hend
  have hp : (gr.ungang e f).parked = gr.parked := rfl
  have hh : (gr.ungang e f).held = gr.held := rfl
  rw [State.raise, State.modFront_frag hg hf, State.modGroup_eq_putGroup hg]
  simp only [agKey]
  rw [show ({ gr with frags := aput gr.frags e { f with gang := none } } : Group) = gr.ungang e f from rfl]
  simp only [State.groupFault, State.group_putGroup, hr, hu, hp, hh, Bool.false_eq_true, if_false,
    State.modGroup_eq_putGroup (State.group_putGroup _ _ _), State.putGroup_putGroup]

/-- The fault parks its group when no vector is set, when the group is in its handler, when it is of no class G, and when the vector is
no landing header, an error of whose fetch is reported first. -/
theorem raise_parks (hg : s.group? (groupKey n m k) = some gr) (hf : aget gr.frags e = some f) (hend : gr.ended = false)
    (hm : m < 2048) (hk : k < 16) (hc : c.code ∉ [1, 11, 12, 13, 14]) (hp : gr.parked = none) (hh : gr.held = [])
    (hw : 14 < c.code ∨ gr.trapVec = 0#48 ∨ gr.handler.isSome = true ∨
      (s.entryBusy (groupKey n m k) gr = false ∧ s.landingAt n (s.ptagOf (groupKey n m k)) gr.trapVec = false)) :
    ∃ u fr, State.mails (s.putGroup (groupKey n m k) (gr.ungang e f)) u ∧
      (fr.code, fr.detail, fr.addr, fr.lanes, fr.pc) = (c.code, c.detail, c.addr, c.lanes, c.pc) ∧
      s.raise (.frag n m k e) c = u.park (groupKey n m k) fr := by
  set s1 : State := (s.putGroup (groupKey n m k) (gr.ungang e f)) with hs1
  have hr := raise_frag_eq hg hf hend hc
  simp only [hp, hh, Option.isSome_none, List.isEmpty_nil, Bool.not_true, Bool.or_self, Bool.false_eq_true, if_false, ← hs1] at hr
  have hg1 : s1.group? (groupKey n m k) = some (gr.ungang e f) := State.group_putGroup _ _ _
  have hf1 : aget (gr.ungang e f).frags e = some { f with gang := none } := by simp [Group.ungang]
  by_cases hent : (classG c.code && c.cause != 255 && (gr.ungang e f).trapVec != 0#48 && (gr.ungang e f).handler.isNone) = true
  · -- only the vector is wrong
    obtain ⟨hb, hl⟩ : s.entryBusy (groupKey n m k) gr = false ∧ s.landingAt n (s.ptagOf (groupKey n m k)) gr.trapVec = false := by
      simp only [Group.ungang, classG, Bool.and_eq_true, decide_eq_true_eq, bne_iff_ne, ne_eq, Option.isNone_iff_eq_none] at hent
      obtain ⟨⟨⟨hcode, -⟩, hvec⟩, hhan⟩ := hent
      rcases hw with h | h | h | h
      · omega
      · exact absurd h hvec
      · simp [hhan] at h
      · exact h
    have hl1 : s1.landingAt n (s1.ptagOf (groupKey n m k)) (gr.ungang e f).trapVec = false := hl
    refine ⟨_, { c with entry := some e, vectorFail := true }, State.fetchMet_mails s1 n (s1.ptagOf (groupKey n m k)) (gr.ungang e f).trapVec, rfl, ?_⟩
    rw [hr, State.deliver_of_not_busy (f := { c with entry := some e }) hg1 rfl hf1 hent (show s1.entryBusy _ (gr.ungang e f) = false from hb), State.enterHandler,
      keyDie_groupKey hm hk, hl1]
    rfl
  · refine ⟨s1, { c with entry := some e }, s1.mails_refl, rfl, ?_⟩
    rw [Bool.not_eq_true] at hent
    rw [hr]
    simp only [State.deliver, hg1, hf1, hent, Option.bind_some, Option.map_some, Bool.false_eq_true, if_false]

end

/-- Settles O21: parking keeps all else of the group, and what comes before it (the vector read in error) only reports. -/
theorem faultParksGroup : Obligations.FaultParksGroup := by
  unfold Obligations.FaultParksGroup
  intro s n m k e gr f c ag key hg hf hend hn hm hk
  refine ⟨fun hp hh hw hc => ?_, fun hw hc => ?_⟩
  · obtain ⟨u, fr, hu, hfr, hr⟩ := raise_parks hg hf hend hm hk hc hp hh hw
    have hgu : u.group? key = some (gr.ungang e f) := (hu.group key).trans (State.group_putGroup _ _ _)
    obtain ⟨hgrp, hpend, hact⟩ := u.park_spec hgu fr
    obtain ⟨hmem, hl2⟩ := State.sameMem_trans hu.sameMem (u.park_sameMem key fr)
    rw [show keyDie key = n from keyDie_groupKey hm hk] at hpend hact
    rw [hr]
    exact ⟨_, fr, hgrp, rfl, hfr, rfl, rfl, rfl, hpend, hact, hmem, hl2⟩
  · have hr := raise_frag_eq hg hf hend hc
    rw [hr, State.modGroup_eq_putGroup hg]
    by_cases hheld : (gr.parked.isSome || !gr.held.isEmpty) = true
    · rw [if_pos hheld]
      rfl
    · rw [if_neg hheld]
      rw [Bool.not_eq_true, Bool.or_eq_false_iff, Bool.not_eq_false', List.isEmpty_iff] at hheld
      obtain ⟨hp, hh⟩ := hheld
      obtain ⟨hcl, hca, hv, hhan, hb⟩ := (hw.resolve_left (by simp [hp])).resolve_left (by simp [hh])
      have hcause : c.cause ≠ 255 := fun h => hca (by rw [h]; rfl)
      rw [State.deliver_of_busy (k := groupKey n m k) (f := { c with entry := some e }) (State.group_putGroup _ _ (gr.ungang e f)) rfl
        (r := { f with gang := none })
        (by simp [Group.ungang]) (by simp [Group.ungang, hcl, hcause, hv, hhan]) hb,
        State.modGroup_eq_putGroup (State.group_putGroup _ _ _), State.putGroup_putGroup]
      simp only [Group.ungang, hh]
      rfl

end Sys2Proof.Machine
end

section
/-! PROOFS. What the end of a group, a team or a share leaves of the other groups and of memory (R39, R55, R56), and
EXIT and EXIT.S (R55, R57, R128, R129). -/

namespace Sys2Proof.Machine

/-! States that differ neither in their groups nor in memory. -/

/-- Two states have the same groups, the same DRAM and the same L2. -/
def State.sameRun (s t : State) : Prop := t.groups = s.groups ∧ s.sameMem t

theorem State.sameRun_refl (s : State) : s.sameRun s := ⟨rfl, s.sameMem_refl⟩

theorem State.sameRun_trans {s t u : State} (h : s.sameRun t) (h' : t.sameRun u) : s.sameRun u :=
  ⟨h'.1.trans h.1, State.sameMem_trans h.2 h'.2⟩

theorem State.sameRun.group {s t : State} (h : s.sameRun t) (k : Nat) : t.group? k = s.group? k := by
  rw [State.group?, h.1]; rfl

theorem State.mails.sameRun {s t : State} (h : s.mails t) : s.sameRun t := ⟨h.groups, h.sameMem⟩

theorem foldl_sameRun {α : Type} (f : State → α → State) (h : ∀ (s : State) x, s.sameRun (f s x)) (l : List α) (s : State) :
    s.sameRun (l.foldl f s) :=
  foldl_keeps (s.sameRun ·) f (fun _ x hs => State.sameRun_trans hs (h _ x)) l s s.sameRun_refl

theorem State.modCore_sameRun (s : State) (d c : Nat) (f : Core → Core) : s.sameRun (s.modCore d c f) := ⟨rfl, rfl, rfl⟩

theorem State.shareEnd_sameRun (s : State) (d i : Nat) : s.sameRun (s.shareEnd d i) := by
  unfold State.shareEnd
  split
  · exact s.sameRun_refl
  · dsimp only
    split
    · exact State.sameRun_trans (State.sameRun_refl s) (State.completionPut_mails _ _ _ _ _ _).sameRun
    · exact s.sameRun_refl

theorem State.settleShares_sameRun (d n : Nat) : ∀ s : State, s.sameRun (s.settleShares d n) := by
  induction n with
  | zero => exact State.sameRun_refl
  | succ n ih =>
    intro s
    unfold State.settleShares
    split
    · exact s.sameRun_refl
    · exact State.sameRun_trans (s.shareEnd_sameRun d _) (ih _)

theorem State.settle_sameRun (s : State) (d : Nat) : s.sameRun (s.settle d) := State.settleShares_sameRun d _ s

theorem State.rebuildCores_sameRun (s : State) (d : Nat) : s.sameRun (s.rebuildCores d) := by
  unfold State.rebuildCores
  split <;> exact s.sameRun_refl

theorem State.coresLeft_sameRun (s : State) (d : Nat) : s.sameRun (s.coresLeft d) := by
  unfold State.coresLeft
  refine State.sameRun_trans ?_ (State.rebuildCores_sameRun _ d)
  repeat' split
  all_goals exact ⟨rfl, rfl, rfl⟩

theorem State.clearGrist_sameRun (s : State) (d : Nat) (l : List Nat) : s.sameRun (s.clearGrist d l) :=
  foldl_sameRun _ (fun s _ => s.modCore_sameRun _ _ _) l s

/-- A team's end leaves the groups and memory. -/
theorem State.teamEnd_sameRun (s : State) (d n : Nat) : s.sameRun (s.teamEnd d n) := by
  unfold State.teamEnd
  split
  · exact s.sameRun_refl
  · rename_i t _
    dsimp only
    refine State.sameRun_trans ?_ (State.sameRun_trans (State.coresLeft_sameRun _ d) (State.settle_sameRun _ d))
    by_cases h : t.seq.isSome = true
    · rw [if_pos h]
      exact s.clearGrist_sameRun d t.cores
    · rw [if_neg h]
      exact s.sameRun_refl

/-! States with the same groups resident. -/

/-- Two states have groups of the same keys, the same DRAM and the same L2. -/
def State.sameKeys (s t : State) : Prop := (∀ j, (t.group? j).isSome = (s.group? j).isSome) ∧ s.sameMem t

theorem State.sameKeys_trans {s t u : State} (h : s.sameKeys t) (h' : t.sameKeys u) : s.sameKeys u :=
  ⟨fun j => (h'.1 j).trans (h.1 j), State.sameMem_trans h.2 h'.2⟩

theorem State.sameRun.sameKeys {s t : State} (h : s.sameRun t) : s.sameKeys t := ⟨fun j => by rw [h.group], h.2⟩

theorem State.modGroup_sameKeys (s : State) (k : Nat) (f : Group → Group) : s.sameKeys (s.modGroup k f) := by
  refine ⟨fun j => ?_, s.sameMem_refl⟩
  rw [State.group_modGroup]
  split
  · rename_i h; rw [Option.isSome_map, h]
  · rfl

theorem State.dropPrivate_sameRun (s : State) (k : Nat) : s.sameRun (s.dropPrivate k) := by
  unfold State.dropPrivate
  split
  · exact s.sameRun_refl
  · exact foldl_sameRun _ (fun s _ => s.modCore_sameRun _ _ _) _ s

/-- The cancels of a group's open reservations leave the groups and memory. -/
theorem State.cancelResv_of_group {s : State} {k : Nat} {g : Group} (hg : s.group? k = some g) :
    ∃ u, s.sameRun u ∧ s.cancelResv k = u.putGroup k { g with resv := [] } := by
  unfold State.cancelResv
  rw [hg]
  dsimp only
  have hu := foldl_sameRun (fun s r => (s.post (.group k g.uid (.frag (keyDie k) (keySlot k) (keyG k) 0)) (keyDie k) (s.ptagOf k) r.2.qid r.2.home
    r.2.gen (.cancel r.2.next r.2.rem) none).1) (fun s r => (State.post_mails s _ _ _ _ _ _ _ _).sameRun) g.resv s
  exact ⟨_, hu, State.modGroup_eq_putGroup ((hu.group k).trans hg) _⟩

theorem State.cancelResv_sameKeys (s : State) (k : Nat) : s.sameKeys (s.cancelResv k) := by
  cases hg : s.group? k with
  | none => rw [State.cancelResv, hg]; exact s.sameRun_refl.sameKeys
  | some g =>
    rw [State.cancelResv, hg]
    exact State.sameKeys_trans (foldl_sameRun _ (fun s r => (State.post_mails s _ _ _ _ _ _ _ _).sameRun) _ s).sameKeys
      (State.modGroup_sameKeys _ _ _)

theorem State.nameRelease_sameKeys (s : State) (k : Nat) : s.sameKeys (s.nameRelease k) := by
  unfold State.nameRelease
  split
  · exact s.sameRun_refl.sameKeys
  · split
    · exact s.modGroup_sameKeys k _
    · dsimp only
      split
      · exact State.modGroup_sameKeys _ k _
      · exact State.sameKeys_trans (State.modGroup_sameKeys _ k _) (State.faultPut_mails _ _ _ _ _).sameRun.sameKeys

/-- A group taken from its core's sets, from the groups and from what its team waits for (R55). -/
def State.groupOut (s : State) (k : Nat) (g : Group) : State :=
  let v := (s.dropWaits k).modCore (keyDie k) g.core fun c => c.leave g.part k
  State.modTeam { v with groups := adel v.groups k } (keyDie k) (keySlot k) fun t => { t with endedGroups := nsInsert t.endedGroups (keyG k) }

theorem State.groupOut_group (s : State) (k : Nat) (g : Group) (j : Nat) :
    (s.groupOut k g).group? j = if j = k then none else s.group? j := aget_adel s.groups k j

theorem State.groupOut_sameMem (s : State) (k : Nat) (g : Group) : s.sameMem (s.groupOut k g) := ⟨rfl, rfl⟩

/-- After that the team may end, and shares may. -/
theorem State.groupOut_groupGone {s : State} {k : Nat} {g : Group} (hg : s.group? k = some g) :
    ((((s.dropPrivate k).cancelResv k).nameRelease k).groupOut k g).sameRun (s.groupGone k) := by
  unfold State.groupGone
  rw [hg]
  dsimp only
  split
  · exact State.teamEnd_sameRun (State.groupOut _ k g) _ _
  · exact State.settle_sameRun (State.groupOut _ k g) _

/-- A group that has ended is there no more; the other groups and memory stay. -/
theorem State.groupGone_spec {s : State} {k : Nat} {g : Group} (hg : s.group? k = some g) :
    (s.groupGone k).group? k = none ∧ (∀ j, j ≠ k → ((s.groupGone k).group? j).isSome = (s.group? j).isSome) ∧
      s.sameMem (s.groupGone k) := by
  have hgone := State.groupOut_groupGone hg
  have hk := State.sameKeys_trans (State.sameKeys_trans (s.dropPrivate_sameRun k).sameKeys (State.cancelResv_sameKeys _ k))
    (State.nameRelease_sameKeys _ k)
  refine ⟨?_, fun j hj => ?_, State.sameMem_trans hk.2 (State.sameMem_trans (State.groupOut_sameMem _ k g) hgone.2)⟩
  · rw [hgone.group, State.groupOut_group, if_pos rfl]
  · rw [hgone.group, State.groupOut_group, if_neg hj, hk.1]

end Sys2Proof.Machine
end

section
/-! PROOFS. EXIT and EXIT.S (R55, R57, R128, R129), and the release of an ended group. -/

namespace Sys2Proof.Machine

/-! The sparse maps that EXIT.S keeps part of. -/

/-- A map kept at some keys alone. -/
theorem sget_filter_key {α : Type} (d : α) (p : Nat → Bool) (k : Nat) :
    ∀ l : List (Nat × α), sget d (l.filter fun e => p e.1) k = if p k then sget d l k else d
  | [] => by simp [sget]
  | (k', v) :: t => by
    have ih := sget_filter_key d p k t
    by_cases hp : p k' = true <;> by_cases hk : k = k'
    · simp [hp, sget, hk]
    · simp [hp, sget, hk, ih]
    · subst hk; simp [hp, ih]
    · simp [hp, sget, hk, ih]

/-- What the default and every entry of a map have, a reading of the map has. -/
theorem sget_of_forall {α : Type} {P : α → Prop} {d : α} (hd : P d) (k : Nat) :
    ∀ {l : List (Nat × α)}, (∀ e ∈ l, P e.2) → P (sget d l k)
  | [], _ => hd
  | (k', v) :: t, h => by
    unfold sget
    split
    · exact h (k', v) (by simp)
    · exact sget_of_forall hd k fun e he => h e (by simp [he])

/-- A register is kept where its window is named and the group has the register (R57). -/
theorem keeps_eq (rec_ : BitVec 1024) (k : BitVec 80) (r : Nat) :
    keeps rec_ k r = (k.getLsbD (windowOf r) && regExists rec_ r) := by
  have hv : recF rec_ 541 537 < 32 := Nat.mod_lt _ (by decide)
  unfold keeps
  congr 1
  unfold windowIn windowOf regExists recNv recNs
  by_cases hr : r < 256
  · have h1 : r / 8 < 32 := by omega
    have h2 : ¬256 ≤ r := by omega
    simp only [hr, h1, h2, if_true, decide_false, Bool.false_and, Bool.or_false, decide_eq_decide]
    omega
  · have h1 : ¬32 + (r - 256) / 8 < 32 := by omega
    have h2 : ¬r < 8 * (recF rec_ 541 537 + 1) := by omega
    have h3 : 256 ≤ r := by omega
    simp only [hr, h1, h2, h3, if_false, decide_false, decide_true, Bool.false_or, Bool.true_and, decide_eq_decide]
    omega

/-- The windows that a quad names are its low 80 bits (R129). -/
theorem keptWindows_eq (x : Vals) (l : Nat) :
    keptWindows x l = BitVec.ofNat 80 ((x 0 0 l).toNat + (x 0 1 l).toNat * 2 ^ 32 + (x 0 2 l).toNat * 2 ^ 64) := by
  apply BitVec.eq_of_toNat_eq
  unfold keptWindows
  simp only [BitVec.toNat_append, BitVec.toNat_ofNat, BitVec.extractLsb'_toNat, Nat.shiftRight_zero]
  have h0 := (x 0 0 l).isLt
  have h1 := (x 0 1 l).isLt
  rw [← Nat.shiftLeft_add_eq_or_of_lt h1, ← Nat.shiftLeft_add_eq_or_of_lt h0, Nat.shiftLeft_eq, Nat.shiftLeft_eq]
  omega

section
variable (g : Group) (rec_ : BitVec 1024) (k : BitVec 80) (e : Nat) (f : Fragment) (a : Addr)

/-- The registers after EXIT.S (R57). -/
theorem Group.restart_rd {l : Nat} (hl : l < 64) (r : Nat) :
    (g.restart rec_ k e f a).rd r l = if keeps rec_ k r then g.rd r l else 0#32 := by
  unfold Group.rd
  by_cases hr : r < 256
  · rw [if_pos hr, if_pos hr]
    show sget 0#32 (g.v.filter fun x => keeps rec_ k (x.1 / 64)) (r * 64 + l) = _
    rw [sget_filter_key 0#32 (fun i => keeps rec_ k (i / 64)), show (r * 64 + l) / 64 = r by omega]
  · rw [if_neg hr, if_neg hr]
    show sget 0#32 (g.s.filter fun x => keeps rec_ k (256 + x.1)) (r - 256) = _
    rw [sget_filter_key 0#32 (fun i => keeps rec_ k (256 + i)), show 256 + (r - 256) = r by omega]

/-- No register is empty after EXIT.S. -/
theorem Group.restart_tag (r : Nat) : ((g.restart rec_ k e f a).tag r).empty = false ∧ ((g.restart rec_ k e f a).tag r).arm = 0#64 := by
  refine sget_of_forall (P := fun t : RegTag => t.empty = false ∧ t.arm = 0#64) ⟨rfl, rfl⟩ r fun t ht => ?_
  obtain ⟨x, -, hx⟩ := List.mem_filterMap.mp ht
  split at hx
  · rw [← Option.some.inj hx]; exact ⟨rfl, rfl⟩
  · cases hx

end

/-! EXIT (R55, R128). -/

/-- A fragment without lanes and without a DEFERRED record ends. -/
theorem Group.emptied_of_no_arm {g : Group} (h : ∀ r ∈ g.defer, r.arm = none) (hdrAt : Addr → Option Code) (e : Nat) (f : Fragment)
    (n : Nat) : g.emptied hdrAt e f (n + 1) = { g with frags := adel g.frags e } := by
  simp only [Group.emptied, Group.newestArm_none h]

/-- EXIT of lanes of a group's one fragment, which owns no DEFERRED record. -/
theorem Group.exitLanes_alone {gr : Group} {e : Nat} {f : Fragment} (hfr : gr.frags = [(e, f)]) (hd : gr.defer = [])
    {w : Code} (hw : f.hdr = some w) (hdrAt : Addr → Option Code) (act : Mask) (now : Nat) (pair : Bool) :
    ((gr.exitLanes hdrAt e f act).fuseAll now pair Config.nFrags).checkEnd =
      if act = f.mask then { gr with retired := gr.retired ||| act, frags := [], ended := true }
      else { gr with retired := gr.retired ||| act, frags := [(e, { f.advance with mask := f.mask &&& ~~~act })] } := by
  by_cases ha : act = f.mask
  · have hex : gr.exitLanes hdrAt e f act = { gr with retired := gr.retired ||| act, frags := [] } := by
      rw [Group.exitLanes, if_pos ha, Group.emptied_of_no_arm (by simp [hd])]
      simp [hfr, adel]
    rw [hex, if_pos ha, Group.fuseAll_of_running (by simp)]
    simp [Group.checkEnd, hd]
  · have hex : gr.exitLanes hdrAt e f act =
        { gr with retired := gr.retired ||| act, frags := [(e, { f.advance with mask := f.mask &&& ~~~act })] } := by
      simp [Group.exitLanes, ha, hfr, aput]
    rw [hex, if_neg ha, Group.fuseAll_of_running (by simp [Fragment.advance_wait hw]), Group.checkEnd_of_frags (by simp)]

theorem exit_frag {s : State} {n m k e : Nat} {act : Mask} {gr : Group} {f : Fragment} {g : Guard}
    (h : s.ready (.frag n m k e) act { ctlSpec g [] with hlp := false, seq := true } = true)
    (hg : s.group? (groupKey n m k) = some gr) (hfr : gr.frags = [(e, f)]) (hd : gr.defer = []) :
    exec (.exit g) s = .next (s.putGroup (groupKey n m k)
      (if act = f.mask then { gr with retired := gr.retired ||| act, frags := [], ended := true }
       else { gr with retired := gr.retired ||| act, frags := [(e, { f.advance with mask := f.mask &&& ~~~act })] })) := by
  have hf : s.front? (.frag n m k e) = some f := by rw [State.front_frag hg, hfr]; simp [aget]
  obtain ⟨w, hw⟩ := hdr_of_ready h hf
  simp only [exec, execExit, issueWith_ready h, hf, State.settleGroup_modGroup, agKey]
  rw [State.modGroup_eq_putGroup hg, Group.exitLanes_alone hfr hd hw]

/-- EXIT in a sequencer halts (R343). -/
theorem exit_seq {s : State} {n m : Nat} {act : Mask} {g : Guard}
    (h : s.ready (.seq n m) act { ctlSpec g [] with hlp := false, seq := true } = true) :
    exec (.exit g) s = .next (s.modSeq n m fun q => { q with halted := true }) := by
  simp only [exec, execExit, issueWith_ready h]

/-! The release of an ended group (R55). -/

theorem exec_groupEnd_ended {s : State} {n m k : Nat} {gr : Group} (hg : s.group? (groupKey n m k) = some gr)
    (he : gr.ended = true) (hac : gr.ac = []) (hfl : s.flight = []) (hp : s.pends = []) :
    exec (.groupEnd n m k) s = .next (s.groupGone (groupKey n m k)) := by
  have h1 : s.inFlight (groupKey n m k) = false := by simp [State.inFlight, hg, hfl]
  have h2 : s.resvPending (groupKey n m k) = false := by simp [State.resvPending, hp]
  simp [exec, execGroupEnd, hg, he, hac, h1, h2]

theorem exec_groupEnd_live {s : State} {n m k : Nat} {gr : Group} (hg : s.group? (groupKey n m k) = some gr)
    (he : gr.ended = false) : exec (.groupEnd n m k) s = .next s := by
  simp [exec, execGroupEnd, hg, he]

/-! EXIT.S (R57, R129). -/

/-- The lanes' kept windows, none where no quad is named. -/
def keepArg (s : State) (ag : Agent) (act : Mask) (q : Src) (withQ : Bool) : BitVec 80 :=
  if withQ then BitVec.ofNat 80 ((s.src ag q 0 (lowLane act)).toNat + (s.src ag q 1 (lowLane act)).toNat * 2 ^ 32 +
    (s.src ag q 2 (lowLane act)).toNat * 2 ^ 64) else 0#80

section
variable {s : State} {n m k e : Nat} {act : Mask} {gr : Group} {f : Fragment} {tgt : BitVec 30} {q : Src} {withQ : Bool}

/-- EXIT.S of a group that is not whole, or whose fragment leaves out a live lane, raises ILLOP. -/
theorem exitS_illop
    (h : s.ready (.frag n m k e) act { ctlSpec ⟨0#4, false⟩ (if withQ then [(q, 4)] else []) with hlp := false } = true)
    (hg : s.group? (groupKey n m k) = some gr) (hf : aget gr.frags e = some f)
    (hbad : gr.frags.length ≠ 1 ∨ gr.defer ≠ [] ∨ f.mask ≠ fullMask (recW (s.recOf (groupKey n m k))) &&& ~~~gr.retired) :
    exec (.exitS tgt (if withQ then some q else none)) s = .next (s.raiseAt (.frag n m k e) 2 0 0#48 act) := by
  have hfr : s.front? (.frag n m k e) = some f := (State.front_frag hg).trans hf
  cases withQ <;>
  · simp only [exec, execExitS, Bool.false_eq_true, if_true, if_false] at h ⊢
    rw [issueWith_ready h]
    simp only [hfr, agKey, hg]
    refine congrArg _ (if_pos ?_)
    rw [Bool.or_eq_true, Bool.or_eq_true]
    obtain h1 | h1 | h1 := hbad
    · exact .inl (.inl (decide_eq_true h1))
    · exact .inl (.inr (by simpa using h1))
    · exact .inr (decide_eq_true h1)

/-- The windows that EXIT.S keeps are those its quad names in the lowest active lane. -/
theorem keptWindows_vals (s : State) (ag : Agent) (q : Src) (act : Mask) :
    keptWindows (s.vals ag [(q, 4)]) (lowLane act) = keepArg s ag act q true := by
  have hv : ∀ j l, s.vals ag [(q, 4)] 0 j l = s.src ag q j l := fun _ _ => rfl
  rw [keptWindows_eq, keepArg, if_pos rfl, hv, hv, hv]

/-- An access whose registers EXIT.S has taken back (R57). -/
def Access.forgotten (key uid : Nat) (y : Nat × Access) : Nat × Access :=
  if y.2.uid == uid && agKey y.2.ag == key then (y.1, { y.2 with ndst := 0, cnt := none }) else y

/-- The panel after EXIT.S of a group at a good successor (R57). -/
def State.restarted (s : State) (key uid : Nat) (keep : BitVec 80) (e : Nat) (f : Fragment) (a : Addr) : State :=
  let v := (s.dropPrivate key).cancelResv key
  State.modGroup { v with flight := v.flight.map (Access.forgotten key uid) } key fun g => g.restart (s.recOf key) keep e f a

theorem State.restarted_group {key uid : Nat} (hg : s.group? key = some gr) (keep : BitVec 80) (a : Addr) :
    (s.restarted key uid keep e f a).group? key = some (Group.restart { gr with resv := [] } (s.recOf key) keep e f a) := by
  obtain ⟨u, -, hcan⟩ := State.cancelResv_of_group (((s.dropPrivate_sameRun key).group _).trans hg)
  have hv : ((s.dropPrivate key).cancelResv key).group? key = some { gr with resv := [] } := by rw [hcan, State.group_putGroup]
  rw [State.restarted, State.group_modGroup, if_pos rfl]
  exact congrArg (Option.map _) hv

theorem State.restarted_sameMem (s : State) (key uid : Nat) (keep : BitVec 80) (e : Nat) (f : Fragment) (a : Addr) :
    s.sameMem (s.restarted key uid keep e f a) :=
  State.sameMem_trans (s.dropPrivate_sameRun key).2 (State.cancelResv_sameKeys _ key).2

/-- EXIT.S of a whole group: its reservations are cancelled and the group restarts at the successor. -/
theorem exitS_restarts
    (h : s.ready (.frag n m k e) act { ctlSpec ⟨0#4, false⟩ (if withQ then [(q, 4)] else []) with hlp := false } = true)
    (hg : s.group? (groupKey n m k) = some gr) (hfr : gr.frags = [(e, f)]) (hd : gr.defer = [])
    (hm : f.mask = fullMask (recW (s.recOf (groupKey n m k))) &&& ~~~gr.retired) (hac : gr.ac = [])
    (htags : ∀ r x, (r, x) ∈ gr.tags → x.empty = true → keeps (s.recOf (groupKey n m k)) (keepArg s (.frag n m k e) act q withQ) r = false)
    (hl : s.landingAt (keyDie (groupKey n m k)) (s.ptagOf (groupKey n m k)) (f.target tgt) = true)
    (hb : s.agFetchBusy (.frag n m k e) (f.target tgt) = false) :
    exec (.exitS tgt (if withQ then some q else none)) s =
      .next (s.restarted (groupKey n m k) gr.uid (keepArg s (.frag n m k e) act q withQ) e f (f.target tgt)) := by
  have hf : s.front? (.frag n m k e) = some f := by rw [State.front_frag hg, hfr]; simp [aget]
  have htag : (gr.tags.any fun t => t.2.empty && keeps (s.recOf (groupKey n m k)) (keepArg s (.frag n m k e) act q withQ) t.1) = false := by
    rw [List.any_eq_false]
    intro x hx
    cases he : x.2.empty
    · simp
    · simp [htags x.1 x.2 hx he]
  unfold State.landingAt at hl
  cases hw : s.fetchWord (keyDie (groupKey n m k)) (s.ptagOf (groupKey n m k)) (f.target tgt) with
  | inr x => simp [hw] at hl
  | inl w =>
    simp only [hw] at hl
    cases withQ <;>
    · simp only [exec, execExitS, Bool.false_eq_true, if_true, if_false] at h ⊢
      rw [issueWith_ready h]
      simp only [keepArg, Bool.false_eq_true, if_true, if_false] at htag ⊢
      simp only [hf, agKey, hg, hw, hb, hl, hac, keptWindows_vals, keepArg, Option.isSome_none, Option.isSome_some, Bool.false_eq_true, if_true,
        if_false, htag, ne_eq, not_true_eq_false, decide_false, Bool.or_self, Bool.not_true]
      refine congrArg _ ((if_neg ?_).trans rfl)
      intro hbad
      rw [Bool.or_eq_true, Bool.or_eq_true] at hbad
      obtain (h1 | h1) | h1 := hbad
      · exact of_decide_eq_true h1 (by rw [hfr]; rfl)
      · simp [hd] at h1
      · exact of_decide_eq_true h1 hm

end

/-- Settles O17: with one fragment and no DEFERRED record EXIT is one change of the group; EXIT.S restarts the group whose
reservations were cancelled. -/
theorem exitRetiresOrRestarts : Obligations.ExitRetiresOrRestarts := by
  unfold Obligations.ExitRetiresOrRestarts
  refine ⟨⟨fun s n m k e act gr f g => ⟨fun h hg _ hfr hd => ⟨_, exit_frag h hg hfr hd, rfl, rfl⟩, fun h => exit_seq h⟩,
    fun s n m k gr => ?_⟩, fun s n m k e act gr f tgt q withQ => ?_⟩
  · intro key _ _ _ hg
    refine ⟨fun he hac hfl hp => ?_, fun he => exec_groupEnd_live hg he⟩
    obtain ⟨hnone, hsome, hmem, hl2⟩ := State.groupGone_spec hg
    exact ⟨_, exec_groupEnd_ended hg he hac hfl hp, hnone, hsome, hmem, hl2⟩
  · intro ag rec_ keep target kept h hg hf
    have hkeep : ∀ r, kept r = keeps rec_ (keepArg s ag act q withQ) r := fun r => (keeps_eq _ _ r).symm
    have htarget : target = f.target tgt := (Fragment.target_eq f tgt).symm
    refine ⟨fun hbad => exitS_illop h hg hf hbad, fun hfr hd hm hac htags hl hb => ?_⟩
    have hex := exitS_restarts (tgt := tgt) h hg hfr hd hm hac (fun r x hx he => (hkeep r) ▸ htags r x hx he) (htarget ▸ hl) (htarget ▸ hb)
    obtain ⟨hmem, hl2⟩ := s.restarted_sameMem (groupKey n m k) gr.uid (keepArg s ag act q withQ) e f (f.target tgt)
    refine ⟨_, _, _, hex, State.restarted_group hg _ _, rfl, ?_, fun r l _ hl => ?_, fun r => Group.restart_tag _ _ _ _ _ _ r, rfl, rfl,
      hmem, hl2⟩
    · rw [htarget]; rfl
    · rw [Group.restart_rd _ _ _ _ _ _ hl, hkeep]; rfl

end Sys2Proof.Machine
end

section
/-! PROOFS. The exchanges between the active and the pending set of a partition (R48, R49, R130). -/

namespace Sys2Proof.Machine

theorem State.frags_modGroup (s : State) (k j : Nat) {f : Group → Group} (hf : ∀ g, (f g).frags = g.frags) :
    ((s.modGroup k f).group? j).map (·.frags) = (s.group? j).map (·.frags) := by
  rw [State.group_modGroup]
  split
  · rename_i h
    rw [h, Option.map_map]
    exact congrArg (fun F => (s.group? k).map F) (funext hf)
  · rfl

/-! What an exchange leaves (R48). -/

section
variable (s : State) (d c p a b : Nat)

theorem State.exchange_active : partSet ((s.exchange d c p a b).core d c).active p =
    (partSet (s.core d c).active p).filter (· != a) ++ [b] := by
  simp [State.exchange, State.modGroup, State.core, State.modCore, partSet, agetD]

theorem State.exchange_pending : partSet ((s.exchange d c p a b).core d c).pending p =
    (partSet (s.core d c).pending p).filter (· != b) ++ [a] := by
  simp [State.exchange, State.modGroup, State.core, State.modCore, partSet, agetD]

theorem State.exchange_sameMem : s.sameMem (s.exchange d c p a b) := ⟨rfl, rfl⟩

/-- Its groups keep their split tables. -/
theorem State.exchange_frags (k : Nat) :
    ((s.exchange d c p a b).group? k).map (·.frags) = (s.group? k).map (·.frags) := by
  unfold State.exchange
  dsimp only
  rw [State.frags_modGroup, State.frags_modGroup, State.group_modCore] <;> exact fun _ => rfl

theorem State.exchange_front (n m k e : Nat) : (s.exchange d c p a b).front? (.frag n m k e) = s.front? (.frag n m k e) := by
  have h := s.exchange_frags d c p a b (groupKey n m k)
  have hf : ∀ u : State, u.front? (.frag n m k e) = ((u.group? (groupKey n m k)).map (·.frags)).bind fun l => aget l e := by
    intro u; rw [Option.bind_map]; rfl
  rw [hf, hf, h]

end

/-- The oldest ready group is the first ready one of the pending set. -/
theorem State.oldestReady_eq_some {s : State} {d c p b : Nat} {l r : List Nat} (hp : partSet (s.core d c).pending p = l ++ b :: r)
    (hl : ∀ x ∈ l, s.groupReady x = false) (hb : s.groupReady b = true) : s.oldestReady d c p = some b := by
  rw [State.oldestReady, List.find?_eq_some_iff_append]
  exact ⟨hb, l, r, hp, fun x hx => by simp [hl x hx]⟩

theorem State.oldestReady_eq_none {s : State} {d c p : Nat} (h : ∀ b ∈ partSet (s.core d c).pending p, s.groupReady b = false) :
    s.oldestReady d c p = none := by
  rw [State.oldestReady, List.find?_eq_none]
  exact fun x hx => by simp [h x hx]

/-! YIELD (R130). -/

section
variable {s : State} {n m k e : Nat} {act : Mask} {gr : Group} {g : Guard}

/-- A fragment's step does not change whether another group is ready. -/
theorem State.groupReady_advance {b : Nat} (hb : b ≠ groupKey n m k) :
    (s.advance (.frag n m k e)).groupReady b = s.groupReady b := by
  have hg : (s.advance (.frag n m k e)).group? b = s.group? b := by
    simp [State.advance, State.modFront, State.modFrag, agKey, State.group_modGroup, hb]
  have ht : (s.advance (.frag n m k e)).teamOf? b = s.teamOf? b := rfl
  rw [State.groupReady, State.groupReady, hg, ht]

theorem State.group_advance_frag (hg : s.group? (groupKey n m k) = some gr) :
    (s.advance (.frag n m k e)).group? (groupKey n m k) = some { gr with frags := amod gr.frags e Fragment.advance } := by
  simp [State.advance, State.modFront, State.modFrag, agKey, State.group_modGroup, hg]

theorem State.front_advance_frag (hg : s.group? (groupKey n m k) = some gr) :
    (s.advance (.frag n m k e)).front? (.frag n m k e) = (s.front? (.frag n m k e)).map Fragment.advance := by
  rw [State.front_frag (State.group_advance_frag hg), State.front_frag hg]
  exact (aget_amod _ _ _ _).trans (if_pos rfl)

/-- YIELD goes on, and its group is exchanged with the oldest ready group of the pending set. -/
theorem exec_yield_ready (h : s.ready (.frag n m k e) act { cls := 4, guard := g } = true) (hg : s.group? (groupKey n m k) = some gr)
    (hm : m < 2048) (hk : k < 16) :
    exec (.yield g) s = .next (match (s.advance (.frag n m k e)).oldestReady n gr.core gr.part with
      | some b => (s.advance (.frag n m k e)).exchange n gr.core gr.part (groupKey n m k) b
      | none => s.advance (.frag n m k e)) := by
  simp only [exec, execYield, issueWith_ready h, agKey, State.group_advance_frag hg, keyDie_groupKey hm hk] <;> rfl

/-- YIELD with no other ready group pending. -/
theorem yield_alone (h : s.ready (.frag n m k e) act { cls := 4, guard := g } = true) (hg : s.group? (groupKey n m k) = some gr)
    (hm : m < 2048) (hk : k < 16)
    (hp : ∀ b ∈ partSet (s.core n gr.core).pending gr.part, b ≠ groupKey n m k ∧ s.groupReady b = false) :
    exec (.yield g) s = .next (s.advance (.frag n m k e)) := by
  have hnone : (s.advance (.frag n m k e)).oldestReady n gr.core gr.part = none :=
    State.oldestReady_eq_none fun b hb => (State.groupReady_advance (hp b hb).1).trans (hp b hb).2
  rw [exec_yield_ready h hg hm hk, hnone]

/-- YIELD with a ready group pending. -/
theorem yield_exchange (h : s.ready (.frag n m k e) act { cls := 4, guard := g } = true) (hg : s.group? (groupKey n m k) = some gr)
    (hm : m < 2048) (hk : k < 16) {l r : List Nat} {b : Nat} (hp : partSet (s.core n gr.core).pending gr.part = l ++ b :: r)
    (hl : ∀ x ∈ l, x ≠ groupKey n m k ∧ s.groupReady x = false) (hne : b ≠ groupKey n m k) (hb : s.groupReady b = true) :
    exec (.yield g) s = .next ((s.advance (.frag n m k e)).exchange n gr.core gr.part (groupKey n m k) b) := by
  have hsome : (s.advance (.frag n m k e)).oldestReady n gr.core gr.part = some b :=
    State.oldestReady_eq_some hp (fun x hx => (State.groupReady_advance (hl x hx).1).trans (hl x hx).2)
      ((State.groupReady_advance hne).trans hb)
  rw [exec_yield_ready h hg hm hk, hsome]

end

/-! The partition's own exchanges (R48, R49). -/

section
variable {s : State} {n m k : Nat} {gr : Group}

theorem State.isActive_of_mem (hg : s.group? (groupKey n m k) = some gr) (hm : m < 2048) (hk : k < 16)
    (h : groupKey n m k ∈ partSet (s.core n gr.core).active gr.part) : s.isActive (groupKey n m k) = true := by
  simp [State.isActive, hg, keyDie_groupKey hm hk, h]

/-- A fragment that waits for a get, at a barrier, for an armed register or for a barrier slot is on a long stall (R48). -/
theorem State.longStall_of_waits {f : Fragment}
    (h : (∃ id x, f.wait = .get id ∧ aget s.answers id = none ∧ aget s.msgs id = some x ∧ x.accepted = true) ∨
      (∃ a v, f.wait = .bar a v) ∨ f.stall = .barrier ∨ ∃ r, f.stall = .armed r) (key : Nat) : s.longStall key gr f = true := by
  unfold State.longStall
  rcases h with ⟨id, x, hw, ha, hx, hacc⟩ | ⟨a, v, hw⟩ | hs | ⟨r, hs⟩
  · simp [hw, State.getSleeps, ha, hx, hacc]
  · simp [hw]
  · simp [hs]
  · simp [hs]

theorem groupExchange_of_longStall (hg : s.group? (groupKey n m k) = some gr) (hact : s.isActive (groupKey n m k) = true)
    (hrdy : s.groupReady (groupKey n m k) = false) {e : Nat} {f : Fragment} (hf : (e, f) ∈ gr.frags)
    (hst : s.longStall (groupKey n m k) gr f = true) {b : Nat} (hb : s.oldestReady n gr.core gr.part = some b) :
    exec (.groupExchange n m k) s = .next (s.exchange n gr.core gr.part (groupKey n m k) b) := by
  have hany : (gr.frags.any fun x => s.longStall (groupKey n m k) gr x.2) = true := List.any_eq_true.mpr ⟨(e, f), hf, hst⟩
  simp only [exec, execGroupExchange, hg, hact, hrdy, hany, hb, Bool.not_false, Bool.and_self, if_true]

theorem pendingExchange_of_old (hg : s.group? (groupKey n m k) = some gr)
    (hp : groupKey n m k ∈ partSet (s.core n gr.core).pending gr.part) (hrdy : s.groupReady (groupKey n m k) = true) {since : Nat}
    (hs : gr.readySince = some since) (hclk : since + 512 ≤ s.clock) {a : Nat} {r : List Nat}
    (ha : partSet (s.core n gr.core).active gr.part = a :: r) (hr : 7 ≤ r.length) :
    exec (.pendingExchange n m k) s = .next (s.exchange n gr.core gr.part a (groupKey n m k)) := by
  have hlen : ¬r.length < 7 := by omega
  have hold : since + Config.pendingClocks ≤ s.clock := hclk
  have hin : (partSet (s.core n gr.core).pending gr.part).contains (groupKey n m k) = true := by simpa using hp
  simp only [exec, execPendingExchange, hg, hin, hrdy, hs, hold, ha, hlen, decide_true, Bool.and_self, if_true, if_false]

end

/-- Settles O19: every case is one exchange, whose sets are read off it. -/
theorem partitionExchanges : Obligations.PartitionExchanges := by
  unfold Obligations.PartitionExchanges
  refine ⟨fun s n m k e act gr g => ?_, fun s n m k gr => ?_⟩
  · intro ag key h hg _ hm hk
    refine ⟨fun hp => yield_alone h hg hm hk hp, fun l b r hp hl hne hb => ?_⟩
    have hmem := State.sameMem_trans (s.advance_sameMem ag) (State.exchange_sameMem (s.advance ag) n gr.core gr.part key b)
    have hcore : (s.advance ag).core n gr.core = s.core n gr.core := rfl
    refine ⟨_, yield_exchange h hg hm hk hp hl hne hb, ?_, ?_,
      (State.exchange_front _ _ _ _ _ _ _ _ _ _).trans (State.front_advance_frag hg), hmem.1, hmem.2⟩
    · rw [State.exchange_active, hcore]; rfl
    · rw [State.exchange_pending, hcore]; rfl
  · intro key act pend _ hm hk hg
    refine ⟨fun l b r e f hact hf hrdy hst hp hl hb => ?_, fun a r since hp hrdy hs hclk ha hr => ?_⟩
    · exact ⟨_, groupExchange_of_longStall hg (State.isActive_of_mem hg hm hk hact) hrdy hf (State.longStall_of_waits hst _)
        (State.oldestReady_eq_some hp hl hb), State.exchange_active _ _ _ _ _ _, State.exchange_pending _ _ _ _ _ _, rfl, rfl⟩
    · exact ⟨_, pendingExchange_of_old hg hp hrdy hs hclk ha hr, State.exchange_active _ _ _ _ _ _, State.exchange_pending _ _ _ _ _ _,
        rfl, rfl⟩

end Sys2Proof.Machine
end

section
/-! PROOFS. The checks of an instruction's lanes where every lane passes (R166, R193), and SPAWN and LTRIG (R37, R132, R134). -/

namespace Sys2Proof.Machine

/-! Checks that pass. -/

/-- The places of lanes that all pass. -/
theorem decideLanes_of_ok (s : State) {α : Type} (cs : List α) (lane a p c : α → Nat) {chk : α → Chk}
    (h : ∀ x ∈ cs, chk x = .ok (p x) (c x)) :
    decideLanes s (cs.map fun x => (lane x, a x, chk x)) = .ok s (cs.map fun x => (lane x, a x, p x, c x)) := by
  have hmap : (cs.map fun x => (lane x, a x, chk x)) = cs.map fun x => (lane x, a x, Chk.ok (p x) (c x)) :=
    List.map_congr_left fun x hx => by rw [h x hx]
  rw [hmap]
  simp [decideLanes, List.filterMap_map]

/-- The same of global checks, after which no failed walk of the pages is kept. -/
theorem State.decideAll_of_ok (s : State) (d : Nat) (ptag : BitVec 12) {α : Type} (cs : List α) (lane a v p c : α → Nat) {chk : α → Chk}
    (h : ∀ x ∈ cs, chk x = .ok (p x) (c x)) :
    s.decideAll d ptag (cs.map fun x => (lane x, a x, v x, chk x)) =
      .ok (s.dropFails d (cs.map fun x => pageKey ptag (v x))) (cs.map fun x => (lane x, a x, p x, c x)) := by
  have hmiss : ((cs.map fun x => (lane x, a x, v x, chk x)).filter fun x => x.2.2.2 == .miss) = [] := by
    rw [List.filter_eq_nil_iff]
    intro y hy
    obtain ⟨x, hx, rfl⟩ := List.mem_map.mp hy
    simp [h x hx]
  unfold State.decideAll
  dsimp only
  rw [hmiss, List.map_map, List.map_map]
  exact decideLanes_of_ok _ cs lane a p c h

/-! SPAWN (R37, R132). -/

/-- A record read where no sector is in error. -/
theorem State.readRecord_clean {s : State} (hp : s.poison = []) (hu : s.ue = []) (d p : Nat) :
    s.readRecord d p = (s, some (BitVec.ofNat 1024 (s.stackRead d p 128))) := by
  have hm : ∀ off, s.meetHome d off = .clean := fun off => by simp [State.meetHome, hp, hu]
  have hmet : ∀ off, s.metHome d off = s := fun off => by simp [State.metHome, hm]
  simp [State.readRecord, hm, hmet]

/-- A fold that changes nothing but a list it appends to. -/
theorem foldl_collect {α β γ δ : Type} {F : β × List γ × δ → α → β × List γ × δ} {b : β} {d : δ} {h : α → γ}
    (hF : ∀ kids x, F (b, kids, d) x = (b, kids ++ [h x], d)) :
    ∀ (l : List α) (kids : List γ), l.foldl F (b, kids, d) = (b, kids ++ l.map h, d)
  | [], _ => by simp
  | x :: t, kids => by simp [hF, foldl_collect hF t]

/-- The children of a SPAWN whose records are free of error, in the order of its lanes. -/
theorem State.spawnAll_clean {s : State} (hp : s.poison = []) (hu : s.ue = []) (d : Nat) (l : List (Nat × Nat × Nat × Nat)) :
    s.spawnAll d l = (s, l.map fun x => childElem (BitVec.ofNat 1024 (s.stackRead d x.2.2.1 128)) 0#12 x.2.1, []) :=
  foldl_collect (fun kids x => by simp only [State.readRecord_clean hp hu]) l []

/-- Failed walks that are forgotten leave what else a die holds. -/
theorem State.die_dropFails (s : State) (d : Nat) (keys : List Nat) (d' : Nat) :
    ∃ l, (s.dropFails d keys).die d' = { s.die d' with walkFails := l } := by
  rw [State.dropFails, State.die_modDie]
  split
  · rename_i h; rw [h]; exact ⟨_, rfl⟩
  · exact ⟨_, rfl⟩

theorem State.dropFails_launchQ (s : State) (d : Nat) (keys : List Nat) (d' : Nat) :
    ((s.dropFails d keys).die d').launchQ = (s.die d').launchQ := by
  obtain ⟨l, h⟩ := s.die_dropFails d keys d'
  rw [h]

theorem State.dropFails_stackBusy (s : State) (d : Nat) (keys : List Nat) (d' off : Nat) :
    (s.dropFails d keys).stackBusy d' off = s.stackBusy d' off := by
  obtain ⟨l, h⟩ := s.die_dropFails d keys d'
  simp only [State.stackBusy, State.sramBusy, h]

section
variable {s : State} {n m k e : Nat} {act : Mask} {gr : Group} {f : Fragment} {a : Src} {g : Guard} {p c : Nat → Nat}

/-- The record's address that a lane names. -/
def recordAt (s : State) (ag : Agent) (a : Src) (l : Nat) : Addr := (s.src ag a 1 l ++ s.src ag a 0 l).setWidth 48

/-- The child of a lane. -/
def childOf (s : State) (ag : Agent) (a : Src) (n : Nat) (p : Nat → Nat) (ptag : BitVec 12) (l : Nat) : LaunchElem :=
  { recd := BitVec.ofNat 1024 (s.stackRead n (p l) 128), map := 0#256, origin := 1, entryDie := 0, privBit := false,
    ptag := ptag, recAddr := recordAt s ag a l, dirty := false }

/-- SPAWN whose records may be read enqueues them. -/
theorem exec_spawn_ready (h : s.ready (.frag n m k e) act { cls := 4, guard := g, srcs := [(a, 2)], hlp := false } = true)
    (hg : s.group? (groupKey n m k) = some gr) (hf : aget gr.frags e = some f) (hm : m < 2048) (hk : k < 16)
    (he : s.earlier (.frag n m k e) f = []) (hroom : (s.die n).launchQ.length + (lanesOf act).length ≤ 8192)
    (hp : s.poison = []) (hu : s.ue = [])
    (hchk : ∀ l ∈ lanesOf act, s.chkIssue n gr.core (s.ptagOf (groupKey n m k)) (recordAt s (.frag n m k e) a l).toNat 128 .read =
      .ok (p l) (c l) ∧ c l ≠ 0 ∧ s.stackBusy n (p l) = false) :
    exec (.spawn a g) s = .next (((s.dropFails n ((lanesOf act).map fun l => pageKey (s.ptagOf (groupKey n m k))
        (recordAt s (.frag n m k e) a l).toNat)).modDie n fun y =>
      { y with launchQ := y.launchQ ++ (lanesOf act).map (childOf s (.frag n m k e) a n p (s.ptagOf (groupKey n m k))) }).advance
        (.frag n m k e)) := by
  have hfr : s.front? (.frag n m k e) = some f := (State.front_frag hg).trans hf
  have hcore : s.agCore (.frag n m k e) = gr.core := by simp [State.agCore, agKey, hg]
  have hspawn : ∀ l ∈ lanesOf act, s.chkSpawn n gr.core (s.ptagOf (groupKey n m k)) (recordAt s (.frag n m k e) a l).toNat =
      .ok (p l) (c l) := by
    intro l hl
    obtain ⟨hok, hc, -⟩ := hchk l hl
    simp [State.chkSpawn, hok, hc]
  have hdec := s.decideAll_of_ok n (s.ptagOf (groupKey n m k)) (lanesOf act) id (fun l => (recordAt s (.frag n m k e) a l).toNat)
    (fun l => (recordAt s (.frag n m k e) a l).toNat) p c hspawn
  simp only [exec, execSpawn, issueWith_ready h, hfr, agKey, keyDie_groupKey hm hk, hcore]
  refine congrArg _ ((congrArg (fun c => State.afterCheck _ 0 0 act c _) hdec).trans ?_)
  simp only [State.afterCheck]
  rw [if_neg ?_, State.spawnAll_clean (s := s.dropFails n _) hp hu]
  · have hread : ∀ keys q, (s.dropFails n keys).stackRead n q 128 = s.stackRead n q 128 := fun _ _ => rfl
    simp only [List.map_map, Function.comp_def, hread, childElem, BitVec.ofNat_toNat, BitVec.setWidth_eq]
    rfl
  · have hbusy : ((lanesOf act).any fun l => s.stackBusy n (p l)) = false := by
      rw [List.any_eq_false]
      exact fun l hl => by simp [(hchk l hl).2.2]
    have hearly : ∀ keys, (s.dropFails n keys).earlier (.frag n m k e) f = [] := fun _ => he
    have hlen : ¬8192 - (s.die n).launchQ.length < (lanesOf act).length := by omega
    simp [hearly, launchRoom, State.dropFails_launchQ, hlen, State.dropFails_stackBusy, Function.comp_def, hbusy]


/-! LTRIG (R134). -/

theorem exec_ltrig_waits (h : s.ready (.frag n m k e) act { cls := 4, guard := g, hlp := false } = true)
    (hf : s.front? (.frag n m k e) = some f) (he : s.earlier (.frag n m k e) f ≠ []) :
    exec (.ltrig g) s = .next (s.stallAt (.frag n m k e) .issue) := by
  simp [exec, execLtrig, issueWith_ready h, hf, he]

theorem exec_ltrig_ready (h : s.ready (.frag n m k e) act { cls := 4, guard := g, hlp := false } = true)
    (hf : s.front? (.frag n m k e) = some f) (hg : s.group? (groupKey n m k) = some gr) (he : s.earlier (.frag n m k e) f = []) :
    exec (.ltrig g) s = .next (((s.putGroup (groupKey n m k) { gr with ltrig := true }).settle (keyDie (groupKey n m k))).advance
      (.frag n m k e)) := by
  simp only [exec, execLtrig, issueWith_ready h, hf, he, agKey, State.modGroup_eq_putGroup hg]
  rfl

end

/-- Shares of a die without any. -/
theorem State.settle_of_no_shares {s : State} {d : Nat} (h : (s.die d).shares = []) : s.settle d = s := by
  simp [State.settle, h, State.settleShares]

theorem State.advance_frag_eq {s : State} {n m k e : Nat} {gr : Group} {f : Fragment} (hg : s.group? (groupKey n m k) = some gr)
    (hf : aget gr.frags e = some f) :
    s.advance (.frag n m k e) = s.putGroup (groupKey n m k) { gr with frags := aput gr.frags e f.advance } := by
  rw [State.advance, State.modFront_frag hg hf, State.modGroup_eq_putGroup hg]

/-- LTRIG with no earlier access marks its group; where the die has no shares that is all it does. -/
theorem ltrig_marks {s : State} {n m k e : Nat} {act : Mask} {gr : Group} {f : Fragment} {g : Guard}
    (h : s.ready (.frag n m k e) act { cls := 4, guard := g, hlp := false } = true)
    (hg : s.group? (groupKey n m k) = some gr) (hf : aget gr.frags e = some f) (he : s.earlier (.frag n m k e) f = []) :
    ∃ t, exec (.ltrig g) s = .next t ∧
      t.group? (groupKey n m k) = some { gr with ltrig := true, frags := aput gr.frags e f.advance } ∧ s.sameMem t ∧
      (gr.ltrig = true → (s.die (keyDie (groupKey n m k))).shares = [] → t = s.advance (.frag n m k e)) := by
  have hrun := (s.putGroup (groupKey n m k) { gr with ltrig := true }).settle_sameRun (keyDie (groupKey n m k))
  have hadv := State.advance_frag_eq (e := e) (f := f) ((hrun.group _).trans (State.group_putGroup _ _ _)) hf
  refine ⟨_, exec_ltrig_ready h ((State.front_frag hg).trans hf) hg he, ?_, hrun.2, fun ht hsh => ?_⟩
  · rw [hadv, State.group_putGroup]
  · have hgr : { gr with ltrig := true } = gr := by rw [← ht]
    have hsh' : ((s.putGroup (groupKey n m k) { gr with ltrig := true }).die (keyDie (groupKey n m k))).shares = [] := hsh
    rw [hadv, State.settle_of_no_shares hsh', State.putGroup_putGroup, State.advance_frag_eq hg hf, ← ht]

/-- Settles O23: where the records are free of error, SPAWN's lanes meet none; the settling of shares keeps groups and memory. -/
theorem spawnAndTrigger : Obligations.SpawnAndTrigger := by
  unfold Obligations.SpawnAndTrigger
  refine ⟨fun s n m k e act gr f a g p c => ?_, fun s n m k e act gr f g => ?_⟩
  · intro ag key there h hg hf _ hm hk he hroom hp hu hchk
    refine ⟨_, exec_spawn_ready h hg hf hm hk he hroom hp hu hchk, ?_, State.front_advance_frag hg, rfl, rfl, rfl, rfl⟩
    have hdie : ∀ u : State, (u.advance (.frag n m k e)).die n = u.die n := fun _ => rfl
    rw [hdie, State.die_modDie, if_pos rfl]
    exact congrArg (· ++ (lanesOf act).map (childOf s ag a n p (s.ptagOf key))) (State.dropFails_launchQ _ _ _ _)
  · intro ag key h hg hf
    refine ⟨fun he => exec_ltrig_waits h ((State.front_frag hg).trans hf) he, fun he => ?_⟩
    obtain ⟨t, ht, hgt, ⟨hmem, hl2⟩, hsame⟩ := ltrig_marks h hg hf he
    exact ⟨t, _, ht, hgt, rfl, hmem, hl2, hsame⟩

end Sys2Proof.Machine
end

section
/-! PROOFS. What moves of an agent's own part of the panel leave: where the agent stands, its registers and memory; and the issue of
an access (R65, R179, R181, R192, R205). -/

namespace Sys2Proof.Machine

/-! The agent's fragment state and registers under its own moves. -/

theorem State.front_modFront (s : State) (ag : Agent) (f : Fragment → Fragment) :
    (s.modFront ag f).front? ag = (s.front? ag).map f := by
  cases ag with
  | frag n m k e =>
    simp only [State.front?, State.modFront, State.modFrag, State.group_modGroup, if_true]
    cases s.group? (agKey (.frag n m k e)) <;> simp [aget_amod]
  | helper n m k h =>
    simp only [State.front?, State.helper?, State.modFront, State.modHelper, State.modRecruit, State.group_modGroup, if_true]
    cases s.group? (agKey (.helper n m k h)) with
    | none => rfl
    | some g =>
      cases hr : g.recruit with
      | none => simp [hr]
      | some r =>
        cases hx : aget r.helpers h with
        | none => simp [hr, aget_amod, hx]
        | some x => by_cases hl : x.life = .running <;> simp [hr, aget_amod, hx, hl]
  | seq d n =>
    simp only [State.front?, State.modFront, State.modSeq, State.team_modTeam, if_true]
    cases s.team? d n <;> simp [Function.comp_def]

theorem State.front_modTag (s : State) (ag : Agent) (r : Nat) (f : RegTag → RegTag) :
    (s.modTag ag r f).front? ag = s.front? ag := by
  cases ag with
  | frag n m k e =>
    simp only [State.front?, State.modTag, State.group_modGroup, if_true]
    cases s.group? (agKey (.frag n m k e)) <;> rfl
  | helper n m k h =>
    simp only [State.front?, State.helper?, State.modTag, State.modHelper, State.modRecruit, State.group_modGroup, if_true]
    cases s.group? (agKey (.helper n m k h)) with
    | none => rfl
    | some g =>
      cases hr : g.recruit with
      | none => simp [hr]
      | some x => cases hx : aget x.helpers h <;> simp [hr, aget_amod, hx]
  | seq d n =>
    simp only [State.front?, State.modTag, State.modSeq, State.team_modTeam, if_true]
    cases s.team? d n <;> simp [Function.comp_def]

/-- A register of a group as its instruction's last gang reads it (R27). -/
theorem State.rdReg_frag (s : State) (n m k e : Nat) {r l : Nat} (hr : r < 640) (hl : r < 256 ∨ 32 ≤ l) :
    s.rdReg (.frag n m k e) r l = ((s.group? (groupKey n m k)).map fun g => g.rd r l).getD 0#32 := by
  have hgang : ∀ g : Group, g.rdGang (s.lowGang (.frag n m k e) l) r l = g.rd r l := fun g => by
    unfold Group.rdGang
    rcases hl with h | h
    · simp only [h, if_true]; split <;> rfl
    · rw [State.lowGang, if_neg (by omega)]
  simp only [State.rdReg, if_neg (by omega : ¬640 ≤ r), hgang, agKey]

theorem State.rdReg_modFront (s : State) (ag : Agent) (f : Fragment → Fragment) {r l : Nat} (hr : r < 640) (hl : r < 256 ∨ 32 ≤ l) :
    (s.modFront ag f).rdReg ag r l = s.rdReg ag r l := by
  have hr' : ¬640 ≤ r := by omega
  cases ag with
  | frag n m k e =>
    rw [State.rdReg_frag _ n m k e hr hl, State.rdReg_frag _ n m k e hr hl]
    simp only [State.modFront, State.modFrag, agKey, State.group_modGroup, if_true, Option.map_map]
    rfl
  | helper n m k h =>
    simp only [State.rdReg, hr', if_false, State.modFront, State.modHelper, State.modRecruit, State.group_modGroup, if_true]
    cases s.group? (agKey (.helper n m k h)) with
    | none => rfl
    | some g =>
      cases hx : g.recruit with
      | none => simp [hx]
      | some x => cases hy : aget x.helpers h <;> simp [hx, aget_amod, hy] <;> rfl
  | seq d n =>
    simp only [State.rdReg, hr', if_false, State.modFront, State.modSeq, State.team_modTeam, if_true]
    cases s.team? d n <;> simp [Function.comp_def]

theorem State.rdReg_modTag (s : State) (ag : Agent) (q : Nat) (f : RegTag → RegTag) {r l : Nat} (hr : r < 640) (hl : r < 256 ∨ 32 ≤ l) :
    (s.modTag ag q f).rdReg ag r l = s.rdReg ag r l := by
  have hr' : ¬640 ≤ r := by omega
  cases ag with
  | frag n m k e =>
    rw [State.rdReg_frag _ n m k e hr hl, State.rdReg_frag _ n m k e hr hl]
    simp only [State.modTag, agKey, State.group_modGroup, if_true, Option.map_map]
    rfl
  | helper n m k h =>
    simp only [State.rdReg, hr', if_false, State.modTag, State.modHelper, State.modRecruit, State.group_modGroup, if_true]
    cases s.group? (agKey (.helper n m k h)) with
    | none => rfl
    | some g =>
      cases hx : g.recruit with
      | none => simp [hx]
      | some x => cases hy : aget x.helpers h <;> simp [hx, aget_amod, hy] <;> rfl
  | seq d n =>
    simp only [State.rdReg, hr', if_false, State.modTag, State.modSeq, State.team_modTeam, if_true]
    cases s.team? d n <;> simp [Function.comp_def]

/-! Values that stay (`State.keepsValues`). -/

theorem State.keepsValues_refl (s : State) (ag : Agent) : s.keepsValues s ag := ⟨fun _ _ _ _ => rfl, rfl, rfl, fun _ _ => rfl⟩

theorem State.keepsValues_trans {s t u : State} {ag : Agent} (h : s.keepsValues t ag) (h' : t.keepsValues u ag) : s.keepsValues u ag :=
  ⟨fun r l hr hl => (h'.1 r l hr hl).trans (h.1 r l hr hl), h'.2.1.trans h.2.1, h'.2.2.1.trans h.2.2.1,
    fun d n => (h'.2.2.2 d n).trans (h.2.2.2 d n)⟩

/-- What changes no field of a team's local memory. -/
theorem State.localMem_modTeam (s : State) (d n : Nat) {f : Team → Team} (hf : ∀ t, (f t).localMem = t.localMem) (d' n' : Nat) :
    ((s.modTeam d n f).team? d' n').map (·.localMem) = (s.team? d' n').map (·.localMem) := by
  rw [State.team_modTeam]
  split
  · rename_i h
    rw [State.team?, State.team?, h, Option.map_map]
    exact congrArg (fun F => (aget s.teams (teamKey d n)).map F) (funext hf)
  · rfl

theorem State.modFront_keepsValues (s : State) (ag : Agent) (f : Fragment → Fragment) : s.keepsValues (s.modFront ag f) ag := by
  refine ⟨fun r l hr hl => s.rdReg_modFront ag f hr hl, (s.modFront_sameMem ag f).1, (s.modFront_sameMem ag f).2, fun d n => ?_⟩
  cases ag with
  | frag _ _ _ _ => rfl
  | helper _ _ _ _ => rfl
  | seq d' n' => refine s.localMem_modTeam d' n' ?_ d n; exact fun _ => rfl

theorem State.modTag_keepsValues (s : State) (ag : Agent) (q : Nat) (f : RegTag → RegTag) : s.keepsValues (s.modTag ag q f) ag := by
  refine ⟨fun r l hr hl => s.rdReg_modTag ag q f hr hl, (s.modTag_sameMem ag q f).1, (s.modTag_sameMem ag q f).2, fun d n => ?_⟩
  cases ag with
  | frag _ _ _ _ => rfl
  | helper _ _ _ _ => rfl
  | seq d' n' => refine s.localMem_modTeam d' n' ?_ d n; exact fun _ => rfl

/-! Where an agent stands. -/

/-- What of a fragment's state an instruction that issues leaves to the place it goes on from. -/
def Fragment.stand (f : Fragment) : Addr × Nat × Option Code × Mask × Option Addr × Wait :=
  (f.clause, f.idx, f.hdr, f.mask, f.join, f.wait)

/-- The place an instruction goes on at depends on where it stands. -/
theorem Fragment.stand_advance {f x : Fragment} (h : x.stand = f.stand) : x.advance.stand = f.advance.stand := by
  simp only [Fragment.stand, Prod.mk.injEq] at h
  obtain ⟨hc, hi, hh, hm, hj, hw⟩ := h
  unfold Fragment.advance
  rw [hh, hi, hc]
  cases hf : f.hdr with
  | none => simp [Fragment.stand, *]
  | some w => by_cases hlt : f.idx < bits w 56 53 <;> simp [Fragment.stand, *]

/-- Two states in which an agent stands at one place, holds the same registers and finds the same memory. -/
def State.stays (s t : State) (ag : Agent) : Prop :=
  (t.front? ag).map Fragment.stand = (s.front? ag).map Fragment.stand ∧ s.keepsValues t ag

theorem State.stays_refl (s : State) (ag : Agent) : s.stays s ag := ⟨rfl, s.keepsValues_refl ag⟩

theorem State.stays_trans {s t u : State} {ag : Agent} (h : s.stays t ag) (h' : t.stays u ag) : s.stays u ag :=
  ⟨h'.1.trans h.1, State.keepsValues_trans h.2 h'.2⟩

theorem State.modFront_stays (s : State) (ag : Agent) {f : Fragment → Fragment} (hf : ∀ x, (f x).stand = x.stand) :
    s.stays (s.modFront ag f) ag := by
  refine ⟨?_, s.modFront_keepsValues ag f⟩
  rw [State.front_modFront, Option.map_map]
  exact congrArg (fun F => (s.front? ag).map F) (funext hf)

theorem State.modTag_stays (s : State) (ag : Agent) (r : Nat) (f : RegTag → RegTag) : s.stays (s.modTag ag r f) ag :=
  ⟨by rw [State.front_modTag], s.modTag_keepsValues ag r f⟩

theorem State.setEmpty_stays (ag : Agent) (b : Bool) (n : Nat) : ∀ (s : State) (r : Nat), s.stays (s.setEmpty ag r b n) ag := by
  induction n with
  | zero => exact fun s _ => s.stays_refl ag
  | succ n ih => exact fun s r => State.stays_trans (s.modTag_stays ag r _) (ih _ _)

/-- What leaves the groups, the teams and memory. -/
theorem State.stays_of_rest {s t : State} (hg : t.groups = s.groups) (ht : t.teams = s.teams) (hm : s.sameMem t) (ag : Agent) :
    s.stays t ag := by
  have hgr : ∀ k, t.group? k = s.group? k := fun k => by rw [State.group?, hg]; rfl
  have htm : ∀ d n, t.team? d n = s.team? d n := fun d n => by rw [State.team?, ht]; rfl
  have hfr : t.front? ag = s.front? ag := by cases ag <;> simp only [State.front?, State.helper?, hgr, htm]
  refine ⟨by rw [hfr], fun r l hr hl => ?_, hm.1, hm.2, fun d n => by rw [htm]⟩
  have hr' : ¬640 ≤ r := by omega
  cases ag with
  | frag n m k e => rw [State.rdReg_frag _ n m k e hr hl, State.rdReg_frag _ n m k e hr hl, hgr]
  | helper _ _ _ _ => simp only [State.rdReg, hr', if_false, hgr]
  | seq _ _ => simp only [State.rdReg, hr', if_false, htm]

theorem State.modCore_stays (s : State) (d c : Nat) (f : Core → Core) (ag : Agent) : s.stays (s.modCore d c f) ag :=
  State.stays_of_rest (s := s) (t := s.modCore d c f) rfl rfl ⟨rfl, rfl⟩ ag

/-- An agent goes on: what was done before leaves it where it stands, and what follows too. -/
theorem State.wentOn_of_stays {s u t : State} {ag : Agent} (h : s.stays u ag) (h' : (u.advance ag).stays t ag) :
    s.wentOn t ag ∧ s.keepsValues t ag := by
  refine ⟨?_, State.keepsValues_trans (State.keepsValues_trans h.2 (u.modFront_keepsValues ag _)) h'.2⟩
  have hu := h.1
  have ht := h'.1
  rw [State.advance, State.front_modFront, Option.map_map] at ht
  show (t.front? ag).map Fragment.stand = ((s.front? ag).map Fragment.advance).map Fragment.stand
  rw [ht, Option.map_map]
  cases hs : s.front? ag with
  | none => rw [hs] at hu; simp only [Option.map_none, Option.map_eq_none_iff] at hu; simp [hu]
  | some f =>
    rw [hs] at hu
    obtain ⟨x, hx, hxf⟩ := Option.map_eq_some_iff.mp hu
    rw [hx]
    exact congrArg some (Fragment.stand_advance hxf)

/-! The issue of an access. -/

theorem State.markDsts_stays (s : State) {x : Access} (b : Bool) : s.stays (s.markDsts x b) x.ag := by
  unfold State.markDsts
  split
  · exact State.setEmpty_stays _ _ _ _ _
  · exact State.stays_trans (State.setEmpty_stays _ _ _ _ _) (State.setEmpty_stays _ _ _ _ _)

theorem State.acquireAct_stays (s : State) (x : Access) (ag : Agent) : s.stays (s.acquireAct x) ag := by
  unfold State.acquireAct
  split <;> dsimp only
  · split
    · exact s.modCore_stays _ _ _ ag
    · exact s.stays_refl ag
  · split
    · exact s.modCore_stays _ _ _ ag
    · exact s.stays_refl ag
  · exact s.stays_refl ag

end Sys2Proof.Machine
end

section
/-! PROOFS. The issue of an access: it is in flight, its destinations are EMPTY and its agent goes on (R65, R179, R192, R205). -/

namespace Sys2Proof.Machine

/-! Parts of the panel that an agent's own moves leave. -/

theorem State.modFront_flight (s : State) (ag : Agent) (f : Fragment → Fragment) : (s.modFront ag f).flight = s.flight := by
  cases ag <;> rfl

theorem State.modFront_fresh (s : State) (ag : Agent) (f : Fragment → Fragment) : (s.modFront ag f).fresh = s.fresh := by
  cases ag <;> rfl

theorem State.modTag_flight (s : State) (ag : Agent) (r : Nat) (f : RegTag → RegTag) :
    (s.modTag ag r f).flight = s.flight ∧ (s.modTag ag r f).fresh = s.fresh := by
  cases ag <;> exact ⟨rfl, rfl⟩

theorem State.setEmpty_flight (ag : Agent) (b : Bool) (n : Nat) :
    ∀ (s : State) (r : Nat), (s.setEmpty ag r b n).flight = s.flight ∧ (s.setEmpty ag r b n).fresh = s.fresh := by
  induction n with
  | zero => exact fun _ _ => ⟨rfl, rfl⟩
  | succ n ih =>
    intro s r
    exact ⟨(ih _ _).1.trans (s.modTag_flight ag r _).1, (ih _ _).2.trans (s.modTag_flight ag r _).2⟩

theorem State.markDsts_flight (s : State) (x : Access) (b : Bool) :
    (s.markDsts x b).flight = s.flight ∧ (s.markDsts x b).fresh = s.fresh := by
  unfold State.markDsts
  split
  · exact State.setEmpty_flight _ _ _ _ _
  · obtain ⟨h1, h2⟩ := State.setEmpty_flight x.ag b x.ndst s x.dst
    obtain ⟨h3, h4⟩ := State.setEmpty_flight x.ag b 1 (s.setEmpty x.ag x.dst b x.ndst) ‹_›
    exact ⟨h3.trans h1, h4.trans h2⟩

theorem State.acquireAct_flight (s : State) (x : Access) :
    (s.acquireAct x).flight = s.flight ∧ (s.acquireAct x).fresh = s.fresh := by
  unfold State.acquireAct State.l1Inval
  split <;> dsimp only <;> (try split) <;> exact ⟨rfl, rfl⟩

/-! The scoreboard of an agent (R65). -/

theorem mem_nsInsert (l : List Nat) (k x : Nat) : x ∈ nsInsert l k ↔ x = k ∨ x ∈ l := by
  induction l with
  | nil => simp [nsInsert]
  | cons y t ih =>
    unfold nsInsert
    split
    · simp
    · split
      · rename_i h; subst h; simp
      · simp only [List.mem_cons, ih]; tauto

/-- The agent is there, and the register is one of its own. -/
def State.ownsReg (s : State) (ag : Agent) (r : Nat) : Prop :=
  match ag with
  | .frag _ _ _ _ => (s.group? (agKey ag)).isSome = true
  | .helper _ _ _ h => (s.helper? (agKey ag) h).isSome = true ∧ r < 32
  | .seq d n => ((s.team? d n).bind (·.seq)).isSome = true

/-- A helper stands in its group's recruitment. -/
theorem State.exists_helper {s : State} {k h : Nat} (hh : (s.helper? k h).isSome = true) :
    ∃ g, s.group? k = some g ∧ ∃ r, g.recruit = some r ∧ ∃ x, aget r.helpers h = some x := by
  obtain ⟨x, hx⟩ := Option.isSome_iff_exists.mp hh
  obtain ⟨g, hg, hx⟩ := Option.bind_eq_some_iff.mp hx
  obtain ⟨r, hr, hx⟩ := Option.bind_eq_some_iff.mp hx
  exact ⟨g, hg, r, hr, x, hx⟩

/-- A sequencer belongs to its team. -/
theorem State.exists_seq {s : State} {d n : Nat} (hs : ((s.team? d n).bind (·.seq)).isSome = true) :
    ∃ t, s.team? d n = some t ∧ ∃ q, t.seq = some q := by
  obtain ⟨q, hq⟩ := Option.isSome_iff_exists.mp hs
  obtain ⟨t, ht, hq⟩ := Option.bind_eq_some_iff.mp hq
  exact ⟨t, ht, q, hq⟩

/-- Which of an agent's registers are EMPTY after one is marked. -/
theorem State.rdTag_modTag_empty {s : State} {ag : Agent} {r r' : Nat} (h : s.ownsReg ag r') :
    ((s.modTag ag r fun t => { t with empty := true }).rdTag ag r').empty = if r' = r then true else (s.rdTag ag r').empty := by
  cases ag with
  | frag n m k e =>
    obtain ⟨g, hg⟩ := Option.isSome_iff_exists.mp h
    simp only [State.rdTag, State.modTag, State.group_modGroup, if_true, hg, Option.map_some, Option.getD_some, Group.tag_modTag]
    split <;> simp [*]
  | helper n m k q =>
    obtain ⟨hx, hr⟩ := h
    obtain ⟨g, hg, rc, hrc, x, hq⟩ := State.exists_helper hx
    simp only [State.rdTag, State.modTag, State.modHelper, State.modRecruit, State.group_modGroup, if_true, hg, hrc, Option.map_some,
      Option.getD_some, aget_amod, hq, hr, sget_sset]
    split <;> simp [*]
  | seq d n =>
    obtain ⟨t, ht, q, hq⟩ := State.exists_seq h
    simp only [State.rdTag, State.modTag, State.modSeq, State.team_modTeam, if_true, ht, hq, Option.map_some, Option.bind_some,
      Option.getD_some, Seq.tag]
    by_cases hr : r' = r <;> simp [hr, mem_nsInsert]

theorem State.ownsReg_modTag {s : State} {ag : Agent} {r' : Nat} (h : s.ownsReg ag r') (r : Nat) (f : RegTag → RegTag) :
    (s.modTag ag r f).ownsReg ag r' := by
  cases ag with
  | frag n m k e => simpa [State.ownsReg, State.modTag, State.group_modGroup] using h
  | helper n m k q =>
    refine ⟨?_, h.2⟩
    obtain ⟨g, hg, rc, hrc, x, hq⟩ := State.exists_helper h.1
    simp [State.helper?, State.modTag, State.modHelper, State.modRecruit, State.group_modGroup, hg, hrc, aget_amod, hq]
  | seq d n =>
    obtain ⟨t, ht, q, hq⟩ := State.exists_seq h
    simp [State.ownsReg, State.modTag, State.modSeq, State.team_modTeam, ht, hq]

theorem State.ownsReg_modFront {s : State} {ag : Agent} {r : Nat} (h : s.ownsReg ag r) (f : Fragment → Fragment) :
    (s.modFront ag f).ownsReg ag r := by
  cases ag with
  | frag n m k e => simpa [State.ownsReg, State.modFront, State.modFrag, State.group_modGroup] using h
  | helper n m k q =>
    refine ⟨?_, h.2⟩
    obtain ⟨g, hg, rc, hrc, x, hq⟩ := State.exists_helper h.1
    simp [State.helper?, State.modFront, State.modHelper, State.modRecruit, State.group_modGroup, hg, hrc, aget_amod, hq]
  | seq d n =>
    obtain ⟨t, ht, q, hq⟩ := State.exists_seq h
    simp [State.ownsReg, State.modFront, State.modSeq, State.team_modTeam, ht, hq]

theorem State.ownsReg_launchAccess {s : State} {ag : Agent} {r : Nat} (h : s.ownsReg ag r) (x : Access) :
    (s.launchAccess ag x).ownsReg ag r :=
  State.ownsReg_modFront (s := { s with flight := aput s.flight s.fresh x, fresh := s.fresh + 1 }) (by cases ag <;> exact h) _

/-- Registers in a row marked EMPTY. -/
theorem State.rdTag_setEmpty {ag : Agent} (n : Nat) : ∀ {s : State} {r r' : Nat}, s.ownsReg ag r' →
    ((s.setEmpty ag r true n).rdTag ag r').empty = if r ≤ r' ∧ r' < r + n then true else (s.rdTag ag r').empty := by
  induction n with
  | zero => intro s r r' _; rw [if_neg (by omega)]; rfl
  | succ n ih =>
    intro s r r' h
    rw [State.setEmpty, ih (State.ownsReg_modTag h r _), State.rdTag_modTag_empty h]
    by_cases h1 : r + 1 ≤ r' ∧ r' < r + 1 + n
    · rw [if_pos h1, if_pos (by omega)]
    · rw [if_neg h1]
      by_cases h2 : r' = r
      · rw [if_pos h2, if_pos (by omega)]
      · rw [if_neg h2, if_neg (by omega)]

theorem State.rdTag_modFront (s : State) (ag : Agent) (f : Fragment → Fragment) (r : Nat) : (s.modFront ag f).rdTag ag r = s.rdTag ag r := by
  cases ag with
  | frag n m k e =>
    simp only [State.rdTag, State.modFront, State.modFrag, State.group_modGroup, if_true, Option.map_map]
    rfl
  | helper n m k h =>
    simp only [State.rdTag, State.modFront, State.modHelper, State.modRecruit, State.group_modGroup, if_true]
    cases s.group? (agKey (.helper n m k h)) with
    | none => rfl
    | some g =>
      cases hx : g.recruit with
      | none => simp [hx]
      | some x => cases hy : aget x.helpers h <;> simp [hx, aget_amod, hy] <;> rfl
  | seq d n =>
    simp only [State.rdTag, State.modFront, State.modSeq, State.team_modTeam, if_true]
    cases s.team? d n with
    | none => rfl
    | some t => simp only [Option.map_some, Option.bind_some, Option.map_map]; rfl

/-! An access issued. -/

/-- An access with what its ordering asks (R181). -/
def Access.ordered (x : Access) (o : Sys2Proof.Ordering) : Access :=
  { x with
    after := Ordering.rel o && x.kind.writes && !x.kind.isCas
    acq := Ordering.acq o && x.kind.reads
    rel := Ordering.rel o && x.kind.writes }

theorem State.ownsReg.acquired {s : State} {ag : Agent} {r : Nat} (h : s.ownsReg ag r) (o : Sys2Proof.Ordering) (x : Access) :
    (if o = .sc then s.acquireAct (x.ordered o) else s).ownsReg ag r := by
  split
  · unfold State.acquireAct
    split <;> dsimp only <;> (try split) <;> exact h
  · exact h

/-- The panel when the access is in flight and its destinations are EMPTY, its agent still at the instruction. -/
def State.launched (s : State) (ag : Agent) (x : Access) (o : Sys2Proof.Ordering) : State :=
  ((if o = .sc then s.acquireAct (x.ordered o) else s).launchAccess ag (x.ordered o)).markDsts (x.ordered o) true

theorem State.issueAccess_eq (s : State) (ag : Agent) (x : Access) (o : Sys2Proof.Ordering) :
    ∃ f : Fragment → Fragment, (∀ y, (f y).stand = y.stand) ∧
      (s.issueAccess ag x o = ((s.launched ag x o).advance ag).modFront ag f ∨ s.issueAccess ag x o = (s.launched ag x o).advance ag) := by
  by_cases h : (decide (o = .sc) && x.kind.writes) = true
  · unfold State.issueAccess
    dsimp only
    rw [if_pos h]
    refine ⟨_, ?_, .inl rfl⟩
    exact fun _ => rfl
  · refine ⟨id, fun _ => rfl, .inr ?_⟩
    unfold State.issueAccess
    dsimp only
    rw [if_neg h]
    rfl

theorem State.launchAccess_stays (s : State) (ag : Agent) (x : Access) : s.stays (s.launchAccess ag x) ag :=
  State.stays_trans
    (State.stays_of_rest (s := s) (t := { s with flight := aput s.flight s.fresh x, fresh := s.fresh + 1 }) rfl rfl ⟨rfl, rfl⟩ ag)
    (State.modFront_stays _ ag fun _ => rfl)

section
variable {s : State} {ag : Agent} {x : Access} (hx : x.ag = ag) (o : Sys2Proof.Ordering)
include hx

theorem State.launched_stays : s.stays (s.launched ag x o) ag := by
  have hm := State.markDsts_stays ((if o = .sc then s.acquireAct (x.ordered o) else s).launchAccess ag (x.ordered o)) (x := x.ordered o) true
  rw [show (x.ordered o).ag = ag from hx] at hm
  refine State.stays_trans (State.stays_trans ?_ (State.launchAccess_stays _ ag (x.ordered o))) hm
  split
  · exact s.acquireAct_stays _ ag
  · exact s.stays_refl ag

omit hx in
theorem State.launched_flight :
    (s.launched ag x o).flight = aput s.flight s.fresh (x.ordered o) ∧ (s.launched ag x o).fresh = s.fresh + 1 := by
  obtain ⟨h1, h2⟩ := State.markDsts_flight ((if o = .sc then s.acquireAct (x.ordered o) else s).launchAccess ag (x.ordered o)) (x.ordered o) true
  rw [State.launched, h1, h2, State.launchAccess, State.modFront_flight, State.modFront_fresh]
  dsimp only
  split
  · obtain ⟨h3, h4⟩ := s.acquireAct_flight (x.ordered o)
    rw [h3, h4]
    exact ⟨rfl, rfl⟩
  · exact ⟨rfl, rfl⟩

/-- An access issued: it is in flight with what its ordering asks, and its agent goes on. -/
theorem State.issueAccess_spec :
    (s.issueAccess ag x o).flight = aput s.flight s.fresh (x.ordered o) ∧ (s.issueAccess ag x o).fresh = s.fresh + 1 ∧
      s.wentOn (s.issueAccess ag x o) ag ∧ s.keepsValues (s.issueAccess ag x o) ag := by
  obtain ⟨hfl, hfr⟩ := State.launched_flight (s := s) (ag := ag) (x := x) o
  obtain ⟨f, hf, h | h⟩ := s.issueAccess_eq ag x o
  · rw [h, State.modFront_flight, State.modFront_fresh, State.advance, State.modFront_flight, State.modFront_fresh]
    exact ⟨hfl, hfr, State.wentOn_of_stays (State.launched_stays hx o) (State.modFront_stays _ ag hf)⟩
  · rw [h]
    have hgo := State.wentOn_of_stays (State.launched_stays (s := s) hx o) (State.stays_refl _ ag)
    rw [State.advance, State.modFront_flight, State.modFront_fresh] at *
    exact ⟨hfl, hfr, hgo⟩

/-- Its destinations are EMPTY. -/
theorem State.issueAccess_empty {r : Nat} (hc : x.cnt = none) (hown : s.ownsReg ag r) (hr : x.dst ≤ r) (hr' : r < x.dst + x.ndst) :
    ((s.issueAccess ag x o).rdTag ag r).empty = true := by
  have hl : ((s.launched ag x o).rdTag ag r).empty = true := by
    rw [State.launched, State.markDsts, show (x.ordered o).cnt = none from hc, show (x.ordered o).ag = ag from hx]
    exact (State.rdTag_setEmpty x.ndst (State.ownsReg_launchAccess (hown.acquired o x) (x.ordered o))).trans (if_pos ⟨hr, hr'⟩)
  obtain ⟨f, -, h | h⟩ := s.issueAccess_eq ag x o
  · rw [h, State.rdTag_modFront, State.advance, State.rdTag_modFront, hl]
  · rw [h, State.advance, State.rdTag_modFront, hl]

end

end Sys2Proof.Machine
end

section
/-! PROOFS. Accesses to local memory and to the private area issue (R38, R167, R195 to R197, R340). -/

namespace Sys2Proof.Machine

/-! A memory instruction whose fences allow it (R205). -/

theorem State.withMem_ready {s : State} {ag : Agent} {f : Fragment} {sc : Bool} (hf : s.front? ag = some f) (h : s.notHeldBack ag f sc)
    (k : State → Fragment → State) : s.withMem ag sc k = k (s.fenceDue ag f) f := by
  obtain ⟨hh, hsc⟩ := h
  simp only [State.withMem, hf, hh, Bool.false_or]
  rw [if_neg]
  simpa using hsc

theorem State.fenceDue_stays (s : State) (ag : Agent) (f : Fragment) : s.stays (s.fenceDue ag f) ag := by
  unfold State.fenceDue
  split
  · exact State.stays_trans (s.modCore_stays _ _ _ ag) (State.modFront_stays _ ag fun _ => rfl)
  · exact s.stays_refl ag

theorem State.fenceDue_flight (s : State) (ag : Agent) (f : Fragment) :
    (s.fenceDue ag f).flight = s.flight ∧ (s.fenceDue ag f).fresh = s.fresh := by
  unfold State.fenceDue
  split
  · rw [State.modFront_flight, State.modFront_fresh]; exact ⟨rfl, rfl⟩
  · exact ⟨rfl, rfl⟩

theorem State.ownsReg.fenceDue {s : State} {ag : Agent} {r : Nat} (h : s.ownsReg ag r) (f : Fragment) :
    (s.fenceDue ag f).ownsReg ag r := by
  unfold State.fenceDue
  split
  · exact State.ownsReg_modFront (by cases ag <;> exact h) _
  · exact h

/-- An agent's own moves leave its team's launch record. -/
theorem State.recOf_modFront (s : State) (ag : Agent) (f : Fragment → Fragment) (k : Nat) : (s.modFront ag f).recOf k = s.recOf k := by
  cases ag with
  | frag _ _ _ _ => rfl
  | helper _ _ _ _ => rfl
  | seq d n =>
    simp only [State.recOf, State.teamOf?, State.modFront, State.modSeq, State.team_modTeam]
    split
    · rename_i h
      rw [Option.map_map, State.team?, State.team?, h]
      rfl
    · rfl

theorem State.recOf_fenceDue (s : State) (ag : Agent) (f : Fragment) (k : Nat) : (s.fenceDue ag f).recOf k = s.recOf k := by
  unfold State.fenceDue
  split
  · rw [State.recOf_modFront]; rfl
  · rfl

/-- An agent that stands somewhere owns the registers that its instruction writes. -/
theorem State.ownsReg_of_ready {s : State} {ag : Agent} {act : Mask} {sp : Spec} {f : Fragment} {d : RegNo} {n j : Nat}
    (h : s.ready ag act sp = true) (hf : s.front? ag = some f) (hd : (d, n) ∈ sp.dsts) (hj : j < n) : s.ownsReg ag (d.toNat + j) := by
  have hok : s.dstOk ag (d, n) = true := by
    simp only [State.ready, hf, Bool.and_eq_true, List.all_eq_true] at h
    obtain ⟨-, ⟨⟨⟨⟨⟨⟨⟨⟨⟨⟨⟨⟨⟨⟨⟨-, -⟩, -⟩, h4⟩, -⟩, -⟩, -⟩, -⟩, -⟩, -⟩, -⟩, -⟩, -⟩, -⟩, -⟩, -⟩⟩ := h
    exact h4 (d, n) hd
  cases ag with
  | frag _ _ _ _ =>
    obtain ⟨g, hg, -⟩ := Option.bind_eq_some_iff.mp hf
    exact Option.isSome_iff_exists.mpr ⟨g, hg⟩
  | helper _ _ _ q =>
    obtain ⟨x, hx, -⟩ := Option.bind_eq_some_iff.mp hf
    refine ⟨Option.isSome_iff_exists.mpr ⟨x, hx⟩, ?_⟩
    simp only [State.dstOk, Bool.and_eq_true, decide_eq_true_eq] at hok
    omega
  | seq _ _ =>
    obtain ⟨t, ht, hq⟩ := Option.bind_eq_some_iff.mp hf
    obtain ⟨q, hq, -⟩ := Option.map_eq_some_iff.mp hq
    exact Option.isSome_iff_exists.mpr ⟨q, Option.bind_eq_some_iff.mpr ⟨t, ht, hq⟩⟩

/-- What leaves an agent where it stands may come before it goes on. -/
theorem State.wentOn.after_stays {s u t : State} {ag : Agent} (h : s.stays u ag) (h' : u.wentOn t ag ∧ u.keepsValues t ag) :
    s.wentOn t ag ∧ s.keepsValues t ag := by
  refine ⟨?_, State.keepsValues_trans h.2 h'.2⟩
  have hu := h.1
  refine h'.1.trans ?_
  show ((u.front? ag).map Fragment.advance).map Fragment.stand = ((s.front? ag).map Fragment.advance).map Fragment.stand
  cases hs : s.front? ag with
  | none => rw [hs] at hu; simp only [Option.map_none, Option.map_eq_none_iff] at hu; rw [hu]
  | some f =>
    rw [hs] at hu
    obtain ⟨x, hx, hxf⟩ := Option.map_eq_some_iff.mp hu
    rw [hx]
    exact congrArg some (Fragment.stand_advance hxf)

/-! Local accesses (R167, R195, R196, R340). -/

/-- The checks of local addresses that lie in the team's memory, aligned. -/
theorem checkLocal_of_ok (s : State) {limit width : Nat} (need : Need) {l : List (Nat × Nat)}
    (h : ∀ x ∈ l, x.2 % width = 0 ∧ x.2 + width ≤ limit) :
    checkLocal s limit l width need = .ok s (l.map fun x => (x.1, x.2, x.2, 0)) := by
  refine decideLanes_of_ok s l Prod.fst Prod.snd Prod.snd (fun _ => 0) fun x hx => ?_
  obtain ⟨ha, hl⟩ := h x hx
  rw [chkLocal, if_neg (by simpa using ha), if_neg (by omega)]

/-- The access of one piece per lane to local memory (R196). -/
def State.localAccess (s : State) (ag : Agent) (f : Fragment) (kind : AccKind) (ea : List (Nat × Nat)) (len dst ndst : Nat) (act : Mask)
    (data : Nat → Nat) : Access :=
  { s.newAccess ag f kind .loc with
    pieces := ea.map fun x => { lane := x.1, va := x.2, addr := x.2, len := len, cls := 0, reg := 0, data := data x.1 }
    dst := dst, ndst := ndst, act := act }

theorem State.oneEach_local {s : State} {ag : Agent} {f : Fragment} {ea : List (Nat × Nat)} {len : Nat}
    (h : ∀ x ∈ ea, x.2 % len = 0 ∧ x.2 + len ≤ s.localLimit ag) (kind : AccKind) (need : Need) (dst ndst : Nat) (act : Mask)
    (o : Sys2Proof.Ordering) (data : Nat → Nat) :
    s.oneEach ag f kind .loc ea len need dst ndst act false o data (fun _ => 0) false =
      s.issueAccess ag (s.localAccess ag f kind ea len dst ndst act data) o := by
  simp only [State.oneEach, checkLocal_of_ok s need h, State.afterCheck, Bool.false_and, Bool.false_eq_true, if_false, List.map_map]
  rfl

/-- The lowest word and the others. -/
theorem wordsVal_succ (n : Nat) (x : Nat → Word) : wordsVal x (n + 1) = (x 0).toNat + 2 ^ 32 * wordsVal (fun j => x (j + 1)) n := by
  have h0 : (x 0).toNat * 2 ^ (32 * 0) = (x 0).toNat := by simp
  have hj : ∀ j, (x (j + 1)).toNat * 2 ^ (32 * (j + 1)) = 2 ^ 32 * ((x (j + 1)).toNat * 2 ^ (32 * j)) := fun j => by
    rw [Nat.mul_succ, pow_add]; ring
  rw [wordsVal, List.range_succ_eq_map, List.map_cons, List.sum_cons, List.map_map, h0, wordsVal, ← List.sum_map_mul_left]
  simp only [Function.comp_def, Nat.succ_eq_add_one, hj]

/-- The number that words hold, word by word. -/
theorem wordsVal_eq (n : Nat) : ∀ x : Nat → Word, wordsVal x n = wordsNumber ((List.range n).map x) := by
  induction n with
  | zero => exact fun _ => rfl
  | succ n ih =>
    intro x
    rw [wordsVal_succ, ih, List.range_succ_eq_map, List.map_cons, List.map_map, wordsNumber]
    simp only [Function.comp_def, Nat.succ_eq_add_one]

/-- The words of that number. -/
theorem wordsVal_word (n : Nat) : ∀ (x : Nat → Word) (i : Nat), i < n → wordsVal x n / 2 ^ (32 * i) % 2 ^ 32 = (x i).toNat := by
  induction n with
  | zero => intro x i hi; omega
  | succ n ih =>
    intro x i hi
    have hx := (x 0).isLt
    rw [wordsVal_succ]
    cases i with
    | zero => rw [Nat.mul_zero, pow_zero, Nat.div_one, Nat.add_mul_mod_self_left, Nat.mod_eq_of_lt hx]
    | succ i =>
      rw [Nat.mul_succ, Nat.add_comm (32 * i), pow_add, ← Nat.div_div_eq_div_mul, Nat.add_mul_div_left _ _ (by decide),
        Nat.div_eq_of_lt hx, Nat.zero_add, ih (fun j => x (j + 1)) i (by omega)]

/-- The local address of a lane. -/
def localAt (s : State) (ag : Agent) (a : Src) (off : BitVec 20) (l : Nat) : Nat := (s.src ag a 0 l + off.signExtend 32).toNat

section
variable {s : State} {ag : Agent} {act : Mask} {f : Fragment} {d : RegNo} {a b : Src} {off : BitVec 20} {w : Width}
  {o : Sys2Proof.Ordering} {g : Guard}

/-- What an LDL or STL puts in flight. -/
def localIssued (s : State) (ag : Agent) (f : Fragment) (kind : AccKind) (a : Src) (off : BitVec 20) (w : Width) (dst ndst : Nat) (act : Mask)
    (data : Nat → Nat) : Access :=
  (s.fenceDue ag f).localAccess ag f kind ((lanesOf act).map fun l => (l, localAt s ag a off l)) (Width.bytes w) dst ndst act data

theorem local_in_limit
    (hea : ∀ l ∈ lanesOf act, localAt s ag a off l % Width.bytes w = 0 ∧ localAt s ag a off l + Width.bytes w ≤ recL (s.recOf (agKey ag))) :
    ∀ x ∈ (lanesOf act).map fun l => (l, localAt s ag a off l),
      x.2 % Width.bytes w = 0 ∧ x.2 + Width.bytes w ≤ (s.fenceDue ag f).localLimit ag := by
  intro x hx
  obtain ⟨l, hl, rfl⟩ := List.mem_map.mp hx
  rw [State.localLimit, State.recOf_fenceDue]
  exact hea l hl

theorem exec_ldl_ready
    (h : s.ready ag act { cls := s.memClass, guard := g, srcs := [(a, 1)], dsts := [(d, Width.regs w)], seq := true } = true)
    (hf : s.front? ag = some f) (hh : s.notHeldBack ag f (o == .sc))
    (hea : ∀ l ∈ lanesOf act, localAt s ag a off l % Width.bytes w = 0 ∧ localAt s ag a off l + Width.bytes w ≤ recL (s.recOf (agKey ag))) :
    exec (.ldl d a off w o g) s =
      .next ((s.fenceDue ag f).issueAccess ag (localIssued s ag f .load a off w d.toNat (Width.regs w) act fun _ => 0) o) := by
  simp only [exec, execLdl]
  rw [issueWith_ready h, State.withMem_ready hf hh]
  exact congrArg _ (State.oneEach_local (local_in_limit hea) .load .read d.toNat (Width.regs w) act o fun _ => 0)

theorem exec_stl_ready
    (h : s.ready ag act { cls := s.memClass, guard := g, srcs := [(a, 1), (b, Width.regs w)], seq := true } = true)
    (hf : s.front? ag = some f) (hh : s.notHeldBack ag f (o == .sc))
    (hea : ∀ l ∈ lanesOf act, localAt s ag a off l % Width.bytes w = 0 ∧ localAt s ag a off l + Width.bytes w ≤ recL (s.recOf (agKey ag))) :
    exec (.stl b a off w o g) s =
      .next ((s.fenceDue ag f).issueAccess ag (localIssued s ag f .store a off w 0 0 act fun l =>
        wordsNumber ((List.range (Width.regs w)).map fun j => s.src ag b j l)) o) := by
  simp only [exec, execStl]
  rw [issueWith_ready h, State.withMem_ready hf hh]
  simp only [wordsVal_eq]
  exact congrArg _ (State.oneEach_local (local_in_limit hea) .store .write 0 0 act o fun l =>
    wordsNumber ((List.range (Width.regs w)).map fun j => s.src ag b j l))

/-- What such an access leaves. -/
theorem localIssued_spec (kind : AccKind) (dst ndst : Nat) (data : Nat → Nat) :
    ∃ x, ((s.fenceDue ag f).issueAccess ag (localIssued s ag f kind a off w dst ndst act data) o).flight = aput s.flight s.fresh x ∧
      ((s.fenceDue ag f).issueAccess ag (localIssued s ag f kind a off w dst ndst act data) o).fresh = s.fresh + 1 ∧
      (x.ag, x.kind, x.space, x.dst, x.ndst, x.act) = (ag, kind, Space.loc, dst, ndst, act) ∧
      x.pieces = (lanesOf act).map (fun l =>
        { lane := l, va := localAt s ag a off l, addr := localAt s ag a off l, len := Width.bytes w, cls := 0, reg := 0, data := data l }) ∧
      s.wentOn ((s.fenceDue ag f).issueAccess ag (localIssued s ag f kind a off w dst ndst act data) o) ag ∧
      s.keepsValues ((s.fenceDue ag f).issueAccess ag (localIssued s ag f kind a off w dst ndst act data) o) ag := by
  have hx : (localIssued s ag f kind a off w dst ndst act data).ag = ag := rfl
  obtain ⟨hfl, hfr, hgo⟩ := State.issueAccess_spec (s := s.fenceDue ag f) hx o
  obtain ⟨h1, h2⟩ := s.fenceDue_flight ag f
  rw [h1, h2] at hfl
  rw [h2] at hfr
  refine ⟨_, hfl, hfr, rfl, ?_, State.wentOn.after_stays (s.fenceDue_stays ag f) hgo⟩
  show (localIssued s ag f kind a off w dst ndst act data).pieces = _
  simp only [localIssued, State.localAccess, List.map_map]
  rfl

end

end Sys2Proof.Machine
end
section
/-! PROOFS. Accesses to the private area issue, chunk by chunk (R38, R197). -/

namespace Sys2Proof.Machine

/-! The chunks of lanes, lane by lane. -/

/-- The `n` chunks of each lane of a list, lane by lane. -/
def chunkRows (ls : List Nat) (n : Nat) : List (Nat × Nat) := ls.flatMap fun l => (List.range n).map fun i => (l, i)

theorem mem_chunkRows {ls : List Nat} {n l i : Nat} : (l, i) ∈ chunkRows ls n ↔ l ∈ ls ∧ i < n := by
  simp [chunkRows]

theorem length_chunkRows (ls : List Nat) (n : Nat) : (chunkRows ls n).length = ls.length * n := by
  simp [chunkRows, List.length_flatMap]

/-- The chunks of one lane. -/
theorem filter_chunkRows (n l : Nat) : ∀ {ls : List Nat}, ls.Nodup → l ∈ ls →
    (chunkRows ls n).filter (fun x => x.1 == l) = (List.range n).map fun i => (l, i)
  | x :: t, hnd, hl => by
    have hnd' := List.nodup_cons.mp hnd
    have hother : ∀ {ls : List Nat}, l ∉ ls → (chunkRows ls n).filter (fun x => x.1 == l) = [] := by
      intro ls hls
      rw [List.filter_eq_nil_iff]
      rintro ⟨l', i⟩ hx
      have := (mem_chunkRows.mp hx).1
      simp only [beq_iff_eq]
      rintro rfl
      exact hls this
    have hcons : chunkRows (x :: t) n = ((List.range n).map fun i => (x, i)) ++ chunkRows t n := rfl
    rw [hcons, List.filter_append]
    by_cases hx : x = l
    · subst hx
      rw [hother hnd'.1, List.append_nil, List.filter_eq_self]
      intro y hy
      obtain ⟨i, -, rfl⟩ := List.mem_map.mp hy
      simp
    · rw [filter_chunkRows n l hnd'.2 (by simpa [Ne.symm hx] using hl), List.filter_eq_nil_iff.mpr, List.nil_append]
      intro y hy
      obtain ⟨i, -, rfl⟩ := List.mem_map.mp hy
      simpa using hx

/-- The chunk that a row of the check's list is, where the chunks of its lane differ. -/
theorem chunkIndex_chunkRows {ls : List Nat} {n l i : Nat} (hnd : ls.Nodup) (hl : l ∈ ls) (hi : i < n)
    (a p c : Nat × Nat → Nat) (ha : ∀ j, j < n → a (l, j) = a (l, i) → j = i) :
    chunkIndex ((chunkRows ls n).map fun x => (x.1, a x, p x, c x)) (l, a (l, i), p (l, i), c (l, i)) = i := by
  have hf : ((chunkRows ls n).map fun x => (x.1, a x, p x, c x)).filter (fun e => e.1 == l) =
      (List.range n).map fun j => (l, a (l, j), p (l, j), c (l, j)) := by
    rw [List.filter_map]
    show ((chunkRows ls n).filter (fun x => x.1 == l)).map _ = _
    rw [filter_chunkRows n l hnd hl, List.map_map]
    rfl
  have hidx : ((List.range n).map fun j => (l, a (l, j), p (l, j), c (l, j))).findIdx? (· == (l, a (l, i), p (l, i), c (l, i))) = some i := by
    rw [List.findIdx?_eq_some_iff_getElem]
    refine ⟨by simpa using hi, by simp, fun j hj => ?_⟩
    simp only [List.getElem_map, List.getElem_range, beq_iff_eq, Prod.mk.injEq, not_and]
    intro _ h
    have := ha j (by omega) h
    omega
  rw [chunkIndex, hf, hidx]
  rfl

theorem nodup_lanesOf (m : Mask) : (lanesOf m).Nodup := List.Nodup.filter _ List.nodup_range

/-- The chunks of one lane lie at different addresses (R38). -/
theorem privAddr_injective {base w off l i j : Nat} (hw : 0 < w) (hw' : w ≤ 128) (hoff : off % 4 = 0) (hi : i < 4) (hj : j < 4)
    (h : privAddr base w (off + 4 * j) l = privAddr base w (off + 4 * i) l) : j = i := by
  have e : ∀ x, (off + 4 * x) / 4 * 4 * w = off * w + 4 * w * x := fun x => by
    rw [Nat.div_mul_cancel (Nat.dvd_of_mod_eq_zero (by omega))]; ring
  have ez : ∀ x, (off + 4 * x) % 4 = 0 := fun x => by omega
  unfold privAddr at h
  rw [e, e, ez, ez] at h
  have h1 : 4 * w * i ≤ 4 * w * 3 := Nat.mul_le_mul_left _ (by omega)
  have h2 : 4 * w * j ≤ 4 * w * 3 := Nat.mul_le_mul_left _ (by omega)
  have h3 : 4 * w * i = 4 * w * j := by omega
  exact (Nat.eq_of_mul_eq_mul_left (by omega) h3).symm

end Sys2Proof.Machine
end
section
/-! PROOFS. LDP and STP issue (R38, R197), and the obligation on local and private accesses. -/

namespace Sys2Proof.Machine

section
variable {s : State} {n m k e : Nat} {act : Mask} {gr : Group} {f : Fragment} {d : RegNo} {a b : Src} {off : BitVec 20} {w : Width}
  {g : Guard}

/-! What an unmet fence's invalidation leaves of the checks. -/

theorem State.fenceDue_group (hg : s.group? (groupKey n m k) = some gr) :
    ∃ l, (s.fenceDue (.frag n m k e) f).group? (groupKey n m k) = some { gr with frags := l } := by
  unfold State.fenceDue
  split
  · have hg' : (s.l1Inval (keyDie (groupKey n m k)) (s.agCore (.frag n m k e)) (· != 0)).group? (groupKey n m k) = some gr := hg
    refine ⟨amod gr.frags e fun f => { f with fenceInv := false }, ?_⟩
    rw [State.modFront, State.modFrag, agKey, State.modGroup_eq_putGroup hg', State.group_putGroup]
  · exact ⟨gr.frags, hg⟩

theorem State.chkIssue_fenceDue (d c : Nat) (p : BitVec 12) (va len : Nat) (need : Need) :
    (s.fenceDue (.frag n m k e) f).chkIssue d c p va len need = s.chkIssue d c p va len need := by
  unfold State.fenceDue
  split
  · have hd : ∀ (d' c' : Nat) (q : Nat → Bool) (F : Fragment → Fragment),
        (((s.l1Inval d' c' q).modFront (.frag n m k e) F).core d c).tlb = (s.core d c).tlb := fun d' c' q F => by
      show ((s.l1Inval d' c' q).core d c).tlb = _
      rw [State.l1Inval, State.core_modCore]
      split
      · rename_i h
        rw [State.core, State.core, h]
      · rfl
    unfold State.chkIssue State.tlbGet
    rw [hd]
    rfl
  · rfl

/-- The private offset of a lane (R197). -/
def privOffAt (s : State) (ag : Agent) (a : Src) (off : BitVec 20) (l : Nat) : Nat :=
  (((s.src ag a 1 l ++ s.src ag a 0 l).setWidth 48 : Addr) + off.signExtend 48).toNat

/-- The address of a lane's chunk (R38). -/
def chunkAt (s : State) (ag : Agent) (gr : Group) (a : Src) (off : BitVec 20) (x : Nat × Nat) : Nat :=
  privAddr gr.privBase.toNat (recW (s.recOf (agKey ag))) (privOffAt s ag a off x.1 + 4 * x.2) x.1

/-- The checks of a lane whose offset passes are those of its chunks. -/
theorem State.chkPrivate_of_ok (hg : s.group? (groupKey n m k) = some gr) {len : Nat} {need : Need} {l : Nat}
    (hl : privOffAt s (.frag n m k e) a off l % len = 0 ∧ privOffAt s (.frag n m k e) a off l + len ≤ recP (s.recOf (groupKey n m k))) :
    (s.fenceDue (.frag n m k e) f).chkPrivate (.frag n m k e) len need (l, privOffAt s (.frag n m k e) a off l) =
      (List.range (len / min len 4)).map fun i =>
        (l, chunkAt s (.frag n m k e) gr a off (l, i), chunkAt s (.frag n m k e) gr a off (l, i),
          s.chkIssue (keyDie (groupKey n m k)) (s.agCore (.frag n m k e)) (s.ptagOf (groupKey n m k))
            (chunkAt s (.frag n m k e) gr a off (l, i)) (min len 4) need) := by
  obtain ⟨fr, hu⟩ := State.fenceDue_group (e := e) (f := f) hg
  have hrec : (s.fenceDue (.frag n m k e) f).recOf (groupKey n m k) = s.recOf (groupKey n m k) := s.recOf_fenceDue _ f _
  have hptag : (s.fenceDue (.frag n m k e) f).ptagOf (groupKey n m k) = s.ptagOf (groupKey n m k) := by
    unfold State.fenceDue; split <;> rfl
  have hcore : (s.fenceDue (.frag n m k e) f).agCore (.frag n m k e) = s.agCore (.frag n m k e) := by
    simp only [State.agCore, agKey, hu, hg, Option.map_some]
  have hchk : chkLocal (recP (s.recOf (groupKey n m k))) len need (privOffAt s (.frag n m k e) a off l) =
      .ok (privOffAt s (.frag n m k e) a off l) 0 := by
    rw [chkLocal, if_neg (by simpa using hl.1), if_neg (by omega)]
  simp only [State.chkPrivate, agKey, hrec, hchk, hu, hptag, hcore, Option.map_some, Option.getD_some, State.width, State.chkIssue_fenceDue]
  rfl

/-- What an LDP or STP puts in flight. -/
def privIssued (u : State) (ag : Agent) (f : Fragment) (kind : AccKind) (rows : List (Nat × Nat × Nat × Nat)) (chunk dst ndst : Nat)
    (act : Mask) (data : Nat → Nat) (str : Bool) : Access :=
  { u.newAccess ag f kind .glob with
    pieces := rows.map fun c => { pieceAt chunk (data c.1 / 2 ^ (32 * chunkIndex rows c) % 2 ^ (8 * chunk)) 0 c with reg := chunkIndex rows c }
    dst := dst, ndst := ndst, act := act, chunked := true, stream := str }

theorem State.privAccess_of_ok (hg : s.group? (groupKey n m k) = some gr) {len : Nat} {need : Need} {p c : Nat → Nat}
    (hl : ∀ l ∈ lanesOf act, privOffAt s (.frag n m k e) a off l % len = 0 ∧
      privOffAt s (.frag n m k e) a off l + len ≤ recP (s.recOf (groupKey n m k)))
    (hchk : ∀ l ∈ lanesOf act, ∀ i, i < len / min len 4 →
      s.chkIssue (keyDie (groupKey n m k)) (s.agCore (.frag n m k e)) (s.ptagOf (groupKey n m k)) (chunkAt s (.frag n m k e) gr a off (l, i))
        (min len 4) need = .ok (p (chunkAt s (.frag n m k e) gr a off (l, i))) (c (chunkAt s (.frag n m k e) gr a off (l, i))))
    (kind : AccKind) (dst ndst : Nat) (data : Nat → Nat) (str : Bool) :
    ∃ keys, (s.fenceDue (.frag n m k e) f).privAccess (.frag n m k e) f kind
        ((lanesOf act).map fun l => (l, privOffAt s (.frag n m k e) a off l)) len need dst ndst act data str =
      ((s.fenceDue (.frag n m k e) f).dropFails (keyDie (groupKey n m k)) keys).issueAccess (.frag n m k e)
        (privIssued ((s.fenceDue (.frag n m k e) f).dropFails (keyDie (groupKey n m k)) keys) (.frag n m k e) f kind
          ((chunkRows (lanesOf act) (len / min len 4)).map fun x => (x.1, chunkAt s (.frag n m k e) gr a off x,
            p (chunkAt s (.frag n m k e) gr a off x), c (chunkAt s (.frag n m k e) gr a off x))) (min len 4) dst ndst act data str) .rlx := by
  have hptag : (s.fenceDue (.frag n m k e) f).ptagOf (groupKey n m k) = s.ptagOf (groupKey n m k) := by
    unfold State.fenceDue; split <;> rfl
  have hrows : (((lanesOf act).map fun l => (l, privOffAt s (.frag n m k e) a off l)).flatMap
      ((s.fenceDue (.frag n m k e) f).chkPrivate (.frag n m k e) len need)) =
      (chunkRows (lanesOf act) (len / min len 4)).map fun x =>
        (x.1, chunkAt s (.frag n m k e) gr a off x, chunkAt s (.frag n m k e) gr a off x,
          s.chkIssue (keyDie (groupKey n m k)) (s.agCore (.frag n m k e)) (s.ptagOf (groupKey n m k))
            (chunkAt s (.frag n m k e) gr a off x) (min len 4) need) := by
    rw [List.flatMap_map, chunkRows, List.map_flatMap]
    refine List.flatMap_congr fun l hlm => ?_
    rw [State.chkPrivate_of_ok hg (hl l hlm), List.map_map]
    rfl
  have hdec := (s.fenceDue (.frag n m k e) f).decideAll_of_ok (keyDie (groupKey n m k)) (s.ptagOf (groupKey n m k))
    (chunkRows (lanesOf act) (len / min len 4)) Prod.fst (chunkAt s (.frag n m k e) gr a off) (chunkAt s (.frag n m k e) gr a off)
    (fun x => p (chunkAt s (.frag n m k e) gr a off x)) (fun x => c (chunkAt s (.frag n m k e) gr a off x))
    (fun x hx => hchk x.1 (mem_chunkRows.mp hx).1 x.2 (mem_chunkRows.mp hx).2)
  simp only [State.privAccess, State.checkPrivate, agKey, hptag, hrows, hdec, State.afterCheck]
  exact ⟨_, rfl⟩

/-- A private access has one chunk, or up to four of 4 bytes (R197). -/
theorem Width.chunks_cases (w : Width) :
    Width.bytes w / min (Width.bytes w) 4 ≤ 1 ∨ Width.bytes w / min (Width.bytes w) 4 ≤ 4 ∧ Width.bytes w % 4 = 0 := by
  cases w <;> decide

/-- It has a chunk for each data register. -/
theorem Width.chunks_eq_regs (w : Width) : Width.bytes w / min (Width.bytes w) 4 = Width.regs w := by
  cases w <;> decide

/-- What a chunk stores of a data register. -/
theorem wordsVal_chunk {n i q : Nat} (x : Nat → Word) (hi : i < n) (hq : q ≤ 4) :
    wordsVal x n / 2 ^ (32 * i) % 2 ^ (8 * q) = (x i).toNat % 2 ^ (8 * q) := by
  rw [← wordsVal_word n x i hi, Nat.mod_mod_of_dvd _ (Nat.pow_dvd_pow 2 (by omega))]

/-- The rows of the check's list, one for each chunk of each lane. -/
def privRows (s : State) (ag : Agent) (gr : Group) (a : Src) (off : BitVec 20) (act : Mask) (len : Nat) (p c : Nat → Nat) :
    List (Nat × Nat × Nat × Nat) :=
  (chunkRows (lanesOf act) (len / min len 4)).map fun x => (x.1, chunkAt s ag gr a off x, p (chunkAt s ag gr a off x), c (chunkAt s ag gr a off x))

/-- Every chunk of every lane has its piece (R197). -/
theorem privIssued_covers {u : State} {kind : AccKind} {p c : Nat → Nat} {dst ndst : Nat} {data : Nat → Nat} {str : Bool}
    (hl : ∀ l ∈ lanesOf act, privOffAt s (.frag n m k e) a off l % Width.bytes w = 0) {l i : Nat} (hlm : l ∈ lanesOf act)
    (hi : i < Width.bytes w / min (Width.bytes w) 4) :
    ∃ y ∈ (privIssued u (.frag n m k e) f kind (privRows s (.frag n m k e) gr a off act (Width.bytes w) p c) (min (Width.bytes w) 4)
        dst ndst act data str).pieces,
      (y.lane, y.va, y.addr, y.len, y.cls, y.reg, y.data, y.done) =
        (l, chunkAt s (.frag n m k e) gr a off (l, i), p (chunkAt s (.frag n m k e) gr a off (l, i)), min (Width.bytes w) 4,
          c (chunkAt s (.frag n m k e) gr a off (l, i)), i, data l / 2 ^ (32 * i) % 2 ^ (8 * min (Width.bytes w) 4), false) := by
  have hinj : ∀ j, j < Width.bytes w / min (Width.bytes w) 4 →
      chunkAt s (.frag n m k e) gr a off (l, j) = chunkAt s (.frag n m k e) gr a off (l, i) → j = i := by
    intro j hj h
    by_cases hone : Width.bytes w / min (Width.bytes w) 4 ≤ 1
    · omega
    · have hal := hl l hlm
      have hn : Width.bytes w / min (Width.bytes w) 4 ≤ 4 ∧ privOffAt s (.frag n m k e) a off l % 4 = 0 := by
        obtain ⟨h4, hd⟩ := (Width.chunks_cases w).resolve_left hone
        exact ⟨h4, Nat.mod_eq_zero_of_dvd (dvd_trans (Nat.dvd_of_mod_eq_zero hd) (Nat.dvd_of_mod_eq_zero hal))⟩
      have hw1 : recF (s.recOf (agKey (.frag n m k e))) 532 531 < 4 := Nat.mod_lt _ (by decide)
      have hw2 : 0 < recW (s.recOf (agKey (.frag n m k e))) := Nat.mul_pos (by decide) (Nat.two_pow_pos _)
      have hw3 : recW (s.recOf (agKey (.frag n m k e))) ≤ 128 := by
        have := Nat.pow_le_pow_right (n := 2) (by decide) (show recF (s.recOf (agKey (.frag n m k e))) 532 531 ≤ 3 by omega)
        unfold recW
        omega
      exact privAddr_injective hw2 hw3 hn.2 (by omega) (by omega) h
  have hidx := chunkIndex_chunkRows (nodup_lanesOf act) hlm hi (chunkAt s (.frag n m k e) gr a off)
    (fun x => p (chunkAt s (.frag n m k e) gr a off x)) (fun x => c (chunkAt s (.frag n m k e) gr a off x)) hinj
  refine ⟨_, List.mem_map.mpr ⟨_, List.mem_map.mpr ⟨(l, i), mem_chunkRows.mpr ⟨hlm, hi⟩, rfl⟩, rfl⟩, ?_⟩
  rw [privRows, hidx]
  rfl

/-- What an LDP or STP leaves that issues as `privIssued`. -/
theorem privIssued_spec {kind : AccKind} {p c : Nat → Nat} {dst ndst : Nat} {data : Nat → Nat} {str : Bool} (keys : List Nat) :
    let v := (s.fenceDue (.frag n m k e) f).dropFails (keyDie (groupKey n m k)) keys
    let x := privIssued v (.frag n m k e) f kind (privRows s (.frag n m k e) gr a off act (Width.bytes w) p c) (min (Width.bytes w) 4)
      dst ndst act data str
    let t := v.issueAccess (.frag n m k e) x .rlx
    t.flight = aput s.flight s.fresh (x.ordered .rlx) ∧ s.wentOn t (.frag n m k e) ∧ s.keepsValues t (.frag n m k e) := by
  intro v x t
  have hstay : s.stays v (.frag n m k e) := State.stays_trans (s.fenceDue_stays _ f)
    (State.stays_of_rest (s := s.fenceDue (.frag n m k e) f) (t := v) rfl rfl ⟨rfl, rfl⟩ _)
  obtain ⟨hfl, -, hgo⟩ := State.issueAccess_spec (s := v) (ag := .frag n m k e) (x := x) rfl .rlx
  obtain ⟨h1, h2⟩ := s.fenceDue_flight (.frag n m k e) f
  refine ⟨hfl.trans ?_, State.wentOn.after_stays hstay hgo⟩
  show aput (s.fenceDue (.frag n m k e) f).flight (s.fenceDue (.frag n m k e) f).fresh _ = _
  rw [h1, h2]

/-- One piece for each chunk of each lane. -/
theorem privIssued_length {u : State} {kind : AccKind} {p c : Nat → Nat} {chunk dst ndst : Nat} {data : Nat → Nat} {str : Bool} :
    ((privIssued u (.frag n m k e) f kind (privRows s (.frag n m k e) gr a off act (Width.bytes w) p c) chunk dst ndst act data str).ordered
      .rlx).pieces.length = (lanesOf act).length * (Width.bytes w / min (Width.bytes w) 4) := by
  simp only [Access.ordered, privIssued, privRows, List.length_map, length_chunkRows]

/-- The lanes' offsets pass their checks (R168), and the chunks theirs (R166). -/
def privOk (s : State) (ag : Agent) (gr : Group) (a : Src) (off : BitVec 20) (w : Width) (act : Mask) (need : Need) (p c : Nat → Nat) : Prop :=
  (∀ l ∈ lanesOf act, privOffAt s ag a off l % Width.bytes w = 0 ∧ privOffAt s ag a off l + Width.bytes w ≤ recP (s.recOf (agKey ag))) ∧
  ∀ l ∈ lanesOf act, ∀ i, i < Width.bytes w / min (Width.bytes w) 4 →
    s.chkIssue (keyDie (agKey ag)) (s.agCore ag) (s.ptagOf (agKey ag)) (chunkAt s ag gr a off (l, i)) (min (Width.bytes w) 4) need =
      .ok (p (chunkAt s ag gr a off (l, i))) (c (chunkAt s ag gr a off (l, i)))

section
variable {p c : Nat → Nat} {str : Bool}

theorem exec_ldp_ready
    (h : s.ready (.frag n m k e) act { cls := 2, guard := g, srcs := [(a, 2)], dsts := [(d, Width.regs w)], hlp := false } = true)
    (hg : s.group? (groupKey n m k) = some gr) (hf : aget gr.frags e = some f) (hh : s.notHeldBack (.frag n m k e) f false)
    (hok : privOk s (.frag n m k e) gr a off w act .read p c) :
    ∃ keys, exec (.ldp d a off w str g) s =
      .next (((s.fenceDue (.frag n m k e) f).dropFails (keyDie (groupKey n m k)) keys).issueAccess (.frag n m k e)
        (privIssued ((s.fenceDue (.frag n m k e) f).dropFails (keyDie (groupKey n m k)) keys) (.frag n m k e) f .load
          (privRows s (.frag n m k e) gr a off act (Width.bytes w) p c) (min (Width.bytes w) 4) d.toNat (Width.regs w) act (fun _ => 0) str)
        .rlx) := by
  obtain ⟨keys, hacc⟩ := State.privAccess_of_ok (f := f) hg hok.1 hok.2 .load d.toNat (Width.regs w) (fun _ => 0) str
  refine ⟨keys, ?_⟩
  simp only [exec, execLdp]
  rw [issueWith_ready h, State.withMem_ready ((State.front_frag hg).trans hf) hh]
  exact congrArg _ hacc

theorem exec_stp_ready
    (h : s.ready (.frag n m k e) act { cls := 2, guard := g, srcs := [(a, 2), (b, Width.regs w)], hlp := false } = true)
    (hg : s.group? (groupKey n m k) = some gr) (hf : aget gr.frags e = some f) (hh : s.notHeldBack (.frag n m k e) f false)
    (hok : privOk s (.frag n m k e) gr a off w act .write p c) :
    ∃ keys, exec (.stp b a off w str g) s =
      .next (((s.fenceDue (.frag n m k e) f).dropFails (keyDie (groupKey n m k)) keys).issueAccess (.frag n m k e)
        (privIssued ((s.fenceDue (.frag n m k e) f).dropFails (keyDie (groupKey n m k)) keys) (.frag n m k e) f .store
          (privRows s (.frag n m k e) gr a off act (Width.bytes w) p c) (min (Width.bytes w) 4) 0 0 act
          (fun l => wordsVal (fun j => s.src (.frag n m k e) b j l) (Width.regs w)) str) .rlx) := by
  obtain ⟨keys, hacc⟩ := State.privAccess_of_ok (f := f) hg hok.1 hok.2 .store 0 0
    (fun l => wordsVal (fun j => s.src (.frag n m k e) b j l) (Width.regs w)) str
  refine ⟨keys, ?_⟩
  simp only [exec, execStp]
  rw [issueWith_ready h, State.withMem_ready ((State.front_frag hg).trans hf) hh]
  exact congrArg _ hacc

end

end

/-- Settles O27: an access issues with one piece per lane, or per chunk of a lane; the chunks of a lane lie at different addresses. -/
theorem localAndPrivateAccessesIssue : Obligations.LocalAndPrivateAccessesIssue := by
  unfold Obligations.LocalAndPrivateAccessesIssue
  refine ⟨fun s ag act f d b a off w o g => ?_, fun s n m k e act gr f d b a off w str g p c => ?_⟩
  · intro ea hf hh hea
    refine ⟨fun h => ?_, fun h => ?_⟩
    · obtain ⟨x, hfl, hfr, hx, hp, hgo⟩ := localIssued_spec (s := s) (ag := ag) (act := act) (f := f) (a := a) (off := off) (w := w) (o := o)
        .load d.toNat (Width.regs w) fun _ => 0
      refine ⟨_, x, exec_ldl_ready h hf hh hea, hfl, hfr, hx, hp, fun j hj => ?_, hgo⟩
      exact State.issueAccess_empty rfl o rfl ((State.ownsReg_of_ready h hf (List.mem_singleton.mpr rfl) hj).fenceDue f)
        (Nat.le_add_right _ _) (Nat.add_lt_add_left hj _)
    · obtain ⟨x, hfl, hfr, hx, hp, hgo⟩ := localIssued_spec (s := s) (ag := ag) (act := act) (f := f) (a := a) (off := off) (w := w) (o := o)
        .store 0 0 fun l => wordsNumber ((List.range (Width.regs w)).map fun j => s.src ag b j l)
      simp only [Prod.mk.injEq] at hx
      obtain ⟨h1, h2, h3, -, h5, h6⟩ := hx
      exact ⟨_, x, exec_stl_ready h hf hh hea, hfl, hfr, by rw [h1, h2, h3, h5, h6], hp, hgo⟩
  · intro ag key chunk at_ offs covers hg hf hh hoff
    have hal : ∀ l ∈ lanesOf act, privOffAt s ag a off l % Width.bytes w = 0 := fun l hl => (hoff l hl).1
    refine ⟨fun hchk h => ?_, fun hchk h => ?_⟩
    · obtain ⟨keys, hex⟩ := exec_ldp_ready (str := str) h hg hf hh ⟨hoff, hchk⟩
      obtain ⟨hfl, hgo⟩ := privIssued_spec (s := s) (n := n) (m := m) (k := k) (e := e) (act := act) (gr := gr) (f := f) (a := a) (off := off)
        (w := w) (kind := .load) (p := p) (c := c) (dst := d.toNat) (ndst := Width.regs w) (data := fun _ => 0) (str := str) keys
      refine ⟨_, _, hex, hfl, rfl, ⟨?_, fun l hl i hi => ?_⟩, fun j hj => ?_, hgo⟩
      · exact congrArg (fun x => (Space.glob, true, x)) privIssued_length
      · obtain ⟨y, hy, hyeq⟩ := privIssued_covers (f := f) (kind := .load) (dst := d.toNat) (ndst := Width.regs w) (data := fun _ => 0) (str := str)
          (p := p) (c := c) hal hl hi
        exact ⟨y, hy, by rw [hyeq]; simp only [Nat.zero_div, Nat.zero_mod]; rfl⟩
      · exact State.issueAccess_empty rfl .rlx rfl ((State.ownsReg_of_ready h ((State.front_frag hg).trans hf) (List.mem_singleton.mpr rfl) hj).fenceDue f)
          (Nat.le_add_right _ _) (Nat.add_lt_add_left hj _)
    · obtain ⟨keys, hex⟩ := exec_stp_ready (str := str) h hg hf hh ⟨hoff, hchk⟩
      obtain ⟨hfl, hgo⟩ := privIssued_spec (s := s) (n := n) (m := m) (k := k) (e := e) (act := act) (gr := gr) (f := f) (a := a) (off := off)
        (w := w) (kind := .store) (p := p) (c := c) (dst := 0) (ndst := 0)
        (data := fun l => wordsVal (fun j => s.src ag b j l) (Width.regs w)) (str := str) keys
      refine ⟨_, _, hex, hfl, rfl, ⟨?_, fun l hl i hi => ?_⟩, hgo⟩
      · exact congrArg (fun x => (Space.glob, true, x)) privIssued_length
      · obtain ⟨y, hy, hyeq⟩ := privIssued_covers (f := f) (kind := .store) (dst := 0) (ndst := 0)
          (data := fun l => wordsVal (fun j => s.src ag b j l) (Width.regs w)) (str := str) (p := p) (c := c) hal hl hi
        have hword := wordsVal_chunk (n := Width.regs w) (fun j => s.src ag b j l) (Width.chunks_eq_regs w ▸ hi) (Nat.min_le_right (Width.bytes w) 4)
        exact ⟨y, hy, by rw [hyeq, hword]; rfl⟩

end Sys2Proof.Machine
end

section
/-! PROOFS. Records submitted to the copy engine and work dealt to queries (R58, R59, R216, R223, R224, R226). -/

namespace Sys2Proof.Machine

theorem keyG_groupKey {n m k : Nat} (hk : k < 16) : keyG (groupKey n m k) = k := by
  unfold keyG groupKey; omega

/-! Async counters (R71). -/

theorem Group.counter_lt (g : Group) (i : Nat) : g.counter i < 65536 := (sget 0#16 g.ac i).isLt

theorem Group.counter_congr {g g' : Group} (h : g'.ac = g.ac) (i : Nat) : g'.counter i = g.counter i := by
  rw [Group.counter, h, Group.counter]

theorem Group.counter_raise {g : Group} {i : Nat} (h : g.counter i < 65535) : (g.raise i).counter i = g.counter i + 1 := by
  rw [Group.counter, Group.raise, sget_sset, if_pos rfl, BitVec.toNat_ofNat]
  omega

theorem Group.counter_raised {g g' : Group} {i : Nat} (h : g.counter i < 65535) (h' : g'.ac = (g.raise i).ac) :
    g'.counter i = g.counter i + 1 := (Group.counter_congr h' i).trans (Group.counter_raise h)

theorem Group.counter_lower {g : Group} {i : Nat} : (g.lower i).counter i = g.counter i - 1 := by
  have := g.counter_lt i
  rw [Group.counter, Group.lower, sget_sset, if_pos rfl, BitVec.toNat_ofNat]
  omega

/-! An agent's step leaves cores and dies. -/

theorem State.core_advance (s : State) (ag : Agent) (d c : Nat) : (s.advance ag).core d c = s.core d c := by cases ag <;> rfl

theorem State.die_advance (s : State) (ag : Agent) (d : Nat) : (s.advance ag).die d = s.die d := by cases ag <;> rfl

/-! Distinct values. -/

theorem mem_distinct (x : Nat) : ∀ l : List Nat, x ∈ distinct l ↔ x ∈ l
  | [] => Iff.rfl
  | y :: t => by
    rw [distinct, List.mem_cons, List.mem_filter, mem_distinct x t, List.mem_cons]
    by_cases h : x = y <;> simp [h]

theorem nodup_distinct : ∀ l : List Nat, (distinct l).Nodup
  | [] => List.nodup_nil
  | y :: t => by
    rw [distinct, List.nodup_cons]
    exact ⟨by simp, (nodup_distinct t).filter _⟩

/-! A group's own move that leaves its fragments and registers. -/

theorem State.modGroup_stays (s : State) (n m k e : Nat) {f : Group → Group}
    (hf : ∀ g, ((f g).frags, (f g).v, (f g).s) = (g.frags, g.v, g.s)) :
    s.stays (s.modGroup (groupKey n m k) f) (.frag n m k e) := by
  have hfr : ∀ g, (f g).frags = g.frags := fun g => (Prod.mk.inj (hf g)).1
  have hrd : ∀ g r l, (f g).rd r l = g.rd r l := fun g r l => by
    obtain ⟨-, h⟩ := Prod.mk.inj (hf g)
    obtain ⟨hv, hs⟩ := Prod.mk.inj h
    rw [Group.rd, Group.rd, hv, hs]
  refine ⟨?_, fun r l hr hl => ?_, rfl, rfl, fun _ _ => rfl⟩
  · simp only [State.front?, agKey, State.group_modGroup, if_true]
    cases s.group? (groupKey n m k) <;> simp [hfr]
  · rw [State.rdReg_frag _ n m k e hr hl, State.rdReg_frag _ n m k e hr hl, State.group_modGroup, if_pos rfl, Option.map_map]
    exact congrArg (fun F => ((s.group? (groupKey n m k)).map F).getD 0#32) (funext fun g => hrd g r l)

/-! CSUB and WQRY (R216, R223). -/

section
variable {s : State} {n m k e : Nat} {act : Mask} {gr : Group} {f : Fragment} {tm : Team} {i : BitVec 3} {a : Src} {g : Guard}

/-- An agent that owes no invalidation has none due. -/
theorem State.fenceDue_of_not {ag : Agent} (h : f.fenceInv = false) : s.fenceDue ag f = s := by
  simp [State.fenceDue, h]

theorem State.localLimit_frag (ht : s.team? n m = some tm) (hm : m < 2048) (hk : k < 16) : s.localLimit (.frag n m k e) = recL tm.recd := by
  simp [State.localLimit, agKey, State.recOf, State.teamOf_groupKey s hm hk, ht]

/-- The submission of a CSUB (R216). -/
def csubOf (n m k : Nat) (gr : Group) (i : BitVec 3) (adrs : List Nat) : Submission :=
  { die := n, slot := m, g := k, uid := gr.uid, k := i.toNat, ready := (distinct adrs).map fun a => (a, true), running := [] }

/-- The panel after a CSUB, its agent still at the instruction. -/
def State.submitted (s : State) (n m k : Nat) (gr : Group) (i : BitVec 3) (adrs : List Nat) : State :=
  { (s.modGroup (groupKey n m k) fun g => g.raise i.toNat).modCore n gr.core fun y =>
      { y with subs := aput y.subs s.fresh (csubOf n m k gr i adrs) } with fresh := s.fresh + 1 }

theorem exec_csub_ready (h : s.ready (.frag n m k e) act { cls := 2, guard := g, srcs := [(a, 1)], hlp := false } = true)
    (hm : m < 2048) (hk : k < 16) (hg : s.group? (groupKey n m k) = some gr) (hf : aget gr.frags e = some f) (ht : s.team? n m = some tm)
    (hi : f.fenceInv = false) (hh : s.notHeldBack (.frag n m k e) f false) (hc : gr.counter i.toNat < 65535)
    (hadr : ∀ l ∈ lanesOf act, (s.src (.frag n m k e) a 0 l).toNat % 64 = 0 ∧ (s.src (.frag n m k e) a 0 l).toNat + 64 ≤ recL tm.recd)
    (he : s.earlier (.frag n m k e) f = []) (hs : (s.core n gr.core).subs.length < 16) :
    exec (.csub i a g) s =
      .next ((s.submitted n m k gr i ((lanesOf act).map fun l => (s.src (.frag n m k e) a 0 l).toNat)).advance (.frag n m k e)) := by
  have hcore : s.agCore (.frag n m k e) = gr.core := by simp [State.agCore, agKey, hg]
  have hlim := State.localLimit_frag (e := e) ht hm hk
  have hchk : checkLocal s (s.localLimit (.frag n m k e)) ((lanesOf act).map fun l => (l, (s.src (.frag n m k e) a 0 l).toNat)) 64 .read =
      .ok s (((lanesOf act).map fun l => (l, (s.src (.frag n m k e) a 0 l).toNat)).map fun x => (x.1, x.2, x.2, 0)) := by
    refine checkLocal_of_ok s .read fun x hx => ?_
    obtain ⟨l, hl, rfl⟩ := List.mem_map.mp hx
    rw [hlim]
    exact hadr l hl
  simp only [exec, execCsub]
  rw [issueWith_ready h, State.withMem_ready ((State.front_frag hg).trans hf) hh, State.fenceDue_of_not hi]
  refine congrArg _ ((congrArg (fun c => State.afterCheck _ 0 0 act c _) hchk).trans ?_)
  have h16 : ¬16 ≤ (s.core n gr.core).subs.length := by omega
  have h65 : ¬65535 ≤ gr.counter i.toNat := by omega
  simp only [State.afterCheck, agKey, hg, he, hcore, keyDie_groupKey hm hk, keySlot_groupKey hm hk, keyG_groupKey hk, h16, h65, List.map_map]
  rfl

/-- What a CSUB leaves of its group, its core and its agent. -/
theorem State.submitted_spec (hg : s.group? (groupKey n m k) = some gr) (adrs : List Nat) :
    (s.submitted n m k gr i adrs).group? (groupKey n m k) = some (gr.raise i.toNat) ∧
      ((s.submitted n m k gr i adrs).core n gr.core).subs = aput (s.core n gr.core).subs s.fresh (csubOf n m k gr i adrs) ∧
      s.stays (s.submitted n m k gr i adrs) (.frag n m k e) := by
  refine ⟨?_, ?_, ?_⟩
  · have h : (s.submitted n m k gr i adrs).group? (groupKey n m k) = (s.modGroup (groupKey n m k) fun g => g.raise i.toNat).group? (groupKey n m k) := rfl
    rw [h, State.group_modGroup, if_pos rfl, hg, Option.map_some]
  · have h : (s.submitted n m k gr i adrs).core n gr.core = ((s.modGroup (groupKey n m k) fun g => g.raise i.toNat).modCore n gr.core fun y =>
      { y with subs := aput y.subs s.fresh (csubOf n m k gr i adrs) }).core n gr.core := rfl
    rw [h, State.core_modCore, if_pos rfl]
    rfl
  · have h := s.modGroup_stays n m k e (f := fun g => g.raise i.toNat) fun _ => rfl
    exact State.stays_trans h (State.stays_of_rest (s := s.modGroup (groupKey n m k) fun g => g.raise i.toNat)
      (t := s.submitted n m k gr i adrs) rfl rfl ⟨rfl, rfl⟩ _)

/-- What the submission lists as ready: the records that its lanes name, each once (R216). -/
theorem mem_csubOf_ready (adrs : List Nat) (r : Nat × Bool) : r ∈ (csubOf n m k gr i adrs).ready ↔ r.2 = true ∧ r.1 ∈ adrs := by
  obtain ⟨x, b⟩ := r
  simp [csubOf, mem_distinct, and_comm, eq_comm]

theorem nodup_csubOf_ready (adrs : List Nat) : ((csubOf n m k gr i adrs).ready.map (·.1)).Nodup := by
  simpa [csubOf, Function.comp_def] using nodup_distinct adrs

/-- The panel after a WQRY, its agent still at the instruction. -/
def State.queried (s : State) (n m k : Nat) (i : BitVec 3) (adr : Nat) (pc : Addr) (act : Mask) : State :=
  (s.modGroup (groupKey n m k) fun gr => { gr.raise i.toNat with wq := gr.wq ++ [(i.toNat, adr, pc, act)] }).modDie n fun y =>
    { y with queries := y.queries ++ [(groupKey n m k, none)] }

theorem exec_wqry_ready
    (h : s.ready (.frag n m k e) act { cls := 2, guard := g, srcs := [(a, 1)], hlp := false, lone := [0] } = true)
    (hm : m < 2048) (hk : k < 16) (hg : s.group? (groupKey n m k) = some gr) (hf : aget gr.frags e = some f) (ht : s.team? n m = some tm)
    (hi : f.fenceInv = false) (hh : s.notHeldBack (.frag n m k e) f false) (hc : gr.counter i.toNat < 65535)
    (ha : (s.src (.frag n m k e) a 0 (lowLane act)).toNat % 8 = 0)
    (hl : (s.src (.frag n m k e) a 0 (lowLane act)).toNat + 8 ≤ recL tm.recd) (hw : s.workHeld (.frag n m k e) = false) :
    exec (.wqry i a g) s = .next ((s.queried n m k i (s.src (.frag n m k e) a 0 (lowLane act)).toNat f.pc act).advance (.frag n m k e)) := by
  have hlim := State.localLimit_frag (e := e) ht hm hk
  have hchk : checkLocal s (s.localLimit (.frag n m k e)) [(lowLane act, (s.src (.frag n m k e) a 0 (lowLane act)).toNat)] 8 .write =
      .ok s ([(lowLane act, (s.src (.frag n m k e) a 0 (lowLane act)).toNat)].map fun x => (x.1, x.2, x.2, 0)) := by
    refine checkLocal_of_ok s .write fun x hx => ?_
    rw [List.mem_singleton.mp hx, hlim]
    exact ⟨ha, hl⟩
  simp only [exec, execWqry]
  rw [issueWith_ready h, State.withMem_ready ((State.front_frag hg).trans hf) hh, State.fenceDue_of_not hi]
  refine congrArg _ ((congrArg (fun c => State.afterCheck _ 0 0 act c _) hchk).trans ?_)
  have h65 : ¬65535 ≤ gr.counter i.toNat := by omega
  simp only [State.afterCheck, agKey, hg, hw, keyDie_groupKey hm hk, h65, Option.map_some, Option.getD_some]
  rfl

/-- What a WQRY leaves of its group, its die and its agent. -/
theorem State.queried_spec (hg : s.group? (groupKey n m k) = some gr) (adr : Nat) (pc : Addr) :
    (s.queried n m k i adr pc act).group? (groupKey n m k) = some { gr.raise i.toNat with wq := gr.wq ++ [(i.toNat, adr, pc, act)] } ∧
      ((s.queried n m k i adr pc act).die n).queries = (s.die n).queries ++ [(groupKey n m k, none)] ∧
      s.stays (s.queried n m k i adr pc act) (.frag n m k e) := by
  refine ⟨?_, ?_, ?_⟩
  · rw [State.queried, State.group_modDie, State.group_modGroup, if_pos rfl, hg, Option.map_some]
  · rw [State.queried, State.die_modDie, if_pos rfl, State.die_modGroup]
  · have h := s.modGroup_stays n m k e (f := fun gr => { gr.raise i.toNat with wq := gr.wq ++ [(i.toNat, adr, pc, act)] }) fun _ => rfl
    exact State.stays_trans h (State.stays_of_rest
      (s := s.modGroup (groupKey n m k) fun gr => { gr.raise i.toNat with wq := gr.wq ++ [(i.toNat, adr, pc, act)] })
      (t := s.queried n m k i adr pc act) rfl rfl ⟨rfl, rfl⟩ _)

end

/-! The distributor (R58, R226). -/

theorem step_reach_one {s : State} {rest : List Turn} {n k1 : Nat} (ha : s.agenda = .reach n 0 :: rest)
    (hq : (s.die n).queries = [(k1, none)]) :
    step s = .next (State.modDie { s with agenda := rest, cur := none } n fun x => { x with queries := x.queries.set 0 (k1, some s.clock) }) := by
  have hq' : (State.die { s with agenda := rest, cur := none } n).queries = [(k1, none)] := hq
  simp [step, ha, State.reach, hq']

/-- Of two queries that have reached the distributor, the one dealt next. -/
theorem State.nextQuery_two {s : State} {n k1 k2 c1 c2 : Nat} (hq : (s.die n).queries = [(k1, some c1), (k2, some c2)])
    (h1 : c1 < s.clock) (h2 : c2 < s.clock) :
    s.nextQuery n = if c2 < c1 ∨ c2 = c1 ∧ s.queryRank n k2 < s.queryRank n k1 then some (k2, c2) else some (k1, c1) := by
  have h1' : ¬s.clock ≤ c1 := by omega
  have h2' : ¬s.clock ≤ c2 := by omega
  simp [State.nextQuery, hq, h1', h2']

/-! A work item dealt (R58, R59, R223, R224). -/

theorem natOfBytes_bytesOf (n : Nat) : ∀ x : Nat, natOfBytes (bytesOf n x) = x % 256 ^ n := by
  induction n with
  | zero => intro x; rw [pow_zero, Nat.mod_one]; rfl
  | succ n ih =>
    intro x
    have hb : bytesOf (n + 1) x = byteOf x 0 :: bytesOf n (x / 256) := by
      rw [bytesOf, bytesOf, List.range_succ_eq_map, List.map_cons, List.map_map]
      congr 1
      refine List.map_congr_left fun i _ => ?_
      simp only [Function.comp, byteOf, Nat.succ_eq_add_one, Nat.pow_succ']
      rw [Nat.div_div_eq_div_mul]
    rw [hb, natOfBytes, ih, byteOf, BitVec.toNat_ofNat, pow_zero, Nat.div_one,
      show 256 ^ (n + 1) = 256 * 256 ^ n from Nat.pow_succ', Nat.mod_mul]

theorem length_bytesOf (n x : Nat) : (bytesOf n x).length = n := by simp [bytesOf]

/-- A number written to local memory is read back. -/
theorem Team.localRead_localWrite (t : Team) (a n x : Nat) (hx : x < 256 ^ n) : (t.localWrite a (bytesOf n x)).localRead a n = x := by
  have hl : (List.range n).map (fun i => (t.localWrite a (bytesOf n x)).localByte (a + i)) = bytesOf n x := by
    rw [bytesOf]
    refine List.map_congr_left fun i hi => ?_
    rw [List.mem_range] at hi
    rw [Team.localByte_localWrite, List.length_map, List.length_range, if_pos ⟨by omega, by omega⟩, Nat.add_sub_cancel_left,
      List.getD_eq_getElem _ _ (by simpa using hi)]
    simp
  rw [Team.localRead, hl, natOfBytes_bytesOf, Nat.mod_eq_of_lt hx]

section
variable {s : State} {n m k : Nat} {gr : Group} {tm : Team} {sh : Share} {i adr c : Nat} {pc : Addr} {act : Mask}
  {more : List (Nat × Nat × Addr × Mask)}

/-- The number an answer is written as (R223). -/
def answerNumber (x : (Word × Word) × Nat) : Nat := x.1.1.toNat + x.1.2.toNat * 2 ^ 32

/-- The panel after an item was dealt to a group's query, its answer written, before the group wakes. -/
def State.dealt (s : State) (n m k i adr : Nat) (tm : Team) (sh : Share) (c : Nat) (more : List (Nat × Nat × Addr × Mask)) : State :=
  State.modGroup (State.modTeam (State.modDie (s.modDie n fun y => { y with queries := y.queries.erase (groupKey n m k, some c) }) n fun y =>
      { y with shares := amod y.shares tm.share fun x => { x with workNext := (dealItem sh).2 } }) n m fun t =>
        t.localWrite adr (bytesOf 8 (answerNumber (dealItem sh)))) (groupKey n m k) fun g =>
    { g.lower i with workX := (dealItem sh).1.1, workY := (dealItem sh).1.2, wq := more }

/-- Bytes put into local memory that meets no error. -/
theorem State.localSet_clean {u : State} {t : Team} (ht : u.team? n m = some t) (hp : t.localPoison = []) (hu : t.localUe = []) {l : List Byte}
    (hl : l.length < 64) : u.localSet n m adr l = (u.modTeam n m fun t => t.localWrite adr l, true) := by
  have hm : t.meetLocal adr = .clean := by simp [Team.meetLocal, hp, hu]
  have hl' : ¬l.length = 64 := by omega
  simp [State.localSet, ht, hm, hl']

theorem exec_workDeal_ready (hm : m < 2048) (hk : k < 16) (hg : s.group? (groupKey n m k) = some gr) (ht : s.team? n m = some tm)
    (hq : (s.die n).queries = [(groupKey n m k, some c)]) (hc : c < s.clock) (hwq : gr.wq = (i, adr, pc, act) :: more)
    (hsh : aget (s.die n).shares tm.share = some sh) (hp : tm.localPoison = []) (hu : tm.localUe = [])
    (hb : s.rangeBusy n m adr 8 = false) :
    exec (.workDeal n) s = .next ((s.dealt n m k i adr tm sh c more).wake (groupKey n m k)) := by
  have hc' : ¬s.clock ≤ c := by omega
  have hnext : s.nextQuery n = some (groupKey n m k, c) := by simp [State.nextQuery, hq, hc']
  have hteam : ∀ q : Die → Die, (s.modDie n q).teamOf? (groupKey n m k) = some tm := fun q => (State.teamOf_groupKey s hm hk).trans ht
  have hshares : aget ((s.modDie n fun y => { y with queries := y.queries.erase (groupKey n m k, some c) }).die n).shares tm.share = some sh := by
    rw [State.die_modDie, if_pos rfl]; exact hsh
  have hset : ∀ (q q' : Die → Die), (State.modDie (s.modDie n q) n q').localSet n m adr (bytesOf 8 (answerNumber (dealItem sh))) =
      ((State.modDie (s.modDie n q) n q').modTeam n m fun t => t.localWrite adr (bytesOf 8 (answerNumber (dealItem sh))), true) :=
    fun q q' => State.localSet_clean (u := (s.modDie n q).modDie n q') ht hp hu (by rw [length_bytesOf]; decide)
  unfold answerNumber at hset
  simp only [exec, execWorkDeal, hnext, hg, hwq, List.head?_cons, Option.bind_some, Option.map_some, Option.getD_some,
    keySlot_groupKey hm hk, hb, Bool.false_eq_true, if_false, State.group_modDie, hteam, hshares, hset, if_true]
  rfl

/-- A group that wakes keeps all but what its fragments and helpers wait for. -/
theorem State.wake_group {u : State} {key : Nat} {g : Group} (hg : u.group? key = some g) :
    ∃ g', (u.wake key).group? key = some g' ∧
      (g'.workX, g'.workY, g'.wq, g'.ac, g'.v, g'.s) = (g.workX, g.workY, g.wq, g.ac, g.v, g.s) := by
  rw [State.wake, State.group_modGroup, if_pos rfl, hg]
  exact ⟨_, rfl, rfl⟩

/-- Its group then: the counter lowered, the answer in e14 and e15, and waiting fragments free to try again. -/
theorem State.dealt_group (hg : s.group? (groupKey n m k) = some gr) :
    ∃ gt, ((s.dealt n m k i adr tm sh c more).wake (groupKey n m k)).group? (groupKey n m k) = some gt ∧
      (gt.workX, gt.workY) = (dealItem sh).1 ∧ gt.counter i = gr.counter i - 1 ∧ gt.wq = more ∧ ∀ r l, gt.rd r l = gr.rd r l := by
  have hd : (s.dealt n m k i adr tm sh c more).group? (groupKey n m k) =
      some { gr.lower i with workX := (dealItem sh).1.1, workY := (dealItem sh).1.2, wq := more } := by
    rw [State.dealt, State.group_modGroup, if_pos rfl]
    exact congrArg (Option.map _) hg
  obtain ⟨gt, hgt, heq⟩ := State.wake_group hd
  simp only [Prod.mk.injEq] at heq
  obtain ⟨hx, hy, hwq, hac, hv, hs⟩ := heq
  refine ⟨gt, hgt, by rw [hx, hy], (Group.counter_congr hac i).trans Group.counter_lower, hwq, fun r l => ?_⟩
  rw [Group.rd, Group.rd, hv, hs]
  rfl

/-- Its die: the query is dealt, and the share's next item is the one after. -/
theorem State.dealt_die (hq : (s.die n).queries = [(groupKey n m k, some c)]) (hsh : aget (s.die n).shares tm.share = some sh) :
    (((s.dealt n m k i adr tm sh c more).wake (groupKey n m k)).die n).queries = [] ∧
      aget (((s.dealt n m k i adr tm sh c more).wake (groupKey n m k)).die n).shares tm.share =
        some { sh with workNext := (dealItem sh).2 } := by
  have hdie : ((s.dealt n m k i adr tm sh c more).wake (groupKey n m k)).die n =
      { s.die n with
        queries := (s.die n).queries.erase (groupKey n m k, some c)
        shares := amod (s.die n).shares tm.share fun x => { x with workNext := (dealItem sh).2 } } := by
    have hteam : ∀ (u : State) (F : Team → Team), (u.modTeam n m F).die n = u.die n := fun _ _ => rfl
    rw [State.wake, State.die_modGroup, State.dealt, State.die_modGroup, hteam, State.die_modDie, if_pos rfl, State.die_modDie, if_pos rfl]
  rw [hdie]
  exact ⟨by simp [hq], by simp [aget_amod, hsh]⟩

/-- Memory stays. -/
theorem State.dealt_sameMem : s.sameMem ((s.dealt n m k i adr tm sh c more).wake (groupKey n m k)) := by
  have hdie : ∀ (u : State) (F : Die → Die), u.sameMem (u.modDie n F) := fun _ _ => ⟨rfl, rfl⟩
  have hteam : ∀ (u : State) (F : Team → Team), u.sameMem (u.modTeam n m F) := fun _ _ => ⟨rfl, rfl⟩
  have hgroup : ∀ (u : State) (F : Group → Group), u.sameMem (u.modGroup (groupKey n m k) F) := fun _ _ => ⟨rfl, rfl⟩
  exact State.sameMem_trans (State.sameMem_trans (State.sameMem_trans (State.sameMem_trans (hdie _ _) (hdie _ _)) (hteam _ _)) (hgroup _ _))
    (hgroup _ _)

/-- Its team: the answer written, in 8 bytes of local memory. -/
theorem State.dealt_team (ht : s.team? n m = some tm) :
    ((s.dealt n m k i adr tm sh c more).wake (groupKey n m k)).team? n m =
      some (tm.localWrite adr (bytesOf 8 (answerNumber (dealItem sh)))) := by
  rw [State.wake, State.team_modGroup, State.dealt, State.team_modGroup, State.team_modTeam, if_pos rfl, State.team_modDie,
    State.team_modDie, ht, Option.map_some]

end

theorem answerNumber_lt (x : (Word × Word) × Nat) : answerNumber x < 256 ^ 8 := by
  have h1 := x.1.1.isLt
  have h2 := x.1.2.isLt
  unfold answerNumber
  omega

/-- Settles O33: CSUB and WQRY raise a counter and go on; the distributor deals the next item to the query that reached it first. -/
theorem engineAndWork : Obligations.EngineAndWork := by
  unfold Obligations.EngineAndWork
  refine ⟨fun s n m k e act gr f tm i a g => ?_, fun s rest n k1 k2 c1 c2 => ⟨fun ha hq => ?_, fun hq h1 h2 => State.nextQuery_two hq h1 h2⟩,
    fun s n m k gr tm sh i adr c pc act more => ?_⟩
  · intro ag key adr _ hm hk hg hf ht hi hh hc
    refine ⟨fun h hadr he hs => ?_, fun h ha hl hw => ?_⟩
    · obtain ⟨hgt, hsubs, hst⟩ := State.submitted_spec (i := i) (e := e) hg ((lanesOf act).map adr)
      refine ⟨_, _, csubOf n m k gr i ((lanesOf act).map adr), exec_csub_ready h hm hk hg hf ht hi hh hc hadr he hs,
        State.group_advance_frag hgt, Group.counter_raised hc rfl, (congrArg Core.subs (State.core_advance _ _ _ _)).trans hsubs, rfl, fun r => ?_, nodup_csubOf_ready _,
        State.wentOn_of_stays hst (State.stays_refl _ _)⟩
      rw [mem_csubOf_ready, List.mem_map]
      simp only [eq_comm]
    · obtain ⟨hgt, hq, hst⟩ := State.queried_spec (i := i) (e := e) (act := act) hg (adr (lowLane act)) f.pc
      exact ⟨_, _, exec_wqry_ready h hm hk hg hf ht hi hh hc ha hl hw, State.group_advance_frag hgt, Group.counter_raised hc rfl, rfl,
        (congrArg Die.queries (State.die_advance _ _ _)).trans hq,
        State.wentOn_of_stays hst (State.stays_refl _ _)⟩
  · refine ⟨_, step_reach_one ha hq, ?_, rfl⟩
    rw [State.die_modDie, if_pos rfl]
    show (s.die n).queries.set 0 _ = _
    rw [hq]
    rfl
  · intro key rx ry item _ hm hk hg ht hq hc hwq _ _ hsh hp hu _ hb
    obtain ⟨gt, hgt, hxy, hcnt, hmore, hrd⟩ := State.dealt_group (s := s) (n := n) (m := m) (k := k) (i := i) (adr := adr) (tm := tm) (sh := sh)
      (c := c) (more := more) hg
    obtain ⟨hq', hsh'⟩ := State.dealt_die (i := i) (adr := adr) (more := more) hq hsh
    have hitem : (dealItem sh).1 = item ∧ (dealItem sh).2 = if sh.workNext < rx * ry then sh.workNext + 1 else sh.workNext := by
      by_cases hlt : sh.workNext < rx * ry
      · simp [dealItem, item, rx, ry, hlt]
      · simp [dealItem, item, rx, ry, hlt]
    have hnum : answerNumber (dealItem sh) = item.1.toNat + item.2.toNat * 2 ^ 32 := by rw [answerNumber, hitem.1]
    refine ⟨_, gt, _, _, exec_workDeal_ready hm hk hg ht hq hc hwq hsh hp hu hb, hgt, hxy.trans hitem.1, hcnt, hmore, State.dealt_team ht,
      ?_, fun b hb => ?_, hq', hsh', by rw [hitem.2], hrd, State.dealt_sameMem.1, State.dealt_sameMem.2⟩
    · rw [Team.localRead_localWrite _ _ _ _ (answerNumber_lt _), hnum]
    · rw [Team.localByte_localWrite, length_bytesOf, if_neg (by omega)]

end Sys2Proof.Machine
end

section
/-! PROOFS. The issue checks of R85 in their order, and the two gangs of an instruction (R27, R63, R66, R67, R76, R267, R382). -/

namespace Sys2Proof.Machine

/-! What the issue of an instruction answers to a verdict. -/

section
variable {s : State} {ag : Agent} {f : Fragment} {sp : Spec} {k : State → Agent → Mask → State}

theorem issueWith_of_stall (hc : s.cur = some ag) (hf : s.front? ag = some f) {w : Stall} {b : Bool} (hg : s.gate ag f sp = .stall w b) :
    ∃ w', issueWith s sp k = .next (s.waitAt ag w' b) := ⟨_, by simp only [issueWith, hc, hf, hg]; rfl⟩

theorem issueWith_of_bad (hc : s.cur = some ag) (hf : s.front? ag = some f) {c dt : Nat} (hg : s.gate ag f sp = .bad c dt) :
    issueWith s sp k = .next (s.raiseAt ag c dt 0#48 (s.faultLanes ag f sp)) := by simp only [issueWith, hc, hf, hg]

theorem issueWith_of_poisoned (hc : s.cur = some ag) (hf : s.front? ag = some f) (hg : s.gate ag f sp = .poisoned) :
    issueWith s sp k = .next (s.chargeRegs ag sp (s.active ag f sp.guard)) := by simp only [issueWith, hc, hf, hg]

theorem issueWith_of_waits (hc : s.cur = some ag) (hf : s.front? ag = some f) {act : Mask} (hg : s.gate ag f sp = .go act)
    (hw : s.gangWaits ag f = true) : issueWith s sp k = .next (s.lowIssue ag f) := by
  simp only [issueWith, hc, hf, hg, hw, if_true]

theorem issueWith_of_no_lanes (hc : s.cur = some ag) (hf : s.front? ag = some f) (hg : s.gate ag f sp = .go 0#64)
    (hw : s.gangWaits ag f = false) : issueWith s sp k = .next (s.advance ag) := by
  simp only [issueWith, hc, hf, hg, hw, Bool.false_eq_true, if_false, if_true]

theorem issueWith_of_go (hc : s.cur = some ag) (hf : s.front? ag = some f) {act : Mask} (hg : s.gate ag f sp = .go act) (ha : act ≠ 0#64)
    (hw : s.gangWaits ag f = false) : issueWith s sp k = .next (k s ag act) := by
  simp only [issueWith, hc, hf, hg, hw, ha, Bool.false_eq_true, if_false]

/-! The verdict, check by check (R85). -/

/-- The fields of an instruction name registers that its agent may use (R61, R63). -/
def fieldsOk (s : State) (ag : Agent) (sp : Spec) : Bool := s.guardOk ag sp.guard && sp.srcs.all (s.srcOk ag) && sp.dsts.all (s.dstOk ag)

/-- The tag of the guard register. -/
def guardTag (s : State) (ag : Agent) (sp : Spec) : RegTag := s.rdTag ag (guardReg ag sp.guard.g)

theorem gate_clause (h : clauseRules f sp = false) : s.gate ag f sp = .bad 2 1 := by simp [State.gate, h]

theorem gate_fields (h1 : clauseRules f sp = true) (h : fieldsOk s ag sp = false) : s.gate ag f sp = .bad 2 2 := by
  unfold fieldsOk at h
  simp only [State.gate, h1, h, Bool.not_true, Bool.not_false, Bool.false_eq_true, if_false, if_true]

theorem gate_own (h1 : clauseRules f sp = true) (h2 : fieldsOk s ag sp = true) (h : ¬(sp.admits ag = true ∧ sp.illop = false)) :
    s.gate ag f sp = .bad 2 0 := by
  unfold fieldsOk at h2
  have h' : (!sp.admits ag || sp.illop) = true := by
    cases ha : sp.admits ag <;> cases hi : sp.illop <;> simp_all
  simp only [State.gate, h1, h2, h', Bool.not_true, Bool.false_eq_true, if_false, if_true]

section
variable (h1 : clauseRules f sp = true) (h2 : fieldsOk s ag sp = true) (h3 : sp.admits ag = true ∧ sp.illop = false)
include h1 h2 h3

/-- Past the checks of the form, the guard is next. -/
theorem gate_passed : s.gate ag f sp =
    if sp.guard.g ≠ 0#4 && (guardTag s ag sp).empty then .stall ((guardTag s ag sp).stall (guardReg ag sp.guard.g)) true
    else if (guardRegs ag sp.guard).any (s.regBusy ag) then .stall .issue false
    else if s.active ag f sp.guard = 0#64 then (Verdict.go 0#64).orLate sp.late
    else if sp.guard.g ≠ 0#4 && !sp.ownErr && (guardTag s ag sp).poison &&& f.mask != 0#64 then .poisoned
    else (s.operandsReady ag sp (s.active ag f sp.guard)).orLate sp.late := by
  unfold fieldsOk at h2
  obtain ⟨ha, hi⟩ := h3
  simp only [State.gate, guardTag, h1, h2, ha, hi, Bool.not_true, Bool.or_self, Bool.false_eq_true, if_false] <;> rfl

theorem gate_guard_empty (hg : sp.guard.g ≠ 0#4) (he : (guardTag s ag sp).empty = true) : ∃ w, s.gate ag f sp = .stall w true := by
  refine ⟨(guardTag s ag sp).stall (guardReg ag sp.guard.g), ?_⟩
  rw [gate_passed h1 h2 h3, if_pos (by simp [hg, he])]

section
variable (hb : (guardRegs ag sp.guard).any (s.regBusy ag) = false) (hg : sp.guard.g ≠ 0#4 → (guardTag s ag sp).empty = false)
include hb hg

/-- Past the guard, the lanes are next. -/
theorem gate_guarded : s.gate ag f sp =
    if s.active ag f sp.guard = 0#64 then (Verdict.go 0#64).orLate sp.late
    else if sp.guard.g ≠ 0#4 && !sp.ownErr && (guardTag s ag sp).poison &&& f.mask != 0#64 then .poisoned
    else (s.operandsReady ag sp (s.active ag f sp.guard)).orLate sp.late := by
  have hne : ¬(decide (sp.guard.g ≠ 0#4) && (guardTag s ag sp).empty) = true := by
    by_cases h : sp.guard.g = 0#4
    · simp [h]
    · simp [hg h]
  rw [gate_passed h1 h2 h3, if_neg hne, if_neg (by simp [hb])]

theorem gate_no_lanes (ha : s.active ag f sp.guard = 0#64) : s.gate ag f sp = (Verdict.go 0#64).orLate sp.late := by
  rw [gate_guarded h1 h2 h3 hb hg, if_pos ha]

theorem gate_guard_poisoned (ha : s.active ag f sp.guard ≠ 0#64) (hn : sp.guard.g ≠ 0#4) (ho : sp.ownErr = false)
    (hp : (guardTag s ag sp).poison &&& f.mask ≠ 0#64) : s.gate ag f sp = .poisoned := by
  rw [gate_guarded h1 h2 h3 hb hg, if_neg ha, if_pos (by simp [hn, ho, hp])]

/-- Past the lanes, the operands are last. -/
theorem gate_operands (ha : s.active ag f sp.guard ≠ 0#64)
    (hp : sp.guard.g ≠ 0#4 → sp.ownErr = false → (guardTag s ag sp).poison &&& f.mask = 0#64) :
    s.gate ag f sp = (s.operandsReady ag sp (s.active ag f sp.guard)).orLate sp.late := by
  have hc : ¬(decide (sp.guard.g ≠ 0#4) && !sp.ownErr && (guardTag s ag sp).poison &&& f.mask != 0#64) = true := by
    by_cases h : sp.guard.g = 0#4
    · simp [h]
    · cases ho : sp.ownErr
      · simp [hp h ho]
      · simp
  rw [gate_guarded h1 h2 h3 hb hg, if_neg ha, if_neg hc]

end

end

/-- The lanes of a fault where the guard can be read (R291). -/
theorem faultLanes_of_guard (h2 : fieldsOk s ag sp = true) (hg : sp.guard.g ≠ 0#4 → (guardTag s ag sp).empty = false) :
    s.faultLanes ag f sp = s.active ag f sp.guard := by
  have hok : s.guardOk ag sp.guard = true := by
    unfold fieldsOk at h2
    simp only [Bool.and_eq_true] at h2
    exact h2.1.1
  have he : (sp.guard.g == 0#4 || !(s.rdTag ag (guardReg ag sp.guard.g)).empty) = true := by
    by_cases h : sp.guard.g = 0#4
    · simp [h]
    · have := hg h
      unfold guardTag at this
      simp [this]
  rw [State.faultLanes, hok, he, Bool.and_self, if_pos rfl]

/-! The operands (R66, R67, R382). -/

section
variable {act : Mask}

/-- An EMPTY source under policy 0 waits. -/
theorem operandsReady_waits {x : Nat × Bool} (hx : x ∈ opRegs sp.srcs) (he : s.srcEmpty ag x.1 = true) (hp : agPolicy ag x = false) :
    ∃ w, s.operandsReady ag sp act = .stall w true := by
  obtain ⟨y, hy⟩ : ∃ y, ((opRegs sp.srcs).filter fun x => s.srcEmpty ag x.1).find? (fun x => !agPolicy ag x) = some y := by
    rw [← Option.isSome_iff_exists, List.find?_isSome]
    exact ⟨x, List.mem_filter.mpr ⟨hx, he⟩, by simp [hp]⟩
  unfold State.operandsReady
  dsimp only
  rw [hy]
  exact ⟨_, rfl⟩

/-- The first of the EMPTY sources is named where all of them are under policy 1. -/
theorem operandsReady_unfilled {l r : List (Nat × Bool)} {x : Nat × Bool} (hl : opRegs sp.srcs = l ++ x :: r)
    (hfull : ∀ y ∈ l, s.srcEmpty ag y.1 = false) (he : s.srcEmpty ag x.1 = true) (hp : agPolicy ag x = true)
    (hr : ∀ y ∈ r, s.srcEmpty ag y.1 = true → agPolicy ag y = true) : s.operandsReady ag sp act = .bad 3 x.1 := by
  have hfil : ((opRegs sp.srcs).filter fun x => s.srcEmpty ag x.1) = x :: r.filter fun x => s.srcEmpty ag x.1 := by
    rw [hl, List.filter_append, List.filter_eq_nil_iff.mpr (fun y hy => by simp [hfull y hy]), List.nil_append,
      List.filter_cons_of_pos (by simpa using he)]
  have hnone : (x :: r.filter fun x => s.srcEmpty ag x.1).find? (fun x => !agPolicy ag x) = none := by
    rw [List.find?_eq_none]
    intro y hy
    rcases List.mem_cons.mp hy with rfl | hy
    · simp [hp]
    · obtain ⟨hm, hem⟩ := List.mem_filter.mp hy
      simp [hr y hm hem]
  unfold State.operandsReady
  dsimp only
  rw [hfil, hnone, List.find?_cons_of_pos (by simpa using hp)]

section
variable (hfull : ∀ x ∈ opRegs sp.srcs, s.srcEmpty ag x.1 = false)
include hfull

/-- Past the sources, the destinations are next. -/
theorem operandsReady_full : s.operandsReady ag sp act =
    match (dstRegs sp.dsts).find? fun r => s.dstHeld ag r with
    | some r => .stall ((s.rdTag ag r).stall r) false
    | none =>
      if ((opRegs sp.srcs).map (·.1) ++ dstRegs sp.dsts).any (s.regBusy ag) then .stall .issue false
      else if !sp.ownErr && (sp.reads act).any fun x => decide (x.1 < 640) && (s.rdTag ag x.1).poison &&& x.2 != 0#64 then .poisoned
      else .go act := by
  have hfil : ((opRegs sp.srcs).filter fun x => s.srcEmpty ag x.1) = [] := List.filter_eq_nil_iff.mpr fun y hy => by simp [hfull y hy]
  unfold State.operandsReady
  dsimp only
  rw [hfil]
  rfl

theorem operandsReady_held {r : Nat} (hr : r ∈ dstRegs sp.dsts) (hh : s.dstHeld ag r = true) :
    ∃ w, s.operandsReady ag sp act = .stall w false := by
  obtain ⟨y, hy⟩ : ∃ y, (dstRegs sp.dsts).find? (fun r => s.dstHeld ag r) = some y := by
    rw [← Option.isSome_iff_exists, List.find?_isSome]
    exact ⟨r, hr, hh⟩
  rw [operandsReady_full hfull, hy]
  exact ⟨_, rfl⟩

section
variable (hfree : ∀ r ∈ dstRegs sp.dsts, s.dstHeld ag r = false)
  (hbusy : ((opRegs sp.srcs).map (·.1) ++ dstRegs sp.dsts).any (s.regBusy ag) = false)
include hfree hbusy

theorem operandsReady_free : s.operandsReady ag sp act =
    if !sp.ownErr && (sp.reads act).any fun x => decide (x.1 < 640) && (s.rdTag ag x.1).poison &&& x.2 != 0#64 then .poisoned
    else .go act := by
  have hnone : (dstRegs sp.dsts).find? (fun r => s.dstHeld ag r) = none := by
    rw [List.find?_eq_none]
    exact fun r hr => by simp [hfree r hr]
  rw [operandsReady_full hfull, hnone]
  dsimp only
  rw [hbusy]
  rfl

theorem operandsReady_poisoned (ho : sp.ownErr = false)
    (hp : ∃ x ∈ sp.reads act, ¬(x.1 < 640 → (s.rdTag ag x.1).poison &&& x.2 = 0#64)) : s.operandsReady ag sp act = .poisoned := by
  obtain ⟨x, hx, hbad⟩ := hp
  rw [Classical.not_imp] at hbad
  have hany : ((sp.reads act).any fun x => decide (x.1 < 640) && (s.rdTag ag x.1).poison &&& x.2 != 0#64) = true :=
    List.any_eq_true.mpr ⟨x, hx, by simpa using hbad⟩
  rw [operandsReady_free hfull hfree hbusy, if_pos (by rw [ho, hany]; rfl)]

theorem operandsReady_go
    (hp : sp.ownErr = true ∨ ∀ x ∈ sp.reads act, x.1 < 640 → (s.rdTag ag x.1).poison &&& x.2 = 0#64) :
    s.operandsReady ag sp act = .go act := by
  have hc : ¬(!sp.ownErr && (sp.reads act).any fun x => decide (x.1 < 640) && (s.rdTag ag x.1).poison &&& x.2 != 0#64) = true := by
    rw [Bool.and_eq_true, List.any_eq_true]
    rintro ⟨ho, x, hx, hbad⟩
    rw [Bool.and_eq_true, decide_eq_true_eq, bne_iff_ne] at hbad
    rcases hp with h | h
    · simp [h] at ho
    · exact hbad.2 (h x hx hbad.1)
  rw [operandsReady_free hfull hfree hbusy, if_neg hc]

end

end

end

end

/-! The two gangs (R27). -/

/-- Of a mask some lanes are in the lower half, and some in the upper. -/
theorem halves_iff (f : Fragment) : f.halves = true ↔
    (∃ l, l < 32 ∧ f.mask.getLsbD l = true) ∧ ∃ l, 32 ≤ l ∧ f.mask.getLsbD l = true := by
  have hlo : f.mask &&& 0xFFFFFFFF#64 ≠ 0#64 ↔ ∃ l, l < 32 ∧ f.mask.getLsbD l = true := by
    have hones : ∀ l, l < 64 → (0xFFFFFFFF#64).getLsbD l = decide (l < 32) := by decide
    rw [← not_iff_not, not_not]
    push Not
    constructor
    · intro h l hl
      have hbit := congrArg (·.getLsbD l) h
      simpa [BitVec.getLsbD_and, hones l (by omega), hl] using hbit
    · intro h
      refine BitVec.eq_of_getLsbD_eq fun l hl => ?_
      rw [BitVec.getLsbD_and, hones l hl]
      by_cases hs : l < 32
      · simp [h l hs]
      · simp [hs]
  have hhi : f.mask >>> 32 ≠ 0#64 ↔ ∃ l, 32 ≤ l ∧ f.mask.getLsbD l = true := by
    rw [← not_iff_not, not_not]
    push Not
    constructor
    · intro h l hl
      have := congrArg (·.getLsbD (l - 32)) h
      simpa [show 32 + (l - 32) = l by omega] using this
    · intro h
      ext l hl
      simpa using h (32 + l) (by omega)
  rw [Fragment.halves, Bool.and_eq_true, bne_iff_ne, bne_iff_ne, hlo, hhi]

theorem gangWaits_frag {s : State} {n m k e : Nat} {f : Fragment} : s.gangWaits (.frag n m k e) f = true ↔
    f.halves = true ∧ ∀ q, f.gang = some q → s.clock ≤ q.clock := by
  cases hq : f.gang <;> simp [State.gangWaits, hq]

theorem lowGang_upper (s : State) {n m k e l : Nat} (hl : 32 ≤ l) : s.lowGang (.frag n m k e) l = none := by
  simp [State.lowGang, show ¬l < 32 by omega]

theorem rdGang_vector (g : Group) (q : Option LowGang) {r l : Nat} (h : r < 256) : g.rdGang q r l = g.rd r l := by
  cases q <;> simp [Group.rdGang, h]

section
variable {s : State} {n m k e : Nat} {g : Group} {f f' : Fragment} (hg : s.group? (groupKey n m k) = some g)
include hg

/-- The environment of an upper lane does not see the lower gang. -/
theorem env_putGroup (hf : aget g.frags e = some f) (hm : f'.mask = f.mask) {l : Nat} (hl : 32 ≤ l) (i : Nat) :
    (s.putGroup (groupKey n m k) { g with frags := aput g.frags e f' }).env (.frag n m k e) i l = s.env (.frag n m k e) i l := by
  have hfr : (s.putGroup (groupKey n m k) { g with frags := aput g.frags e f' }).front? (.frag n m k e) = some f' := by
    rw [State.front_frag (State.group_putGroup _ _ _), aget_aput, if_pos rfl]
  unfold State.env
  simp only [lowGang_upper _ hl, hfr, agKey, State.group_putGroup, hg, State.front_frag hg, hf, Option.map_some, Option.getD_some, hm]
  rfl

/-- A lane's own registers, and an upper lane's, are not read with the lower gang. -/
theorem rdReg_putGroup (hf : aget g.frags e = some f) (hm : f'.mask = f.mask) {r l : Nat} (h : r < 256 ∨ 32 ≤ l) :
    (s.putGroup (groupKey n m k) { g with frags := aput g.frags e f' }).rdReg (.frag n m k e) r l = s.rdReg (.frag n m k e) r l := by
  by_cases hr : 640 ≤ r
  · simp only [State.rdReg, hr, if_true]
    exact env_putGroup hg hf hm (h.resolve_left (by omega)) _
  · simp only [State.rdReg, hr, if_false, agKey, State.group_putGroup, hg, Option.map_some, Option.getD_some]
    rcases h with h | h
    · rw [rdGang_vector _ _ h, rdGang_vector _ _ h]
      rfl
    · rw [lowGang_upper _ h, lowGang_upper _ h]
      rfl

/-- A fragment once the lower gang has issued (R27). -/
def Fragment.lowIssued (f : Fragment) (s : State) (g : Group) : Fragment :=
  { f with stall := .none, gang := some { clock := s.clock, s := g.s, workX := g.workX, workY := g.workY } }

/-- What the lower gang's issue leaves (R27, R66; log 49): the uniform registers as they stand, kept at the fragment. -/
theorem lowIssue_spec (hf : aget g.frags e = some f) (hq : f.gang = none) :
    (s.lowIssue (.frag n m k e) f).front? (.frag n m k e) =
      some (f.lowIssued s g) ∧
    { s.lowIssue (.frag n m k e) f with groups := s.groups } = s ∧
    ∀ r l, r < 256 ∨ 32 ≤ l → (s.lowIssue (.frag n m k e) f).rdReg (.frag n m k e) r l = s.rdReg (.frag n m k e) r l := by
  have hlow : s.lowIssue (.frag n m k e) f = s.putGroup (groupKey n m k) { g with frags := aput g.frags e (f.lowIssued s g) } := by
    simp only [State.lowIssue, hq, agKey, hg]
    rw [State.modFront_frag hg hf, State.modGroup_eq_putGroup hg]
    rfl
  rw [hlow]
  refine ⟨?_, rfl, fun r l h => rdReg_putGroup (f' := f.lowIssued s g) hg hf rfl h⟩
  rw [State.front_frag (State.group_putGroup _ _ _), aget_aput, if_pos rfl]

/-- A lower lane reads the uniform registers as the lower gang read them (R27, R66). -/
theorem rdReg_lowGang (hf : aget g.frags e = some f) {q : LowGang} (hq : f.gang = some q) {r l : Nat} (h1 : 256 ≤ r) (h2 : r < 640)
    (hl : l < 32) : s.rdReg (.frag n m k e) r l = sget 0#32 q.s (r - 256) := by
  have hlow : s.lowGang (.frag n m k e) l = some q := by simp [State.lowGang, hl, State.front_frag hg, hf, hq]
  simp only [State.rdReg, show ¬640 ≤ r by omega, if_false, agKey, hg, hlow, Group.rdGang, show ¬r < 256 by omega, Option.map_some,
    Option.getD_some]

end

theorem lowIssue_of_gang {s : State} {ag : Agent} {f : Fragment} (h : f.gang.isSome = true) : s.lowIssue ag f = s := by
  obtain ⟨q, hq⟩ := Option.isSome_iff_exists.mp h
  simp only [State.lowIssue, hq]

/-! The statement. -/

/-- Settles O39: `State.gate` check by check, then `issueWith` on its verdict; the two gangs by what `State.lowIssue` keeps. -/
theorem issueChecksInOrder : Obligations.IssueChecksInOrder := by
  refine ⟨?_, ?_⟩
  · intro s ag f sp k hc hf hbusy
    simp only [List.mem_append] at hbusy
    have hgb : (guardRegs ag sp.guard).any (s.regBusy ag) = false := by
      rw [List.any_eq_false]
      exact fun r hr => by simp [hbusy r (.inl (.inl hr))]
    have hob : ((opRegs sp.srcs).map (·.1) ++ dstRegs sp.dsts).any (s.regBusy ag) = false := by
      rw [List.any_eq_false]
      intro r hr
      rcases List.mem_append.mp hr with hr | hr
      · simp [hbusy r (.inl (.inr hr))]
      · simp [hbusy r (.inr hr)]
    refine ⟨fun h => issueWith_of_bad hc hf (gate_clause h), fun h1 => ⟨fun h => issueWith_of_bad hc hf (gate_fields h1 h), fun h2 =>
      ⟨fun h => issueWith_of_bad hc hf (gate_own h1 h2 h), fun h3 => ⟨?_, ?_, ?_, ?_⟩⟩⟩⟩
    · intro hg he
      obtain ⟨w, hw⟩ := gate_guard_empty h1 h2 h3 hg he
      exact issueWith_of_stall (b := true) hc hf hw
    · intro hg ha
      have hv := gate_no_lanes h1 h2 h3 hgb hg ha
      refine ⟨fun hl => issueWith_of_bad hc hf (hv.trans ?_), fun hl hw =>
        issueWith_of_waits (act := 0#64) hc hf (hv.trans ?_) hw, fun hl hw =>
        issueWith_of_no_lanes hc hf (hv.trans ?_) hw⟩ <;> rw [hl] <;> rfl
    · intro hg hn ho hp ha
      exact issueWith_of_poisoned hc hf (gate_guard_poisoned h1 h2 h3 hgb hg ha hn ho hp)
    · intro hg hp ha
      have hv := gate_operands h1 h2 h3 hgb hg ha hp
      refine ⟨?_, ?_, fun hfull => ⟨?_, fun hfree => ⟨?_, ?_, ?_⟩⟩⟩
      · intro x hx he hpol
        obtain ⟨w, hw⟩ := operandsReady_waits (act := s.active ag f sp.guard) hx he hpol
        exact issueWith_of_stall (b := true) hc hf (hv.trans (by rw [hw]; rfl))
      · intro l x r hl hpre he hpol hrest
        have := operandsReady_unfilled (act := s.active ag f sp.guard) hl hpre he hpol hrest
        rw [← faultLanes_of_guard (f := f) h2 hg]
        exact issueWith_of_bad hc hf (hv.trans (by rw [this]; rfl))
      · rintro ⟨r, hr, hh⟩
        obtain ⟨w, hw⟩ := operandsReady_held (act := s.active ag f sp.guard) hfull hr hh
        exact issueWith_of_stall (b := false) hc hf (hv.trans (by rw [hw]; rfl))
      · intro hl
        refine issueWith_of_bad hc hf (hv.trans ?_)
        rw [operandsReady_free hfull hfree hob, hl]
        split <;> rfl
      · intro hl ho hx
        refine issueWith_of_poisoned hc hf (hv.trans ?_)
        rw [operandsReady_poisoned hfull hfree hob ho hx, hl]
        rfl
      · intro hl hclean
        have hgo : s.gate ag f sp = .go (s.active ag f sp.guard) := by
          rw [hv, operandsReady_go hfull hfree hob hclean, hl]
          rfl
        exact ⟨fun hw => issueWith_of_waits hc hf hgo hw, fun hw => issueWith_of_go hc hf hgo ha hw⟩
  · intro s ag f
    refine ⟨fun h => ?_, ?_⟩
    · cases ag with
      | frag n m k e => exact absurd rfl (h n m k e)
      | helper n m k h => rfl
      | seq d n => rfl
    · rintro n m k e g rfl hg hf
      exact ⟨by rw [gangWaits_frag, halves_iff], fun hq => lowIssue_spec hg hf hq, lowIssue_of_gang,
        fun q r l hq h1 h2 hl => rdReg_lowGang hg hf hq h1 h2 hl⟩

end Sys2Proof.Machine
end

section
/-! PROOFS. The launch scheduler's statement fails where a die's map of shares holds a number twice (R37). -/

namespace Sys2Proof.Machine

/-- A copy with one team, from another die, that waits at die 0. -/
def waitingCopy : LaunchElem where
  recd := 0#1024
  map := 1#256 <<< 32
  origin := 2
  entryDie := 1
  privBit := false
  ptag := 0#12
  recAddr := 0#48
  dirty := false

/-- A share with no team left to place or to end, which waits or has ended. -/
def emptyShare (life : ShareLife) : Share where
  recd := 0#1024
  map := 0#256
  ptag := 0#12
  priv := false
  preds := []
  life := life

/-- A panel whose die 0 holds, behind the greater number 1, a waiting share under 0, the number that its next share takes. -/
def staleShare : State :=
  { State.reset with
    dies := [(0, { launchQ := [waitingCopy], shares := [(1, emptyShare .ended), (0, emptyShare .waiting)] })] }

/-- How die 0's share 0 stands once the copy is taken. -/
def lifeTaken : Option ShareLife :=
  match exec (.forwardedCopyTake 0) staleShare with
  | .next t => (aget (t.die 0).shares 0).map (·.life)
  | .refused _ | .fault _ => none

theorem lifeTaken_of {t : State} (h : exec (.forwardedCopyTake 0) staleShare = .next t) :
    lifeTaken = (aget (t.die 0).shares 0).map (·.life) := by
  unfold lifeTaken
  rw [h]

/-- The copy's share goes before the stale one, whose end is then written over it (R40). -/
theorem lifeTaken_eq : lifeTaken = some .ended := by decide +kernel

/-- Refutes O54: in `staleShare` the die takes `waitingCopy` as share 0, which the statement has waiting. `State.settle` finds the stale
entry of number 0 over, and ends the share that number 0 names, which is the copy's. -/
theorem not_launchesArePlaced : ¬ Obligations.LaunchesArePlaced := by
  unfold Obligations.LaunchesArePlaced
  intro h
  obtain ⟨hq, _⟩ := h staleShare 0
  obtain ⟨_, _, htake⟩ := hq waitingCopy [] rfl
  have hmet : (staleShare.modDie 0 fun v => { v with launchQ := [] }).predRefused 0 waitingCopy.ptag waitingCopy.recd = false := by
    decide +kernel
  have hcount : 0 < mapCount waitingCopy.map := by decide +kernel
  have horigin : waitingCopy.origin = 2 := by decide +kernel
  obtain ⟨t, x, ht, _, hx, hfields, _⟩ := htake horigin hmet hcount
  have hfresh : staleShare.fresh = 0 := by decide +kernel
  rw [hfresh] at hx
  have hlife : lifeTaken = some x.life := by rw [lifeTaken_of ht, hx, Option.map_some]
  have hwait : x.life = .waiting := congrArg (·.2.2.2.2.1) hfields
  rw [lifeTaken_eq, hwait] at hlife
  exact absurd hlife (by decide)

end Sys2Proof.Machine
end

section
/-! PROOFS. An agent's turn: the start of a clause, and the fetched instruction's execution; a helper's turn with its gang (R47, R74, R78,
R85, R317). -/

namespace Sys2Proof.Machine

/-! An instruction is fetched. -/

theorem State.meetHome_clean {s : State} (hp : s.poison = []) (hu : s.ue = []) (d off : Nat) : s.meetHome d off = .clean := by
  simp [State.meetHome, hp, hu]

theorem State.fetchWord_of_ok {s : State} {d p c : Nat} {ptag : BitVec 12} {a : Addr} (h : s.chkNow d ptag a.toNat 8 .fetch = .ok p c)
    (hp : s.poison = []) (hu : s.ue = []) : s.fetchWord d ptag a = .inl (BitVec.ofNat 64 (s.stackRead d p 8)) := by
  simp [State.fetchWord, h, State.meetHome_clean hp hu]

section
variable {s : State} {ag : Agent} {f : Fragment}

/-- The turn of an agent within a clause is its instruction. -/
theorem stepOne_of_instr {p c : Nat} {i : Instr} (hf : s.front? ag = some f) (hm : s.mayIssue ag f = true) (hh : f.hdr.isSome = true)
    (hb : s.fetchBusy (keyDie (agKey ag)) (s.ptagOf (agKey ag)) f.pc = false)
    (hc : s.chkNow (keyDie (agKey ag)) (s.ptagOf (agKey ag)) f.pc.toNat 8 .fetch = .ok p c) (hp : s.poison = []) (hu : s.ue = [])
    (hi : decode (BitVec.ofNat 64 (s.stackRead (keyDie (agKey ag)) p 8)) = .ok i) : stepOne s ag = exec i { s with cur := some ag } := by
  have hn : f.hdr.isNone = false := by simpa using hh
  simp only [stepOne, hf, hm, hn, hb, State.agFetch, State.fetchWord_of_ok hc hp hu, hi, Bool.not_true, Bool.false_eq_true, if_false]

/-- The turn of an agent at a header is the start of its clause. -/
theorem stepOne_of_header (hf : s.front? ag = some f) (hm : s.mayIssue ag f = true) (hh : f.hdr = none) :
    stepOne s ag = exec (.clauseStart ag) { s with cur := some ag } := by
  simp only [stepOne, hf, hm, hh, Option.isNone_none, Bool.not_true, Bool.false_eq_true, if_false, if_true]

theorem stepOne_of_late (hf : s.front? ag = some f) (hm : s.mayIssue ag f = false) : stepOne s ag = .next s := by
  simp only [stepOne, hf, hm, Bool.not_false, if_true]

theorem step_of_issue {rest : List Turn} (h : s.agenda = .issue ag :: rest) (hn : ∀ n m k h, ag ≠ .helper n m k h) :
    step s = stepOne { s with agenda := rest, cur := none } ag := by
  simp only [step, h]
  cases ag with
  | frag n m k e => rfl
  | helper n m k j => exact absurd rfl (hn n m k j)
  | seq d n => rfl

theorem step_of_gang {rest : List Turn} {n m k h : Nat} (ha : s.agenda = .issue (.helper n m k h) :: rest) :
    step s = stepGang { s with agenda := rest, cur := none } n m k h := by
  simp only [step, ha]
  rfl

end

/-! A clause starts. -/

/-- A fragment that begins its clause (R78). -/
def Fragment.begun (w : Code) (x : Fragment) : Fragment := { x with hdr := some w, idx := 0, stall := .none }

theorem badHeader_of_ok {w : Code} (hc : bits w 59 57 < 6)
    (hw : ∀ lo ∈ [22, 29, 36, 43], bits w (lo + 6) lo < 80 ∨ bits w (lo + 6) lo = 127) : badHeader w = false := by
  simp only [List.forall_mem_cons, List.not_mem_nil, false_implies, implies_true, and_true, Nat.reduceAdd] at hw
  obtain ⟨h1, h2, h3, h4⟩ := hw
  simp [badHeader]
  omega

theorem counterWait_of_zero {s : State} {ag : Agent} {w : Code}
    (h : ∀ gr k, s.group? (agKey ag) = some gr → k < 8 → w.getLsbD (14 + k) = true → gr.counter k = 0) : s.counterWait ag w = false := by
  unfold State.counterWait
  split
  · rfl
  · next gr hg =>
    rw [List.any_eq_false]
    intro k hk
    cases hb : w.getLsbD (14 + k)
    · simp
    · simp [h gr k hg (List.mem_range.mp hk) hb]

section
variable {s : State} {ag : Agent} {f : Fragment} {w : Code}

/-- An agent at a valid header that nothing holds back begins the clause. -/
theorem State.startClause_of_ok (hh : f.hdr = none) (hm : s.mayIssue ag f = true) (hb : s.agFetchBusy ag f.clause = false)
    (hw : s.fetchWord (keyDie (agKey ag)) (s.ptagOf (agKey ag)) f.clause = .inl w) (hk : bits w 63 60 = 15)
    (hbad : badHeader w = false) (hseq : ∀ n m, ag = .seq n m → seqHeaderBad w = false) (hs : s.stopBefore ag w = none)
    (hc : s.counterWait ag w = false) : s.startClause ag f = s.modFront ag (Fragment.begun w) := by
  have hi : isHeader w = true := by simp [isHeader, hk]
  cases ag with
  | frag n m k e =>
    simp [State.startClause, hh, hm, hb, hw, hi, hbad, hs, hc]
    rfl
  | helper n m k e =>
    simp [State.startClause, hh, hm, hb, hw, hi, hbad, hs, hc]
    rfl
  | seq d n =>
    simp [State.startClause, hh, hm, hb, hw, hi, hseq d n rfl, hs]
    rfl

end

/-! The helpers of a gang. -/

section
variable {s : State} {n m k h : Nat}

theorem State.front_helper {x : Helper} (hx : s.helper? (groupKey n m k) h = some x) (hl : x.life = .running) :
    s.front? (.helper n m k h) = some x.front := by
  have hx' : s.helper? (agKey (.helper n m k h)) h = some x := hx
  simp [State.front?, hx', hl]

theorem State.front_helper_none {x : Helper} (hx : s.helper? (groupKey n m k) h = some x) (hl : x.life ≠ .running) :
    s.front? (.helper n m k h) = none := by
  have hx' : s.helper? (agKey (.helper n m k h)) h = some x := hx
  simp [State.front?, hx', hl]

/-- Whether a helper may issue is not said by where the helpers of its recruitment stand. -/
theorem State.mayIssue_modFront (j : Nat) (p : Fragment → Fragment) (f : Fragment) :
    (s.modFront (.helper n m k j) p).mayIssue (.helper n m k h) f = s.mayIssue (.helper n m k h) f := by
  have hgrp : (s.modFront (.helper n m k j) p).group? (groupKey n m k) = (s.group? (groupKey n m k)).map fun g =>
      { g with recruit := g.recruit.map fun r => { r with helpers := amod r.helpers j fun x => { x with front := p x.front } } } := by
    simp only [State.modFront, State.modHelper, State.modRecruit, agKey, State.group_modGroup, if_true]
  have hlate : ((s.modFront (.helper n m k j) p).helper? (groupKey n m k) h).map (fun x => x.late s.clock) =
      (s.helper? (groupKey n m k) h).map fun x => x.late s.clock := by
    simp only [State.helper?, hgrp]
    cases s.group? (groupKey n m k) with
    | none => rfl
    | some g =>
      cases hr : g.recruit with
      | none => simp [hr]
      | some r =>
        simp only [hr, Option.map_some, Option.bind_some, aget_amod]
        split
        · next he => subst he; cases aget r.helpers h <;> rfl
        · rfl
  have hsince : ((s.modFront (.helper n m k j) p).group? (groupKey n m k)).bind (fun g => g.recruit.map fun r => r.since != some s.clock) =
      (s.group? (groupKey n m k)).bind fun g => g.recruit.map fun r => r.since != some s.clock := by
    rw [hgrp]
    cases s.group? (groupKey n m k) with
    | none => rfl
    | some g => cases hr : g.recruit <;> simp [hr]
  have hteam : (s.modFront (.helper n m k j) p).teamOf? (groupKey n m k) = s.teamOf? (groupKey n m k) := rfl
  have hclock : (s.modFront (.helper n m k j) p).clock = s.clock := rfl
  have hphase : (s.modFront (.helper n m k j) p).phase = s.phase := rfl
  simp only [State.mayIssue, agKey, hteam, hclock, hphase, hlate, hsince]

/-- The counters of a group do not say where its helpers stand. -/
theorem State.counterWait_modFront (j : Nat) (p : Fragment → Fragment) (w : Code) :
    (s.modFront (.helper n m k j) p).counterWait (.helper n m k h) w = s.counterWait (.helper n m k h) w := by
  simp only [State.counterWait, State.modFront, State.modHelper, State.modRecruit, agKey, State.group_modGroup, if_true]
  cases s.group? (groupKey n m k) <;> rfl

end

/-- The helpers of a gang at one header start the clause together (R317). -/
theorem startClause_foldl {n m k : Nat} {w : Code} {a : Addr} (hk : bits w 63 60 = 15) (hbad : badHeader w = false) (l : List (Nat × Helper)) :
    ∀ s : State, (∀ j, s.agFetchBusy (.helper n m k j) a = false) →
      s.fetchWord (keyDie (groupKey n m k)) (s.ptagOf (groupKey n m k)) a = .inl w → (∀ j, s.counterWait (.helper n m k j) w = false) →
      (∀ e ∈ l, e.2.front.hdr = none ∧ e.2.front.clause = a ∧ s.mayIssue (.helper n m k e.1) e.2.front = true) →
      l.foldl (fun s e => s.startClause (.helper n m k e.1) e.2.front) s =
        l.foldl (fun s e => s.modFront (.helper n m k e.1) (Fragment.begun w)) s := by
  induction l with
  | nil => intros; rfl
  | cons e l ih =>
    intro s hb hw hc hl
    obtain ⟨hh, ha, hm⟩ := hl e (List.mem_cons_self ..)
    have hstart : s.startClause (.helper n m k e.1) e.2.front = s.modFront (.helper n m k e.1) (Fragment.begun w) :=
      State.startClause_of_ok hh hm (by rw [ha]; exact hb e.1) (by rw [ha]; exact hw) hk hbad (by rintro _ _ ⟨⟩) rfl (hc e.1)
    rw [List.foldl_cons, List.foldl_cons, hstart]
    refine ih _ (fun j => ?_) ?_ (fun j => ?_) fun x hx => ?_
    · exact hb j
    · exact hw
    · rw [State.counterWait_modFront]
      exact hc j
    · rw [State.mayIssue_modFront]
      exact hl x (List.mem_cons_of_mem _ hx)

/-! Which helpers issue together (R317). -/

theorem mem_of_aget {α : Type} {l : List (Nat × α)} {k : Nat} {v : α} (h : aget l k = some v) : (k, v) ∈ l := by
  induction l with
  | nil => exact absurd h (by simp [aget])
  | cons e l ih =>
    obtain ⟨j, w⟩ := e
    simp only [aget] at h
    split at h
    · next he =>
      subst he
      simp_all
    · exact List.mem_cons_of_mem _ (ih h)

theorem aget_of_mem {α : Type} {l : List (Nat × α)} {k : Nat} {v : α} (hn : (l.map (·.1)).Nodup) (h : (k, v) ∈ l) :
    aget l k = some v := by
  induction l with
  | nil => exact absurd h (by simp)
  | cons e l ih =>
    obtain ⟨j, w⟩ := e
    rw [List.map_cons, List.nodup_cons] at hn
    rcases List.mem_cons.mp h with he | he
    · cases he
      simp [aget]
    · have hne : k ≠ j := by
        rintro rfl
        exact hn.1 (List.mem_map.mpr ⟨_, he, rfl⟩)
      simp [aget, hne, ih hn.2 he]

/-- The slices of a list of helpers, as they first stand, after those of `b`. -/
def slicesFrom (b : List Nat) (l : List (Nat × Helper)) : List Nat :=
  l.foldl (fun b e => if b.contains e.2.slice then b else b ++ [e.2.slice]) b

theorem slicesFrom_cons (a : Nat) (l : List (Nat × Helper)) : ∀ b, ∃ c, slicesFrom (a :: b) l = a :: c := by
  induction l with
  | nil => exact fun b => ⟨b, rfl⟩
  | cons e l ih =>
    intro b
    simp only [slicesFrom, List.foldl_cons]
    split
    · exact ih b
    · exact ih (b ++ [e.2.slice])

theorem State.recruit_of_helper {s : State} {k h : Nat} {x : Helper} (hx : s.helper? k h = some x) :
    ∃ gr rc, s.group? k = some gr ∧ gr.recruit = some rc ∧ aget rc.helpers h = some x := by
  obtain ⟨gr, hg, hx⟩ := Option.bind_eq_some_iff.mp hx
  obtain ⟨rc, hr, hx⟩ := Option.bind_eq_some_iff.mp hx
  exact ⟨gr, rc, hg, hr, hx⟩

/-- Whether a helper stands where helper `x` does, at `f`, and may issue. -/
def State.standsWith (s : State) (k : Nat) (x : Helper) (f : Fragment) (e : Nat × Helper) : Bool :=
  e.2.life == .running && e.2.bank == x.bank && e.2.front.pc == f.pc && e.2.front.hdr.isSome == f.hdr.isSome &&
    s.mayIssue (.helper (keyDie k) (keySlot k) (keyG k) e.1) e.2.front

section
variable {s : State} {k h : Nat} {gr : Group} {rc : Recruit} {x : Helper} {f : Fragment} (hg : s.group? k = some gr)
  (hr : gr.recruit = some rc) (hx : aget rc.helpers h = some x)
include hg hr hx

theorem State.helper_of_recruit : s.helper? k h = some x := by simp [State.helper?, hg, hr, hx]

theorem State.gangMates_eq : s.gangMates k h f = (rc.helpers.filter (s.standsWith k x f)).filter fun e =>
    ((slicesFrom [x.slice] (rc.helpers.filter (s.standsWith k x f))).take 8).contains e.2.slice := by
  simp only [State.gangMates, hg, hr, State.helper_of_recruit hg hr hx, Option.bind_some]
  rfl

theorem State.mem_gangMates {e : Nat × Helper} (he : e ∈ s.gangMates k h f) :
    e ∈ rc.helpers ∧ e.2.life = .running ∧ e.2.bank = x.bank ∧ e.2.front.pc = f.pc ∧ e.2.front.hdr.isSome = f.hdr.isSome ∧
      s.mayIssue (.helper (keyDie k) (keySlot k) (keyG k) e.1) e.2.front = true := by
  rw [State.gangMates_eq hg hr hx, List.mem_filter, List.mem_filter] at he
  obtain ⟨⟨hmem, hst⟩, _⟩ := he
  simp only [State.standsWith, Bool.and_eq_true, beq_iff_eq] at hst
  obtain ⟨⟨⟨⟨h1, h2⟩, h3⟩, h4⟩, h5⟩ := hst
  exact ⟨hmem, h1, h2, h3, h4, h5⟩

/-- The mates of a helper have at most 8 slices. -/
theorem State.gangMates_slices : ((s.gangMates k h f).map (·.2.slice)).dedup.length ≤ 8 := by
  have hsub : ((s.gangMates k h f).map (·.2.slice)).dedup ⊆
      (slicesFrom [x.slice] (rc.helpers.filter (s.standsWith k x f))).take 8 := by
    intro v hv
    obtain ⟨e, he, rfl⟩ := List.mem_map.mp (List.mem_dedup.mp hv)
    rw [State.gangMates_eq hg hr hx, List.mem_filter] at he
    simpa using he.2
  exact ((List.subperm_of_subset (List.nodup_dedup _) hsub).length_le).trans (List.length_take_le ..)

/-- A helper that may issue is of its own gang. -/
theorem State.self_mem_gangMates (hl : x.life = .running)
    (hm : s.mayIssue (.helper (keyDie k) (keySlot k) (keyG k) h) x.front = true) : (h, x) ∈ s.gangMates k h x.front := by
  obtain ⟨c, hc⟩ := slicesFrom_cons x.slice (rc.helpers.filter (s.standsWith k x x.front)) []
  rw [State.gangMates_eq hg hr hx, List.mem_filter, List.mem_filter, hc]
  refine ⟨⟨mem_of_aget hx, ?_⟩, by simp⟩
  simp [State.standsWith, hl, hm]

end

/-! A gang's turn. -/

section
variable {s : State} {n m k h : Nat}

theorem gangIssue_idle {f : Fragment} (hf : s.front? (.helper n m k h) = some f) (hi : s.gangMates (groupKey n m k) h f = [] ∨ f.hdr = none) :
    gangIssue s n m k h = .next s := by
  have hc : ((s.gangMates (groupKey n m k) h f).isEmpty || f.hdr.isNone) = true := by
    rcases hi with hi | hi <;> simp [hi]
  simp only [gangIssue, hf, hc, if_true]

theorem gangIssue_of_no_front (hf : s.front? (.helper n m k h) = none) : gangIssue s n m k h = .next s := by
  simp only [gangIssue, hf]

theorem gangIssue_of_none {f : Fragment} (hf : s.front? (.helper n m k h) = some f)
    (ht : s.takeGang (groupKey n m k) h f (s.gangMates (groupKey n m k) h f) = none) : gangIssue s n m k h = .next s := by
  simp only [gangIssue, hf, ht]
  split <;> rfl

theorem gangIssue_of_taken {f : Fragment} {v : State} {h0 : Nat} {x0 : Helper} {more : List (Nat × Helper)}
    (hf : s.front? (.helper n m k h) = some f) (hh : f.hdr.isSome = true)
    (hl : s.gangMates (groupKey n m k) h f = (h0, x0) :: more)
    (ht : s.takeGang (groupKey n m k) h f ((h0, x0) :: more) = some v) :
    gangIssue s n m k h = stepAll (.helper n m k h0 :: more.map fun e => .helper n m k e.1) v := by
  have hn : f.hdr.isNone = false := by simpa using hh
  simp only [gangIssue, hf, hl, ht, hn, List.isEmpty_cons, Bool.or_self, Bool.false_eq_true, if_false, List.map_cons]

theorem stepAll_of_next {ag : Agent} {t : List Agent} {z : State} (h : stepOne s ag = .next z) : stepAll (ag :: t) s = stepAll t z := by
  simp only [stepAll, h]

theorem stepGang_of_nil {f : Fragment} (hf : s.front? (.helper n m k h) = some f)
    (hl : s.gangMates (groupKey n m k) h { f with hdr := none } = []) : stepGang s n m k h = gangIssue s n m k h := by
  simp only [stepGang, hf, hl]

theorem stepGang_of_header {f : Fragment} (hf : s.front? (.helper n m k h) = some f) (hh : f.hdr = none) {e : Nat × Helper}
    {l : List (Nat × Helper)} (hl : s.gangMates (groupKey n m k) h { f with hdr := none } = e :: l) :
    stepGang s n m k h = exec (.clauseStart (.helper n m k e.1)) { s with cur := some (.helper n m k e.1) } := by
  simp only [stepGang, hf, hl, hh, Option.isNone_none, if_true]
  split <;> simp_all

theorem stepGang_of_started {f : Fragment} (hf : s.front? (.helper n m k h) = some f) (hh : f.hdr.isSome = true) {e : Nat × Helper}
    {l : List (Nat × Helper)} (hl : s.gangMates (groupKey n m k) h { f with hdr := none } = e :: l) {z : State}
    (hz : exec (.clauseStart (.helper n m k e.1)) { s with cur := some (.helper n m k e.1) } = .next z) :
    stepGang s n m k h = gangIssue z n m k h := by
  have hn : f.hdr.isNone = false := by simpa using hh
  simp only [stepGang, hf, hl, hz, hn, Bool.false_eq_true, if_false]

section
variable {g : Group} {x : Helper} (hk : keyDie (groupKey n m k) = n) (hg : s.group? (groupKey n m k) = some g)
  (hx : s.helper? (groupKey n m k) h = some x)
include hk hg hx

theorem takeGang_held (f : Fragment) (l : List (Nat × Helper)) {y : HelperGang} (hy : aget (s.core n g.core).gangs x.bank = some y)
    (hc : y.clock = s.clock) : s.takeGang (groupKey n m k) h f l = none := by
  simp [State.takeGang, hk, hg, hx, hy, hc]

theorem takeGang_free (f : Fragment) (l : List (Nat × Helper))
    (hy : ∀ y, aget (s.core n g.core).gangs x.bank = some y → y.clock ≠ s.clock) : s.takeGang (groupKey n m k) h f l =
      some (s.modCore n g.core fun c =>
        { c with gangs := aput c.gangs x.bank { clock := s.clock, key := groupKey n m k, pc := f.pc.toNat, helpers := l.map (·.1) } }) := by
  have hfree : ((aget (s.core n g.core).gangs x.bank).map fun y => y.clock == s.clock).getD false = false := by
    cases hc : aget (s.core n g.core).gangs x.bank with
    | none => rfl
    | some y => simpa using hy y hc
  simp only [State.takeGang, hk, hg, hx, hfree, Bool.false_eq_true, if_false]

end

end

theorem clause_of_pc {a b : Fragment} (h : a.pc = b.pc) (ha : a.idx = 0) (hb : b.idx = 0) : a.clause = b.clause := by
  simpa [Fragment.pc, ha, hb] using h

/-! The statement. -/

/-- Settles O35: a turn is `stepOne`, which is the fetched instruction or the start of the clause; a helper's is `stepGang`, whose mates
`State.gangMates` says; the helpers of one header start it by induction on them. -/
theorem stepRunsDecoded : Obligations.StepRunsDecoded := by
  refine ⟨?_, ?_, ?_⟩
  · intro s ag f rest p i w
    refine ⟨?_, ?_, ?_, ?_, ?_⟩
    · intro hf hm hh hb hc hp hu hi
      refine ⟨stepOne_of_instr hf hm hh hb hc hp hu hi, fun ha hn => ?_⟩
      rw [step_of_issue ha hn]
      exact stepOne_of_instr (s := { s with agenda := rest, cur := none }) hf hm hh hb hc hp hu hi
    · intro hf hm hh
      refine ⟨stepOne_of_header hf hm hh, fun ha hn => ?_⟩
      rw [step_of_issue ha hn]
      exact stepOne_of_header (s := { s with agenda := rest, cur := none }) hf hm hh
    · intro ha hf hm hn
      rw [step_of_issue ha hn]
      exact stepOne_of_late (s := { s with agenda := rest, cur := none }) hf hm
    · intro ha
      simp only [step, ha]
    · intro hf hh hm hb hw hk hcls hwin hpre hcnt hag
      have hbad := badHeader_of_ok hcls hwin
      have hwait := counterWait_of_zero (ag := ag) hcnt
      rcases hag with ⟨n, m, k, e, rfl⟩ | ⟨⟨n, m, rfl⟩, hz, hc⟩
      · have hstop : s.stopBefore (.frag n m k e) w = none := by simp [State.stopBefore, hpre]
        have := State.startClause_of_ok hh hm hb hw hk hbad (by rintro _ _ ⟨⟩) hstop hwait
        simp only [exec, execClauseStart, hf, this]
        rfl
      · have hseq : seqHeaderBad w = false := by
          simp only [seqHeaderBad, hbad, hz]
          simp only [List.mem_cons, List.not_mem_nil, or_false] at hc
          rcases hc with hc | hc | hc <;> simp [hc]
        have := State.startClause_of_ok hh hm hb hw hk hbad (fun _ _ _ => hseq) rfl hwait
        simp only [exec, execClauseStart, hf, this]
        rfl
  · intro s n m k h x rest w ag key f u starts hn hm hk hx hl
    have hf : s.front? (ag h) = some f := State.front_helper hx hl
    refine ⟨fun ha => ⟨fun hs => ?_, fun h0 x0 more hs => ⟨fun hh => ?_, fun hh z hz => ?_⟩⟩, ?_⟩
    · rw [step_of_gang ha]
      exact stepGang_of_nil (s := { s with agenda := rest, cur := none }) hf hs
    · rw [step_of_gang ha]
      exact stepGang_of_header (s := { s with agenda := rest, cur := none }) hf hh hs
    · rw [step_of_gang ha]
      exact stepGang_of_started (s := { s with agenda := rest, cur := none }) hf hh hs hz
    · intro hh hidx hstarts hmay hb hw hkind hcls hwin hcnt
      obtain ⟨gr, rc, hg, hr, hx'⟩ := State.recruit_of_helper hx
      have hsame : { f with hdr := none } = f := by
        cases hfr : f
        simp_all
      have hmates : s.gangMates key h f = starts := by simp only [starts, hsame]
      have hag : ∀ j, Agent.helper (keyDie key) (keySlot key) (keyG key) j = ag j := fun j => by
        rw [keyDie_groupKey hm hk, keySlot_groupKey hm hk, keyG_groupKey hk]
      have hfold := startClause_foldl hkind (badHeader_of_ok hcls hwin) starts s (n := n) (m := m) (k := k) (a := f.clause)
        (fun _ => hb) (by rw [keyDie_groupKey hm hk]; exact hw) (fun _ => counterWait_of_zero hcnt) fun e he => by
          obtain ⟨_, _, _, hpc, hhd, hme⟩ := State.mem_gangMates hg hr hx' he
          rw [hag] at hme
          exact ⟨by simpa using hhd, clause_of_pc hpc (hstarts e he) hidx, hme⟩
      have hc : (f.hdr.isSome || !s.mayIssue (ag h) f) = false := by rw [hh, hmay]; rfl
      simp only [exec, execClauseStart, hf, ag, hc, Bool.false_eq_true, if_false]
      rw [hmates]
      exact congrArg Host.Outcome.next hfold
  · intro s n m k h gr rc x p i ag key f mates old hn hm hk hg hr hnd hx
    have hx' : s.helper? key h = some x := State.helper_of_recruit hg hr hx
    have hdie : keyDie key = n := keyDie_groupKey hm hk
    have hag : ∀ j, Agent.helper (keyDie key) (keySlot key) (keyG key) j = ag j := fun j => by
      rw [hdie, keySlot_groupKey hm hk, keyG_groupKey hk]
    have hmem : ∀ e ∈ mates, e ∈ rc.helpers ∧ e.2.life = .running ∧ e.2.bank = x.bank ∧ e.2.front.pc = f.pc ∧
        e.2.front.hdr.isSome = f.hdr.isSome ∧ s.mayIssue (ag e.1) e.2.front = true := fun e he => by
      rw [← hag]
      exact State.mem_gangMates hg hr hx he
    refine ⟨hmem, State.gangMates_slices hg hr hx, fun hl hmay => ?_, ?_, ?_, ?_⟩
    · rw [← hag] at hmay
      exact State.self_mem_gangMates hg hr hx hl hmay
    · rintro hi
      by_cases hl : x.life = .running
      · exact gangIssue_idle (State.front_helper hx' hl) hi
      · exact gangIssue_of_no_front (State.front_helper_none hx' hl)
    · rintro ⟨y, hy, hc⟩
      by_cases hl : x.life = .running
      · exact gangIssue_of_none (State.front_helper hx' hl) (takeGang_held hdie hg hx' _ _ hy hc)
      · exact gangIssue_of_no_front (State.front_helper_none hx' hl)
    · intro hl hh hold hb hc hp hu hi h0 x0 more hmt v z hz
      obtain ⟨hmem0, hl0, _, hpc, hhd, hme⟩ := hmem (h0, x0) (by rw [hmt]; exact List.mem_cons_self ..)
      have hf0 : s.front? (ag h0) = some x0.front :=
        State.front_helper (State.helper_of_recruit hg hr (aget_of_mem hnd hmem0)) hl0
      have hv : s.takeGang key h f ((h0, x0) :: more) = some v := by
        rw [← hmt]
        exact takeGang_free hdie hg hx' f mates hold
      have hturn : stepOne v (ag h0) = exec i { v with cur := some (ag h0) } :=
        stepOne_of_instr (p := p) (c := 2) (f := x0.front) hf0 hme (hhd.trans hh)
          (by rw [show keyDie (agKey (ag h0)) = n from hdie, hpc]; exact hb)
          (by rw [show keyDie (agKey (ag h0)) = n from hdie, hpc]; exact hc) hp hu
          (by rw [show keyDie (agKey (ag h0)) = n from hdie]; exact hi)
      rw [gangIssue_of_taken (State.front_helper hx' hl) hh hmt hv]
      exact stepAll_of_next (hturn.trans hz)

end Sys2Proof.Machine
end

section
/-! PROOFS. What writes of an agent's own registers and moves of its own group leave, as one record of the group (R62, R65, R271, R277). -/

namespace Sys2Proof.Machine

/-! Writes of a group's registers. -/

/-- A register of a group written in a lane: the write clears the error marks of what it writes (R382). -/
def Group.setReg (g : Group) (r l : Nat) (w : Word) : Group := (g.wr r l w).modTag r fun t => t.clean (regMark r l)

/-- Writes of a register in a lane, one after another. -/
def Group.setRegs (g : Group) (ws : List (Nat × Nat × Word)) : Group := ws.foldl (fun g x => g.setReg x.1 x.2.1 x.2.2) g

/-- Whether a write of a register in a lane is of what another lane reads there: an s register is one for all lanes (R60). -/
def writesTo (x : Nat × Nat × Word) (r l : Nat) : Prop := r = x.1 ∧ (l = x.2.1 ∨ 256 ≤ x.1)

theorem Group.rd_setReg (g : Group) {r r' l l' : Nat} (w : Word) (hl : l < 64) (hl' : l' < 64) :
    (g.setReg r l w).rd r' l' = if r' = r ∧ (l' = l ∨ 256 ≤ r) then w else g.rd r' l' := by
  rw [Group.setReg, Group.rd_modTag, Group.rd_wr _ _ _ _ _ _ hl hl']

/-- Writes of other registers or lanes leave a register. -/
theorem Group.rd_setRegs_of_not {r l : Nat} (hl : l < 64) (ws : List (Nat × Nat × Word)) :
    ∀ g : Group, (∀ x ∈ ws, x.2.1 < 64 ∧ ¬writesTo x r l) → (g.setRegs ws).rd r l = g.rd r l := by
  induction ws with
  | nil => exact fun _ _ => rfl
  | cons x ws ih =>
    intro g h
    obtain ⟨hx, hn⟩ := h x (List.mem_cons_self ..)
    rw [Group.setRegs, List.foldl_cons, ← Group.setRegs, ih _ fun y hy => h y (List.mem_cons_of_mem _ hy), Group.rd_setReg _ _ hx hl]
    exact if_neg hn

/-- A register that is written, and with one value alone, holds it. -/
theorem Group.rd_setRegs_of_all {r l : Nat} {w : Word} (hl : l < 64) (ws : List (Nat × Nat × Word)) :
    ∀ g : Group, (∀ x ∈ ws, x.2.1 < 64 ∧ (writesTo x r l → x.2.2 = w)) → (∃ x ∈ ws, writesTo x r l) → (g.setRegs ws).rd r l = w := by
  induction ws with
  | nil => rintro g _ ⟨x, hx, _⟩; exact absurd hx (by simp)
  | cons x ws ih =>
    intro g h hex
    obtain ⟨hx, hw⟩ := h x (List.mem_cons_self ..)
    have hrest := fun y hy => h y (List.mem_cons_of_mem x hy)
    rw [Group.setRegs, List.foldl_cons, ← Group.setRegs]
    by_cases hlater : ∃ y ∈ ws, writesTo y r l
    · exact ih _ hrest hlater
    · have hfirst : writesTo x r l := by
        obtain ⟨y, hy, hy'⟩ := hex
        rcases List.mem_cons.mp hy with rfl | hy
        · exact hy'
        · exact absurd ⟨y, hy, hy'⟩ hlater
      rw [Group.rd_setRegs_of_not hl ws _ fun y hy => ⟨(hrest y hy).1, fun hy' => hlater ⟨y, hy, hy'⟩⟩, Group.rd_setReg _ _ hx hl]
      exact (if_pos hfirst).trans (hw hfirst)

/-- Writes leave all of a group but its registers and their tags. -/
theorem Group.setReg_rest (g : Group) (r l : Nat) (w : Word) : { g.setReg r l w with v := g.v, s := g.s, tags := g.tags } = g := by
  unfold Group.setReg Group.wr
  split <;> rfl

theorem Group.setRegs_rest (ws : List (Nat × Nat × Word)) :
    ∀ g : Group, { g.setRegs ws with v := g.v, s := g.s, tags := g.tags } = g := by
  induction ws with
  | nil => exact fun _ => rfl
  | cons x ws ih =>
    intro g
    have h0 := g.setReg_rest x.1 x.2.1 x.2.2
    rw [← ih (g.setReg x.1 x.2.1 x.2.2)] at h0
    exact h0

theorem Group.setRegs_frags (g : Group) (ws : List (Nat × Nat × Word)) : (g.setRegs ws).frags = g.frags := by
  have h := congrArg Group.frags (Group.setRegs_rest ws g)
  exact h

theorem Group.setRegs_resv (g : Group) (ws : List (Nat × Nat × Word)) : (g.setRegs ws).resv = g.resv := by
  have h := congrArg Group.resv (Group.setRegs_rest ws g)
  exact h

/-- The tags of consecutive registers changed. -/
theorem Group.tag_modTags (p : RegTag → RegTag) (n : Nat) : ∀ (g : Group) (r r' : Nat),
    (g.modTags r p n).tag r' = if r ≤ r' ∧ r' < r + n then p (g.tag r') else g.tag r' := by
  induction n with
  | zero => intro g r r'; rw [if_neg (by omega)]; rfl
  | succ n ih =>
    intro g r r'
    rw [Group.modTags, ih, Group.tag_modTag]
    by_cases h : r' = r
    · subst h
      rw [if_neg (by omega), if_pos rfl, if_pos (by omega)]
    · rw [if_neg h]
      exact if_congr (by omega) rfl rfl

theorem Group.modTags_rest (p : RegTag → RegTag) (n : Nat) : ∀ (g : Group) (r : Nat), { g.modTags r p n with tags := g.tags } = g := by
  induction n with
  | zero => exact fun _ _ => rfl
  | succ n ih =>
    intro g r
    exact congrArg (fun h : Group => { h with tags := g.tags }) (ih (g.modTag r p) (r + 1))

theorem Group.modTags_frags (p : RegTag → RegTag) (n : Nat) (g : Group) (r : Nat) : (g.modTags r p n).frags = g.frags := by
  have h := congrArg Group.frags (Group.modTags_rest p n g r)
  exact h

theorem Group.modTags_rd (p : RegTag → RegTag) (n : Nat) (g : Group) (r r' l : Nat) : (g.modTags r p n).rd r' l = g.rd r' l := by
  have h := Group.modTags_rest p n g r
  have hv : (g.modTags r p n).v = g.v := by
    have hv := congrArg Group.v h
    exact hv
  have hs : (g.modTags r p n).s = g.s := by
    have hs := congrArg Group.s h
    exact hs
  rw [Group.rd, Group.rd, hv, hs]

/-- The writes of words to consecutive registers in a lane. -/
def wordsAt (r l : Nat) : List Word → List (Nat × Nat × Word)
  | [] => []
  | w :: t => (r, l, w) :: wordsAt (r + 1) l t

theorem mem_wordsAt {x : Nat × Nat × Word} {l : Nat} {ws : List Word} :
    ∀ {r : Nat}, x ∈ wordsAt r l ws ↔ ∃ i w, ws[i]? = some w ∧ x = (r + i, l, w) := by
  induction ws with
  | nil => simp [wordsAt]
  | cons w ws ih =>
    intro r
    rw [wordsAt, List.mem_cons, ih]
    constructor
    · rintro (rfl | ⟨i, v, hv, rfl⟩)
      · exact ⟨0, w, rfl, rfl⟩
      · exact ⟨i + 1, v, by simpa using hv, by rw [show r + 1 + i = r + (i + 1) by omega]⟩
    · rintro ⟨i, v, hv, rfl⟩
      cases i with
      | zero => exact .inl (by simpa using hv.symm)
      | succ i => exact .inr ⟨i, v, by simpa using hv, by rw [show r + 1 + i = r + (i + 1) by omega]⟩

theorem mem_lanesOf {m : Mask} {l : Nat} : l ∈ lanesOf m ↔ l < 64 ∧ m.getLsbD l = true := by simp [lanesOf]

theorem aget_map_values {α β : Type} (F : α → β) (k : Nat) : ∀ l : List (Nat × α),
    aget (l.map fun e => (e.1, F e.2)) k = (aget l k).map F
  | [] => rfl
  | (j, v) :: t => by
    simp only [List.map_cons, aget]
    split
    · rfl
    · exact aget_map_values F k t

/-! The panel as it differs in one group, and in copies that the cores hold. -/

/-- `t` is the panel `s` with group `k` as `g` says, but for other groups and what the cores hold. -/
def State.became (s t : State) (k : Nat) (g : Group) : Prop := t.group? k = some g ∧ { t with groups := s.groups, cores := s.cores } = s

/-- A fragment of a group as it may try again. -/
def Fragment.retried (g : Group) (x : Fragment) : Fragment := { x with stall := g.stillWaits x.stall }

section
variable {s t : State} {n m k e : Nat} {g : Group} (h : s.became t (groupKey n m k) g)

theorem State.became_refl {j : Nat} (hg : s.group? j = some g) : s.became s j g := ⟨hg, rfl⟩

theorem State.became_of_group {j : Nat} {F : Group → Group} (hg : s.group? j = some g) : s.became (s.modGroup j F) j (F g) :=
  ⟨by rw [State.group_modGroup, if_pos rfl, hg, Option.map_some], rfl⟩

include h

theorem State.became.modGroup (F : Group → Group) : s.became (t.modGroup (groupKey n m k) F) (groupKey n m k) (F g) :=
  ⟨by rw [State.group_modGroup, if_pos rfl, h.1, Option.map_some], h.2⟩

theorem State.became.l1Inval (d c : Nat) (p : Nat → Bool) : s.became (t.l1Inval d c p) (groupKey n m k) g := ⟨h.1, h.2⟩

theorem State.became.setReg (r l : Nat) (w : Word) :
    s.became (t.wrReg (.frag n m k e) r l w) (groupKey n m k) (g.setReg r l w) :=
  h.modGroup fun g => g.setReg r l w

theorem State.became.setEmpty (b : Bool) (c : Nat) (r : Nat) :
    s.became (t.setEmpty (.frag n m k e) r b c) (groupKey n m k) (g.modTags r (fun t => { t with empty := b }) c) := by
  induction c generalizing t g r with
  | zero => exact h
  | succ c ih => exact ih (h.modGroup fun g => g.modTag r fun t => { t with empty := b }) (r + 1)

theorem State.became.setRegs (ws : List (Nat × Nat × Word)) :
    s.became (ws.foldl (fun s x => s.wrReg (.frag n m k e) x.1 x.2.1 x.2.2) t) (groupKey n m k) (g.setRegs ws) := by
  induction ws generalizing t g with
  | nil => exact h
  | cons x ws ih => exact ih (h.setReg x.1 x.2.1 x.2.2)

/-- The fragment goes on, and the waiting ones of the group may try again. -/
theorem State.became.goOn {f : Fragment} (hf : aget g.frags e = some f) :
    ∃ gt y, s.became ((t.advance (.frag n m k e)).wake (groupKey n m k)) (groupKey n m k) gt ∧
      gt.resv = g.resv ∧ (∀ r l, gt.rd r l = g.rd r l) ∧ gt.tags = g.tags ∧ aget gt.frags e = some y ∧
      (y.clause, y.idx, y.hdr, y.wait) = (f.advance.clause, f.advance.idx, f.advance.hdr, f.advance.wait) := by
  have h1 : s.became (t.advance (.frag n m k e)) (groupKey n m k) { g with frags := amod g.frags e Fragment.advance } := h.modGroup _
  have hfr : aget (amod g.frags e Fragment.advance) e = some f.advance := by rw [aget_amod, if_pos rfl, hf, Option.map_some]
  refine ⟨_, f.advance.retried { g with frags := amod g.frags e Fragment.advance }, h1.modGroup _, rfl, fun _ _ => rfl, rfl, ?_, rfl⟩
  exact (aget_map_values (Fragment.retried { g with frags := amod g.frags e Fragment.advance }) e _).trans (congrArg (Option.map _) hfr)

theorem State.became.rest : t.pends = s.pends ∧ t.msgs = s.msgs ∧ t.queues = s.queues ∧ t.mem = s.mem ∧ t.l2 = s.l2 := by
  have hrest := h.2
  refine ⟨?_, ?_, ?_, ?_, ?_⟩ <;> rw [← hrest]

end

/-! A result written to the active lanes (R62, R271). -/

/-- The writes of a result: of v registers one in each lane, of s registers one (R62). -/
def resultWrites (d : Nat) (act : Mask) (ws : List Word) : List (Nat × Nat × Word) :=
  if 256 ≤ d then ((lanesOf act).head?.map fun l => wordsAt d l ws).getD [] else (lanesOf act).flatMap fun l => wordsAt d l ws

theorem State.wrWords_eq (ag : Agent) (l : Nat) (ws : List Word) : ∀ (s : State) (r : Nat),
    s.wrWords ag r l ws = (wordsAt r l ws).foldl (fun s x => s.wrReg ag x.1 x.2.1 x.2.2) s := by
  induction ws with
  | nil => exact fun _ _ => rfl
  | cons w ws ih => exact fun s r => ih (s.wrReg ag r l w) (r + 1)

theorem State.putResult_eq (s : State) (ag : Agent) (d : RegNo) (act : Mask) (ws : List Word) :
    s.putResult ag d act ws = (resultWrites d.toNat act ws).foldl (fun s x => s.wrReg ag x.1 x.2.1 x.2.2) s := by
  unfold State.putResult State.wrLanes resultWrites
  split
  · cases lanesOf act with
    | nil => rfl
    | cons l t => exact s.wrWords_eq ag l ws d.toNat
  · rw [List.foldl_map, List.foldl_flatMap]
    exact congrArg (fun p => List.foldl p s (lanesOf act)) (funext fun s => funext fun l => s.wrWords_eq ag l ws d.toNat)

theorem mem_resultWrites {x : Nat × Nat × Word} {d : Nat} {act : Mask} {ws : List Word} (h : x ∈ resultWrites d act ws) :
    ∃ l i w, l ∈ lanesOf act ∧ ws[i]? = some w ∧ x = (d + i, l, w) := by
  unfold resultWrites at h
  split at h
  · cases hl : lanesOf act with
    | nil => simp [hl] at h
    | cons l t =>
      rw [hl] at h
      obtain ⟨i, w, hw, rfl⟩ := mem_wordsAt.mp h
      exact ⟨l, i, w, List.mem_cons_self .., hw, rfl⟩
  · obtain ⟨l, hl, hx⟩ := List.mem_flatMap.mp h
    obtain ⟨i, w, hw, rfl⟩ := mem_wordsAt.mp hx
    exact ⟨l, i, w, hl, hw, rfl⟩

/-- Each active lane reads the result's words from the destination on. -/
theorem Group.rd_resultWrites (g : Group) {d i l : Nat} {act : Mask} {ws : List Word} {w : Word} (hw : ws[i]? = some w)
    (hl : act.getLsbD l = true) : (g.setRegs (resultWrites d act ws)).rd (d + i) l = w := by
  have hl64 : l < 64 := BitVec.lt_of_getLsbD hl
  have hmem : l ∈ lanesOf act := mem_lanesOf.mpr ⟨hl64, hl⟩
  refine Group.rd_setRegs_of_all hl64 _ g (fun x hx => ?_) ?_
  · obtain ⟨l', j, v, hl', hv, rfl⟩ := mem_resultWrites hx
    refine ⟨(mem_lanesOf.mp hl').1, fun hto => ?_⟩
    have hij : j = i := by
      have := hto.1
      dsimp only at this
      omega
    rw [hij, hw] at hv
    exact (Option.some.inj hv).symm
  · unfold resultWrites
    split
    · cases hls : lanesOf act with
      | nil => simp [hls] at hmem
      | cons l0 t => exact ⟨(d + i, l0, w), mem_wordsAt.mpr ⟨i, w, hw, rfl⟩, rfl, .inr (by dsimp only; omega)⟩
    · exact ⟨(d + i, l, w), List.mem_flatMap.mpr ⟨l, hmem, mem_wordsAt.mpr ⟨i, w, hw, rfl⟩⟩, rfl, .inl rfl⟩

/-! The elements of a get or try in its registers (R270, R277). -/

theorem natOfBytes_drop : ∀ (k : Nat) (l : List Byte), natOfBytes (l.drop k) = natOfBytes l / 256 ^ k
  | 0, l => by simp
  | k + 1, [] => by simp [natOfBytes]
  | k + 1, b :: t => by
    have hb := b.isLt
    rw [List.drop_succ_cons, natOfBytes_drop k t, natOfBytes, Nat.pow_succ', ← Nat.div_div_eq_div_mul]
    congr 1
    omega

theorem natOfBytes_take : ∀ (k : Nat) (l : List Byte), natOfBytes (l.take k) = natOfBytes l % 256 ^ k
  | 0, l => by simp [natOfBytes, Nat.mod_one]
  | k + 1, [] => by simp [natOfBytes]
  | k + 1, b :: t => by
    have hb := b.isLt
    rw [List.take_succ_cons, natOfBytes, natOfBytes_take k t, natOfBytes, Nat.pow_succ', Nat.mod_mul]
    congr 1
    · omega
    · rw [show (b.toNat + 256 * natOfBytes t) / 256 = natOfBytes t by omega]

/-- The words of an element are its bytes, four by four. -/
theorem wordsOf_elem {data : List Byte} {n j : Nat} (h : data.length = 4 * n) (hj : j < n) :
    (wordsOf data.length (natOfBytes data))[j]? = some (BitVec.ofNat 32 (fieldAt data (4 * j) 4)) := by
  have hlen : (data.length + 3) / 4 = n := by omega
  have hval : BitVec.ofNat 32 (natOfBytes data / 2 ^ (32 * j)) = BitVec.ofNat 32 (fieldAt data (4 * j) 4) := by
    apply BitVec.eq_of_toNat_eq
    rw [BitVec.toNat_ofNat, BitVec.toNat_ofNat, fieldAt, natOfBytes_take, natOfBytes_drop, show (256 : Nat) ^ (4 * j) = 2 ^ (32 * j) by
      rw [show (256 : Nat) = 2 ^ 8 by rfl, ← Nat.pow_mul]; congr 1; omega, show (256 : Nat) ^ 4 = 2 ^ 32 by rfl, Nat.mod_mod]
  simp only [wordsOf, hlen, List.getElem?_map, List.getElem?_range hj, Option.map_some, hval]

theorem length_wordsOf {data : List Byte} {n : Nat} (h : data.length = 4 * n) : (wordsOf data.length (natOfBytes data)).length = n := by
  simp [wordsOf, h]
  omega

section
variable (p : Pend) (es : List Elem)

/-- The lanes that receive an element, each with its own. -/
def Pend.dealt : List (Nat × Elem) := ((lanesOf p.act).take es.length).zip es

/-- The writes of the elements. -/
def Pend.elemWrites : List (Nat × Nat × Word) :=
  (p.dealt es).flatMap fun x => wordsAt p.d.toNat x.1 (wordsOf x.2.data.length (natOfBytes x.2.data))

/-- A lane's word of the receipt. -/
def Pend.receiptWord (l : Nat) : Word :=
  match (p.dealt es).find? fun (x : Nat × Elem) => x.1 == l with
  | some x => 0x10000#32 ||| x.2.tag.setWidth 32
  | none => 0#32

/-- The writes of the receipt. -/
def Pend.receiptWrites : List (Nat × Nat × Word) :=
  (p.rec_.map fun c => (lanesOf p.act).map fun l => (c.toNat, l, p.receiptWord es l)).getD []

variable {p es}

theorem Pend.mem_dealt {l : Nat} {x : Elem} : (l, x) ∈ p.dealt es ↔ ∃ i : Nat, (lanesOf p.act)[i]? = some l ∧ es[i]? = some x := by
  unfold Pend.dealt
  rw [List.mem_iff_getElem?]
  refine exists_congr fun i => ?_
  rw [List.getElem?_zip_eq_some, List.getElem?_take]
  constructor
  · rintro ⟨h1, h2⟩
    split at h1
    · exact ⟨h1, h2⟩
    · cases h1
  · rintro ⟨h1, h2⟩
    rw [if_pos (List.getElem?_eq_some_iff.mp h2).1]
    exact ⟨h1, h2⟩

/-- A lane has one place among the active ones. -/
theorem lanesOf_inj {m : Mask} {i j l : Nat} (hi : (lanesOf m)[i]? = some l) (hj : (lanesOf m)[j]? = some l) : i = j := by
  obtain ⟨hi1, hi2⟩ := List.getElem?_eq_some_iff.mp hi
  obtain ⟨hj1, hj2⟩ := List.getElem?_eq_some_iff.mp hj
  exact (List.Nodup.getElem_inj_iff (nodup_lanesOf m)).mp (hi2.trans hj2.symm)

theorem Pend.receiptWord_eq {i l : Nat} (hi : (lanesOf p.act)[i]? = some l) : p.receiptWord es l =
    if i < es.length then 0x10000#32 ||| (((es[i]?).map Elem.tag).getD 0#16).setWidth 32 else 0#32 := by
  unfold Pend.receiptWord
  split
  · next x hx =>
    have hxl := List.find?_some hx
    obtain ⟨j, hj, hej⟩ := Pend.mem_dealt.mp (List.mem_of_find?_eq_some hx)
    rw [beq_iff_eq.mp hxl] at hj
    rw [← lanesOf_inj hi hj] at hej
    rw [if_pos (List.getElem?_eq_some_iff.mp hej).1, hej]
    rfl
  · next hx =>
    rw [if_neg]
    intro hlt
    have := List.find?_eq_none.mp hx (l, es[i]) (Pend.mem_dealt.mpr ⟨i, hi, List.getElem?_eq_getElem hlt⟩)
    simp at this

theorem Pend.mem_elemWrites {x : Nat × Nat × Word} : x ∈ p.elemWrites es ↔
    ∃ (i l : Nat) (e : Elem) (j : Nat) (w : Word), (lanesOf p.act)[i]? = some l ∧ es[i]? = some e ∧ (wordsOf e.data.length (natOfBytes e.data))[j]? = some w ∧
      x = (p.d.toNat + j, l, w) := by
  unfold Pend.elemWrites
  rw [List.mem_flatMap]
  constructor
  · rintro ⟨⟨l, e⟩, hd, hx⟩
    obtain ⟨i, hi, he⟩ := Pend.mem_dealt.mp hd
    obtain ⟨j, w, hw, rfl⟩ := mem_wordsAt.mp hx
    exact ⟨i, l, e, j, w, hi, he, hw, rfl⟩
  · rintro ⟨i, l, e, j, w, hi, he, hw, rfl⟩
    exact ⟨(l, e), Pend.mem_dealt.mpr ⟨i, hi, he⟩, mem_wordsAt.mpr ⟨j, w, hw, rfl⟩⟩

theorem Pend.mem_receiptWrites {x : Nat × Nat × Word} (h : x ∈ p.receiptWrites es) :
    ∃ c l, p.rec_ = some c ∧ l ∈ lanesOf p.act ∧ x = (c.toNat, l, p.receiptWord es l) := by
  unfold Pend.receiptWrites at h
  cases hr : p.rec_ with
  | none => simp [hr] at h
  | some c =>
    rw [hr] at h
    obtain ⟨l, hl, rfl⟩ := List.mem_map.mp h
    exact ⟨c, l, rfl, hl, rfl⟩

section
variable (g : Group) (hv : p.takesV) (hlen : ∀ x ∈ es, x.data.length = 4 * p.n)
include hv hlen

/-- A lane that receives an element reads its words; another lane's registers stay. -/
theorem Pend.rd_elem {i l j : Nat} (hi : (lanesOf p.act)[i]? = some l) (hj : j < p.n) :
    (g.setRegs (p.elemWrites es ++ p.receiptWrites es)).rd (p.d.toNat + j) l =
      if i < es.length then BitVec.ofNat 32 (fieldAt (((es[i]?).map Elem.data).getD []) (4 * j) 4) else g.rd (p.d.toNat + j) l := by
  obtain ⟨hd, hc⟩ := hv
  have hl64 : l < 64 := (mem_lanesOf.mp (List.mem_of_getElem? hi)).1
  have hreceipt : ∀ x ∈ p.receiptWrites es, x.2.1 < 64 ∧ ¬writesTo x (p.d.toNat + j) l := by
    intro x hx
    obtain ⟨c, l', hr, hl', rfl⟩ := Pend.mem_receiptWrites hx
    refine ⟨(mem_lanesOf.mp hl').1, fun hto => ?_⟩
    have := (hc c hr).2
    have := hto.1
    dsimp only at this
    omega
  have helem : ∀ x ∈ p.elemWrites es, x.2.1 < 64 ∧ (writesTo x (p.d.toNat + j) l →
      ∃ e, es[i]? = some e ∧ x.2.2 = BitVec.ofNat 32 (fieldAt e.data (4 * j) 4)) := by
    intro x hx
    obtain ⟨i', l', e, j', w, hi', he, hw, rfl⟩ := Pend.mem_elemWrites.mp hx
    refine ⟨(mem_lanesOf.mp (List.mem_of_getElem? hi')).1, fun hto => ?_⟩
    obtain ⟨hreg, hlane⟩ := hto
    dsimp only at hreg hlane
    have hjj : j' = j := by omega
    have hll : l = l' := by omega
    rw [← hll] at hi'
    rw [lanesOf_inj hi' hi] at he
    rw [hjj, wordsOf_elem (hlen e (List.mem_of_getElem? he)) hj] at hw
    exact ⟨e, he, (Option.some.inj hw).symm⟩
  split
  · next hlt =>
    have he : es[i]? = some es[i] := List.getElem?_eq_getElem hlt
    rw [he, Option.map_some, Option.getD_some]
    refine Group.rd_setRegs_of_all hl64 _ g (fun x hx => ?_) ?_
    · rcases List.mem_append.mp hx with hx | hx
      · refine ⟨(helem x hx).1, fun hto => ?_⟩
        obtain ⟨e, he', hw⟩ := (helem x hx).2 hto
        rw [he] at he'
        rw [hw, Option.some.inj he']
      · exact ⟨(hreceipt x hx).1, fun hto => absurd hto (hreceipt x hx).2⟩
    · have hw := wordsOf_elem (hlen _ (List.getElem_mem hlt)) hj
      exact ⟨_, List.mem_append_left _ (Pend.mem_elemWrites.mpr ⟨i, l, _, j, _, hi, he, hw, rfl⟩), rfl, .inl rfl⟩
  · next hge =>
    refine Group.rd_setRegs_of_not hl64 _ g fun x hx => ?_
    rcases List.mem_append.mp hx with hx | hx
    · refine ⟨(helem x hx).1, fun hto => ?_⟩
      obtain ⟨e, he, _⟩ := (helem x hx).2 hto
      exact hge (List.getElem?_eq_some_iff.mp he).1
    · exact hreceipt x hx

/-- An active lane reads its word of the receipt. -/
theorem Pend.rd_receipt {c : RegNo} {i l : Nat} (hr : p.rec_ = some c) (hi : (lanesOf p.act)[i]? = some l) :
    (g.setRegs (p.elemWrites es ++ p.receiptWrites es)).rd c.toNat l =
      if i < es.length then 0x10000#32 ||| (((es[i]?).map Elem.tag).getD 0#16).setWidth 32 else 0#32 := by
  obtain ⟨hd, hc⟩ := hv
  obtain ⟨hc256, hout⟩ := hc c hr
  have hl64 : l < 64 := (mem_lanesOf.mp (List.mem_of_getElem? hi)).1
  rw [← Pend.receiptWord_eq hi]
  refine Group.rd_setRegs_of_all hl64 _ g (fun x hx => ?_) ?_
  · rcases List.mem_append.mp hx with hx | hx
    · obtain ⟨i', l', e, j', w, hi', he, hw, rfl⟩ := Pend.mem_elemWrites.mp hx
      refine ⟨(mem_lanesOf.mp (List.mem_of_getElem? hi')).1, fun hto => absurd hto.1 ?_⟩
      have hj' := (List.getElem?_eq_some_iff.mp hw).1
      rw [length_wordsOf (hlen e (List.mem_of_getElem? he))] at hj'
      dsimp only
      omega
    · obtain ⟨c', l', hr', hl', rfl⟩ := Pend.mem_receiptWrites hx
      rw [hr] at hr'
      cases hr'
      refine ⟨(mem_lanesOf.mp hl').1, fun hto => ?_⟩
      have hlane := hto.2
      dsimp only at hlane
      have hll : l = l' := by omega
      rw [hll]
  · refine ⟨(c.toNat, l, p.receiptWord es l), List.mem_append_right _ ?_, rfl, .inl rfl⟩
    simp only [Pend.receiptWrites, hr, Option.map_some, Option.getD_some]
    exact List.mem_map.mpr ⟨l, List.mem_of_getElem? hi, rfl⟩

end

end

/-! The answer to a waiting instruction (R266, R267). -/

/-- The panel once an answer is taken: with its message and its instruction's data gone. -/
def State.answerTaken (s : State) (id : Nat) : State :=
  { s with answers := adel s.answers id, msgs := adel s.msgs id, pends := adel s.pends id }

/-- What an answer does to the records leaves all else of a group. -/
theorem Group.resvAfter_rest (g : Group) (p : Pend) (m : Msg) (a : Answer) : { g.resvAfter p m a with resv := g.resv } = g := by
  unfold Group.resvAfter
  split
  · rfl
  · split
    · rfl
    · split <;> rfl
  all_goals rfl

theorem Group.resvAfter_frags (g : Group) (p : Pend) (m : Msg) (a : Answer) : (g.resvAfter p m a).frags = g.frags := by
  have h := congrArg Group.frags (g.resvAfter_rest p m a)
  exact h

/-- The lowest free handle (R273). -/
theorem Group.freeHandle_eq {g : Group} {h : Nat} (h4 : h < 4) (hb : ∀ i, i < h → (aget g.resv i).isSome = true) (hn : aget g.resv h = none) :
    g.freeHandle = h := by
  have hne : ∀ i, i < h → (aget g.resv i).isNone = false := fun i hi => by simp [hb i hi]
  have hyes : (aget g.resv h).isNone = true := by simp [hn]
  unfold Group.freeHandle
  interval_cases h <;> simp [List.find?, hne, hyes]

/-- An answer whose way back is down waits (R377). -/
theorem queueAnswer_of_way_down {s : State} {id k uid : Nat} {ag : Agent} {msg : Msg} {p : Pend} {a : Answer}
    (hm : aget s.msgs id = some msg) (hs : msg.sender = .group k uid ag) (hp : aget s.pends id = some p)
    (ha : aget s.answers id = some a) (hup : s.backUp msg = false) : exec (.queueAnswer id) s = .next s := by
  simp only [exec, execQueueAnswer, ha, hm, hs, hp, hup, Bool.not_false, Bool.true_or, if_true]

/-- QFAULT at a waiting instruction that is no get or try (R233, R267). -/
theorem State.answerFault_eq {u : State} {p : Pend} {g : Group} (id : Nat) (hu : u.group? p.key = some g) (hend : g.ended = false)
    (hform : p.form < 6) (q : BitVec 32) (c : Nat) :
    u.answerFault id p q c = (({ u with pends := adel u.pends id }.modFront p.ag fun f => { f with wait := .run, stall := .none }).raise
      p.ag { code := 35, cause := c, detail := q, lanes := p.act, pc := p.pc }).wake p.key := by
  have hge : ({ u with pends := adel u.pends id } : State).groupEnded p.key = false := by
    have hu' : ({ u with pends := adel u.pends id } : State).group? p.key = some g := hu
    simp [State.groupEnded, hu', hend]
  have h6 : (decide (p.form = 6) || decide (p.form = 7)) = false := by
    rw [Bool.or_eq_false_iff, decide_eq_false_iff_not, decide_eq_false_iff_not]
    omega
  simp only [State.answerFault, hge, h6, Bool.false_eq_true, if_false]

/-- A group with the registers of a get or try FULL. -/
def Group.restored (g : Group) (p : Pend) : Group :=
  let g := g.modTags p.d.toNat (fun t => { t with empty := false }) p.n
  (p.rec_.map fun c => g.modTags c.toNat (fun t => { t with empty := false }) 1).getD g

theorem Group.restored_rd (g : Group) (p : Pend) (r l : Nat) : (g.restored p).rd r l = g.rd r l := by
  unfold Group.restored
  cases p.rec_ <;> simp [Group.modTags_rd]

theorem Group.restored_frags (g : Group) (p : Pend) : (g.restored p).frags = g.frags := by
  unfold Group.restored
  cases p.rec_ <;> simp [Group.modTags_frags]

theorem Group.restored_full (g : Group) (p : Pend) {j : Nat} (hj : j < p.n) : ((g.restored p).tag (p.d.toNat + j)).empty = false := by
  have hdata : ((g.modTags p.d.toNat (fun t => { t with empty := false }) p.n).tag (p.d.toNat + j)).empty = false := by
    rw [Group.tag_modTags, if_pos (by omega)]
  unfold Group.restored
  cases p.rec_ with
  | none => exact hdata
  | some c =>
    simp only [Option.map_some, Option.getD_some]
    rw [Group.tag_modTags]
    split
    · rfl
    · exact hdata

theorem State.became.restoreGet {s t : State} {n m k e : Nat} {g : Group} (h : s.became t (groupKey n m k) g) {p : Pend}
    (hag : p.ag = .frag n m k e) : s.became (t.restoreGet p) (groupKey n m k) (g.restored p) := by
  unfold State.restoreGet Group.restored
  rw [hag]
  have h1 := h.setEmpty (e := e) false p.n p.d.toNat
  cases p.rec_ with
  | none => exact h1
  | some c => exact h1.setEmpty (e := e) false 1 c.toNat

/-- The registers written, FULL again, and the copies of DIE and REPL lines given up (R277, R280). -/
def State.receives (s : State) (p : Pend) (es : List Elem) : State :=
  let u := ((p.elemWrites es ++ p.receiptWrites es).foldl (fun s x => s.wrReg p.ag x.1 x.2.1 x.2.2) s).restoreGet p
  if es.isEmpty then u else u.l1Inval (keyDie p.key) (u.agCore p.ag) (· != 0)

theorem State.getServed_eq {s : State} {id : Nat} {p : Pend} {es : List Elem} (hp : aget s.pends id = some p) (hw : p.want = none) :
    s.getServed id es =
      ((({ s with msgs := adel s.msgs id, pends := adel s.pends id }.receives p es).advance p.ag).wake p.key) := by
  have helem : ∀ u : State, (p.dealt es).foldl
      (fun (s : State) (x : Nat × Elem) => s.wrWords p.ag p.d.toNat x.1 (wordsOf x.2.data.length (natOfBytes x.2.data))) u =
      (p.elemWrites es).foldl (fun s x => s.wrReg p.ag x.1 x.2.1 x.2.2) u := fun u => by
    rw [Pend.elemWrites, List.foldl_flatMap]
    exact congrArg (fun q => List.foldl q u (p.dealt es)) (funext fun s => funext fun x => s.wrWords_eq _ _ _ _)
  simp only [State.getServed, hp, tagMisses, hw]
  rw [State.receives, List.foldl_append, ← helem]
  unfold Pend.receiptWrites
  cases hr : p.rec_ with
  | none => rfl
  | some c =>
    rw [Option.map_some, Option.getD_some, List.foldl_map]
    rfl

theorem State.became.receives {s t : State} {n m k e : Nat} {g : Group} (h : s.became t (groupKey n m k) g) {p : Pend}
    (hag : p.ag = .frag n m k e) (es : List Elem) : s.became (t.receives p es) (groupKey n m k)
      ((g.setRegs (p.elemWrites es ++ p.receiptWrites es)).restored p) := by
  have h1 := (h.setRegs (e := e) (p.elemWrites es ++ p.receiptWrites es)).restoreGet hag
  rw [← hag] at h1
  unfold State.receives
  dsimp only
  split
  · exact h1
  · exact h1.l1Inval _ _ _

section
variable {s : State} {id k0 uid n m k e : Nat} {gr : Group} {f : Fragment} {msg : Msg} {p : Pend}
  (hg : s.group? (groupKey n m k) = some gr) (hf : aget gr.frags e = some f) (hend : gr.ended = false) (hrec : gr.recruit = none)
  (hm : aget s.msgs id = some msg) (hs : msg.sender = .group k0 uid (.frag n m k e)) (hp : aget s.pends id = some p)
  (hag : p.ag = .frag n m k e) (hkey : p.key = groupKey n m k)
include hg hrec hag hkey

/-- No fragment waits for a recruitment where the group has none (R319). -/
theorem answerHeld_false : s.answerHeld p = false := by simp [State.answerHeld, hag, hkey, hg, hrec]

include hm hs hp

/-- A refusal raises QFAULT at the instruction (R233). -/
theorem queueAnswer_of_refuse {c : Nat} (ha : aget s.answers id = some (.refuse c)) (hup : s.backUp msg = true) :
    exec (.queueAnswer id) s =
      .next ({ s with answers := adel s.answers id, msgs := adel s.msgs id }.answerFault id p msg.qid c) := by
  simp only [exec, execQueueAnswer, ha, hm, hs, hp, hup, answerHeld_false hg hrec hag hkey, Bool.not_true, Bool.or_self,
    Bool.false_eq_true, if_false]

/-- An instruction whose home has not answered in time raises QFAULT (R232). -/
theorem queueTimeout_of_late (h1 : msg.dead = false) (h2 : msg.accepted = false) (h3 : msg.out = false) (h4 : msg.ask.isFill = false)
    (h5 : aget s.answers id = none) (h6 : msg.sent + 2 ^ 24 ≤ s.clock) : exec (.queueTimeout id) s =
      .next ({ s with msgs := aput s.msgs id { msg with dead := true, carry := none } }.answerFault id p msg.qid 8) := by
  have h6' : decide (s.clock < msg.sent + Config.timeoutClocks) = false := by
    rw [decide_eq_false_iff_not, Nat.not_lt]
    exact h6
  simp only [exec, execQueueTimeout, hm, h1, h2, h3, h4, h5, h6', Option.isSome_none, hs, hp, answerHeld_false hg hrec hag hkey,
    Bool.or_self, Bool.false_eq_true, if_false]

include hend
include hf

/-- A plain answer writes its words, leaves its records, and the fragment goes on. -/
theorem queueAnswer_of_words {a : Answer} {ws : List Word} (ha : aget s.answers id = some a) (hup : s.backUp msg = true)
    (hr : ∀ c, a ≠ .refuse c) (hsv : ∀ es, a ≠ .served es) (hw : answerWords p gr.freeHandle a = ws)
    (hfree : s.answerFree p ws.length = true) :
    ∃ t gt y, exec (.queueAnswer id) s = .next t ∧ t.group? (groupKey n m k) = some gt ∧ gt.resv = (gr.resvAfter p msg a).resv ∧
      (∀ (i l : Nat) (w : Word), ws[i]? = some w → p.act.getLsbD l = true → gt.rd (p.d.toNat + i) l = w) ∧ aget gt.frags e = some y ∧
      (y.clause, y.idx, y.hdr, y.wait) = (f.advance.clause, f.advance.idx, f.advance.hdr, f.advance.wait) ∧
      aget t.pends id = none ∧ aget t.msgs id = none ∧ t.mem = s.mem ∧ t.l2 = s.l2 := by
  have hexec : exec (.queueAnswer id) s = .next ((((((s.answerTaken id).modGroup (groupKey n m k) fun g => g.resvAfter p msg a).putResult
      (.frag n m k e) p.d p.act ws).advance (.frag n m k e)).wake (groupKey n m k))) := by
    have hge : s.groupEnded p.key = false := by simp [State.groupEnded, hkey, hg, hend]
    have hh : ((s.group? p.key).map Group.freeHandle).getD 0 = gr.freeHandle := by rw [hkey, hg]; rfl
    cases a with
    | refuse c => exact absurd rfl (hr c)
    | served es => exact absurd rfl (hsv es)
    | granted pos c | ok c | full | stale | stat l =>
      simp only [exec, execQueueAnswer, ha, hm, hs, hp, hup, answerHeld_false hg hrec hag hkey, hh, hw, hge, hfree, Bool.not_true,
        Bool.or_self, Bool.false_eq_true, if_false]
      rw [hkey, hag]
      rfl
  have h1 : (s.answerTaken id).became ((s.answerTaken id).modGroup (groupKey n m k) fun g => g.resvAfter p msg a) (groupKey n m k)
      (gr.resvAfter p msg a) := State.became_of_group hg
  have h2 := h1.setRegs (e := e) (resultWrites p.d.toNat p.act ws)
  have hfr : aget ((gr.resvAfter p msg a).setRegs (resultWrites p.d.toNat p.act ws)).frags e = some f := by
    rw [Group.setRegs_frags, Group.resvAfter_frags, hf]
  obtain ⟨gt, y, h3, hresv, hrd, -, hy, hstand⟩ := h2.goOn hfr
  obtain ⟨hpend, hmsg, -, hmem, hl2⟩ := h3.rest
  rw [State.putResult_eq] at hexec
  refine ⟨_, gt, y, hexec, h3.1, hresv.trans (Group.setRegs_resv _ _), fun i l w hwi hl => ?_, hy, hstand, ?_, ?_, hmem, hl2⟩
  · rw [hrd]
    exact Group.rd_resultWrites _ hwi hl
  · rw [hpend]
    simp [State.answerTaken]
  · rw [hmsg]
    simp [State.answerTaken]

omit hend in
/-- The elements of a get or try reach its registers (R277, R278). -/
theorem queueAnswer_of_served {es : List Elem} (ha : aget s.answers id = some (.served es)) (hup : s.backUp msg = true)
    (hb : s.pendBusy id = false) (hwant : p.want = none) (hv : p.takesV) (hlen : ∀ x ∈ es, x.data.length = 4 * p.n) :
    ∃ t gt y, exec (.queueAnswer id) s = .next t ∧ t.group? (groupKey n m k) = some gt ∧ gr.received gt p es ∧ aget gt.frags e = some y ∧
      (y.clause, y.idx, y.hdr, y.wait) = (f.advance.clause, f.advance.idx, f.advance.hdr, f.advance.wait) ∧
      aget t.pends id = none ∧ aget t.msgs id = none ∧ t.queues = s.queues ∧ t.mem = s.mem ∧ t.l2 = s.l2 := by
  have hexec : exec (.queueAnswer id) s =
      .next ((((s.answerTaken id).receives p es).advance (.frag n m k e)).wake (groupKey n m k)) := by
    simp only [exec, execQueueAnswer, ha, hm, hs, hp, hup, answerHeld_false hg hrec hag hkey, hb, Bool.not_true, Bool.or_self,
      Bool.false_eq_true, if_false]
    rw [State.getServed_eq (s := { s with answers := adel s.answers id }) hp hwant, hkey, hag]
    rfl
  have h1 := (State.became_refl (s := s.answerTaken id) hg).receives hag es
  have hfr : aget ((gr.setRegs (p.elemWrites es ++ p.receiptWrites es)).restored p).frags e = some f := by
    rw [Group.restored_frags, Group.setRegs_frags, hf]
  obtain ⟨gt, y, h2, -, hrd, htags, hy, hstand⟩ := h1.goOn hfr
  obtain ⟨hpend, hmsg, hq, hmem, hl2⟩ := h2.rest
  refine ⟨_, gt, y, hexec, h2.1, ⟨fun i l j hi hj => ?_, fun j hj => ?_, fun c i l hr hi => ?_⟩, hy, hstand, ?_, ?_, hq, hmem, hl2⟩
  · rw [hrd, Group.restored_rd]
    exact Pend.rd_elem gr hv hlen hi hj
  · rw [Group.tag, htags]
    exact Group.restored_full _ p hj
  · rw [hrd, Group.restored_rd]
    exact Pend.rd_receipt gr hv hlen hr hi
  · rw [hpend]
    simp [State.answerTaken]
  · rw [hmsg]
    simp [State.answerTaken]

end

/-! A port's own puts (R39, R241, R299, R397). -/

section
variable {s : State} {d : Nat}

/-- With no put kept back there is none to send. -/
theorem State.sendWaiting_of_nil (h : (s.die d).putWait = []) : s.sendWaiting d = s.modDie d fun x => { x with putWait := [] } := by
  simp [State.sendWaiting, h]

theorem portPutAnswer_eq {id pt : Nat} {msg : Msg} {a : Answer} (hm : aget s.msgs id = some msg) (ha : aget s.answers id = some a)
    (hs : msg.sender = .port d pt) (hup : s.backUp msg = true) : exec (.portPutAnswer id) s =
      .next ({ s with answers := adel s.answers id, msgs := adel s.msgs id }.portPutOver d msg a.cause) := by
  simp only [exec, execPortPutAnswer, hm, ha, hs, hup, Bool.not_true, Bool.false_eq_true, if_false]

/-- What panels have in common that differ in their dies alone. -/
theorem State.same_of_dies {t : State} (h : { t with dies := s.dies } = s) :
    t.msgs = s.msgs ∧ t.answers = s.answers ∧ t.groups = s.groups ∧ t.mem = s.mem ∧ t.l2 = s.l2 := by
  refine ⟨?_, ?_, ?_, ?_, ?_⟩ <;> rw [← h]

/-- What a port's settled put leaves: its overflow lists, and all but the dies. -/
theorem State.portPutOver_of_nil {msg : Msg} {o : Option Nat} {u : State} {q : Die → Die}
    (hu : (match o with
      | none => s.portPutDone d msg
      | some c => s.portPutFailed d msg c) = u) (hq : u = s.modDie d q) (hn : (q (s.die d)).putWait = []) :
    ((s.portPutOver d msg o).die d).overflow = (q (s.die d)).overflow ∧ { s.portPutOver d msg o with dies := s.dies } = s := by
  have hover : s.portPutOver d msg o = u.sendWaiting d := congrArg (fun v => State.sendWaiting v d) hu
  have hd : (u.die d).putWait = [] := by rw [hq, State.die_modDie, if_pos rfl, hn]
  rw [hover, State.sendWaiting_of_nil hd, State.die_modDie, if_pos rfl, hq, State.die_modDie, if_pos rfl]
  exact ⟨rfl, rfl⟩

/-- A port whose put fails keeps its fault element (R299). -/
theorem State.portPutOver_of_fault {msg : Msg} {ptag : BitVec 12} {x : List Byte} (c : Nat) (h : (s.die d).putWait = [])
    (hc : msg.carry = some (.fault ptag x)) (hlen : (agetD (s.die d).overflow ptag.toNat []).length < 256) :
    agetD ((s.portPutOver d msg (some c)).die d).overflow ptag.toNat [] = agetD (s.die d).overflow ptag.toNat [] ++ [x] ∧
      { s.portPutOver d msg (some c) with dies := s.dies } = s := by
  have hfail : s.portPutFailed d msg c = s.overflowAdd d ptag x := by simp only [State.portPutFailed, hc]
  have hlt : (agetD (s.die d).overflow ptag.toNat []).length < Config.overflowMax := hlen
  obtain ⟨ho, hrest⟩ := State.portPutOver_of_nil (o := some c) hfail rfl (by dsimp only; rw [if_pos hlt]; exact h)
  refine ⟨?_, hrest⟩
  rw [ho]
  dsimp only
  rw [if_pos hlt, agetD_aput, if_pos rfl]

/-- The element that a port's put took from an overflow list leaves it (R299). -/
theorem State.portPutOver_of_overflow {msg : Msg} {ptag : BitVec 12} {x : List Byte} {l : List (List Byte)} (h : (s.die d).putWait = [])
    (hc : msg.carry = some (.overflow ptag)) (hl : agetD (s.die d).overflow ptag.toNat [] = x :: l) :
    agetD ((s.portPutOver d msg none).die d).overflow ptag.toNat [] = l ∧ { s.portPutOver d msg none with dies := s.dies } = s := by
  have hdone : s.portPutDone d msg = s.modDie d fun x =>
      match (agetD x.overflow ptag.toNat []).tail with
      | [] => { x with overflow := adel x.overflow ptag.toNat }
      | l => { x with overflow := aput x.overflow ptag.toNat l } := by
    simp only [State.portPutDone, hc] <;> rfl
  obtain ⟨ho, hrest⟩ := State.portPutOver_of_nil (o := none) hdone rfl (by split <;> exact h)
  refine ⟨?_, hrest⟩
  rw [ho, hl]
  cases l with
  | nil => simp [agetD]
  | cons y l => simp [agetD_aput]

/-- The oldest element that stays is put again, when none of its list is on its way (R299). -/
theorem faultOverflowPut_sends {ptag : BitVec 12} {x : List Byte} {l : List (List Byte)} {h : QHome} {g : BitVec 6}
    (hw : (s.die d).putWait = []) (hl : agetD (s.die d).overflow ptag.toNat [] = x :: l)
    (ht : s.transQ d ptag 0#32 .none false [0] = .ok (h, g)) (hm : ∀ i y, (i, y) ∈ s.msgs → y.carry = none)
    (hr : s.streamRoom (.port d 0) ptag 0#32 = true) : exec (.faultOverflowPut d ptag.toNat) s =
      .next (s.post (.port d 0) d ptag 0#32 h g (.qrp none [{ data := x, tag := 0#16 }]) (some (.overflow ptag))).1 := by
  have htag : BitVec.ofNat 12 ptag.toNat = ptag := by simp
  have hidle : (s.msgs.any fun e => e.2.sender == .port d 0 && !e.2.dead && e.2.carry == some (.overflow ptag)) = false := by
    rw [List.any_eq_false]
    rintro ⟨i, y⟩ hy
    simp [hm i y hy]
  have hsend : s.portSend d { port := 0, ptag := ptag, qid := 0#32, home := h, gen := g, elem := x, carry := .overflow ptag } =
      (s.post (.port d 0) d ptag 0#32 h g (.qrp none [{ data := x, tag := 0#16 }]) (some (.overflow ptag))).1 := by
    simp [State.portSend, hw, hr]
  simp only [exec, execFaultOverflowPut, htag, hl, ht, hidle, hw, List.any_nil, Bool.or_self, Bool.false_eq_true, if_false, hsend]

/-- A request's message, as its sender, qid, home and content make it. -/
theorem State.post_msgs (s : State) (x : Sender) (d : Nat) (p : BitVec 12) (q : BitVec 32) (h : QHome) (g : BitVec 6) (a : Ask)
    (c : Option PortPut) : ∃ y : Msg, (s.post x d p q h g a c).1.msgs = aput s.msgs s.fresh y ∧
      (y.sender, y.qid, y.home, y.gen, y.ptag, y.ask, y.carry) = (x, q, h, g, p, a, c) := by
  have hstream : (s.streamOf (senderKey x p q)).1.msgs = s.msgs ∧ (s.streamOf (senderKey x p q)).1.fresh = s.fresh := by
    unfold State.streamOf
    split <;> exact ⟨rfl, rfl⟩
  have hcache : ∀ u : State, (u.qCache d p (qidEntry q)).msgs = u.msgs ∧ (u.qCache d p (qidEntry q)).fresh = u.fresh := fun u => by
    unfold State.qCache
    split <;> exact ⟨rfl, rfl⟩
  refine ⟨_, congrArg₂ (fun l j => aput l j _) ((hcache _).1.trans hstream.1) ((hcache _).2.trans hstream.2), rfl⟩

/-- A put whose stream has no room waits (R241). -/
theorem State.portSend_of_no_room {w : WaitPut} (hw : (s.die d).putWait = []) (hr : s.streamRoom (.port d w.port) w.ptag w.qid = false) :
    (s.portSend d w).msgs = s.msgs ∧ ((s.portSend d w).die d).putWait = [w] := by
  have hsend : s.portSend d w = s.modDie d fun x => { x with putWait := x.putWait ++ [w] } := by simp [State.portSend, hr]
  rw [hsend, State.die_modDie, if_pos rfl, hw]
  exact ⟨rfl, rfl⟩

end

/-! The statement. -/

/-- Settles O47: a plain answer by `queueAnswer_of_words`, elements by `queueAnswer_of_served`, a refusal and a timeout by
`State.answerFault_eq`; a port's puts by what they leave of its overflow lists. -/
theorem answersComplete : Obligations.AnswersComplete := by
  refine ⟨?_, ?_, ?_⟩
  · intro s id k0 uid n m k e gr f msg p ag key gone fault ready hn hm hk hg hf hend hrec hmsg hs hp hag hkey
    refine ⟨?_, ?_, ?_, ?_⟩
    · intro done word
      have hdone : ∀ (a : Answer) (ws : List Word) (rs : List (Nat × Resv)), (∀ c, a ≠ .refuse c) → (∀ es, a ≠ .served es) →
          answerWords p gr.freeHandle a = ws → (gr.resvAfter p msg a).resv = rs → done a ws rs := by
        rintro a ws rs hr hsv hw rfl ha hup - hfree -
        exact queueAnswer_of_words hg hf hend hrec hmsg hs hp hag hkey ha hup hr hsv hw hfree
      have hword : ∀ a b c, c < 65536 → resultWord a b c = word a b c := fun a b c hc => by
        simp only [resultWord, word, Nat.mod_eq_of_lt hc]
      refine ⟨fun hform => ⟨fun pos c h h4 hbelow hfree hc => ?_, ?_, ?_⟩, fun hform => ⟨fun c hc => ?_, ?_, ?_⟩,
        fun c r hform hr h4 hc => ⟨fun hlt => ?_, fun hle => ?_, ?_⟩, fun c hform h4 hc => ⟨?_, ?_⟩, fun ws hform => ?_⟩
      · have hh := Group.freeHandle_eq h4 hbelow hfree
        exact hdone _ _ _ (by simp) (by simp) (by rw [hh, ← hword 0 h c hc]; rfl) (by simp only [Group.resvAfter, hform, hh])
      · exact hdone _ _ _ (by simp) (by simp) (by simp [answerWords, hform, hword]) (by simp only [Group.resvAfter, hform])
      · exact hdone _ _ _ (by simp) (by simp) (by simp [answerWords, hform, hword]) (by simp only [Group.resvAfter, hform])
      · rcases hform with hform | hform <;>
          exact hdone _ _ _ (by simp) (by simp) (by simp [answerWords, hform, hword, hc]) (by simp only [Group.resvAfter, hform])
      · rcases hform with hform | hform <;>
          exact hdone _ _ _ (by simp) (by simp) (by simp [answerWords, hform, hword]) (by simp only [Group.resvAfter, hform])
      · rcases hform with hform | hform <;>
          exact hdone _ _ _ (by simp) (by simp) (by simp [answerWords, hform, hword]) (by simp only [Group.resvAfter, hform])
      · exact hdone _ _ _ (by simp) (by simp) (by simp [answerWords, hform, hword, hc])
          (by simp only [Group.resvAfter, hform, hr, if_neg (Nat.not_le.mpr hlt)])
      · exact hdone _ _ _ (by simp) (by simp) (by simp [answerWords, hform, hword, hc])
          (by simp only [Group.resvAfter, hform, hr, if_pos hle])
      · exact hdone _ _ _ (by simp) (by simp) (by simp [answerWords, hform, hword]) (by simp only [Group.resvAfter, hform])
      · exact hdone _ _ _ (by simp) (by simp) (by simp [answerWords, hform, hword, hc]) (by simp only [Group.resvAfter, hform])
      · exact hdone _ _ _ (by simp) (by simp) (by simp [answerWords, hform, hword]) (by simp only [Group.resvAfter, hform])
      · exact hdone _ _ _ (by simp) (by simp) rfl (by simp only [Group.resvAfter, hform])
    · intro es hform ha hup hb hwant hv hlen
      exact queueAnswer_of_served hg hf hrec hmsg hs hp hag hkey ha hup hb hwant hv hlen
    · exact fun a ha hup => queueAnswer_of_way_down hmsg hs hp ha hup
    · intro hform
      refine ⟨fun c ha hup => ?_, fun h1 h2 h3 h4 h5 h6 => ?_⟩
      · rw [queueAnswer_of_refuse hg hrec hmsg hs hp hag hkey ha hup,
          State.answerFault_eq (g := gr) id (by rw [hkey]; exact hg) hend hform, hkey, hag]
      · rw [queueTimeout_of_late hg hrec hmsg hs hp hag hkey h1 h2 h3 h4 h5 h6,
          State.answerFault_eq (g := gr) id (by rw [hkey]; exact hg) hend hform, hkey, hag]
  · intro s id d pt msg a ptag x hm ha hs hup hw
    refine ⟨fun hc hbad hlen => ?_, fun n l hc hok hl => ?_⟩
    · obtain ⟨c, hcause⟩ : ∃ c, a.cause = some c := by
        rcases hbad with rfl | rfl | ⟨c, rfl⟩ <;> exact ⟨_, rfl⟩
      obtain ⟨hover, hrest⟩ :=
        State.portPutOver_of_fault (s := { s with answers := adel s.answers id, msgs := adel s.msgs id }) c hw hc hlen
      rw [← hcause] at hover hrest
      obtain ⟨hmsgs, hans, hgroups, hmem, hl2⟩ := State.same_of_dies hrest
      exact ⟨_, portPutAnswer_eq hm ha hs hup, hover, by rw [hmsgs]; simp, by rw [hans]; simp, hgroups, hmem, hl2⟩
    · obtain ⟨hover, hrest⟩ :=
        State.portPutOver_of_overflow (s := { s with answers := adel s.answers id, msgs := adel s.msgs id }) hw hc hl
      subst hok
      obtain ⟨-, -, hgroups, hmem, -⟩ := State.same_of_dies hrest
      exact ⟨_, portPutAnswer_eq hm ha hs hup, hover, hgroups, hmem⟩
  · intro s d ptag x hw
    refine ⟨fun l h g hl ht hm hr => ?_, fun w hr => State.portSend_of_no_room hw hr⟩
    obtain ⟨y, hy, hfields⟩ := s.post_msgs (.port d 0) d ptag 0#32 h g (.qrp none [{ data := x, tag := 0#16 }]) (some (.overflow ptag))
    have hmails := s.post_mails (.port d 0) d ptag 0#32 h g (.qrp none [{ data := x, tag := 0#16 }]) (some (.overflow ptag))
    exact ⟨_, y, faultOverflowPut_sends hw hl ht hm hr, hy, hfields, hmails.groups, hmails.queues, hmails.mem⟩

end Sys2Proof.Machine
end

section
/-! PROOFS. The decoder reads back every word that the encoder writes (R80 to R87). -/

namespace Sys2Proof.Laws.RoundTrip

/-- Every instruction and event: an instruction by its own lemma, an event because it has no word. -/
theorem statement (i : Instr) : Statement i := by
  cases i with
  | nop => exact nop
  | bra x0 x1 => exact bra _ _
  | brx x0 x1 => exact brx _ _
  | call x0 x1 x2 => exact call _ _ _
  | callx x0 x1 x2 => exact callx _ _ _
  | ret x0 x1 => exact ret _ _
  | join => exact join
  | regang => exact regang
  | loop x0 x1 x2 => exact loop _ _ _
  | endlp x0 x1 => exact endlp _ _
  | exit x0 => exact exit _
  | exitS x0 x1 => exact exitS _ _
  | yield x0 => exact yield _
  | trap x0 x1 => exact trap _ _
  | tret => exact tret
  | spawn x0 x1 => exact spawn _ _
  | ltrig x0 => exact ltrig _
  | csrr x0 x1 x2 => exact csrr _ _ _
  | csrw x0 x1 x2 => exact csrw _ _ _
  | iadd x0 x1 x2 x3 x4 => exact iadd _ _ _ _ _
  | iaddImm x0 x1 x2 x3 x4 => exact iaddImm _ _ _ _ _
  | isub x0 x1 x2 x3 x4 => exact isub _ _ _ _ _
  | isubImm x0 x1 x2 x3 x4 => exact isubImm _ _ _ _ _
  | addc x0 x1 x2 x3 x4 => exact addc _ _ _ _ _
  | subb x0 x1 x2 x3 x4 => exact subb _ _ _ _ _
  | imul x0 x1 x2 x3 => exact imul _ _ _ _
  | imulImm x0 x1 x2 x3 => exact imulImm _ _ _ _
  | imulh x0 x1 x2 x3 x4 => exact imulh _ _ _ _ _
  | imad x0 x1 x2 x3 x4 => exact imad _ _ _ _ _
  | imadw x0 x1 x2 x3 x4 x5 => exact imadw _ _ _ _ _ _
  | imin x0 x1 x2 x3 x4 => exact imin _ _ _ _ _
  | iminImm x0 x1 x2 x3 x4 => exact iminImm _ _ _ _ _
  | imax x0 x1 x2 x3 x4 => exact imax _ _ _ _ _
  | imaxImm x0 x1 x2 x3 x4 => exact imaxImm _ _ _ _ _
  | iabs x0 x1 x2 x3 => exact iabs _ _ _ _
  | ineg x0 x1 x2 x3 => exact ineg _ _ _ _
  | and x0 x1 x2 x3 => exact and _ _ _ _
  | andImm x0 x1 x2 x3 => exact andImm _ _ _ _
  | or x0 x1 x2 x3 => exact or _ _ _ _
  | orImm x0 x1 x2 x3 => exact orImm _ _ _ _
  | xor x0 x1 x2 x3 => exact xor _ _ _ _
  | xorImm x0 x1 x2 x3 => exact xorImm _ _ _ _
  | andn x0 x1 x2 x3 => exact andn _ _ _ _
  | andnImm x0 x1 x2 x3 => exact andnImm _ _ _ _
  | shl x0 x1 x2 x3 => exact shl _ _ _ _
  | shlImm x0 x1 x2 x3 => exact shlImm _ _ _ _
  | shr x0 x1 x2 x3 => exact shr _ _ _ _
  | shrImm x0 x1 x2 x3 => exact shrImm _ _ _ _
  | sar x0 x1 x2 x3 => exact sar _ _ _ _
  | sarImm x0 x1 x2 x3 => exact sarImm _ _ _ _
  | rol x0 x1 x2 x3 => exact rol _ _ _ _
  | rolImm x0 x1 x2 x3 => exact rolImm _ _ _ _
  | bfx x0 x1 x2 x3 x4 => exact bfx _ _ _ _ _
  | bfxImm x0 x1 x2 x3 x4 x5 => exact bfxImm _ _ _ _ _ _
  | bfi x0 x1 x2 x3 x4 => exact bfi _ _ _ _ _
  | popc x0 x1 x2 => exact popc _ _ _
  | clz x0 x1 x2 => exact clz _ _ _
  | brev x0 x1 x2 => exact brev _ _ _
  | icmp x0 x1 x2 x3 x4 x5 => exact icmp _ _ _ _ _ _
  | icmpImm x0 x1 x2 x3 x4 x5 => exact icmpImm _ _ _ _ _ _
  | sel x0 x1 x2 x3 x4 => exact sel _ _ _ _ _
  | mov x0 x1 x2 x3 => exact mov _ _ _ _
  | movi x0 x1 x2 => exact movi _ _ _
  | lea x0 x1 x2 x3 x4 x5 => exact lea _ _ _ _ _ _
  | leaImm x0 x1 x2 x3 x4 x5 => exact leaImm _ _ _ _ _ _
  | fadd x0 x1 x2 x3 x4 => exact fadd _ _ _ _ _
  | fsub x0 x1 x2 x3 x4 => exact fsub _ _ _ _ _
  | fmul x0 x1 x2 x3 x4 => exact fmul _ _ _ _ _
  | ffma x0 x1 x2 x3 x4 x5 => exact ffma _ _ _ _ _ _
  | fmin x0 x1 x2 x3 => exact fmin _ _ _ _
  | fmax x0 x1 x2 x3 => exact fmax _ _ _ _
  | fcmp x0 x1 x2 x3 x4 => exact fcmp _ _ _ _ _
  | fclass x0 x1 x2 => exact fclass _ _ _
  | frcp x0 x1 x2 => exact frcp _ _ _
  | frsq x0 x1 x2 => exact frsq _ _ _
  | fsqrt x0 x1 x2 x3 => exact fsqrt _ _ _ _
  | fex2 x0 x1 x2 => exact fex2 _ _ _
  | flg2 x0 x1 x2 => exact flg2 _ _ _
  | fsin x0 x1 x2 => exact fsin _ _ _
  | fcos x0 x1 x2 => exact fcos _ _ _
  | padd2 x0 x1 x2 x3 x4 x5 => exact padd2 _ _ _ _ _ _
  | pmul2 x0 x1 x2 x3 x4 x5 => exact pmul2 _ _ _ _ _ _
  | pfma2 x0 x1 x2 x3 x4 x5 x6 => exact pfma2 _ _ _ _ _ _ _
  | pdot2 x0 x1 x2 x3 x4 x5 x6 => exact pdot2 _ _ _ _ _ _ _
  | idot4 x0 x1 x2 x3 x4 x5 x6 x7 => exact idot4 _ _ _ _ _ _ _ _
  | cvt x0 x1 x2 x3 x4 x5 x6 x7 x8 => exact cvt _ _ _ _ _ _ _ _ _
  | cbdec x0 x1 x2 x3 x4 => exact cbdec _ _ _ _ _
  | scal x0 x1 x2 x3 x4 x5 => exact scal _ _ _ _ _ _
  | shfl x0 x1 x2 x3 x4 x5 => exact shfl _ _ _ _ _ _
  | vote x0 x1 x2 x3 x4 => exact vote _ _ _ _ _
  | matchLanes x0 x1 x2 x3 x4 => exact matchLanes _ _ _ _ _
  | lred x0 x1 x2 x3 => exact lred _ _ _ _
  | lscan x0 x1 x2 x3 x4 => exact lscan _ _ _ _ _
  | ld x0 x1 x2 x3 x4 x5 x6 => exact ld _ _ _ _ _ _ _
  | st x0 x1 x2 x3 x4 x5 x6 => exact st _ _ _ _ _ _ _
  | ldl x0 x1 x2 x3 x4 x5 => exact ldl _ _ _ _ _ _
  | stl x0 x1 x2 x3 x4 x5 => exact stl _ _ _ _ _ _
  | ldp x0 x1 x2 x3 x4 x5 => exact ldp _ _ _ _ _ _
  | stp x0 x1 x2 x3 x4 x5 => exact stp _ _ _ _ _ _
  | ldu x0 x1 x2 x3 x4 x5 x6 => exact ldu _ _ _ _ _ _ _
  | pref x0 x1 x2 x3 => exact pref _ _ _ _
  | atom x0 x1 x2 x3 x4 x5 x6 x7 => exact atom _ _ _ _ _ _ _ _
  | acas x0 x1 x2 x3 x4 x5 x6 x7 => exact acas _ _ _ _ _ _ _ _
  | red x0 x1 x2 x3 x4 x5 x6 => exact red _ _ _ _ _ _ _
  | fence x0 x1 x2 => exact fence _ _ _
  | binit x0 x1 x2 => exact binit _ _ _
  | barv x0 x1 x2 => exact barv _ _ _
  | bwait x0 x1 x2 => exact bwait _ _ _
  | csub x0 x1 x2 => exact csub _ _ _
  | wqry x0 x1 x2 => exact wqry _ _ _
  | qres x0 x1 x2 x3 => exact qres _ _ _ _
  | qput x0 x1 x2 x3 x4 x5 x6 => exact qput _ _ _ _ _ _ _
  | qrp x0 x1 x2 x3 x4 x5 x6 => exact qrp _ _ _ _ _ _ _
  | qget x0 x1 x2 x3 x4 x5 => exact qget _ _ _ _ _ _
  | qtry x0 x1 x2 x3 x4 x5 => exact qtry _ _ _ _ _ _
  | qcan x0 x1 x2 => exact qcan _ _ _
  | qstatQ x0 x1 x2 => exact qstatQ _ _ _
  | qstatR x0 x1 x2 => exact qstatR _ _ _
  | gname x0 x1 => exact gname _ _
  | gfree x0 => exact gfree _
  | rput x0 x1 x2 x3 x4 => exact rput _ _ _ _ _
  | await x0 x1 x2 => exact await _ _ _
  | recruit x0 x1 x2 x3 x4 x5 => exact recruit _ _ _ _ _ _
  | hnext x0 => exact hnext _
  | hquit x0 => exact hquit _
  | hjoin x0 x1 => exact hjoin _ _
  | mwin x0 x1 x2 => exact mwin _ _ _
  | mlend x0 x1 x2 => exact mlend _ _ _
  | mrd x0 x1 x2 x3 x4 => exact mrd _ _ _ _ _
  | mwr x0 x1 x2 x3 => exact mwr _ _ _ _
  | mma x0 x1 x2 x3 x4 x5 x6 => exact mma _ _ _ _ _ _ _
  | mscale x0 x1 x2 x3 x4 x5 x6 => exact mscale _ _ _ _ _ _ _
  | mclr x0 x1 x2 x3 => exact mclr _ _ _ _
  | mtab x0 x1 x2 x3 => exact mtab _ _ _ _
  | msig x0 x1 x2 x3 x4 => exact msig _ _ _ _ _
  | mdrn x0 x1 x2 x3 x4 x5 x6 => exact mdrn _ _ _ _ _ _ _
  | unassignedOpcode x0 => exact unassignedOpcode _
  | _ => exact fun _ _ h => nomatch h

end Sys2Proof.Laws.RoundTrip

namespace Sys2Proof.Machine

open Sys2Proof.Laws

/-- Settles O37: one lemma per instruction of the table, all of them the field equations of the five formats. -/
theorem decodingInvertsEncoding : Obligations.DecodingInvertsEncoding := fun i w hwf hw => RoundTrip.statement i hwf w hw

/-- Settles O36: each word is its instruction's encoding, so that decoding inverts it. -/
theorem decodeWords : Obligations.DecodeWords := by
  refine ⟨?_, ?_, ?_, ?_, ?_, ?_, ?_, ?_, ?_, ?_, ?_, ?_, ?_, ?_⟩ <;> exact decodingInvertsEncoding _ _ rfl rfl

end Sys2Proof.Machine
end

section
/-! PROOFS. What a computing instruction leaves (R62, R104, R382). -/

namespace Sys2Proof.Machine

/-! Flags of several lanes (R103, R104). -/

theorem Flags.bits_or (a b : Flags) : (a.or b).bits = a.bits ||| b.bits := by
  refine BitVec.eq_of_getLsbD_eq fun i _ => ?_
  simp only [Flags.or, Flags.bits, BitVec.getLsbD_or, BitVec.getLsbD_append, ← BitVec.ofBool_or_ofBool]
  split_ifs <;> rfl

theorem Flags.none_or (a : Flags) : Flags.none.or a = a := by simp [Flags.or, Flags.none]

theorem Flags.bits_foldl_or {i : Nat} (fl : Nat → Flags) (l : List Nat) :
    ∀ a : Flags, (l.foldl (fun a j => a.or (fl j)) a).bits.getLsbD i = (a.bits.getLsbD i || l.any fun j => (fl j).bits.getLsbD i) := by
  induction l with
  | nil => intro a; simp
  | cons j l ih => intro a; rw [List.foldl_cons, ih, Flags.bits_or, BitVec.getLsbD_or, List.any_cons, Bool.or_assoc]

/-! The registers that the active lanes write, and their marks (R62, R382). -/

/-- The writes of a result that each active lane computes: of v registers one in each lane, of s registers the lowest lane's (R62). -/
def laneWrites (d : Nat) (act : Mask) (w : Nat → List Word) : List (Nat × Nat × Word) :=
  if 256 ≤ d then ((lanesOf act).head?.map fun l => wordsAt d l (w l)).getD [] else (lanesOf act).flatMap fun l => wordsAt d l (w l)

theorem State.wrLanes_eq (s : State) (ag : Agent) (d : Nat) (act : Mask) (w : Nat → List Word) :
    s.wrLanes ag d ((lanesOf act).map fun l => (l, w l)) = (laneWrites d act w).foldl (fun s x => s.wrReg ag x.1 x.2.1 x.2.2) s := by
  unfold State.wrLanes laneWrites
  split
  · cases lanesOf act with
    | nil => rfl
    | cons l t => exact s.wrWords_eq ag l (w l) d
  · rw [List.foldl_map, List.foldl_flatMap]
    exact congrArg (fun p => List.foldl p s (lanesOf act)) (funext fun s => funext fun l => s.wrWords_eq ag l (w l) d)

theorem lanesOf_of_ne_zero {act : Mask} (h : act ≠ 0#64) : ∃ t, lanesOf act = lowLane act :: t := by
  unfold lowLane
  cases hl : lanesOf act with
  | nil =>
    refine absurd (BitVec.eq_of_getLsbD_eq fun i hi => ?_) h
    have hmem : i ∉ lanesOf act := by rw [hl]; exact List.not_mem_nil
    rw [mem_lanesOf] at hmem
    simpa [hi] using hmem
  | cons l t => exact ⟨t, rfl⟩

/-- Of an s destination the lowest active lane writes, of a v destination each active lane. -/
theorem mem_laneWrites {x : Nat × Nat × Word} {d : Nat} {act : Mask} {w : Nat → List Word} (hact : act ≠ 0#64) :
    x ∈ laneWrites d act w ↔ ∃ l i v, (if 256 ≤ d then l = lowLane act else l ∈ lanesOf act) ∧ (w l)[i]? = some v ∧ x = (d + i, l, v) := by
  obtain ⟨t, ht⟩ := lanesOf_of_ne_zero hact
  unfold laneWrites
  split
  · simp [ht, mem_wordsAt]
  · simp only [List.mem_flatMap, mem_wordsAt]
    exact ⟨fun ⟨l, hl, i, v, h⟩ => ⟨l, i, v, hl, h⟩, fun ⟨l, i, v, hl, h⟩ => ⟨l, hl, i, v, h⟩⟩

/-- The error marks of a register that some writes clear (R382). -/
def marksCleared (r : Nat) : List (Nat × Nat × Word) → Mask
  | [] => 0#64
  | x :: ws => (if x.1 = r then regMark r x.2.1 else 0#64) ||| marksCleared r ws

theorem getLsbD_marksCleared (r i : Nat) (ws : List (Nat × Nat × Word)) :
    (marksCleared r ws).getLsbD i = true ↔ ∃ x ∈ ws, x.1 = r ∧ (regMark r x.2.1).getLsbD i = true := by
  induction ws with
  | nil => simp [marksCleared]
  | cons x ws ih =>
    rw [marksCleared, BitVec.getLsbD_or, Bool.or_eq_true, ih, List.exists_mem_cons_iff]
    by_cases h : x.1 = r <;> simp [h]

theorem RegTag.clean_zero (t : RegTag) : t.clean 0#64 = t := by
  simp only [RegTag.clean, BitVec.not_zero, BitVec.and_allOnes]

theorem RegTag.clean_clean (t : RegTag) (m m' : Mask) : (t.clean m).clean m' = t.clean (m ||| m') := by
  simp only [RegTag.clean, BitVec.not_or, BitVec.and_assoc]

theorem Group.tag_setRegs (r : Nat) (ws : List (Nat × Nat × Word)) :
    ∀ g : Group, (g.setRegs ws).tag r = (g.tag r).clean (marksCleared r ws) := by
  induction ws with
  | nil => exact fun g => (RegTag.clean_zero _).symm
  | cons x ws ih =>
    intro g
    have hx : (g.setReg x.1 x.2.1 x.2.2).tag r = (g.tag r).clean (if x.1 = r then regMark r x.2.1 else 0#64) := by
      have hwr : ∀ q, (g.wr x.1 x.2.1 x.2.2).tag q = g.tag q := fun q => by unfold Group.wr; split <;> rfl
      rw [Group.setReg, Group.tag_modTag, hwr, hwr]
      by_cases h : r = x.1
      · rw [if_pos h, if_pos h.symm, h]
      · rw [if_neg h, if_neg (Ne.symm h), RegTag.clean_zero]
    rw [marksCleared, ← RegTag.clean_clean, ← hx]
    exact ih _

theorem marksCleared_of_not {r : Nat} {ws : List (Nat × Nat × Word)} (h : ∀ x ∈ ws, x.1 ≠ r) : marksCleared r ws = 0#64 := by
  refine BitVec.eq_of_getLsbD_eq fun i _ => Bool.eq_iff_iff.mpr ?_
  rw [getLsbD_marksCleared]
  simp only [BitVec.getLsbD_zero, Bool.false_eq_true, iff_false]
  exact fun ⟨x, hx, hr, _⟩ => h x hx hr

section
variable {d nd r : Nat} {act : Mask} {w : Nat → List Word} (hact : act ≠ 0#64) (hlen : ∀ l, (w l).length = nd)
include hact

theorem lowLane_mem : lowLane act < 64 ∧ act.getLsbD (lowLane act) = true := by
  obtain ⟨t, ht⟩ := lanesOf_of_ne_zero hact
  exact mem_lanesOf.mp (by rw [ht]; exact List.mem_cons_self ..)

/-- Every write of a result is made by an active lane. -/
theorem lane_of_mem_laneWrites {x : Nat × Nat × Word} (hx : x ∈ laneWrites d act w) : x.2.1 < 64 ∧ act.getLsbD x.2.1 = true := by
  obtain ⟨l, i, v, hl, -, rfl⟩ := (mem_laneWrites hact).mp hx
  split at hl
  · exact hl ▸ lowLane_mem hact
  · exact mem_lanesOf.mp hl

include hlen

theorem reg_of_mem_laneWrites {x : Nat × Nat × Word} (hx : x ∈ laneWrites d act w) : d ≤ x.1 ∧ x.1 < d + nd := by
  obtain ⟨l, i, v, -, hv, rfl⟩ := (mem_laneWrites hact).mp hx
  have hi := (List.getElem?_eq_some_iff.mp hv).1
  rw [hlen] at hi
  exact ⟨Nat.le_add_right .., Nat.add_lt_add_left hi d⟩

/-- A lane that writes, writes every register of the destination. -/
theorem exists_mem_laneWrites (hr : d ≤ r ∧ r < d + nd) {l : Nat} (hl : if 256 ≤ d then l = lowLane act else l ∈ lanesOf act) :
    (r, l, ((w l)[r - d]?).getD 0#32) ∈ laneWrites d act w := by
  have hi : r - d < (w l).length := by rw [hlen]; omega
  refine (mem_laneWrites hact).mpr ⟨l, r - d, _, hl, ?_, by rw [Nat.add_sub_cancel' hr.1]⟩
  rw [List.getElem?_eq_getElem hi, Option.getD_some]

omit hlen in
theorem word_of_mem_laneWrites {x : Nat × Nat × Word} (hx : x ∈ laneWrites d act w) : x.2.2 = ((w x.2.1)[x.1 - d]?).getD 0#32 := by
  obtain ⟨l, i, v, -, hv, rfl⟩ := (mem_laneWrites hact).mp hx
  simp [hv]

/-- An s register of the destination takes the value of the lowest active lane. -/
theorem Group.rd_laneWrites_uniform (g : Group) (hd : 256 ≤ d) (hr : d ≤ r ∧ r < d + nd) {l : Nat} :
    (g.setRegs (laneWrites d act w)).rd r l = ((w (lowLane act))[r - d]?).getD 0#32 := by
  have hsame : ∀ g : Group, g.rd r l = g.rd r 0 := fun g => by
    simp only [Group.rd, show ¬r < 256 by omega, if_false]
  have hlane : ∀ x ∈ laneWrites d act w, x.2.1 = lowLane act := fun x hx => by
    obtain ⟨l, i, v, hl, -, rfl⟩ := (mem_laneWrites hact).mp hx
    rwa [if_pos hd] at hl
  rw [hsame]
  refine Group.rd_setRegs_of_all (by omega) _ g (fun x hx => ⟨(lane_of_mem_laneWrites hact hx).1, fun hto => ?_⟩) ?_
  · rw [word_of_mem_laneWrites hact hx, hlane x hx, ← hto.1]
  · exact ⟨_, exists_mem_laneWrites hact hlen hr (by rw [if_pos hd]), rfl, .inr (by dsimp only; omega)⟩

/-- A v register of the destination takes each active lane's value in that lane. -/
theorem Group.rd_laneWrites_active (g : Group) (hd : d + nd ≤ 256) (hr : d ≤ r ∧ r < d + nd) {l : Nat} (hl : act.getLsbD l = true) :
    (g.setRegs (laneWrites d act w)).rd r l = ((w l)[r - d]?).getD 0#32 := by
  have hl64 : l < 64 := BitVec.lt_of_getLsbD hl
  refine Group.rd_setRegs_of_all hl64 _ g (fun x hx => ⟨(lane_of_mem_laneWrites hact hx).1, fun hto => ?_⟩) ?_
  · obtain ⟨hxr, hxl⟩ := hto
    have hxl : l = x.2.1 := hxl.resolve_right (by omega)
    rw [word_of_mem_laneWrites hact hx, hxl, hxr]
  · exact ⟨_, exists_mem_laneWrites hact hlen hr (by rw [if_neg (by omega)]; exact mem_lanesOf.mpr ⟨hl64, hl⟩), rfl, .inl rfl⟩

/-- No other register changes, and no v register in a lane that is not active. -/
theorem Group.rd_laneWrites_other (g : Group) {l : Nat} (hl : l < 64)
    (h : ¬(d ≤ r ∧ r < d + nd) ∨ r < 256 ∧ act.getLsbD l = false) : (g.setRegs (laneWrites d act w)).rd r l = g.rd r l := by
  refine Group.rd_setRegs_of_not hl _ g fun x hx => ⟨(lane_of_mem_laneWrites hact hx).1, fun ⟨hxr, hxl⟩ => ?_⟩
  obtain ⟨hlo, hhi⟩ := reg_of_mem_laneWrites hact hlen hx
  rcases h with h | ⟨hr, hoff⟩
  · exact h ⟨by omega, by omega⟩
  · have hxl : l = x.2.1 := hxl.resolve_right (by omega)
    rw [hxl, (lane_of_mem_laneWrites hact hx).2] at hoff
    exact Bool.noConfusion hoff

/-- The marks of the values written go: of a v register in the active lanes, of an s register whole (R382). -/
theorem marksCleared_laneWrites (hd : d + nd ≤ 256 ∨ 256 ≤ d) (hr : d ≤ r ∧ r < d + nd) :
    marksCleared r (laneWrites d act w) = if r < 256 then act else BitVec.allOnes 64 := by
  refine BitVec.eq_of_getLsbD_eq fun i hi => Bool.eq_iff_iff.mpr ?_
  rw [getLsbD_marksCleared]
  by_cases h : r < 256
  · have hd : ¬256 ≤ d := by omega
    have hbit : ∀ l, (laneBit l).getLsbD i = true ↔ i = l := fun l => by
      simp only [laneBit, BitVec.getLsbD_shiftLeft, BitVec.getLsbD_one, hi, decide_true, Bool.true_and, Bool.and_eq_true,
        Bool.not_eq_true', decide_eq_false_iff_not, decide_eq_true_eq]
      omega
    simp only [regMark, h, if_true, hbit]
    constructor
    · rintro ⟨x, hx, -, rfl⟩
      exact (lane_of_mem_laneWrites hact hx).2
    · exact fun hact' => ⟨_, exists_mem_laneWrites hact hlen hr (by rw [if_neg hd]; exact mem_lanesOf.mpr ⟨hi, hact'⟩), rfl, rfl⟩
  · simp only [regMark, h, if_false, BitVec.getLsbD_allOnes, hi, decide_true, and_true, iff_true]
    exact ⟨_, exists_mem_laneWrites hact hlen hr (l := lowLane act) (by rw [if_pos (by omega)]), rfl⟩

end

/-! A fragment's result (R62, R104). -/

/-- What a group's own writes, flags and advance make of it. -/
def Group.computed (g : Group) (e : Nat) (ws : List (Nat × Nat × Word)) (fl : Flags) : Group :=
  { g.setRegs ws with sticky := g.sticky ||| fl.bits, frags := amod g.frags e Fragment.advance }

theorem Flags.bits_none : Flags.none.bits = 0#6 := rfl

theorem State.foldl_wrReg_modGroup {n m k e : Nat} (F : Group → Group) (ws : List (Nat × Nat × Word)) :
    ∀ s : State, (ws.foldl (fun s x => s.wrReg (.frag n m k e) x.1 x.2.1 x.2.2) s).modGroup (groupKey n m k) F =
      s.modGroup (groupKey n m k) fun g => F (g.setRegs ws) := by
  induction ws with
  | nil => exact fun s => rfl
  | cons x ws ih => exact fun s => (ih _).trans (State.modGroup_modGroup s _ _ _)

theorem State.computed_frag (s : State) (n m k e : Nat) (act : Mask) (d : RegNo) (w : Nat → List Word) (fl : Nat → Flags) :
    s.computed (.frag n m k e) act d w fl = s.modGroup (groupKey n m k) fun g =>
      g.computed e (laneWrites d.toNat act w) ((lanesOf act).foldl (fun a l => a.or (fl l)) Flags.none) := by
  have hgo : ∀ (u : State) (f : Flags), (u.addFlags (.frag n m k e) f).advance (.frag n m k e) =
      u.modGroup (groupKey n m k) fun g => { g with sticky := g.sticky ||| f.bits, frags := amod g.frags e Fragment.advance } := fun u f => by
    unfold State.addFlags
    split
    · next h =>
      simp only [h, Flags.bits_none, BitVec.or_zero]
      rfl
    · exact State.modGroup_modGroup u _ _ _
  rw [State.computed, State.wrLanes_eq, hgo, State.foldl_wrReg_modGroup]
  unfold Group.computed
  congr 1
  funext g
  have hsticky : (g.setRegs (laneWrites d.toNat act w)).sticky = g.sticky :=
    (congrArg Group.sticky (g.setRegs_rest (laneWrites d.toNat act w)) :)
  rw [hsticky, Group.setRegs_frags]

/-! A helper's result (R320, R321). -/

/-- A helper's registers written from one on, each value's marks cleared (R382). -/
def Helper.setWords (x : Helper) (r : Nat) : List Word → Helper
  | [] => x
  | w :: ws => Helper.setWords
      { x with v := sset 0#32 x.v r w, tags := sset {} x.tags r ((sget {} x.tags r).clean (BitVec.allOnes 64)) } (r + 1) ws

theorem Helper.setWords_rest (ws : List Word) :
    ∀ (x : Helper) (r : Nat), { x.setWords r ws with v := x.v, tags := x.tags } = x := by
  induction ws with
  | nil => exact fun x r => rfl
  | cons w ws ih =>
    intro x r
    have h := ih { x with v := sset 0#32 x.v r w, tags := sset {} x.tags r ((sget {} x.tags r).clean (BitVec.allOnes 64)) } (r + 1)
    exact congrArg (fun y : Helper => { y with v := x.v, tags := x.tags }) h

theorem Helper.setWords_v (ws : List Word) : ∀ (x : Helper) (r q : Nat),
    sget 0#32 (x.setWords r ws).v q = if r ≤ q ∧ q < r + ws.length then (ws[q - r]?).getD 0#32 else sget 0#32 x.v q := by
  induction ws with
  | nil =>
    intro x r q
    rw [if_neg (by simp)]
    rfl
  | cons w ws ih =>
    intro x r q
    rw [Helper.setWords, ih, sget_sset, List.length_cons]
    by_cases hq : q = r
    · subst hq
      rw [if_neg (by omega), if_pos rfl, if_pos (by omega)]
      simp
    · rw [if_neg hq]
      by_cases h : r ≤ q ∧ q < r + (ws.length + 1)
      · rw [if_pos (by omega), if_pos h, show q - r = (q - (r + 1)) + 1 by omega, List.getElem?_cons_succ]
      · rw [if_neg (by omega), if_neg h]

theorem RegTag.clean_allOnes (t : RegTag) : t.clean (BitVec.allOnes 64) = { t with poison := 0#64, ue := 0#64 } := by
  simp only [RegTag.clean, BitVec.not_allOnes, BitVec.and_zero]

theorem Helper.setWords_tags (ws : List Word) : ∀ (x : Helper) (r q : Nat),
    sget {} (x.setWords r ws).tags q =
      if r ≤ q ∧ q < r + ws.length then { sget {} x.tags q with poison := 0#64, ue := 0#64 } else sget {} x.tags q := by
  induction ws with
  | nil =>
    intro x r q
    rw [if_neg (by simp)]
    rfl
  | cons w ws ih =>
    intro x r q
    rw [Helper.setWords, ih, List.length_cons]
    dsimp only
    rw [sget_sset, RegTag.clean_allOnes]
    by_cases hq : q = r
    · subst hq
      rw [if_neg (by omega), if_pos rfl, if_pos (by omega)]
    · rw [if_neg hq]
      by_cases h : r ≤ q ∧ q < r + (ws.length + 1)
      · rw [if_pos (by omega), if_pos h]
      · rw [if_neg (by omega), if_neg h]

/-- What a helper's own writes, flags and advance make of it. -/
def Helper.computed (x : Helper) (r : Nat) (ws : List Word) (fl : Flags) : Helper :=
  { x.setWords r ws with sticky := x.sticky ||| fl.bits, front := x.front.advance }

theorem State.modHelper_modHelper (s : State) (k h : Nat) (F G : Helper → Helper) :
    (s.modHelper k h F).modHelper k h G = s.modHelper k h fun x => G (F x) := by
  simp only [State.modHelper, State.modRecruit, State.modGroup_modGroup, Option.map_map, Function.comp_def, amod_amod]

theorem State.wrWords_modHelper {n m k h l : Nat} (F : Helper → Helper) (ws : List Word) : ∀ (s : State) (r : Nat),
    (s.wrWords (.helper n m k h) r l ws).modHelper (groupKey n m k) h F =
      s.modHelper (groupKey n m k) h fun x => F (x.setWords r ws) := by
  induction ws with
  | nil => exact fun s r => rfl
  | cons w ws ih => exact fun s r => (ih _ (r + 1)).trans (State.modHelper_modHelper s _ _ _ _)

theorem lanesOf_laneBit {l : Nat} (hl : l < 64) : lanesOf (laneBit l) = [l] := by
  revert l; decide

theorem State.computed_helper (s : State) (n m k h : Nat) {l : Nat} (hl : l < 64) {d : RegNo} (hd : d.toNat < 256) (w : Nat → List Word)
    (fl : Nat → Flags) : s.computed (.helper n m k h) (laneBit l) d w fl =
      s.modHelper (groupKey n m k) h fun x => x.computed d.toNat (w l) (fl l) := by
  have hgo : ∀ (u : State) (f : Flags), (u.addFlags (.helper n m k h) f).advance (.helper n m k h) =
      u.modHelper (groupKey n m k) h fun x => { x with sticky := x.sticky ||| f.bits, front := x.front.advance } := fun u f => by
    unfold State.addFlags
    split
    · next h =>
      simp only [h, Flags.bits_none, BitVec.or_zero]
      rfl
    · exact State.modHelper_modHelper u _ _ _ _
  simp only [State.computed, lanesOf_laneBit hl, List.map_cons, List.map_nil, List.foldl_cons, List.foldl_nil, Flags.none_or, hgo,
    State.wrLanes, if_neg (Nat.not_le.mpr hd)]
  refine (State.wrWords_modHelper _ (w l) s d.toNat).trans (congrArg (s.modHelper (groupKey n m k) h) (funext fun x => ?_))
  have hrest := x.setWords_rest (w l) d.toNat
  rw [Helper.computed, show (x.setWords d.toNat (w l)).sticky = x.sticky from (congrArg Helper.sticky hrest :),
    show (x.setWords d.toNat (w l)).front = x.front from (congrArg Helper.front hrest :)]

/-! The statement. -/

theorem State.group_modGroup_of_ne (s : State) {k j : Nat} (F : Group → Group) (h : j ≠ k) : (s.modGroup k F).group? j = s.group? j := by
  rw [State.group_modGroup, if_neg h]

/-- Settles O38: the whole result is one change of the group, or of the helper, whose registers and marks are read off its writes. -/
theorem computingFrame : Obligations.ComputingFrame := by
  refine ⟨?_, ?_⟩
  · intro s n m k e nd act gr f d w fl ag key hg hf hact hlen hd t here
    have ht : t = s.modGroup key fun g => g.computed e (laneWrites d.toNat act w) ((lanesOf act).foldl (fun a l => a.or (fl l)) Flags.none) :=
      s.computed_frag n m k e act d w fl
    have hrd : ∀ r l, (gr.computed e (laneWrites d.toNat act w) ((lanesOf act).foldl (fun a l => a.or (fl l)) Flags.none)).rd r l =
        (gr.setRegs (laneWrites d.toNat act w)).rd r l := fun r l => rfl
    have htag : ∀ r, (gr.computed e (laneWrites d.toNat act w) ((lanesOf act).foldl (fun a l => a.or (fl l)) Flags.none)).tag r =
        (gr.tag r).clean (marksCleared r (laneWrites d.toNat act w)) := fun r => gr.tag_setRegs r _ 
    rw [ht]
    refine ⟨gr.computed e (laneWrites d.toNat act w) ((lanesOf act).foldl (fun a l => a.or (fl l)) Flags.none), ?_, ?_, ?_, ?_, ?_, ?_, ?_,
      ?_, ?_, ?_, fun j hj => s.group_modGroup_of_ne _ hj, rfl⟩
    · rw [State.group_modGroup, if_pos rfl, hg, Option.map_some]
    · exact fun r l hr h => (hrd r l).trans (gr.rd_laneWrites_uniform hact hlen (by omega) hr)
    · exact fun r l hr h _ hl => (hrd r l).trans (gr.rd_laneWrites_active hact hlen (by omega) hr hl)
    · exact fun r l hr h hl hoff => (hrd r l).trans (gr.rd_laneWrites_other hact hlen hl (.inr ⟨h, hoff⟩))
    · exact fun r l hr hl => (hrd r l).trans (gr.rd_laneWrites_other hact hlen hl (.inl hr))
    · intro r hr
      rw [htag, marksCleared_laneWrites hact hlen (by omega) hr]
      rfl
    · intro r hr
      rw [htag, marksCleared_of_not fun x hx hxr => hr (by rw [← hxr]; exact reg_of_mem_laneWrites hact hlen hx),
        RegTag.clean_zero]
    · intro i
      rw [Group.computed, BitVec.getLsbD_or, Flags.bits_foldl_or, Flags.bits_none, BitVec.getLsbD_zero, Bool.false_or]
    · exact amod_of_aget hf _
    · have hrest := gr.setRegs_rest (laneWrites d.toNat act w)
      exact congrArg (fun g : Group => { g with sticky := gr.sticky, frags := gr.frags }) hrest
  · intro s n m k h nd l gr rc x d w fl ag key hg hrc hx hl hlen hd t here
    have ht := s.computed_helper n m k h hl (by omega : d.toNat < 256) w fl
    have hrest := x.setWords_rest (w l) d.toNat
    let F (x : Helper) : Helper := x.computed d.toNat (w l) (fl l)
    refine ⟨{ gr with recruit := some { rc with helpers := amod rc.helpers h F } }, { rc with helpers := amod rc.helpers h F }, F x,
      ?_, rfl, amod_of_aget hx F, fun r hr => ?_, fun r hr => ?_, fun r hr => ?_, fun r hr => ?_, rfl, rfl, ?_, rfl, rfl, fun j hj => ?_, ?_⟩
    · refine (congrArg (State.group? · key) ht).trans ?_
      refine (State.group_modGroup _ _ _ _).trans ((if_pos rfl).trans ((congrArg (Option.map _) hg).trans ?_))
      rw [Option.map_some, hrc, Option.map_some]
    · exact (Helper.setWords_v _ _ _ _).trans (if_pos (by rw [hlen]; exact hr))
    · exact (Helper.setWords_v _ _ _ _).trans (if_neg (by rw [hlen]; exact hr))
    · exact (Helper.setWords_tags _ _ _ _).trans (if_pos (by rw [hlen]; exact hr))
    · exact (Helper.setWords_tags _ _ _ _).trans (if_neg (by rw [hlen]; exact hr))
    · exact congrArg (fun y : Helper => { y with sticky := x.sticky, front := x.front }) hrest
    · exact (congrArg (State.group? · j) ht).trans (s.group_modGroup_of_ne _ hj)
    · exact congrArg (fun u : State => { u with groups := s.groups }) ht

end Sys2Proof.Machine
end

section
/-! PROOFS. LD, LDU and ST issue (R65, R189, R192, R195, R196, R198). -/

namespace Sys2Proof.Machine

/-! What an unmet fence's invalidation leaves, of any agent (R205). -/

theorem State.agCore_modFront (s : State) (ag : Agent) (F : Fragment → Fragment) : (s.modFront ag F).agCore ag = s.agCore ag := by
  have hgrp : ∀ (k : Nat) (G : Group → Group), (∀ g, (G g).core = g.core) →
      ((s.modGroup k G).group? k).map (·.core) = (s.group? k).map (·.core) := fun k G hG => by
    rw [State.group_modGroup, if_pos rfl, Option.map_map]
    exact congrArg (Option.map · (s.group? k)) (funext hG)
  cases ag with
  | frag n m k e => exact congrArg (Option.getD · 0) (hgrp _ _ fun _ => rfl)
  | helper n m k h => exact congrArg (Option.getD · 0) (hgrp _ _ fun _ => rfl)
  | seq d n =>
    simp only [State.agCore, State.modFront, State.modSeq, State.team_modTeam, if_true]
    cases s.team? d n <;> rfl

theorem State.ptagOf_modFront (s : State) (ag : Agent) (F : Fragment → Fragment) (k : Nat) : (s.modFront ag F).ptagOf k = s.ptagOf k := by
  cases ag with
  | frag _ _ _ _ => rfl
  | helper _ _ _ _ => rfl
  | seq d n =>
    simp only [State.ptagOf, State.teamOf?, State.modFront, State.modSeq, State.team_modTeam]
    split
    · next h =>
      rw [Option.map_map, State.team?, State.team?, h]
      rfl
    · rfl

theorem State.agCore_fenceDue (s : State) (ag : Agent) (f : Fragment) : (s.fenceDue ag f).agCore ag = s.agCore ag := by
  unfold State.fenceDue
  split
  · rw [State.agCore_modFront]
    cases ag <;> rfl
  · rfl

theorem State.ptagOf_fenceDue (s : State) (ag : Agent) (f : Fragment) (k : Nat) : (s.fenceDue ag f).ptagOf k = s.ptagOf k := by
  unfold State.fenceDue
  split
  · rw [State.ptagOf_modFront]
    rfl
  · rfl

/-- The checks of an address look at the TLBs alone (R166, R312). -/
theorem State.chkIssue_of_rest {s t : State} (h : { t with groups := s.groups, teams := s.teams } = s) (d c : Nat) (p : BitVec 12)
    (va len : Nat) (need : Need) : t.chkIssue d c p va len need = s.chkIssue d c p va len need := by
  have hu : ({ t with groups := s.groups, teams := s.teams } : State).chkIssue d c p va len need = s.chkIssue d c p va len need := by rw [h]
  exact hu

theorem State.chkIssue_l1Inval (s : State) (d' c' : Nat) (q : Nat → Bool) (d c : Nat) (p : BitVec 12) (va len : Nat) (need : Need) :
    (s.l1Inval d' c' q).chkIssue d c p va len need = s.chkIssue d c p va len need := by
  have htlb : ((s.l1Inval d' c' q).core d c).tlb = (s.core d c).tlb := by
    rw [State.l1Inval, State.core_modCore]
    split
    · next h => rw [State.core, State.core, h]
    · rfl
  unfold State.chkIssue State.tlbGet
  rw [htlb]
  rfl

theorem State.chkIssue_after_fence (s : State) (ag : Agent) (f : Fragment) (d c : Nat) (p : BitVec 12) (va len : Nat) (need : Need) :
    (s.fenceDue ag f).chkIssue d c p va len need = s.chkIssue d c p va len need := by
  unfold State.fenceDue
  split
  · rw [State.chkIssue_of_rest (State.modFront_rest _ ag _), State.chkIssue_l1Inval]
  · rfl

theorem State.earlier_fenceDue (s : State) (ag : Agent) (f x : Fragment) : (s.fenceDue ag f).earlier ag x = s.earlier ag x :=
  congrArg (List.filter fun e : Nat × Access => x.past.contains e.1) (s.fenceDue_flight ag f).1

theorem State.rdTag_modCore (s : State) (d c : Nat) (F : Core → Core) (ag : Agent) (r : Nat) : (s.modCore d c F).rdTag ag r = s.rdTag ag r := by
  cases ag <;> rfl

theorem State.rdTag_fenceDue (s : State) (ag : Agent) (f : Fragment) (r : Nat) : (s.fenceDue ag f).rdTag ag r = s.rdTag ag r := by
  unfold State.fenceDue
  split
  · rw [State.rdTag_modFront]
    exact s.rdTag_modCore _ _ _ ag r
  · rfl

/-- An access that writes no register leaves the agent's scoreboard (R65). -/
theorem State.rdTag_issueAccess {s : State} {ag : Agent} {x : Access} (o : Sys2Proof.Ordering) (hn : x.ndst = 0) (hc : x.cnt = none) (r : Nat) :
    (s.issueAccess ag x o).rdTag ag r = s.rdTag ag r := by
  have hacq : ∀ y : Access, (s.acquireAct y).rdTag ag r = s.rdTag ag r := fun y => by
    have hif : ∀ (b : Bool) (d c : Nat) (q : Nat → Bool), (if b then s.l1Inval d c q else s).rdTag ag r = s.rdTag ag r := fun b d c q => by
      cases b
      · rfl
      · exact s.rdTag_modCore d c (fun k => { k with l1 := k.l1.filter fun e => !q e.2.cls }) ag r
    unfold State.acquireAct
    cases y.space with
    | glob => exact hif _ _ _ _
    | loc => exact hif _ _ _ _
    | tun => rfl
  have hl : (s.launched ag x o).rdTag ag r = s.rdTag ag r := by
    have hm : ∀ u : State, u.markDsts (x.ordered o) true = u := fun u => by
      rw [State.markDsts, show (x.ordered o).cnt = none from hc, show (x.ordered o).ndst = 0 from hn]
      rfl
    rw [State.launched, hm, State.launchAccess, State.rdTag_modFront]
    split
    · rw [← hacq (x.ordered o)]
      cases ag <;> rfl
    · cases ag <;> rfl
  obtain ⟨f, -, h | h⟩ := s.issueAccess_eq ag x o
  · rw [h, State.rdTag_modFront, State.advance, State.rdTag_modFront, hl]
  · rw [h, State.advance, State.rdTag_modFront, hl]

/-! Global accesses (R195, R196, R198). -/

/-- The global address of a lane (R196). -/
def globalAt (s : State) (ag : Agent) (a : Src) (off : BitVec 20) (l : Nat) : Nat :=
  (((s.src ag a 1 l ++ s.src ag a 0 l).setWidth 48 : Addr) + off.signExtend 48).toNat

section
variable {s : State} {ag : Agent} {act : Mask} {f : Fragment} {d : RegNo} {a b : Src} {off : BitVec 20} {w : Width}
  {o : Sys2Proof.Ordering} {g : Guard} {p c : Nat → Nat} {str : Bool}

/-- The panel in which a checked access issues: an unmet fence's invalidation made, and no failed walk of its pages kept. -/
def State.checked (s : State) (ag : Agent) (f : Fragment) (a : Src) (off : BitVec 20) (lanes : List Nat) : State :=
  (s.fenceDue ag f).dropFails (keyDie (agKey ag)) (lanes.map fun l => pageKey (s.ptagOf (agKey ag)) (globalAt s ag a off l))

/-- What an LD, LDU or ST puts in flight (R196, R198). -/
def globalIssued (s : State) (ag : Agent) (f : Fragment) (kind : AccKind) (a : Src) (off : BitVec 20) (w : Width) (p c : Nat → Nat)
    (lanes : List Nat) (dst ndst : Nat) (act : Mask) (uniform : Bool) (data : Nat → Nat) (str : Bool) : Access :=
  { (s.checked ag f a off lanes).newAccess ag f kind .glob with
    pieces := lanes.map fun l =>
      { lane := l, va := globalAt s ag a off l, addr := p l, len := Width.bytes w, cls := c l, reg := 0, data := data l }
    dst := dst, ndst := ndst, act := act, uniform := uniform, stream := str }

/-- An access whose lanes all pass their checks issues. -/
theorem State.oneEach_global {lanes : List Nat} {need : Need}
    (h : ∀ l ∈ lanes, s.chkIssue (keyDie (agKey ag)) (s.agCore ag) (s.ptagOf (agKey ag)) (globalAt s ag a off l) (Width.bytes w) need =
      .ok (p l) (c l)) (kind : AccKind) (dst ndst : Nat) (act : Mask) (uniform : Bool) (o : Sys2Proof.Ordering) (data : Nat → Nat)
    (str : Bool) :
    (s.fenceDue ag f).oneEach ag f kind .glob (lanes.map fun l => (l, globalAt s ag a off l)) (Width.bytes w) need dst ndst act uniform o data
        (fun _ => 0) false str =
      (s.checked ag f a off lanes).issueAccess ag (globalIssued s ag f kind a off w p c lanes dst ndst act uniform data str) o := by
  have hdec := (s.fenceDue ag f).decideAll_of_ok (keyDie (agKey ag)) (s.ptagOf (agKey ag)) lanes id (globalAt s ag a off) (globalAt s ag a off)
    p c (chk := fun l => (s.fenceDue ag f).chkIssue (keyDie (agKey ag)) (s.agCore ag) (s.ptagOf (agKey ag)) (globalAt s ag a off l)
      (Width.bytes w) need) fun l hl => (s.chkIssue_after_fence ag f _ _ _ _ _ _).trans (h l hl)
  simp only [id] at hdec
  simp only [State.oneEach, State.checkGlobal, List.map_map, Function.comp_def, State.agCore_fenceDue, State.ptagOf_fenceDue, hdec,
    State.afterCheck, Bool.false_and, Bool.false_eq_true, if_false]
  rfl

theorem exec_ld_ready (h : s.ready ag act { cls := 2, guard := g, srcs := [(a, 2)], dsts := [(d, Width.regs w)] } = true)
    (hf : s.front? ag = some f) (hh : s.notHeldBack ag f (o == .sc))
    (hchk : ∀ l ∈ lanesOf act, s.chkIssue (keyDie (agKey ag)) (s.agCore ag) (s.ptagOf (agKey ag)) (globalAt s ag a off l) (Width.bytes w)
      .read = .ok (p l) (c l)) :
    exec (.ld d a off w o str g) s = .next ((s.checked ag f a off (lanesOf act)).issueAccess ag
      (globalIssued s ag f .load a off w p c (lanesOf act) d.toNat (Width.regs w) act false (fun _ => 0) str) o) := by
  simp only [exec, execLd]
  rw [issueWith_ready h, State.withMem_ready hf hh]
  exact congrArg _ (State.oneEach_global hchk .load d.toNat (Width.regs w) act false o (fun _ => 0) str)

theorem exec_ldu_ready (h : s.ready ag act { cls := 2, guard := g, srcs := [(a, 2)], dsts := [(d, Width.regs w)], lone := [0] } = true)
    (hf : s.front? ag = some f) (hh : s.notHeldBack ag f (o == .sc))
    (hchk : s.chkIssue (keyDie (agKey ag)) (s.agCore ag) (s.ptagOf (agKey ag)) (globalAt s ag a off (lowLane act)) (Width.bytes w) .read =
      .ok (p (lowLane act)) (c (lowLane act))) :
    exec (.ldu d a off w o str g) s = .next ((s.checked ag f a off [lowLane act]).issueAccess ag
      (globalIssued s ag f .load a off w p c [lowLane act] d.toNat (Width.regs w) act true (fun _ => 0) str) o) := by
  simp only [exec, execLdu]
  rw [issueWith_ready h, State.withMem_ready hf hh]
  exact congrArg _ (State.oneEach_global (lanes := [lowLane act]) (by simpa using hchk) .load d.toNat (Width.regs w) act true o
    (fun _ => 0) str)

theorem exec_st_ready (h : s.ready ag act { cls := 2, guard := g, srcs := [(a, 2), (b, Width.regs w)] } = true)
    (hf : s.front? ag = some f) (hh : s.notHeldBack ag f (o == .sc))
    (hchk : ∀ l ∈ lanesOf act, s.chkIssue (keyDie (agKey ag)) (s.agCore ag) (s.ptagOf (agKey ag)) (globalAt s ag a off l) (Width.bytes w)
      .write = .ok (p l) (c l)) :
    exec (.st b a off w o str g) s = .next ((s.checked ag f a off (lanesOf act)).issueAccess ag
      (globalIssued s ag f .store a off w p c (lanesOf act) 0 0 act false
        (fun l => wordsNumber ((List.range (Width.regs w)).map fun j => s.src ag b j l)) str) o) := by
  simp only [exec, execSt]
  rw [issueWith_ready h, State.withMem_ready hf hh]
  simp only [wordsVal_eq]
  exact congrArg _ (State.oneEach_global hchk .store 0 0 act false o
    (fun l => wordsNumber ((List.range (Width.regs w)).map fun j => s.src ag b j l)) str)

/-- What such an access leaves. -/
theorem globalIssued_spec (kind : AccKind) (lanes : List Nat) (dst ndst : Nat) (uniform : Bool) (data : Nat → Nat) :
    let x := globalIssued s ag f kind a off w p c lanes dst ndst act uniform data str
    let t := (s.checked ag f a off lanes).issueAccess ag x o
    t.flight = aput s.flight s.fresh (x.ordered o) ∧ t.fresh = s.fresh + 1 ∧ (x.ordered o).before = (s.earlier ag f).map (·.1) ∧
      s.wentOn t ag ∧ s.keepsValues t ag := by
  intro x t
  have hstay : s.stays (s.checked ag f a off lanes) ag := State.stays_trans (s.fenceDue_stays ag f)
    (State.stays_of_rest (s := s.fenceDue ag f) (t := s.checked ag f a off lanes) rfl rfl ⟨rfl, rfl⟩ _)
  obtain ⟨hfl, hfr, hgo⟩ := State.issueAccess_spec (s := s.checked ag f a off lanes) (ag := ag) (x := x) rfl o
  obtain ⟨h1, h2⟩ := s.fenceDue_flight ag f
  have h1' : (s.checked ag f a off lanes).flight = s.flight := h1
  have h2' : (s.checked ag f a off lanes).fresh = s.fresh := h2
  rw [h1', h2'] at hfl
  rw [h2'] at hfr
  exact ⟨hfl, hfr, congrArg (List.map fun e : Nat × Access => e.1) (s.earlier_fenceDue ag f f), State.wentOn.after_stays hstay hgo⟩

/-- The destinations of a load are EMPTY once it has issued (R65, R192). -/
theorem globalIssued_empty {sp : Spec} (h : s.ready ag act sp = true) (hf : s.front? ag = some f) (hd : (d, Width.regs w) ∈ sp.dsts)
    (lanes : List Nat) (uniform : Bool) {j : Nat} (hj : j < Width.regs w) :
    (((s.checked ag f a off lanes).issueAccess ag (globalIssued s ag f .load a off w p c lanes d.toNat (Width.regs w) act uniform
      (fun _ => 0) str) o).rdTag ag (d.toNat + j)).empty = true := by
  have hown : (s.checked ag f a off lanes).ownsReg ag (d.toNat + j) := by
    have := (State.ownsReg_of_ready h hf hd hj).fenceDue f
    cases ag <;> exact this
  exact State.issueAccess_empty rfl o rfl hown (Nat.le_add_right _ _) (Nat.add_lt_add_left hj _)

end

/-- Whether a load acquires. -/
theorem Ordering.acq_eq (o : Sys2Proof.Ordering) : Ordering.acq o = decide (o = .acq ∨ o = .sc) := by cases o <;> rfl

/-- Whether a store releases. -/
theorem Ordering.rel_eq (o : Sys2Proof.Ordering) : Ordering.rel o = decide (o = .rel ∨ o = .sc) := by cases o <;> rfl

/-- Settles O26: each form is the issue of one access with a piece for each lane, or for the lowest lane alone. -/
theorem globalAccessesIssue : Obligations.GlobalAccessesIssue := by
  refine ⟨?_, ?_⟩
  · intro s ag act f d a off w o str g p c key ea issued hf hh
    have hissued : ∀ (sp : Spec) (lanes : List Nat) (one : Bool), s.ready ag act sp = true → (d, Width.regs w) ∈ sp.dsts →
        issued ((s.checked ag f a off lanes).issueAccess ag
          (globalIssued s ag f .load a off w p c lanes d.toNat (Width.regs w) act one (fun _ => 0) str) o)
          ((globalIssued s ag f .load a off w p c lanes d.toNat (Width.regs w) act one (fun _ => 0) str).ordered o) lanes one := by
      intro sp lanes one h hd
      obtain ⟨hfl, hfr, hbefore, hgo⟩ := globalIssued_spec (s := s) (ag := ag) (act := act) (f := f) (a := a) (off := off) (w := w) (o := o)
        (p := p) (c := c) (str := str) .load lanes d.toNat (Width.regs w) one fun _ => 0
      refine ⟨hfl, hfr, rfl, ?_, hbefore, rfl, fun j hj => globalIssued_empty h hf hd lanes one hj, hgo⟩
      exact (Bool.and_true _).trans (Ordering.acq_eq o)
    exact ⟨fun h hchk => ⟨_, _, exec_ld_ready h hf hh hchk, hissued _ _ _ h (List.mem_singleton.mpr rfl)⟩,
      fun h hchk => ⟨_, _, exec_ldu_ready h hf hh hchk, hissued _ _ _ h (List.mem_singleton.mpr rfl)⟩⟩
  · intro s ag act f d a off w o str g p c key ea h hf hh hchk
    obtain ⟨hfl, hfr, hbefore, hgo⟩ := globalIssued_spec (s := s) (ag := ag) (act := act) (f := f) (a := a) (off := off) (w := w) (o := o)
      (p := p) (c := c) (str := str) .store (lanesOf act) 0 0 false
      fun l => wordsNumber ((List.range (Width.regs w)).map fun j => s.src ag d j l)
    refine ⟨_, _, exec_st_ready h hf hh hchk, hfl, hfr, rfl, ?_, hbefore, rfl, fun r _ => ?_, hgo⟩
    · have hw : (Ordering.rel o && true) = decide (o = .rel ∨ o = .sc) := (Bool.and_true _).trans (Ordering.rel_eq o)
      exact congrArg₂ Prod.mk hw ((Bool.and_true _).trans hw)
    · rw [State.rdTag_issueAccess o rfl rfl]
      refine (?_ : _ = _).trans (s.rdTag_fenceDue ag f r)
      cases ag <;> rfl

end Sys2Proof.Machine
end

section
/-! PROOFS. What the moves of memory and the reports of errors leave: agents and accesses; the bytes that a fill keeps; and what waits
for tests (R83, R169, R170, R176, R382, R383). -/

namespace Sys2Proof.Machine

/-! Moves of memory leave agents, accesses and requests. -/

/-- Two panels differ at most in their memory, in what their cores hold, in marked sectors and in the parts of dies. -/
def State.memoryMoved (s t : State) : Prop :=
  { t with dies := s.dies, cores := s.cores, mem := s.mem, l2 := s.l2, poison := s.poison, ue := s.ue, ueL2 := s.ueL2 } = s

theorem State.memoryMoved_refl (s : State) : s.memoryMoved s := rfl

theorem State.memoryMoved_trans {s t u : State} (h : s.memoryMoved t) (h' : t.memoryMoved u) : s.memoryMoved u := by
  unfold State.memoryMoved at h h' ⊢
  rw [← h'] at h
  exact h

section
variable {s t : State} (h : s.memoryMoved t)
include h

theorem State.memoryMoved.groups : t.groups = s.groups := (congrArg State.groups h :)
theorem State.memoryMoved.teams : t.teams = s.teams := (congrArg State.teams h :)
theorem State.memoryMoved.flight : t.flight = s.flight := (congrArg State.flight h :)

end

theorem State.stackWrite_moved (s : State) (d off : Nat) (l : List Byte) : s.memoryMoved (s.stackWrite d off l) :=
  (congrArg (fun u : State => { u with
    dies := s.dies, cores := s.cores, mem := s.mem, l2 := s.l2, poison := s.poison, ue := s.ue, ueL2 := s.ueL2 })
    (State.stackWrite_rest d l s off) :)

theorem State.stackWrite_cores (s : State) (d off : Nat) (l : List Byte) :
    (s.stackWrite d off l).cores = s.cores ∧ (s.stackWrite d off l).poison = s.poison := by
  have h := State.stackWrite_rest d l s off
  exact ⟨(congrArg State.cores h :), (congrArg State.poison h :)⟩

theorem State.writeBack_moved (d base : Nat) (x : L1Line) (n : Nat) :
    ∀ (s : State) (i : Nat), s.memoryMoved (s.writeBack d base x i n) := by
  induction n with
  | zero => exact fun s i => s.memoryMoved_refl
  | succ n ih =>
    intro s i
    refine State.memoryMoved_trans ?_ (ih _ _)
    split
    · exact s.stackWrite_moved _ _ _
    · exact s.memoryMoved_refl

theorem State.mails.moved {s t : State} (h : s.mails t) (hm : t.msgs = s.msgs) (hs : t.streams = s.streams) (hi : t.streamIds = s.streamIds)
    (hf : t.fresh = s.fresh) : s.memoryMoved t := by
  have hrest := h.1
  rw [← hm, ← hs, ← hi, ← hf] at hrest
  exact (congrArg (fun u : State => { u with
    dies := s.dies, cores := s.cores, mem := s.mem, l2 := s.l2, poison := s.poison, ue := s.ue, ueL2 := s.ueL2 }) hrest :)

theorem State.reportError_moved (s : State) (d a b c e f : Nat) : s.memoryMoved (s.reportError d a b c e f) := by
  unfold State.reportError
  dsimp only
  split
  · rfl
  · split <;> rfl

theorem State.reportHome_moved (s : State) (d off : Nat) : s.memoryMoved (s.reportHome d off) := by
  unfold State.reportHome
  split <;> exact s.reportError_moved _ _ _ _ _ _

theorem State.poisonStack_moved (s : State) (d off : Nat) : s.memoryMoved (s.poisonStack d off) :=
  State.memoryMoved_trans (s.reportHome_moved d off) rfl

theorem State.poisonCore_moved (s : State) (d c off : Nat) : s.memoryMoved (s.poisonCore d c off) := by
  unfold State.poisonCore
  split
  · refine State.memoryMoved_trans ?_ (State.reportError_moved _ _ _ _ _ _ _)
    rfl
  · exact s.poisonStack_moved _ _

theorem State.modCore_moved (s : State) (d c : Nat) (F : Core → Core) : s.memoryMoved (s.modCore d c F) := rfl

theorem State.l1Leave_moved (s : State) (d c line : Nat) : s.memoryMoved (s.l1Leave d c line) := by
  unfold State.l1Leave State.l1Drop
  split
  · exact s.poisonCore_moved _ _ _
  · split
    · exact s.memoryMoved_refl
    · exact State.memoryMoved_trans (State.writeBack_moved _ _ _ _ s _) (State.modCore_moved _ _ _ _)

theorem State.l1MakeRoom_moved (s : State) (d c off : Nat) : s.memoryMoved (s.l1MakeRoom d c off) := by
  unfold State.l1MakeRoom
  split
  · exact s.memoryMoved_refl
  · split
    · exact s.l1Leave_moved _ _ _
    · exact s.memoryMoved_refl

theorem State.l1Put_moved (s : State) (d c off : Nat) (x : L1Line) : s.memoryMoved (s.l1Put d c off x) := by
  refine State.memoryMoved_trans (s.l1MakeRoom_moved d c off) ?_
  unfold State.l1Put
  dsimp only
  split
  · exact State.modCore_moved _ _ _ _
  · exact State.writeBack_moved _ _ _ _ _ _

theorem State.l2Fill_moved (s : State) (d off : Nat) : s.memoryMoved (s.l2Fill d off) := by
  unfold State.l2Fill
  split
  · exact s.stackWrite_moved _ _ _
  · exact s.memoryMoved_refl

/-! Bytes written that are there already, and bytes written where the L2 has room (R169, R199). -/

theorem State.stackByte_of_key (s : State) {d d' a a' : Nat} (h : stackKey d' a' = stackKey d a) : s.stackByte d' a' = s.stackByte d a := by
  rw [State.stackByte, State.stackByte, h]

/-- A write of the bytes that a stack holds leaves every byte of every stack. -/
theorem State.stackByte_stackWrite_same (d : Nat) (l : List Byte) : ∀ (s : State) (off : Nat),
    (∀ i b, l[i]? = some b → b = s.stackByte d (off + i)) → ∀ d' a, (s.stackWrite d off l).stackByte d' a = s.stackByte d' a := by
  induction l with
  | nil => exact fun s off _ d' a => rfl
  | cons b t ih =>
    intro s off h d' a
    have hone : ∀ d' a, (s.stackWrite d off [b]).stackByte d' a = s.stackByte d' a := fun d' a => by
      rw [State.stackByte_one]
      split
      · next hk => rw [h 0 b rfl]; exact (s.stackByte_of_key hk).symm
      · rfl
    refine (ih (s.stackWrite d off [b]) (off + 1) (fun i c hc => ?_) d' a).trans (hone d' a)
    rw [hone, show off + 1 + i = off + (i + 1) by omega]
    exact h (i + 1) c hc

theorem mem_aput_self {α : Type} (k : Nat) (v : α) : ∀ l : List (Nat × α), (k, v) ∈ aput l k v
  | [] => List.mem_singleton.mpr rfl
  | (a, x) :: t => by
    unfold aput
    split
    · exact List.mem_cons_self ..
    · split
      · exact List.mem_cons_self ..
      · exact List.mem_cons_of_mem _ (mem_aput_self k v t)

theorem mem_of_mem_aput {α : Type} {k : Nat} {v : α} {x : Nat × α} : ∀ {l : List (Nat × α)}, x ∈ aput l k v → x = (k, v) ∨ x ∈ l
  | [], h => .inl (List.mem_singleton.mp h)
  | (a, y) :: t, h => by
    unfold aput at h
    split at h
    · exact (List.mem_cons.mp h).imp_right fun h => h
    · split at h
      · exact (List.mem_cons.mp h).imp_right (List.mem_cons_of_mem _)
      · rcases List.mem_cons.mp h with rfl | h
        · exact .inr (List.mem_cons_self ..)
        · exact (mem_of_mem_aput h).imp_right (List.mem_cons_of_mem _)

/-- A line with a byte in the L2 has room there. -/
theorem State.l2Room_of_mem {s : State} {d off : Nat} {b : Byte} (h : (stackKey d off, b) ∈ s.l2) : s.l2Room d off = true := by
  have hhold : s.l2Holds d (off / 256) = true := by
    rw [State.l2Holds, Bool.or_eq_true, List.any_eq_true]
    refine .inl ⟨_, h, ?_⟩
    rw [beq_iff_eq]
    unfold stackKey
    omega
  rw [State.l2Room, hhold, Bool.true_or]

theorem State.l2Room_congr (s : State) {d off off' : Nat} (h : off' / 256 = off / 256) : s.l2Room d off' = s.l2Room d off := by
  rw [State.l2Room, State.l2Room, h]

/-- Bytes written into a line that has room in the L2 are put there, and the DRAM stays. -/
theorem State.stackWrite_of_room (d : Nat) (l : List Byte) : ∀ (s : State) (off : Nat), s.l2Room d off = true →
    (∀ i, i < l.length → (off + i) / 256 = off / 256) →
    (s.stackWrite d off l).mem = s.mem ∧ ∀ j, aget (s.stackWrite d off l).l2 j =
      if stackKey d off ≤ j ∧ j < stackKey d off + l.length then l[j - stackKey d off]? else aget s.l2 j := by
  induction l with
  | nil =>
    refine fun s off _ _ => ⟨rfl, fun j => ?_⟩
    rw [if_neg (by simp)]
    rfl
  | cons b t ih =>
    intro s off hroom hline
    have hone : s.stackWrite d off (b :: t) = { s with l2 := aput s.l2 (stackKey d off) b }.stackWrite d (off + 1) t := by
      rw [State.stackWrite, if_pos hroom]
    have hkey : stackKey d (off + 1) = stackKey d off + 1 := by unfold stackKey; omega
    rw [hone]
    by_cases ht : t = []
    · subst ht
      refine ⟨rfl, fun j => ?_⟩
      show aget (aput s.l2 (stackKey d off) b) j = _
      rw [aget_aput]
      by_cases hj : j = stackKey d off
      · simp [hj]
      · rw [if_neg hj, if_neg (by simp only [List.length_cons, List.length_nil]; omega)]
    have hpos := List.length_pos_of_ne_nil ht
    have hnext : (off + 1) / 256 = off / 256 := hline 1 (by rw [List.length_cons]; omega)
    have hroom' : State.l2Room { s with l2 := aput s.l2 (stackKey d off) b } d (off + 1) = true := by
      rw [State.l2Room_congr _ hnext]
      exact State.l2Room_of_mem (mem_aput_self _ _ _)
    obtain ⟨hmem, hl2⟩ := ih _ (off + 1) hroom' fun i hi => by
      rw [hnext, show off + 1 + i = off + (i + 1) by omega]
      exact hline (i + 1) (by rw [List.length_cons]; omega)
    refine ⟨hmem, fun j => ?_⟩
    rw [hl2, hkey]
    dsimp only
    rw [aget_aput, List.length_cons]
    by_cases hj : j = stackKey d off
    · rw [if_neg (by omega), if_pos hj, if_pos (by omega), hj, Nat.sub_self, List.getElem?_cons_zero]
    · rw [if_neg hj]
      by_cases h : stackKey d off ≤ j ∧ j < stackKey d off + (t.length + 1)
      · rw [if_pos (by omega), if_pos h, show j - stackKey d off = (j - (stackKey d off + 1)) + 1 by omega, List.getElem?_cons_succ]
      · rw [if_neg (by omega), if_neg h]

/-! Fills (R83, R170, R199). -/

section
variable {s : State} {d c off : Nat}

/-- The bytes of a sector as the L2 gives them. -/
theorem State.sector_bytes (s : State) (d off : Nat) : bytesOf 64 (s.stackRead d off 64) = (List.range 64).map fun i => s.stackByte d (off + i) := by
  have h := bytesOf_natOfBytes ((List.range 64).map fun i => s.stackByte d (off + i))
  rwa [List.length_map, List.length_range] at h

/-- A sector filled into the L2 keeps every byte and the DRAM, and is held there. -/
theorem State.l2Fill_spec : (∀ d' a, (s.l2Fill d off).stackByte d' a = s.stackByte d' a) ∧ (s.l2Fill d off).mem = s.mem ∧
    (s.l2Room d off = true → ∀ i, i < 64 →
      aget (s.l2Fill d off).l2 (stackKey d (off / 64 * 64 + i)) = some (s.stackByte d (off / 64 * 64 + i))) := by
  unfold State.l2Fill
  split
  · next hroom =>
    rw [State.sector_bytes]
    have hroom' : s.l2Room d (off / 64 * 64) = true := by
      rw [State.l2Room_congr s (show off / 64 * 64 / 256 = off / 256 by omega)]
      exact hroom
    have hlen : ((List.range 64).map fun i => s.stackByte d (off / 64 * 64 + i)).length = 64 := by simp
    obtain ⟨hmem, hl2⟩ := State.stackWrite_of_room d ((List.range 64).map fun i => s.stackByte d (off / 64 * 64 + i)) s (off / 64 * 64) hroom'
      fun i hi => by rw [hlen] at hi; omega
    refine ⟨State.stackByte_stackWrite_same d _ s _ fun i b hb => ?_, hmem, fun _ i hi => ?_⟩
    · obtain ⟨j, hj, rfl⟩ := List.getElem?_map .. ▸ hb |> Option.map_eq_some_iff.mp
      obtain ⟨hlt, rfl⟩ := List.getElem?_eq_some_iff.mp hj
      rw [List.getElem_range]
    · have hkey : stackKey d (off / 64 * 64 + i) = stackKey d (off / 64 * 64) + i := by unfold stackKey; omega
      rw [hl2, hkey, if_pos (by rw [hlen]; omega), Nat.add_sub_cancel_left, List.getElem?_map, List.getElem?_range hi]
      rfl
  · next hroom => exact ⟨fun _ _ => rfl, rfl, fun h => absurd h hroom⟩

/-- A core gives up no line for room where none streamed (R83). -/
theorem State.l1MakeRoom_of_no_stream (h : ∀ x ∈ (s.core d c).l1, x.2.stream = false) : s.l1MakeRoom d c off = s := by
  unfold State.l1MakeRoom
  split
  · rfl
  · have hnone : ((s.core d c).l1.find? fun e =>
        e.2.stream && e.1 != off / 64 && !s.sramBusy d 1 c (l1Loc e.1) && !s.stackBusy d (e.1 * 64)) = none := by
      rw [List.find?_eq_none]
      intro x hx
      simp [h x hx]
    rw [hnone]

theorem State.l1MakeRoom_of_room (h : s.l1Room d c off = true) : s.l1MakeRoom d c off = s := by
  rw [State.l1MakeRoom, if_pos h]

theorem State.core_modCore_self (s : State) (d c : Nat) (F : Core → Core) : (s.modCore d c F).core d c = F (s.core d c) := by
  rw [State.core_modCore, if_pos rfl]

/-- A line with room in the array is put there. -/
theorem State.l1Put_of_room (h : s.l1Room d c off = true) (x : L1Line) :
    s.l1Put d c off x = s.modCore d c fun k => { k with l1 := aput k.l1 (off / 64) x } := by
  unfold State.l1Put
  dsimp only
  rw [State.l1MakeRoom_of_room h, if_pos h]

theorem State.l1Has_l1Put (h : s.l1Room d c off = true) (x : L1Line) : (s.l1Put d c off x).l1Has d c off = true := by
  rw [State.l1Put_of_room h, State.l1Has, State.core_modCore_self, aget_aput, if_pos rfl]
  rfl

theorem State.writeBack_clean {x : L1Line} (h : x.dirty = 0#64) (d base n : Nat) :
    ∀ (s : State) (i : Nat), s.writeBack d base x i n = s := by
  induction n with
  | zero => exact fun s i => rfl
  | succ n ih =>
    intro s i
    rw [State.writeBack, h]
    simp [ih]

/-- A line filled into L1, where no line streamed, leaves memory as it is, and no line has streamed then either; with room it is held. -/
theorem State.l1Put_line (h : ∀ x ∈ (s.core d c).l1, x.2.stream = false) (cls : Nat) :
    let t := s.l1Put d c off (s.l1Line d c off cls)
    (∀ x ∈ (t.core d c).l1, x.2.stream = false) ∧ t.mem = s.mem ∧ t.l2 = s.l2 ∧ t.poison = s.poison ∧
      (s.l1Room d c off = true → t.l1Has d c off = true) := by
  intro t
  by_cases hroom : s.l1Room d c off = true
  · have ht : t = s.modCore d c fun k => { k with l1 := aput k.l1 (off / 64) (s.l1Line d c off cls) } := State.l1Put_of_room hroom _
    have hl1 : (t.core d c).l1 = aput (s.core d c).l1 (off / 64) (s.l1Line d c off cls) := by rw [ht, State.core_modCore_self]
    refine ⟨fun x hx => ?_, by rw [ht]; rfl, by rw [ht]; rfl, by rw [ht]; rfl, fun _ => State.l1Has_l1Put hroom _⟩
    · rw [hl1] at hx
      rcases mem_of_mem_aput hx with rfl | hx
      · unfold State.l1Line
        split
        · next y hy => exact h _ (mem_of_aget hy)
        · rfl
      · exact h x hx
  · have hclean : (s.l1Line d c off cls).dirty = 0#64 := by
      unfold State.l1Line
      split
      · next y hy =>
        refine absurd ?_ hroom
        rw [State.l1Room, State.l1Has, hy]
        rfl
      · rfl
    have ht : t = s := by
      show s.l1Put d c off (s.l1Line d c off cls) = s
      unfold State.l1Put
      dsimp only
      rw [State.l1MakeRoom_of_no_stream h, if_neg hroom, State.writeBack_clean hclean]
    rw [ht]
    exact ⟨h, rfl, rfl, rfl, fun hr => absurd hr hroom⟩

end

/-! Reports of errors hold nothing back: a test that has not begun makes no access wait (R383). -/

/-- Two dies differ at most in reports, counts of errors and tests that do not run. -/
def Die.reports (x y : Die) : Prop :=
  { y with rasQ := x.rasQ, rasLost := x.rasLost, tests := x.tests, errCounts := x.errCounts } = x ∧
    y.tests.filter (·.running) = x.tests.filter (·.running)

/-- Two panels differ at most in groups, in teams, and in what `Die.reports` names of each die. -/
def State.reports (s t : State) : Prop :=
  { t with dies := s.dies, groups := s.groups, teams := s.teams } = s ∧ ∀ d, (s.die d).reports (t.die d)

theorem State.reports_refl (s : State) : s.reports s := ⟨rfl, fun _ => ⟨rfl, rfl⟩⟩

theorem State.reports_trans {s t u : State} (h : s.reports t) (h' : t.reports u) : s.reports u := by
  refine ⟨?_, fun d => ⟨?_, (h'.2 d).2.trans (h.2 d).2⟩⟩
  · have h1 := h.1
    rw [← h'.1] at h1
    exact h1
  · have h1 := (h.2 d).1
    rw [← (h'.2 d).1] at h1
    exact h1

theorem State.modDie_reports (s : State) (d : Nat) {F : Die → Die} (h : (s.die d).reports (F (s.die d))) : s.reports (s.modDie d F) := by
  refine ⟨rfl, fun d' => ?_⟩
  rw [State.die_modDie]
  split
  · next e => rw [e]; exact h
  · exact ⟨rfl, rfl⟩

theorem State.reportError_reports (s : State) (d a b c e f : Nat) : s.reports (s.reportError d a b c e f) := by
  have hcount : ∀ m : Die → List (Nat × ErrCount), s.reports (s.modDie d fun x => { x with errCounts := m x }) :=
    fun m => s.modDie_reports d ⟨rfl, rfl⟩
  unfold State.reportError
  dsimp only
  split
  · exact hcount _
  · split
    · exact State.reports_trans (hcount _) (State.modDie_reports _ d ⟨rfl, by simp [List.filter_append]⟩)
    · refine State.reports_trans (hcount _) (State.modDie_reports _ d ?_)
      split <;> exact ⟨rfl, rfl⟩

theorem State.modTag_reports (s : State) (ag : Agent) (r : Nat) (p : RegTag → RegTag) : s.reports (s.modTag ag r p) := by
  have hrest : ∀ t : State, { t with groups := s.groups, teams := s.teams } = s → s.reports t := fun t h => by
    have hd : t.dies = s.dies := (congrArg State.dies h :)
    have hdies : ∀ d, t.die d = s.die d := fun d => by rw [State.die, hd]; rfl
    refine ⟨?_, fun d => by rw [hdies]; exact ⟨rfl, rfl⟩⟩
    rw [← hd]
    exact h
  exact hrest _ (s.modTag_rest ag r p)

theorem State.meetReg_reports (s : State) (ag : Agent) (r : Nat) (m : Mask) : s.reports (s.meetReg ag r m) := by
  have hif : ∀ (b : Bool) (own : Agent) (p : RegTag → RegTag) (d : Nat) (x : Nat × Nat × Nat),
      s.reports (if b then (s.modTag own r p).reportError d x.1 x.2.1 x.2.2 0 1 else s) := fun b own p d x => by
    split
    · exact State.reports_trans (s.modTag_reports own r p) (State.reportError_reports _ _ _ _ _ _ _)
    · exact s.reports_refl
  cases ag <;> exact hif _ _ _ _ _

theorem State.meetRegs_reports (s : State) (ag : Agent) (sp : Spec) (act : Mask) : s.reports (s.meetRegs ag sp act) := by
  unfold State.meetRegs
  refine foldl_keeps s.reports (fun (u : State) (x : Nat × Mask) => u.meetReg ag x.1 x.2)
    (fun u x h => State.reports_trans h (u.meetReg_reports _ _ _)) _ _ ?_
  split
  · exact s.reports_refl
  · exact s.meetReg_reports _ _ _

section
variable {s t : State} (h : s.reports t)
include h

theorem State.reports.core (d c : Nat) : t.core d c = s.core d c := (congrArg (fun u : State => u.core d c) h.1 :)
theorem State.reports.mem : t.mem = s.mem := (congrArg State.mem h.1 :)
theorem State.reports.l2 : t.l2 = s.l2 := (congrArg State.l2 h.1 :)
theorem State.reports.poison : t.poison = s.poison := (congrArg State.poison h.1 :)
theorem State.reports.ue : t.ue = s.ue := (congrArg State.ue h.1 :)
theorem State.reports.stackByte (d a : Nat) : t.stackByte d a = s.stackByte d a := (congrArg (fun u : State => u.stackByte d a) h.1 :)
theorem State.reports.stackRead (d a n : Nat) : t.stackRead d a n = s.stackRead d a n := (congrArg (fun u : State => u.stackRead d a n) h.1 :)
theorem State.reports.meetHome (d a : Nat) : t.meetHome d a = s.meetHome d a := (congrArg (fun u : State => u.meetHome d a) h.1 :)
theorem State.reports.l1Has (d c a : Nat) : t.l1Has d c a = s.l1Has d c a := (congrArg (fun u : State => u.l1Has d c a) h.1 :)
theorem State.reports.l1Room (d c a : Nat) : t.l1Room d c a = s.l1Room d c a := (congrArg (fun u : State => u.l1Room d c a) h.1 :)
theorem State.reports.l2Room (d a : Nat) : t.l2Room d a = s.l2Room d a := (congrArg (fun u : State => u.l2Room d a) h.1 :)
theorem State.reports.logDie (d : Nat) : t.logDie? d = s.logDie? d := (congrArg (fun u : State => u.logDie? d) h.1 :)
theorem State.reports.tlb (d : Nat) : (t.die d).tlb = (s.die d).tlb := (congrArg Die.tlb (h.2 d).1 :)
theorem State.reports.procs (d : Nat) : (t.die d).procs = (s.die d).procs := (congrArg Die.procs (h.2 d).1 :)
theorem State.reports.cmdBusy (d : Nat) : (t.die d).cmdBusy = (s.die d).cmdBusy := (congrArg Die.cmdBusy (h.2 d).1 :)

theorem State.reports.anyTest (d : Nat) (p : Test → Bool) :
    ((t.die d).tests.any fun x => x.running && p x) = (s.die d).tests.any fun x => x.running && p x := by
  have hf : ∀ l : List Test, (l.any fun x => x.running && p x) = (l.filter (·.running)).any p := fun l => by rw [List.any_filter]
  rw [hf, hf, (h.2 d).2]

theorem State.reports.sramBusy (d st unit addr : Nat) : t.sramBusy d st unit addr = s.sramBusy d st unit addr := by
  simp only [State.sramBusy, Bool.and_assoc]
  exact h.anyTest d fun x => x.struct_ == st && (x.unit == unit && Config.sramRow st unit x.addr == Config.sramRow st unit addr)

theorem State.reports.stackBusy (d off : Nat) : t.stackBusy d off = s.stackBusy d off := by
  have htest := h.anyTest d fun x => x.struct_ == 6 && stackPlace x.addr == stackPlace off
  simp only [State.stackBusy, h.sramBusy, h.cmdBusy, Bool.and_assoc, htest]

theorem State.reports.coreBusy (d c off : Nat) (home : Bool) : t.coreBusy d c off home = s.coreBusy d c off home := by
  simp only [State.coreBusy, h.l1Has, h.sramBusy, h.stackBusy]

theorem State.reports.walkFrom (d va : Nat) (n : Nat) : ∀ table level, t.walkFrom d va table level n = s.walkFrom d va table level n := by
  induction n with
  | zero => exact fun _ _ => rfl
  | succ n ih => exact fun table level => by simp only [State.walkFrom, h.meetHome, h.stackRead, ih]

theorem State.reports.walkBusyFrom (d va : Nat) (n : Nat) :
    ∀ table level, t.walkBusyFrom d va table level n = s.walkBusyFrom d va table level n := by
  induction n with
  | zero => exact fun _ _ => rfl
  | succ n ih => exact fun table level => by simp only [State.walkBusyFrom, h.stackBusy, h.stackRead, ih]

theorem State.reports.xlate (d : Nat) (p : BitVec 12) (va : Nat) : t.xlate d p va = s.xlate d p va := by
  simp only [State.xlate, State.walk, h.tlb, h.procs, h.walkFrom]

theorem State.reports.xlateBusy (d : Nat) (p : BitVec 12) (va : Nat) : t.xlateBusy d p va = s.xlateBusy d p va := by
  simp only [State.xlateBusy, State.walkBusy, h.tlb, h.procs, h.walkBusyFrom]

theorem State.reports.chkNow (d : Nat) (p : BitVec 12) (va w : Nat) (need : Need) : t.chkNow d p va w need = s.chkNow d p va w need := by
  simp only [State.chkNow, State.chkEntry, h.xlate, h.logDie]

end

end Sys2Proof.Machine
end

section
/-! PROOFS. FENCE and PREF (R83, R199, R205). -/

namespace Sys2Proof.Machine

/-! FENCE (R205). -/

@[simp] theorem Fragment.advance_fenceAll (f : Fragment) : f.advance.fenceAll = f.fenceAll := by
  unfold Fragment.advance; split <;> [rfl; (split <;> rfl)]

@[simp] theorem Fragment.advance_fenceRd (f : Fragment) : f.advance.fenceRd = f.fenceRd := by
  unfold Fragment.advance; split <;> [rfl; (split <;> rfl)]

@[simp] theorem Fragment.advance_fenceInv (f : Fragment) : f.advance.fenceInv = f.fenceInv := by
  unfold Fragment.advance; split <;> [rfl; (split <;> rfl)]

@[simp] theorem Fragment.advance_past (f : Fragment) : f.advance.past = f.past := by
  unfold Fragment.advance; split <;> [rfl; (split <;> rfl)]

theorem Fragment.fence_stand (f : Fragment) (kd : FenceKind) (now : Nat) (wide : Bool) : (f.fence kd now wide).stand = f.stand := by
  cases kd <;> rfl

theorem Fragment.fence_past (f : Fragment) (kd : FenceKind) (now : Nat) (wide : Bool) : (f.fence kd now wide).past = f.past := by
  cases kd <;> rfl

/-- The later instructions wait for all of what is in flight, or for its reads alone. -/
theorem Fragment.fence_waits (f : Fragment) (kd : FenceKind) (now : Nat) (wide : Bool) :
    ((f.fence kd now wide).fenceAll, (f.fence kd now wide).fenceRd) = if kd = .acq then (f.fenceAll, now) else (now, f.fenceRd) := by
  cases kd <;> rfl

theorem Fragment.fence_inv (f : Fragment) (kd : FenceKind) (now : Nat) (wide : Bool) :
    (f.fence kd now wide).fenceInv = if kd = .rel then f.fenceInv else (f.fenceInv || wide) := by
  cases kd <;> rfl

theorem exec_fence_ready {s : State} {ag : Agent} {act : Mask} {kd : FenceKind} {sc : Scope} {g : Guard}
    (h : s.ready ag act { cls := 2, guard := g } = true) :
    exec (.fence kd sc g) s = .next ((s.modFront ag fun f => f.fence kd s.fresh (sc == .die || s.isPair ag)).advance ag) := by
  simp only [exec, execFence]
  rw [issueWith_ready h]

/-! PREF (R199). -/

theorem State.prefLane_moved (s : State) (d c : Nat) (ptag : BitVec 12) (l2 : Bool) (va : Nat) : s.memoryMoved (s.prefLane d c ptag l2 va) := by
  unfold State.prefLane
  split
  · exact s.memoryMoved_refl
  · split
    · split
      · exact s.memoryMoved_refl
      · split
        · exact s.memoryMoved_refl
        · exact s.reportHome_moved _ _
        · split
          · exact s.l2Fill_moved _ _
          · exact s.l1Put_moved _ _ _ _
    · split
      · exact s.reportHome_moved _ _
      · exact s.memoryMoved_refl
    · exact s.memoryMoved_refl
    · exact s.memoryMoved_refl

/-- What a prefetch leaves where no line of its core streamed: no line streams then either, and every byte, the marks and the DRAM are
as before; the L2 too, where the prefetch fills L1. -/
def State.prefetched (s t : State) (d c : Nat) (l2 : Bool) : Prop :=
  (∀ x ∈ (t.core d c).l1, x.2.stream = false) ∧ (∀ d' o, t.stackByte d' o = s.stackByte d' o) ∧ t.poison = s.poison ∧ t.mem = s.mem ∧
    (l2 = false → t.l2 = s.l2)

theorem State.prefetched_trans {s t u : State} {d c : Nat} {l2 : Bool} (h : s.prefetched t d c l2) (h' : t.prefetched u d c l2) :
    s.prefetched u d c l2 := by
  obtain ⟨-, hb, hp, hm, hl⟩ := h
  obtain ⟨hs', hb', hp', hm', hl'⟩ := h'
  exact ⟨hs', fun d' o => (hb' d' o).trans (hb d' o), hp'.trans hp, hm'.trans hm, fun h => (hl' h).trans (hl h)⟩

section
variable {s : State} {d c : Nat} (hns : ∀ x ∈ (s.core d c).l1, x.2.stream = false) (l2 : Bool)
include hns

theorem State.prefetched_refl : s.prefetched s d c l2 := ⟨hns, fun _ _ => rfl, rfl, rfl, fun _ => rfl⟩

theorem State.reports.prefetched {t : State} (h : s.reports t) : s.prefetched t d c l2 :=
  ⟨by rw [h.core]; exact hns, h.stackByte, h.poison, h.mem, fun _ => h.l2⟩

theorem State.l1Put_prefetched (off cls : Nat) : s.prefetched (s.l1Put d c off (s.l1Line d c off cls)) d c l2 := by
  obtain ⟨hstream, hmem, hl2, hpoison, -⟩ := State.l1Put_line (off := off) hns cls
  generalize s.l1Put d c off (s.l1Line d c off cls) = t at *
  exact ⟨hstream, fun d' o => by rw [State.stackByte, State.stackByte, hmem, hl2], hpoison, hmem, fun _ => hl2⟩

theorem State.l2Fill_prefetched (off : Nat) : s.prefetched (s.l2Fill d off) d c true := by
  obtain ⟨hbyte, hmem, -⟩ := s.l2Fill_spec (d := d) (off := off)
  have hcores : (s.l2Fill d off).cores = s.cores ∧ (s.l2Fill d off).poison = s.poison := by
    unfold State.l2Fill
    split
    · exact s.stackWrite_cores _ _ _
    · exact ⟨rfl, rfl⟩
  generalize s.l2Fill d off = t at *
  have hcore : t.core d c = s.core d c := by rw [State.core, State.core, hcores.1]
  exact ⟨by rw [hcore]; exact hns, hbyte, hcores.2, hmem, fun h => absurd h (by decide)⟩

/-- A line or a sector that is filled. -/
theorem State.fill_prefetched (off cls : Nat) :
    s.prefetched (if l2 then s.l2Fill d off else s.l1Put d c off (s.l1Line d c off cls)) d c l2 := by
  cases l2 with
  | false => rw [if_neg (by decide)]; exact State.l1Put_prefetched hns false off cls
  | true => rw [if_pos rfl]; exact State.l2Fill_prefetched hns off

theorem State.prefLane_prefetched (ptag : BitVec 12) (va : Nat) : s.prefetched (s.prefLane d c ptag l2 va) d c l2 := by
  have hreport : ∀ off, s.prefetched (s.reportHome d off) d c l2 := fun off => by
    unfold State.reportHome
    split <;> exact State.reports.prefetched hns l2 (s.reportError_reports _ _ _ _ _ _)
  unfold State.prefLane
  split
  · exact State.prefetched_refl hns l2
  · split
    · split
      · exact State.prefetched_refl hns l2
      · split
        · exact State.prefetched_refl hns l2
        · exact hreport _
        · exact State.fill_prefetched hns l2 _ _
    · split
      · exact hreport _
      · exact State.prefetched_refl hns l2
    · exact State.prefetched_refl hns l2
    · exact State.prefetched_refl hns l2

omit hns in
/-- A lane whose address passes and meets no error fills its line or sector. -/
theorem State.prefLane_of_ok {ptag : BitVec 12} {va p cls : Nat} (hx : s.xlateBusy d ptag va = false)
    (hchk : s.chkNow d ptag va 1 .read = .ok p cls) (hb : s.coreBusy d c p false = false) (hp : s.poison = []) (hu : s.ue = []) :
    s.prefLane d c ptag l2 va = if l2 then s.l2Fill d p else s.l1Put d c p (s.l1Line d c p cls) := by
  have hmeet : s.meetHome d p = .clean := by simp [State.meetHome, hp, hu]
  simp only [State.prefLane, hx, hchk, hb, hmeet, Bool.false_eq_true, if_false]

end

/-- Registers without errors that are not met yet, or that are no registers of the agent, are met in nothing. -/
theorem State.meetReg_of_met {s : State} {n m k e r : Nat} (h : r < 640 → (s.rdTag (.frag n m k e) r).ue = 0#64) (lanes : Mask) :
    s.meetReg (.frag n m k e) r lanes = s := by
  unfold State.meetReg
  by_cases hr : r < 640
  · simp [h hr]
  · simp [hr]

/-- The registers that a PREF reads. -/
def prefRegs (ag : Agent) (a : Src) (g : Guard) : List Nat := guardRegs ag g ++ [a.r.toNat, a.r.toNat + 1]

/-- The issue of a PREF. -/
def prefSpec (a : Src) (g : Guard) : Spec := { cls := 2, guard := g, srcs := [(a, 2)], ownErr := true }

theorem meetRegs_of_met {s : State} {n m k e : Nat} {a : Src} {g : Guard}
    (h : ∀ r ∈ prefRegs (.frag n m k e) a g, r < 640 → (s.rdTag (.frag n m k e) r).ue = 0#64) (act : Mask) :
    s.meetRegs (.frag n m k e) (prefSpec a g) act = s := by
  have hreads : (prefSpec a g).reads act = [(a.r.toNat, act), (a.r.toNat + 1, act)] := by
    simp [prefSpec, Spec.reads, List.range_succ]
  have h0 : a.r.toNat ∈ prefRegs (.frag n m k e) a g := by simp [prefRegs]
  have h1 : a.r.toNat + 1 ∈ prefRegs (.frag n m k e) a g := by simp [prefRegs]
  have hguard : (if g.g = 0#4 then s else s.meetReg (.frag n m k e) (guardReg (.frag n m k e) g.g)
      (((s.front? (.frag n m k e)).map (·.mask)).getD act)) = s := by
    split
    · rfl
    · next hg => exact State.meetReg_of_met (h _ (by simp [prefRegs, guardRegs, hg])) _
  unfold State.meetRegs
  rw [hreads]
  refine (congrArg (fun u : State => (u.meetReg (.frag n m k e) a.r.toNat act).meetReg (.frag n m k e) (a.r.toNat + 1) act) hguard).trans ?_
  rw [State.meetReg_of_met (h _ h0), State.meetReg_of_met (h _ h1)]

/-- Its lanes with no error in the registers that it reads. -/
def prefLanes (s : State) (ag : Agent) (a : Src) (g : Guard) (act : Mask) : List Nat :=
  (lanesOf act).filter fun l => !s.laneBad ag (prefSpec a g) l

/-- The panel once the lanes have fetched, the agent still at the instruction. -/
def prefDone (s : State) (ag : Agent) (a : Src) (off : BitVec 20) (l2 : Bool) (g : Guard) (act : Mask) : State :=
  (prefLanes s ag a g act).foldl (fun u l =>
    u.prefLane (keyDie (agKey ag)) (u.agCore ag) (u.ptagOf (agKey ag)) l2 (globalAt s ag a off l)) (s.meetRegs ag (prefSpec a g) act)

theorem exec_pref_ready {s : State} {ag : Agent} {act : Mask} {a : Src} {off : BitVec 20} {l2 : Bool} {g : Guard}
    (h : s.ready ag act (prefSpec a g) = true) : exec (.pref a off l2 g) s = .next ((prefDone s ag a off l2 g act).advance ag) := by
  have hex : exec (.pref a off l2 g) s =
      issueWith s (prefSpec a g) fun s ag act => (prefDone s ag a off l2 g act).advance ag := rfl
  rw [hex, issueWith_ready h]

section
variable {s : State} {n m k e : Nat} {act : Mask} {a : Src} {off : BitVec 20} {l2 : Bool} {g : Guard}

theorem prefDone_moved : (s.meetRegs (.frag n m k e) (prefSpec a g) act).memoryMoved (prefDone s (.frag n m k e) a off l2 g act) :=
  foldl_keeps (State.memoryMoved _) _ (fun _ _ h => State.memoryMoved_trans h (State.prefLane_moved _ _ _ _ _ _)) _ _ (State.memoryMoved_refl _)

/-- The errors met are reported; where the fragment stands, its registers' values, and accesses in flight stay. -/
theorem State.meetReg_stays (s : State) (r : Nat) (lanes : Mask) :
    s.stays (s.meetReg (.frag n m k e) r lanes) (.frag n m k e) ∧ (s.meetReg (.frag n m k e) r lanes).flight = s.flight ∧
      (s.meetReg (.frag n m k e) r lanes).teams = s.teams := by
  unfold State.meetReg
  dsimp only
  split
  · have h := State.reportError_moved (s.modTag (.frag n m k e) r fun t => { t with ue := t.ue &&& ~~~s.readLanes (.frag n m k e) r lanes })
      (keyDie (agKey (.frag n m k e))) (s.regPlace (.frag n m k e) r).1 (s.regPlace (.frag n m k e) r).2.1
      (s.regPlace (.frag n m k e) r).2.2 0 1
    exact ⟨State.stays_trans (s.modTag_stays _ _ _) (State.stays_of_rest h.groups h.teams (State.reportError_sameMem _ _ _ _ _ _ _) _),
      h.flight, h.teams⟩
  · exact ⟨s.stays_refl _, rfl, rfl⟩

theorem State.meetRegs_stays (s : State) (sp : Spec) (act : Mask) :
    s.stays (s.meetRegs (.frag n m k e) sp act) (.frag n m k e) ∧ (s.meetRegs (.frag n m k e) sp act).flight = s.flight ∧
      (s.meetRegs (.frag n m k e) sp act).teams = s.teams := by
  have hstep : ∀ (u : State) (r : Nat) (m' : Mask),
      s.stays u (.frag n m k e) ∧ u.flight = s.flight ∧ u.teams = s.teams →
      s.stays (u.meetReg (.frag n m k e) r m') (.frag n m k e) ∧ (u.meetReg (.frag n m k e) r m').flight = s.flight ∧
        (u.meetReg (.frag n m k e) r m').teams = s.teams := by
    rintro u r m' ⟨hs, hf, ht⟩
    obtain ⟨hs', hf', ht'⟩ := State.meetReg_stays (n := n) (m := m) (k := k) (e := e) u r m'
    exact ⟨State.stays_trans hs hs', hf'.trans hf, ht'.trans ht⟩
  unfold State.meetRegs
  refine foldl_keeps (fun u : State => s.stays u (.frag n m k e) ∧ u.flight = s.flight ∧ u.teams = s.teams) _
    (fun u x h => hstep u _ _ h) _ _ ?_
  split
  · exact ⟨s.stays_refl _, rfl, rfl⟩
  · exact hstep s _ _ ⟨s.stays_refl _, rfl, rfl⟩

/-- What a PREF leaves of accesses, teams and its fragment. -/
theorem prefDone_rest : (prefDone s (.frag n m k e) a off l2 g act).flight = s.flight ∧
    (prefDone s (.frag n m k e) a off l2 g act).teams = s.teams ∧
    (prefDone s (.frag n m k e) a off l2 g act).groups = (s.meetRegs (.frag n m k e) (prefSpec a g) act).groups := by
  obtain ⟨-, hf, ht⟩ := s.meetRegs_stays (n := n) (m := m) (k := k) (e := e) (prefSpec a g) act
  have h := prefDone_moved (s := s) (n := n) (m := m) (k := k) (e := e) (act := act) (a := a) (off := off) (l2 := l2) (g := g)
  exact ⟨h.flight.trans hf, h.teams.trans ht, h.groups⟩

/-- The core of an agent's group. -/
theorem State.agCore_of_groups {s t : State} (h : t.groups = s.groups) : t.agCore (.frag n m k e) = s.agCore (.frag n m k e) := by
  simp only [State.agCore, State.group?, h]

theorem State.agCore_meetRegs (sp : Spec) : (s.meetRegs (.frag n m k e) sp act).agCore (.frag n m k e) = s.agCore (.frag n m k e) := by
  have hreg : ∀ (u : State) (r : Nat) (m' : Mask), (u.meetReg (.frag n m k e) r m').agCore (.frag n m k e) = u.agCore (.frag n m k e) := by
    intro u r m'
    unfold State.meetReg
    dsimp only
    split
    · rw [State.agCore_of_groups (State.reportError_moved _ _ _ _ _ _ _).groups]
      show (((u.modGroup (groupKey n m k) _).group? (groupKey n m k)).map (·.core)).getD 0 = _
      rw [State.group_modGroup, if_pos rfl, Option.map_map]
      rfl
    · rfl
  unfold State.meetRegs
  refine foldl_keeps (fun u : State => u.agCore (.frag n m k e) = s.agCore (.frag n m k e)) _ (fun u x h => (hreg u _ _).trans h) _ _ ?_
  split
  · rfl
  · exact hreg s _ _

/-- A PREF keeps every byte, where no line of its core streamed. -/
theorem prefDone_prefetched
    (hns : ∀ x ∈ (s.core (keyDie (groupKey n m k)) (s.agCore (.frag n m k e))).l1, x.2.stream = false) :
    s.prefetched (prefDone s (.frag n m k e) a off l2 g act) (keyDie (groupKey n m k)) (s.agCore (.frag n m k e)) l2 := by
  have h0 := State.reports.prefetched hns l2 (s.meetRegs_reports (.frag n m k e) (prefSpec a g) act)
  have hkeep := foldl_keeps
    (fun u : State => u.agCore (.frag n m k e) = s.agCore (.frag n m k e) ∧
      s.prefetched u (keyDie (groupKey n m k)) (s.agCore (.frag n m k e)) l2)
    (fun u l => u.prefLane (keyDie (groupKey n m k)) (u.agCore (.frag n m k e)) (u.ptagOf (groupKey n m k)) l2
      (globalAt s (.frag n m k e) a off l))
    (fun u l ⟨hcore, h⟩ => by
      refine ⟨(State.agCore_of_groups (State.prefLane_moved _ _ _ _ _ _).groups).trans hcore, ?_⟩
      rw [hcore]
      exact State.prefetched_trans h (State.prefLane_prefetched h.1 l2 _ _))
    (prefLanes s (.frag n m k e) a g act) _ ⟨State.agCore_meetRegs _, h0⟩
  exact hkeep.2

/-- The one lane whose registers hold no error fetches. -/
theorem prefDone_of_lane {l : Nat} (hl : l < 64)
    (hp : ∀ r ∈ prefRegs (.frag n m k e) a g, r < 640 → (s.rdTag (.frag n m k e) r).poison = 0#64) :
    prefDone s (.frag n m k e) a off l2 g (laneBit l) =
      (s.meetRegs (.frag n m k e) (prefSpec a g) (laneBit l)).prefLane (keyDie (groupKey n m k)) (s.agCore (.frag n m k e))
        (s.ptagOf (groupKey n m k)) l2 (globalAt s (.frag n m k e) a off l) := by
  have hgood : s.laneBad (.frag n m k e) (prefSpec a g) l = false := by
    unfold State.laneBad
    rw [List.any_eq_false]
    intro r hr
    have hmem : r ∈ prefRegs (.frag n m k e) a g := by
      simpa [prefRegs, prefSpec, opRegs, List.range_succ] using hr
    by_cases h640 : r < 640
    · simp [hp r hmem h640]
    · simp [h640]
  have hptag : (s.meetRegs (.frag n m k e) (prefSpec a g) (laneBit l)).ptagOf (groupKey n m k) = s.ptagOf (groupKey n m k) := by
    have ht := (s.meetRegs_stays (n := n) (m := m) (k := k) (e := e) (prefSpec a g) (laneBit l)).2.2
    simp only [State.ptagOf, State.teamOf?, State.team?, ht]
  have hlanes : prefLanes s (.frag n m k e) a g (laneBit l) = [l] := by
    rw [prefLanes, lanesOf_laneBit hl]
    simp [hgood]
  rw [prefDone, hlanes, List.foldl_cons, List.foldl_nil, State.agCore_meetRegs, ← hptag]
  rfl

end

/-- A fragment stands past its instruction where the agents' state is that of the issue. -/
theorem State.wentOn_of_groups {s u v : State} {n m k e : Nat} (h : s.stays u (.frag n m k e)) (hv : v.groups = u.groups) :
    s.wentOn (v.advance (.frag n m k e)) (.frag n m k e) := by
  have hfront : v.front? (.frag n m k e) = u.front? (.frag n m k e) := by simp only [State.front?, State.group?, hv]
  have hw := (State.wentOn_of_stays h (State.stays_refl _ _)).1
  refine (?_ : _ = _).trans hw
  rw [State.advance, State.advance, State.front_modFront, State.front_modFront, hfront]

/-- Settles O31: FENCE changes one fragment; PREF is a fold of fills over the lanes without errors, each of which keeps every byte. -/
theorem fenceAndPrefetch : Obligations.FenceAndPrefetch := by
  refine ⟨?_, ?_⟩
  · intro s n m k e act gr f kd sc g ag h hg hf
    have hfront : s.front? ag = some f := (State.front_frag hg).trans hf
    let wide := sc == .die || s.isPair ag
    have hx : ((s.modFront ag fun f => f.fence kd s.fresh wide).advance ag).front? ag = some (f.fence kd s.fresh wide).advance := by
      rw [State.advance, State.front_modFront, State.front_modFront, hfront]
      rfl
    refine ⟨_, _, exec_fence_ready h, hx, ?_, ?_, fun hsc hkd => ?_, fun hkd => ?_, rfl, fun id y hy hid hpast hkind => ?_⟩
    · exact (State.wentOn_of_stays (s.modFront_stays ag fun f => f.fence_stand kd s.fresh wide) (State.stays_refl _ _)).1
    · rw [Fragment.advance_fenceAll, Fragment.advance_fenceRd, Fragment.fence_waits]
    · simp [Fragment.fence_inv, hkd, wide, hsc]
    · simp [Fragment.fence_inv, hkd]
    · have hmem : (id, y) ∈ s.earlier ag (f.fence kd s.fresh wide).advance := by
        rw [State.earlier, List.mem_filter, Fragment.advance_past, Fragment.fence_past]
        exact ⟨hy, List.contains_iff_mem.mpr hpast⟩
      refine List.any_eq_true.mpr ⟨(id, y), hmem, ?_⟩
      have hw := f.fence_waits kd s.fresh wide
      rw [Fragment.advance_fenceAll, Fragment.advance_fenceRd]
      by_cases hacq : kd = .acq
      · rw [if_pos hacq, Prod.mk.injEq] at hw
        simp [hw.2, hid, hkind.resolve_left (not_not_intro hacq)]
      · rw [if_neg hacq, Prod.mk.injEq] at hw
        simp [hw.1, hid]
  · intro s n m k e act a off l2 g l p c ag d va h
    obtain ⟨hstay, -, -⟩ := s.meetRegs_stays (n := n) (m := m) (k := k) (e := e) (prefSpec a g) act
    obtain ⟨hflight, hteams, hgroups⟩ := prefDone_rest (s := s) (n := n) (m := m) (k := k) (e := e) (act := act) (a := a) (off := off)
      (l2 := l2) (g := g)
    refine ⟨_, exec_pref_ready h, hflight, hteams, State.wentOn_of_groups hstay hgroups, fun r i hr hi => ?_, fun hue => ?_,
      fun hns => ?_, ?_⟩
    · rw [State.advance, State.rdReg_modFront _ _ _ hr hi, ← hstay.2.1 r i hr hi, State.rdReg_frag _ _ _ _ _ hr hi,
        State.rdReg_frag _ _ _ _ _ hr hi, State.group?, hgroups]
      rfl
    · have hmet := meetRegs_of_met hue act
      rw [hmet] at hgroups
      show (State.modGroup _ _ _).groups = (State.modGroup _ _ _).groups
      rw [State.modGroup, State.modGroup, hgroups]
    · obtain ⟨-, hbyte, hpoison, hmem, hl2⟩ := prefDone_prefetched (a := a) (off := off) (l2 := l2) (g := g) (act := act) hns
      exact ⟨hbyte, hpoison, hmem, hl2⟩
    · rintro rfl hl hpoison hx hchk hb hps hues
      have hr := s.meetRegs_reports ag (prefSpec a g) (laneBit l)
      have hone := (prefDone_of_lane (off := off) (l2 := l2) hl hpoison).trans (State.prefLane_of_ok l2 ((hr.xlateBusy _ _ _).trans hx)
        ((hr.chkNow _ _ _ _ _).trans hchk) ((hr.coreBusy _ _ _ _).trans hb) (hr.poison.trans hps) (hr.ue.trans hues))
      refine ⟨fun hl2 hroom => ?_, fun hl2 hroom i hi => ?_⟩
      · rw [if_neg (by simp [hl2])] at hone
        refine (congrArg (fun u : State => u.l1Has d (s.agCore ag) p) hone).trans ?_
        exact State.l1Has_l1Put ((hr.l1Room _ _ _).trans hroom) _
      · rw [if_pos hl2] at hone
        refine (congrArg (fun u : State => aget u.l2 (stackKey d (p / 64 * 64 + i))) hone).trans ?_
        exact (State.l2Fill_spec.2.2 ((hr.l2Room _ _).trans hroom) i hi).trans (congrArg some (hr.stackByte _ _))

end Sys2Proof.Machine
end

section
/-! PROOFS. Errors that reads of the device itself meet (R3, R176), and GNAME, GFREE and AWAIT (R68, R253, R254, R283, R284, R286). -/

namespace Sys2Proof.Machine

/-! Errors met. -/

theorem State.errorsMet_refl (s : State) : s.errorsMet s := ⟨rfl, fun _ => rfl⟩

theorem State.errorsMet_trans {s t u : State} (h : s.errorsMet t) (h' : t.errorsMet u) : s.errorsMet u := by
  refine ⟨?_, fun hu => ?_⟩
  · have h1 := h.1
    rw [← h'.1] at h1
    exact h1
  · have ht := h.2 hu
    rw [h'.2 (by rw [ht]; exact hu), ht]

theorem State.errorsMet.groups {s u : State} (h : s.errorsMet u) : u.groups = s.groups := (congrArg State.groups h.1 :)

theorem State.reportHome_dies (s : State) (d off : Nat) : { s.reportHome d off with dies := s.dies } = s := by
  have h : ∀ a b c e f, { s.reportError d a b c e f with dies := s.dies } = s := fun a b c e f => by
    unfold State.reportError
    dsimp only
    split
    · rfl
    · split <;> rfl
  unfold State.reportHome
  split <;> exact h _ _ _ _ _

/-- The device's own read of a sector meets at most its error. -/
theorem State.metHome_errorsMet (s : State) (d off : Nat) : s.errorsMet (s.metHome d off) := by
  unfold State.metHome
  split
  · next hm =>
    refine ⟨?_, fun hu => ?_⟩
    · have h := s.reportHome_dies d off
      exact (congrArg (fun t : State => { t with poison := s.poison, ue := s.ue, ueL2 := s.ueL2 }) h :)
    · unfold State.meetHome at hm
      rw [hu] at hm
      split at hm <;> exact absurd hm (by simp)
  · exact s.errorsMet_refl
  · exact s.errorsMet_refl

theorem State.qMetAll_errorsMet (s : State) (d : Nat) (ptag : BitVec 12) (n : Nat) : s.errorsMet (s.qMetAll d ptag n) := by
  refine foldl_keeps s.errorsMet (fun (u : State) x => u.qMet d ptag x) (fun u x h => State.errorsMet_trans h ?_) _ _ s.errorsMet_refl
  unfold State.qMet
  cases u.qAddr d ptag x with
  | none => exact u.errorsMet_refl
  | some a => exact u.metHome_errorsMet d a

/-! Where a fragment of a group that is there stands. -/

theorem State.wentOn_of_group {s t : State} {n m k e : Nat} {g gt : Group} {f y : Fragment} (hg : s.group? (groupKey n m k) = some g)
    (hf : aget g.frags e = some f) (ht : t.group? (groupKey n m k) = some gt) (hy : aget gt.frags e = some y)
    (hstand : y.stand = f.advance.stand) : s.wentOn t (.frag n m k e) := by
  show (t.front? (.frag n m k e)).map Fragment.stand = ((s.front? (.frag n m k e)).map Fragment.advance).map Fragment.stand
  rw [State.front_frag hg, State.front_frag ht, hf, hy]
  exact congrArg some hstand

/-- A queue instruction whose fences allow it, with no invalidation due (R205). -/
theorem State.withQue_ready {s : State} {ag : Agent} {f : Fragment} (hf : s.front? ag = some f) (hi : f.fenceInv = false)
    (h : s.notHeldBack ag f false) (k : State → Fragment → State) : s.withQue ag false k = k s f := by
  have hdue : s.fenceDue ag f = s := by rw [State.fenceDue, hi]; rfl
  rw [State.withQue, State.withMem_ready hf h, hdue]
  rfl

theorem State.mails.ptag {s t : State} (h : s.mails t) (k : Nat) : t.ptagOf k = s.ptagOf k := by
  simp only [State.ptagOf, State.teamOf?, h.team]

/-! GNAME (R253, R283). -/

section
variable {s : State} {n m k e : Nat} {act : Mask} {gr : Group} {f : Fragment} {d : RegNo} {g : Guard}
  (hg : s.group? (groupKey n m k) = some gr) (hf : aget gr.frags e = some f) (hi : f.fenceInv = false)
  (hh : s.notHeldBack (.frag n m k e) f false)
include hg hf hi hh

/-- GNAME writes the name that the group takes. -/
theorem exec_gname_ready (h : s.ready (.frag n m k e) act (queSpec g [] [(d, 1)] false) = true) {u : State} {q : BitVec 32}
    (htake : s.takeName (groupKey n m k) = (u, q)) : exec (.gname d g) s = .next (u.quietly (.frag n m k e) act d fun _ => [q]) := by
  simp only [exec, execGname]
  rw [issueWith_ready h, State.withQue_ready ((State.front_frag hg).trans hf) hi hh, State.quietly_eq]
  simp only [agKey, htake]
  rfl

theorem exec_gfree_ready (h : s.ready (.frag n m k e) act (queSpec g [] [] false) = true) :
    exec (.gfree g) s = .next (if gr.name.isNone then s.advance (.frag n m k e)
      else (((s.advance (.frag n m k e)).nameRelease (groupKey n m k)).modGroup (groupKey n m k) Group.disarm).wake (groupKey n m k)) := by
  have hname : (((s.advance (.frag n m k e)).group? (groupKey n m k)).bind (·.name)) = gr.name := by
    rw [State.group_advance_frag hg]
    rfl
  simp only [exec, execGfree]
  rw [issueWith_ready h, State.withQue_ready ((State.front_frag hg).trans hf) hi hh]
  simp only [agKey, hname]

theorem exec_await_ready {af : AwaitForm} (h : s.ready (.frag n m k e) act { queSpec g (awaitSrcs af) [(d, 1)] false with
      late := decide (recNv (s.recOf (groupKey n m k)) ≤ d.toNat) || gr.name.isNone } = true) :
    let mask := awaitMask af (s.vals (.frag n m k e) (awaitSrcs af)) (lowLane act) (s.width (.frag n m k e))
    exec (.await d af g) s = .next ((if mask = 0#64 then s else s.modTag (.frag n m k e) d.toNat fun t =>
      { t with empty := true, arm := mask, filled := 0#64 }).advance (.frag n m k e)) := by
  intro mask
  have hcur : s.cur = some (.frag n m k e) := by
    simp only [State.ready, Bool.and_eq_true, beq_iff_eq] at h
    exact h.1
  have hlate : (decide (recNv s.curRec ≤ d.toNat) || !s.curNamed) = (decide (recNv (s.recOf (groupKey n m k)) ≤ d.toNat) || gr.name.isNone) := by
    simp only [State.curRec, State.curNamed, hcur, Option.map_some, Option.getD_some, Option.bind_some, agKey, hg, Option.not_isSome]
  simp only [exec, execAwait, hlate]
  rw [issueWith_ready h, State.withQue_ready ((State.front_frag hg).trans hf) hi hh]
  rfl

end

/-- The name that a named group reads is its own. -/
theorem State.takeName_of_named {s : State} {k : Nat} {g : Group} {q : BitVec 32} {qk : Nat} (hg : s.group? k = some g)
    (hn : g.name = some (q, qk)) : s.takeName k = (s, q) := by
  simp [State.takeName, hg, hn]

/-- With no free cask the group stays without a name and reads 0. -/
theorem State.takeName_of_no_cask {s : State} {k : Nat} {g : Group} (hg : s.group? k = some g) (hn : g.name = none)
    (hc : s.findCask (keyDie k) (s.ptagOf k) = none) : ∃ u, s.errorsMet u ∧ s.takeName k = (u, 0#32) := by
  refine ⟨_, s.qMetAll_errorsMet (keyDie k) (s.ptagOf k) (((aget (s.die (keyDie k)).procs (s.ptagOf k).toNat).map (·.qlen)).getD 0), ?_⟩
  simp [State.takeName, hg, hn, hc]

/-- The free cask found is bound to the group, and its qid is the group's name. -/
theorem State.takeName_of_cask {s : State} {k : Nat} {g : Group} {x qk : Nat} {qu : Queue} (hg : s.group? k = some g) (hn : g.name = none)
    (hc : s.findCask (keyDie k) (s.ptagOf k) = some (x, qk)) (hq : aget s.queues qk = some qu) :
    ∃ u, s.mails u ∧ s.takeName k =
      (({ u with queues := aput s.queues qk { qu with bound := some (k, caskQid qu.gen x) } }).modGroup k
        fun g => { g with name := some (caskQid qu.gen x, qk) }, caskQid qu.gen x) := by
  have hmet : s.mails (s.qMetAll (keyDie k) (s.ptagOf k) x) :=
    foldl_keeps s.mails (fun (u : State) y => u.qMet (keyDie k) (s.ptagOf k) y) (fun u y h => State.mails_trans h (u.qMet_mails _ _ _)) _ _
      s.mails_refl
  have hmails := State.mails_trans hmet (State.qCache_mails _ (keyDie k) (s.ptagOf k) x)
  refine ⟨_, hmails, ?_⟩
  have hq' : aget (s.qMetAll (keyDie k) (s.ptagOf k) x).queues qk = some qu := by rw [hmet.queues, hq]
  have hptag := hmet.ptag k
  have hqueues := hmails.queues
  simp only [State.takeName, hg, hn, Option.bind_some, hc, hq', hptag, State.modQueue, hqueues, amod_of_aget hq]

/-! GFREE (R254, R284). -/

/-- A tag as disarming leaves it. -/
def RegTag.disarmed (t : RegTag) : RegTag := { t with arm := 0#64, filled := 0#64, empty := t.empty && t.arm == 0#64 }

/-- The tag of each register as disarming leaves it, where the group's map of tags names no register twice. -/
theorem sget_disarm : ∀ {l : List (Nat × RegTag)}, (l.map (·.1)).Nodup → ∀ r,
    sget {} (l.filterMap fun e => if e.2.disarmed = {} then none else some (e.1, e.2.disarmed)) r = (sget {} l r).disarmed
  | [], _, r => rfl
  | (q, t) :: l, hn, r => by
    rw [List.map_cons, List.nodup_cons] at hn
    have ih := sget_disarm hn.2 r
    by_cases hr : r = q
    · have htail : sget {} l r = {} := by
        have hnone : ∀ {l : List (Nat × RegTag)}, r ∉ l.map (·.1) → sget {} l r = {} := fun {l} h => by
          induction l with
          | nil => rfl
          | cons e l ih =>
            rw [List.map_cons, List.mem_cons, not_or] at h
            rw [sget, if_neg h.1, ih h.2]
        exact hnone (hr ▸ hn.1)
      rw [List.filterMap_cons, sget, if_pos hr]
      by_cases ht : t.disarmed = {}
      · simp only [ht, if_true]
        rw [ih, htail]
        rfl
      · simp only [ht, if_false]
        rw [sget, if_pos hr]
    · rw [List.filterMap_cons, sget, if_neg hr]
      by_cases ht : t.disarmed = {}
      · simp only [ht, if_true]
        exact ih
      · simp only [ht, if_false]
        rw [sget, if_neg hr]
        exact ih

theorem Group.tag_disarm {g : Group} (h : (g.tags.map (·.1)).Nodup) (r : Nat) : g.disarm.tag r = (g.tag r).disarmed := sget_disarm h r

theorem State.discardNotice_mails (s : State) (d port : Nat) (p : BitVec 12) (note : Notice) : s.mails (s.discardNotice d port p note) :=
  s.faultPut_mails _ _ _ _

/-- A name released: the cask is empty and free under its next generation (R254, R315). -/
theorem State.nameRelease_spec {s : State} {k : Nat} {g : Group} {q : BitVec 32} {qk : Nat} {qu : Queue} (hg : s.group? k = some g)
    (hn : g.name = some (q, qk)) (hq : aget s.queues qk = some qu) :
    ∃ w, (s.nameRelease k).group? k = some { g with name := none } ∧ s.sameMem (s.nameRelease k) ∧
      aget (s.nameRelease k).queues qk = some { qu with gen := qu.gen + 1#6, head := w, tail := w, pos := [], waiters := [], bound := none } := by
  refine ⟨Config.freeWord s.tick, ?_⟩
  let v : State := ({ s.draw with
    queues := aput s.queues qk { qu with
      gen := qu.gen + 1#6, head := Config.freeWord s.tick, tail := Config.freeWord s.tick, pos := [], waiters := [], bound := none } }).modGroup k
    fun g => { g with name := none }
  have hv : v.group? k = some { g with name := none } := by
    have hg' : aget s.groups k = some g := hg
    show aget (amod s.groups k _) k = _
    rw [aget_amod, if_pos rfl, hg', Option.map_some]
  have hvq : aget v.queues qk = some { qu with
      gen := qu.gen + 1#6, head := Config.freeWord s.tick, tail := Config.freeWord s.tick, pos := [], waiters := [], bound := none } := by
    show aget (aput s.queues qk _) qk = _
    rw [aget_aput, if_pos rfl]
  simp only [State.nameRelease, hg, hn, Option.bind_some, hq]
  split
  · exact ⟨hv, ⟨rfl, rfl⟩, hvq⟩
  · have hm := fun n port note => State.discardNotice_mails (v.addDiscards (keyDie k) qu.owner n) (keyDie k) port qu.owner note
    exact ⟨((hm _ _ _).group k).trans hv, (hm _ _ _).sameMem, (congrArg (aget · qk) (hm _ _ _).queues).trans hvq⟩

/-! AWAIT (R68, R286). -/

theorem State.rdTag_modTag_frag {s : State} {n m k e : Nat} {gr : Group} (hg : s.group? (groupKey n m k) = some gr) (q r : Nat)
    (p : RegTag → RegTag) : (s.modTag (.frag n m k e) q p).rdTag (.frag n m k e) r =
      if r = q then p (s.rdTag (.frag n m k e) q) else s.rdTag (.frag n m k e) r := by
  simp only [State.rdTag, State.modTag, agKey, State.group_modGroup, if_true, hg, Option.map_some, Option.getD_some, Group.tag_modTag]

/-- A group whose waits are tested again: what `State.wake` makes of it. -/
def Group.woken (g : Group) : Group := { g with
  frags := g.frags.map fun e => (e.1, { e.2 with stall := g.stillWaits e.2.stall })
  recruit := g.recruit.map fun r =>
    { r with helpers := r.helpers.map fun h => (h.1, { h.2 with front := { h.2.front with stall := .none } }) } }

theorem Group.frag_woken {g : Group} {e : Nat} {f : Fragment} (h : aget g.frags e = some f) :
    aget g.woken.frags e = some { f with stall := g.stillWaits f.stall } :=
  let quieter (x : Fragment) : Fragment := { x with stall := g.stillWaits x.stall }
  (aget_map_values quieter e g.frags).trans (congrArg (Option.map quieter) h)

/-- Settles O44: GNAME takes the name that `State.takeName` finds; GFREE releases it and disarms; AWAIT changes one tag. -/
theorem namesAndAwait : Obligations.NamesAndAwait := by
  intro s n m k e act gr f d af g ag key hg hf hi hh hn hm hk
  have hdie : keyDie key = n := keyDie_groupKey hm hk
  refine ⟨fun h => ⟨fun q qk hname => ?_, fun hname hc => ?_, fun x qk qu hname hc hq => ?_⟩, fun h => ⟨fun hname => ?_, fun q qk qu hname hq hnodup => ?_⟩,
    fun mask h hmask => ?_⟩
  · exact exec_gname_ready hg hf hi hh h (State.takeName_of_named hg hname)
  · obtain ⟨u, hu, htake⟩ := State.takeName_of_no_cask hg hname ((congrArg (s.findCask · _) hdie).trans hc)
    exact ⟨u, hu, exec_gname_ready hg hf hi hh h htake⟩
  · intro q
    obtain ⟨u, hu, htake⟩ := State.takeName_of_cask hg hname ((congrArg (s.findCask · _) hdie).trans hc) hq
    let v : State := ({ u with queues := aput s.queues qk { qu with bound := some (key, q) } }).modGroup key
      fun g => { g with name := some (q, qk) }
    have hv : v.group? key = some { gr with name := some (q, qk) } := by
      have hg' : State.group? { u with queues := aput s.queues qk { qu with bound := some (key, q) } } key = some gr := (hu.group key).trans hg
      rw [State.group_modGroup, if_pos rfl, hg', Option.map_some]
    have hex : exec (.gname d g) s = .next (v.quietly ag act d fun _ => [q]) := exec_gname_ready hg hf hi hh h htake
    have hgt : (v.quietly ag act d fun _ => [q]).group? key = some (({ gr with name := some (q, qk) } : Group).computed e
        (laneWrites d.toNat act fun _ => [q]) ((lanesOf act).foldl (fun a _ => a.or Flags.none) Flags.none)) := by
      rw [State.quietly, State.computed_frag]
      exact (State.group_modGroup _ _ _ _).trans ((if_pos rfl).trans (congrArg (Option.map _) hv))
    refine ⟨_, _, hex, hgt, ?_, ?_, fun l hl => ?_, ?_, ?_, ?_⟩
    · exact (congrArg Group.name (Group.setRegs_rest (laneWrites d.toNat act fun _ => [q]) { gr with name := some (q, qk) }) :)
    · rw [State.quietly, State.computed_frag]
      rfl
    · exact Group.rd_resultWrites (i := 0) _ rfl hl
    · exact State.wentOn_of_group hg hf hgt ((aget_amod gr.frags e e Fragment.advance).trans ((if_pos rfl).trans (congrArg _ hf))) rfl
    · rw [State.quietly, State.computed_frag]
      exact hu.mem
    · rw [State.quietly, State.computed_frag]
      exact hu.l2
  · exact (exec_gfree_ready hg hf hi hh h).trans (congrArg Host.Outcome.next (if_pos (by rw [hname]; rfl)))
  · obtain ⟨w, hrel, ⟨hmem, hl2⟩, hqueue⟩ := State.nameRelease_spec (State.group_advance_frag (e := e) hg) hname hq
    let gd : Group := ({ gr with frags := amod gr.frags e Fragment.advance, name := none } : Group).disarm
    have hex : exec (.gfree g) s =
        .next ((((s.advance ag).nameRelease key).modGroup key Group.disarm).wake key) :=
      (exec_gfree_ready hg hf hi hh h).trans (congrArg Host.Outcome.next (if_neg (by simp [hname])))
    have hgt : ((((s.advance ag).nameRelease key).modGroup key Group.disarm).wake key).group? key = some gd.woken := by
      rw [State.wake, State.group_modGroup, if_pos rfl, State.group_modGroup, if_pos rfl]
      exact congrArg (fun x => (x.map Group.disarm).map Group.woken) hrel
    have htag : ∀ r, gd.woken.tag r = (gr.tag r).disarmed := Group.tag_disarm (g := { gr with frags := amod gr.frags e Fragment.advance, name := none }) hnodup
    have hfrag : aget gd.woken.frags e = some { f.advance with stall := gd.stillWaits f.advance.stall } :=
      Group.frag_woken ((aget_amod gr.frags e e _).trans ((if_pos rfl).trans (congrArg _ hf)))
    refine ⟨_, _, w, hex, hgt, rfl, hqueue, fun r => ?_, fun _ _ => rfl, State.wentOn_of_group hg hf hgt hfrag rfl, hmem, hl2⟩
    rw [htag]
    refine ⟨rfl, rfl, fun harm => ?_, fun harm => ?_⟩
    · simp [RegTag.disarmed, harm]
    · simp [RegTag.disarmed, harm]
  · have hm' : awaitMask af (s.vals ag (awaitSrcs af)) (lowLane act) (s.width ag) = mask := by
      rw [hmask, BitVec.and_comm]
      cases af <;> rfl
    have hex := exec_await_ready hg hf hi hh h
    dsimp only at hex
    rw [hm'] at hex
    have hstay : s.stays (if mask = 0#64 then s else s.modTag ag d.toNat fun t => { t with empty := true, arm := mask, filled := 0#64 }) ag := by
      split
      · exact s.stays_refl ag
      · exact s.modTag_stays ag _ _
    obtain ⟨hwent, hkeep⟩ := State.wentOn_of_stays hstay (State.stays_refl _ ag)
    refine ⟨_, hex, hwent, hkeep, fun r _ => ?_, ?_⟩
    · rw [State.advance, State.rdTag_modFront]
      by_cases h0 : mask = 0#64
      · rw [if_pos h0, if_neg (fun h => h.2 h0)]
      · rw [if_neg h0, State.rdTag_modTag_frag hg]
        by_cases hr : r = d.toNat
        · rw [if_pos hr, if_pos ⟨hr, h0⟩, hr]
        · rw [if_neg hr, if_neg fun h => hr h.1]
    · split <;> rfl

end Sys2Proof.Machine
end

section
/-! PROOFS. MWR behind an acquire (R181, R344, R347). -/

namespace Sys2Proof.Machine

/-! An MWR acts as it issues, so it waits for its agent's earlier acquires (R181) before it compares its rows with the window. -/

/-- An acquiring load of fragment 0 in flight. -/
def acquiringLoad : Access where
  ag := .frag 0 0 0 0
  uid := 0
  pc := 0#48
  kind := .load
  space := .loc
  pieces := []
  dst := 0
  ndst := 0
  act := 1#64
  acq := true
  core := 0

/-- Fragment 0 at an instruction of class 5, its acquiring load outstanding. -/
def acquiringFrag : Fragment :=
  { clause := 0#48, hdr := some (demoHeader 5), mask := 1#64, past := [0] }

/-- Its group. -/
def acquiringGroup : Group := { uid := 0, core := 0, part := 0, frags := [(0, acquiringFrag)] }

/-- The sequencer of its team. -/
def acquiringSeq : Seq := { front := { clause := 0#48, mask := 1#64 } }

/-- Its team: a matrix team whose windows are empty (R344). -/
def acquiringTeam : Team :=
  { recd := demoRec, ptag := 0#12, priv := false, index := 0#32, share := 0, privBase := 0#48, ctxBase := 0#48, cores := [0, 1],
    seq := some acquiringSeq }

/-- A panel with that team alone, whose group 0 issues. -/
def acquiringPanel : State :=
  { State.reset with
    cur := some (.frag 0 0 0 0), teams := [(0, acquiringTeam)], groups := [(0, acquiringGroup)], flight := [(0, acquiringLoad)], fresh := 1 }

/-- MWR of v1 to the row that v2 names. -/
def acquiringMwr : Instr := .mwr ⟨1#10, false⟩ ⟨2#10, false⟩ 0#3 ⟨0#4, false⟩

/-- How the group's fragment waits after the instruction. -/
def acquiringStall : Option Stall :=
  match exec acquiringMwr acquiringPanel with
  | .next t => (t.front? (.frag 0 0 0 0)).map (·.stall)
  | .refused _ | .fault _ => none

theorem acquiringStall_eq : acquiringStall = some .issue := by decide +kernel

/-- WINDOW parks the group; its fragment waits for no issue. -/
theorem windowFault_stall :
    ((acquiringPanel.windowFault (.frag 0 0 0 0) 1#64 (0, 0) 0).front? (.frag 0 0 0 0)).map (·.stall) ≠ some .issue := by decide +kernel

theorem acquiringPanel_ready : acquiringPanel.ready (.frag 0 0 0 0) 1#64
    (mtxSpec acquiringPanel ⟨0#4, false⟩ ((⟨2#10, false⟩, 1) :: (regRun 1#10 1).map fun r => (⟨r, false⟩, 1)) [] (!runOk demoRec 1#10 1)) = true := by
  decide +kernel

theorem acquiringPanel_tunClean : acquiringPanel.tunClean 0 acquiringTeam :=
  ⟨rfl, rfl, 0, 1, rfl, by decide, by decide, by decide, by decide⟩

/-- Refutes O51: in `acquiringPanel` the row of the MWR lies outside its group's window, but an acquiring load of the fragment is
outstanding, so that the MWR waits and raises no WINDOW. -/
theorem not_tunRows : ¬ Obligations.TunRows := by
  unfold Obligations.TunRows
  intro h
  have hwidth : acquiringPanel.width (.frag 0 0 0 0) = 16 := by decide +kernel
  obtain ⟨-, -, -, -, hmwr⟩ := h acquiringPanel 0 0 0 0 1#64 acquiringGroup acquiringFrag acquiringTeam acquiringSeq 0#10 0#10
    ⟨2#10, false⟩ ⟨2#10, false⟩ ⟨1#10, false⟩ 0#3 ⟨0#4, false⟩ (by decide) (by decide) (by decide) rfl rfl rfl rfl
    (Or.inl hwidth) (by decide +kernel) (fun i hi => by simp at hi; omega) acquiringPanel_tunClean rfl
    ⟨by decide, fun h => absurd h (by decide)⟩
  obtain ⟨hout, -⟩ := hmwr 0 (by decide +kernel) acquiringPanel_ready
  have hex := hout 0 (by decide +kernel)
  have hstall : acquiringStall = ((acquiringPanel.windowFault (.frag 0 0 0 0) 1#64 (0, 0) 0).front? (.frag 0 0 0 0)).map (·.stall) := by
    unfold acquiringStall
    rw [show exec acquiringMwr acquiringPanel = _ from hex]
    rfl
  exact windowFault_stall (hstall.symm.trans acquiringStall_eq)

end Sys2Proof.Machine
end

section
/-! PROOFS. Direct and indirect transfers (R84, R119 to R123). -/

namespace Sys2Proof.Machine

/-! Lanes and masks. -/

theorem getLsbD_laneBit (l i : Nat) : (laneBit l).getLsbD i = (decide (i < 64) && decide (i = l)) := by
  rw [laneBit, BitVec.getLsbD_shiftLeft, BitVec.getLsbD_one, Bool.eq_iff_iff]
  simp only [Bool.and_eq_true, decide_eq_true_eq, Bool.not_eq_true', decide_eq_false_iff_not]
  omega

theorem getLsbD_maskOf (l : List Nat) (i : Nat) : (maskOf l).getLsbD i = (decide (i < 64) && decide (i ∈ l)) := by
  have hfold : ∀ (l : List Nat) (m : Mask), (l.foldl (fun m i => m ||| laneBit i) m).getLsbD i =
      (m.getLsbD i || (decide (i < 64) && decide (i ∈ l))) := fun l => by
    induction l with
    | nil => simp
    | cons x t ih =>
      intro m
      rw [List.foldl_cons, ih, BitVec.getLsbD_or, getLsbD_laneBit, Bool.eq_iff_iff]
      simp only [Bool.or_eq_true, Bool.and_eq_true, decide_eq_true_eq, List.mem_cons]
      tauto
  rw [maskOf, hfold, BitVec.getLsbD_zero, Bool.false_or]

/-- The active lanes of a ready instruction are lanes of its fragment (R79). -/
theorem active_of_ready {s : State} {ag : Agent} {act : Mask} {sp : Spec} {f : Fragment} (h : s.ready ag act sp = true)
    (hf : s.front? ag = some f) : act ≠ 0#64 ∧ ∀ l, act.getLsbD l = true → f.mask.getLsbD l = true := by
  simp only [State.ready, hf, Bool.and_eq_true, beq_iff_eq, bne_iff_ne] at h
  have hact : s.active ag f sp.guard = act := by tauto
  refine ⟨by tauto, fun l hl => ?_⟩
  rw [← hact, State.active] at hl
  split at hl
  · exact hl
  · rw [getLsbD_maskOf, Bool.and_eq_true, decide_eq_true_eq, decide_eq_true_eq, List.mem_filter, mem_lanesOf] at hl
    exact hl.2.1.2

/-! A transfer is the last instruction of its clause (R76). -/

theorem last_of_ready {s : State} {ag : Agent} {act : Mask} {sp : Spec} {f : Fragment} (h : s.ready ag act sp = true)
    (hf : s.front? ag = some f) (ht : sp.transfer = true) : ∃ w, f.hdr = some w ∧ f.idx = bits w 56 53 := by
  obtain ⟨w, hw⟩ := hdr_of_ready h hf
  refine ⟨w, hw, ?_⟩
  simp only [State.ready, hf, clauseRules, hw, ht, Bool.and_eq_true, beq_iff_eq, Bool.not_true, Bool.false_or] at h
  tauto

theorem Fragment.advance_of_last {f : Fragment} {w : Code} (h : f.hdr = some w) (hi : f.idx = bits w 56 53) :
    f.advance = { f with clause := nextClause f.clause w, idx := 0, hdr := none, wait := .run, stall := .none, gang := none } := by
  simp [Fragment.advance, h, hi]

/-! Direct transfers (R119, R122). -/

theorem amod_congr {α : Type} {l : List (Nat × α)} {k : Nat} {p q : α → α} (h : ∀ x, aget l k = some x → p x = q x) : amod l k p = amod l k q := by
  unfold amod
  cases hx : aget l k with
  | none => rfl
  | some x => simp only [h x hx]

/-- Two changes that agree on the fragment of an agent change it alike. -/
theorem State.modFront_congr {s : State} {ag : Agent} {f : Fragment} {p q : Fragment → Fragment} (hf : s.front? ag = some f) (h : p f = q f) :
    s.modFront ag p = s.modFront ag q := by
  cases ag with
  | frag n m k e =>
    refine congrArg (fun l => { s with groups := l }) (amod_congr fun g hg => ?_)
    refine congrArg (fun l => { g with frags := l }) (amod_congr fun x hx => ?_)
    have hfx : some x = some f := hx.symm.trans ((State.front_frag hg).symm.trans hf)
    rw [Option.some.inj hfx, h]
  | helper n m k i =>
    refine congrArg (fun l => { s with groups := l }) (amod_congr fun g hg => ?_)
    refine congrArg (fun l => { g with recruit := l }) ?_
    cases hr : g.recruit with
    | none => rfl
    | some r =>
      refine congrArg (fun l => some { r with helpers := l }) (amod_congr fun x hx => ?_)
      have hg' : s.group? (groupKey n m k) = some g := hg
      simp only [State.front?, State.helper?, agKey, hg', hr, Option.bind_some, hx] at hf
      split at hf
      · obtain rfl := Option.some.inj hf
        rw [h]
      · cases hf
  | seq n m =>
    refine congrArg (fun l => { s with teams := l }) (amod_congr fun t ht => ?_)
    refine congrArg (fun l => { t with seq := l }) ?_
    cases hq : t.seq with
    | none => rfl
    | some x =>
      have ht' : s.team? n m = some t := ht
      simp only [State.front?, ht', Option.bind_some, hq, Option.map_some, Option.some.injEq] at hf
      subst hf
      simp only [Option.map_some, h]

theorem State.takeBranch_all (s : State) (ag : Agent) (f : Fragment) (a : Addr) :
    s.takeBranch ag f f.mask a = some (s.modFront ag fun x => x.goto a) := by
  unfold State.takeBranch
  rw [if_pos rfl]

theorem State.branch_all {s : State} {ag : Agent} {f : Fragment} {tgt : BitVec 30} (hf : s.front? ag = some f)
    (hh : s.headerAt ag (f.target tgt)) (hb : s.agFetchBusy ag (f.target tgt) = false) (pre : State → State) :
    s.branch ag f.mask tgt pre = pre (s.modFront ag fun x => x.goto (f.target tgt)) := by
  rw [State.branch_of_header hf hh hb, State.takeBranch_all]
  rfl

/-! The targets of an indirect transfer (R120). -/

theorem pairwise_nsInsert {l : List Nat} (h : l.Pairwise (· < ·)) (k : Nat) : (nsInsert l k).Pairwise (· < ·) := by
  induction l with
  | nil => simp [nsInsert]
  | cons x t ih =>
    obtain ⟨hx, ht⟩ := List.pairwise_cons.mp h
    unfold nsInsert
    split
    · next hk => exact List.pairwise_cons.mpr ⟨fun y hy => by
        rcases List.mem_cons.mp hy with rfl | hy
        · exact hk
        · exact hk.trans (hx y hy), h⟩
    · split
      · exact h
      · next hk hne => exact List.pairwise_cons.mpr ⟨fun y hy => by
          rcases (mem_nsInsert t k y).mp hy with rfl | hy
          · omega
          · exact hx y hy, ih ht⟩

/-- A list inserted into a sorted set: sorted, with the members of both. -/
theorem foldl_nsInsert (l : List Nat) : ∀ {acc : List Nat}, acc.Pairwise (· < ·) →
    (l.foldl nsInsert acc).Pairwise (· < ·) ∧ ∀ x, x ∈ l.foldl nsInsert acc ↔ x ∈ l ∨ x ∈ acc := by
  induction l with
  | nil => intro acc h; exact ⟨h, by simp⟩
  | cons y t ih =>
    intro acc h
    obtain ⟨hp, hm⟩ := ih (pairwise_nsInsert h y)
    refine ⟨hp, fun x => ?_⟩
    rw [List.foldl_cons, hm, mem_nsInsert, List.mem_cons]
    tauto

/-- Two sorted sets with the same members are one. -/
theorem eq_of_sorted_of_mem {l l' : List Nat} (h : l.Pairwise (· < ·)) (h' : l'.Pairwise (· < ·)) (hm : ∀ x, x ∈ l ↔ x ∈ l') : l = l' :=
  List.Perm.eq_of_pairwise (fun _ _ _ _ hab hba => absurd hab (Nat.lt_asymm hba)) h h'
    ((List.perm_ext_iff_of_nodup (h.imp Nat.ne_of_lt) (h'.imp Nat.ne_of_lt)).mpr hm)

/-- Each active lane with its target. -/
def laneTargets (act : Mask) (there : Nat → Addr) : List (Nat × Nat) := (lanesOf act).map fun l => (l, (there l).toNat)

/-- The distinct targets of some lanes, each with its lanes. -/
def targetParts (ts : List (Addr × Mask)) : List (Nat × Mask) := ts.map fun p => (p.1.toNat, p.2)

theorem mem_targetLanes {act : Mask} {there : Nat → Addr} {i x : Nat} :
    i ∈ ((laneTargets act there).filter fun y => y.2 == x).map (·.1) ↔ i ∈ lanesOf act ∧ (there i).toNat = x := by
  simp only [laneTargets, List.mem_map, List.mem_filter, beq_iff_eq]
  constructor
  · rintro ⟨y, ⟨⟨l, hl, rfl⟩, hx⟩, rfl⟩
    exact ⟨hl, hx⟩
  · exact fun ⟨hl, hx⟩ => ⟨_, ⟨⟨i, hl, rfl⟩, hx⟩, rfl⟩

/-- Ascending targets whose masks are the lanes that name them are those that the model groups (R120). -/
theorem groupTargets_laneTargets {act : Mask} {there : Nat → Addr} {ts : List (Addr × Mask)}
    (hsorted : (ts.map fun p => p.1.toNat).Pairwise (· < ·)) (hne : ∀ p ∈ ts, p.2 ≠ 0#64) (hall : ∀ l ∈ lanesOf act, there l ∈ ts.map (·.1))
    (hmask : ∀ p ∈ ts, ∀ l, p.2.getLsbD l = ((lanesOf act).contains l && there l == p.1)) :
    groupTargets (laneTargets act there) = targetParts ts := by
  have hkeys : ((laneTargets act there).map (·.2)).foldl nsInsert [] = ts.map fun p => p.1.toNat := by
    obtain ⟨hp, hm⟩ := foldl_nsInsert ((laneTargets act there).map (·.2)) (acc := []) List.Pairwise.nil
    refine eq_of_sorted_of_mem hp hsorted fun x => ?_
    rw [hm]
    simp only [laneTargets, List.map_map, List.mem_map, Function.comp, List.not_mem_nil, or_false]
    constructor
    · rintro ⟨l, hl, rfl⟩
      obtain ⟨p, hp, he⟩ := List.mem_map.mp (hall l hl)
      exact ⟨p, hp, congrArg BitVec.toNat he⟩
    · rintro ⟨p, hp, rfl⟩
      obtain ⟨l, hl⟩ : ∃ l, p.2.getLsbD l = true := by
        by_contra h
        refine hne p hp (BitVec.eq_of_getLsbD_eq fun i _ => ?_)
        rw [BitVec.getLsbD_zero]
        exact Bool.eq_false_iff.mpr fun hi => h ⟨i, hi⟩
      rw [hmask p hp, Bool.and_eq_true, List.contains_iff_mem, beq_iff_eq] at hl
      exact ⟨l, hl.1, congrArg BitVec.toNat hl.2⟩
  rw [groupTargets, hkeys, targetParts, List.map_map]
  refine List.map_congr_left fun p hp => Prod.ext rfl (BitVec.eq_of_getLsbD_eq fun i hi => ?_)
  dsimp only [Function.comp]
  rw [getLsbD_maskOf, hmask p hp, Bool.eq_iff_iff, Bool.and_eq_true, Bool.and_eq_true, decide_eq_true_iff, decide_eq_true_iff,
    mem_targetLanes, List.contains_iff_mem, beq_iff_eq, BitVec.toNat_inj]
  tauto

/-! Indirect transfers (R120, R121). -/

section
variable {s : State} {ag : Agent} {act : Mask} {f : Fragment} {there : Nat → Addr}

theorem State.fetchMet_errorsMet (s : State) (d : Nat) (p : BitVec 12) (a : Addr) : s.errorsMet (s.fetchMet d p a) := by
  unfold State.fetchMet
  split
  · exact s.metHome_errorsMet _ _
  · exact s.metHome_errorsMet _ _
  · exact s.errorsMet_refl
  · exact s.errorsMet_refl

theorem State.meetTargets_errorsMet (s : State) (ag : Agent) (tg : List (Nat × Nat)) : s.errorsMet (s.meetTargets ag tg) :=
  foldl_keeps s.errorsMet (fun (u : State) (x : Nat × Nat) => u.fetchMet (keyDie (agKey ag)) (u.ptagOf (agKey ag)) (BitVec.ofNat 48 x.2))
    (fun u _ h => State.errorsMet_trans h (u.fetchMet_errorsMet _ _ _)) _ _ s.errorsMet_refl

theorem not_busy_targets (hb : ∀ l ∈ lanesOf act, s.agFetchBusy ag (there l) = false) :
    (laneTargets act there).any (fun x => s.agFetchBusy ag (BitVec.ofNat 48 x.2)) = false := by
  simpa [laneTargets] using hb

theorem State.badTargets_laneTargets : s.badTargets ag (laneTargets act there) =
    ((lanesOf act).filter fun l => !s.landingAt (keyDie (agKey ag)) (s.ptagOf (agKey ag)) (there l)).map fun l => (l, (there l).toNat) := by
  simp [State.badTargets, laneTargets, List.filter_map, Function.comp_def]

/-- BADTARGET (R121): the failing lanes, and the lowest one's target. -/
theorem State.indirect_bad {l0 : Nat} {rest : List Nat} (hf : s.front? ag = some f)
    (hb : ∀ l ∈ lanesOf act, s.agFetchBusy ag (there l) = false)
    (hbad : (lanesOf act).filter (fun l => !s.landingAt (keyDie (agKey ag)) (s.ptagOf (agKey ag)) (there l)) = l0 :: rest) :
    ∃ u, s.errorsMet u ∧ ∀ pre, s.indirect ag act there pre = u.raiseAt ag 6 0 (there l0) (maskOf (l0 :: rest)) := by
  refine ⟨_, s.meetTargets_errorsMet ag (s.badTargets ag (laneTargets act there)), fun pre => ?_⟩
  have hlist : s.badTargets ag (laneTargets act there) = (l0, (there l0).toNat) :: rest.map fun l => (l, (there l).toNat) := by
    rw [State.badTargets_laneTargets, hbad, List.map_cons]
  simp only [State.indirect, hf]
  rw [← laneTargets, not_busy_targets hb, if_neg Bool.false_ne_true, hlist]
  simp [Function.comp_def]

/-- An indirect transfer to landing headers: the lanes go, or DIVDEPTH is raised (R120). -/
theorem State.indirect_landing (hf : s.front? ag = some f) (hb : ∀ l ∈ lanesOf act, s.agFetchBusy ag (there l) = false)
    (hl : ∀ l ∈ lanesOf act, s.landingAt (keyDie (agKey ag)) (s.ptagOf (agKey ag)) (there l) = true) (pre : State → State) :
    s.indirect ag act there pre = ((s.indirectTo ag f act (laneTargets act there)).map pre).getD (s.divDepth ag act) := by
  have hbad : s.badTargets ag (laneTargets act there) = [] := by
    rw [State.badTargets_laneTargets, List.filter_eq_nil_iff.mpr fun l h => by simp [hl l h]]
    rfl
  simp only [State.indirect, hf]
  rw [← laneTargets, not_busy_targets hb, if_neg Bool.false_ne_true, hbad]
  cases s.indirectTo ag f act (laneTargets act there) <;> rfl

end

/-- The target that a source pair names in a lane. -/
def State.pairTarget (s : State) (ag : Agent) (a : Src) (l : Nat) : Addr := (s.src ag a 1 l ++ s.src ag a 0 l).setWidth 48

section
variable {s : State} {ag : Agent} {act : Mask} {a : Src} {g : Guard}

theorem exec_brx_ready (h : s.ready ag act (ctlSpec g [(a, 2)]) = true) :
    exec (.brx a g) s = .next (s.indirect ag act (s.pairTarget ag a) id) := by
  simp only [exec, execBrx]
  rw [issueWith_ready h]
  rfl

theorem exec_ret_ready (h : s.ready ag act { ctlSpec g [(a, 2)] with seq := true } = true) :
    exec (.ret a g) s = .next (s.indirect ag act (s.pairTarget ag a) id) := by
  simp only [exec, execRet]
  rw [issueWith_ready h]
  rfl

theorem exec_callx_ready {f : Fragment} {link : RegNo} (hf : s.front? ag = some f)
    (h : s.ready ag act { ctlSpec g [(a, 2)] with dsts := [(link, 2)] } = true) :
    exec (.callx link a g) s = .next (s.indirect ag act (s.pairTarget ag a) fun t =>
      t.wrLanes ag link.toNat ((lanesOf act).map fun l => (l, f.link))) := by
  have hlink : s.linkOf ag = f.link := by rw [State.linkOf, hf]; rfl
  simp only [exec, execCallx]
  rw [issueWith_ready h, hlink]
  rfl

end

/-! The parts of an indirect transfer that splits (R52, R120). -/

/-- A fragment from which lanes have been split off, its clause not yet left: `m` stays, and the fragments meet at its join address. -/
def Fragment.splitOff (f : Fragment) (m : Mask) : Fragment :=
  { f with mask := f.mask &&& ~~~m, join := if f.joinAddr.isSome then f.joinAddr else f.join, wait := .run, stall := .none, gang := none }

/-- The part of a fragment that goes to a target of its own. -/
def Fragment.part (f : Fragment) (p : Nat × Mask) : Fragment :=
  { f.goto (BitVec.ofNat 48 p.1) with mask := p.2, join := f.joinAddr, stopped := .no }

/-- The defer records of a split: SPLIT ones, where the clause has a join address. -/
def Fragment.splitRecord (f : Fragment) (arm : Option Deferred) : List DeferRec :=
  match f.joinAddr with
  | none => []
  | some j => [{ join := j, outer := f.join, arm := arm }]

/-- The arm that waits where no entry is free (R52). -/
def deferredArm (e : Nat) (p : Nat × Mask) : Deferred :=
  { pc := BitVec.ofNat 48 p.1, mask := p.2, owner := e, swapped := false, arrived := 0#64 }

@[simp] theorem Fragment.joinAddr_splitOff (f : Fragment) (m : Mask) : (f.splitOff m).joinAddr = f.joinAddr := rfl
@[simp] theorem Fragment.hdr_splitOff (f : Fragment) (m : Mask) : (f.splitOff m).hdr = f.hdr := rfl
theorem Fragment.part_splitOff (f : Fragment) (m : Mask) : (f.splitOff m).part = f.part := rfl

/-- A fragment past a split, put back at its transfer. -/
theorem Fragment.advance_put_back {f : Fragment} {w : Code} (h : f.hdr = some w) (m : Mask) (j : Option Addr) :
    { f.advance with mask := m, join := j, clause := f.clause, idx := f.idx, hdr := f.hdr } =
      { f with mask := m, join := j, wait := .run, stall := .none, gang := none } := by
  simp only [Fragment.advance, h]
  split <;> rfl

/-- The group after a part has taken the free entry `i`. -/
def Group.splitTo (g : Group) (e i : Nat) (f : Fragment) (p : Nat × Mask) : Group :=
  { g with frags := aput (aput g.frags i (f.part p)) e (f.splitOff p.2), defer := g.defer ++ f.splitRecord none }

/-- The group after a part has become a DEFERRED record. -/
def Group.splitDeferred (g : Group) (e : Nat) (f : Fragment) (p : Nat × Mask) : Group :=
  { g with frags := aput g.frags e (f.splitOff p.2), defer := g.defer ++ f.splitRecord (some (deferredArm e p)) }

section
variable {g : Group} {e : Nat} {f : Fragment} {w : Code} {p : Nat × Mask}

theorem Group.diverge_free {i k : Nat} (hi : g.freeEntry k = some i) (hd : f.joinAddr.isSome = true → g.defer.length < 16) (m : Mask)
    (a : Addr) : g.diverge k e f m a = some { g with
      frags := aput (aput g.frags i { f.goto a with mask := m, join := f.joinAddr, stopped := .no }) e
        { f.advance with mask := f.mask &&& ~~~m, join := if f.joinAddr.isSome then f.joinAddr else f.join }
      defer := g.defer ++ f.splitRecord none } := by
  cases hj : f.joinAddr with
  | none => simp [Group.diverge, hj, hi, Fragment.splitRecord]
  | some j =>
    have hroom : ¬Config.deferDepth ≤ g.defer.length := Nat.not_le.mpr (hd (by rw [hj]; rfl))
    simp [Group.diverge, hj, hi, Fragment.splitRecord, hroom]

theorem Group.diverge_full {k : Nat} {j : Addr} (hi : g.freeEntry k = none) (hj : f.joinAddr = some j) (hd : g.defer.length < 16)
    (p : Nat × Mask) : g.diverge k e f p.2 (BitVec.ofNat 48 p.1) = some { g with
      frags := aput g.frags e { f.advance with mask := f.mask &&& ~~~p.2, join := some j }
      defer := g.defer ++ f.splitRecord (some (deferredArm e p)) } := by
  have hroom : ¬Config.deferDepth ≤ g.defer.length := Nat.not_le.mpr hd
  simp [Group.diverge, hj, hi, Fragment.splitRecord, hroom, deferredArm]

/-- What is split off leaves the fragment at its transfer for the next part. -/
theorem splitOff_put_back (hh : f.hdr = some w) (l : List (Nat × Fragment)) (m : Mask) :
    amod (aput l e { f.advance with mask := f.mask &&& ~~~m, join := if f.joinAddr.isSome then f.joinAddr else f.join }) e
      (fun x => { x with clause := f.clause, idx := f.idx, hdr := f.hdr }) = aput l e (f.splitOff m) := by
  rw [amod_of_aget (by rw [aget_aput, if_pos rfl]), aput_aput]
  exact congrArg (aput l e) (Fragment.advance_put_back hh _ _)

theorem Group.splitParts_cons_free {i k : Nat} (hf : aget g.frags e = some f) (hh : f.hdr = some w) (hi : g.freeEntry k = some i)
    (hd : f.joinAddr.isSome = true → g.defer.length < 16) (t : List (Nat × Mask)) :
    g.splitParts k e (p :: t) = (g.splitTo e i f p).splitParts (k + 1) e t := by
  simp only [Group.splitParts, hf, Group.diverge_free hi hd, splitOff_put_back hh]
  rfl

theorem Group.splitParts_full {k : Nat} {j : Addr} (hf : aget g.frags e = some f) (hh : f.hdr = some w) (hi : g.freeEntry k = none)
    (hj : f.joinAddr = some j) (hd : g.defer.length < 16) : g.splitParts k e [p] = some (g.splitDeferred e f p) := by
  have hback := splitOff_put_back (e := e) hh g.frags p.2
  rw [hj] at hback
  simp only [Group.splitParts, hf, Group.diverge_full hi hj hd]
  exact congrArg (fun l => some { g with frags := l, defer := g.defer ++ f.splitRecord (some (deferredArm e p)) }) hback

theorem Group.splitParts_append {k : Nat} (l l' : List (Nat × Mask)) :
    g.splitParts k e (l ++ l') = (g.splitParts k e l).bind fun g' => g'.splitParts (k + l.length) e l' := by
  induction l generalizing g k with
  | nil => rfl
  | cons p t ih =>
    simp only [List.cons_append, Group.splitParts]
    cases aget g.frags e with
    | none => rfl
    | some f =>
      dsimp only
      cases g.diverge k e f p.2 (BitVec.ofNat 48 p.1) with
      | none => rfl
      | some g' =>
        dsimp only
        rw [ih, List.length_cons, Nat.add_right_comm, Nat.add_assoc]

/-- The entries that are free once a part has taken entry `i`. -/
theorem Group.vacant_splitTo (hf : aget g.frags e = some f) (i : Nat) : (g.splitTo e i f p).vacant = g.vacant.filter (· != i) := by
  rw [Group.vacant, Group.vacant, List.filter_filter]
  refine List.filter_congr fun x _ => ?_
  simp only [Group.splitTo, aget_aput]
  by_cases hx : x = e
  · simp [hx, hf]
  · rw [if_neg hx]
    by_cases hi : x = i
    · simp [hi]
    · simp [hi]

theorem Group.nodup_vacant (g : Group) : g.vacant.Nodup := List.Nodup.filter _ List.nodup_range

theorem Group.mem_vacant {i : Nat} : i ∈ g.vacant ↔ i < 8 ∧ aget g.frags i = none := by
  simp [Group.vacant]

end

/-- The parts `l` of fragment `f` have taken an entry of `es` each, and `x` is left of it in entry `e`. -/
structure Group.SplitInto (g g' : Group) (e : Nat) (f x : Fragment) (l : List (Nat × Mask)) (es : List Nat) : Prop where
  length : es.length = l.length
  nodup : es.Nodup
  vacant : ∀ i ∈ es, i ∈ g.vacant
  stays : aget g'.frags e = some x
  parts : ∀ z ∈ es.zip l, aget g'.frags z.1 = some (f.part z.2)
  others : ∀ i, i ≠ e → i ∉ es → aget g'.frags i = aget g.frags i
  rest : { g' with frags := g.frags, defer := g.defer } = g

/-- What is left of a fragment once parts have been split off. -/
def Fragment.afterParts (f : Fragment) (l : List (Nat × Mask)) : Fragment := l.foldl (fun x p => x.splitOff p.2) f

/-- The SPLIT records of `c` parts: the first leads to the fragment's own join, the others to the clause's (R52). -/
def splitRecords (f : Fragment) (c : Nat) : List DeferRec :=
  match f.joinAddr with
  | none => []
  | some j => (List.range c).map fun i => { join := j, outer := if i = 0 then f.join else some j, arm := none }

theorem splitRecords_succ (f : Fragment) (m : Mask) (c : Nat) :
    splitRecords f (c + 1) = f.splitRecord none ++ splitRecords (f.splitOff m) c := by
  unfold splitRecords Fragment.splitRecord
  rw [Fragment.joinAddr_splitOff]
  cases hj : f.joinAddr with
  | none => rfl
  | some j =>
    simp only [List.range_succ_eq_map, List.map_cons, List.map_map, Fragment.splitOff, hj, Option.isSome_some, if_true, List.singleton_append]
    refine congrArg _ (List.map_congr_left fun i _ => ?_)
    simp

/-- Where entries and records suffice, each part takes an entry (R120). -/
theorem Group.splitParts_spec {e : Nat} {w : Code} : ∀ (l : List (Nat × Mask)) {g : Group} {f : Fragment} (k : Nat),
    aget g.frags e = some f → f.hdr = some w → l.length ≤ g.vacant.length →
    (f.joinAddr.isSome = true → g.defer.length + l.length ≤ 16) →
    ∃ g' es, g.splitParts k e l = some g' ∧ g.SplitInto g' e f (f.afterParts l) l es ∧
      g'.vacant.length + l.length = g.vacant.length ∧ g'.defer = g.defer ++ splitRecords f l.length
  | [], g, f, k, hf, _, _, _ => by
    refine ⟨g, [], rfl, ⟨rfl, List.nodup_nil, by simp, hf, by simp, fun _ _ _ => rfl, rfl⟩, rfl, ?_⟩
    unfold splitRecords
    split <;> simp
  | p :: t, g, f, k, hf, hh, hv, hd => by
    rw [List.length_cons] at hv
    obtain ⟨i, hi, hfree⟩ : ∃ i ∈ g.vacant, g.freeEntry k = some i := by
      rcases g.freeEntry_cases k with ⟨hnil, -⟩ | ⟨-, h⟩
      · rw [hnil] at hv
        exact absurd hv (by simp)
      · exact h
    obtain ⟨-, hnone⟩ := Group.mem_vacant.mp hi
    have hie : i ≠ e := fun h => by rw [h, hf] at hnone; cases hnone
    have hroom : f.joinAddr.isSome = true → g.defer.length < 16 := fun h => by
      have := hd h
      rw [List.length_cons] at this
      omega
    have hvacant := Group.vacant_splitTo (p := p) hf i
    have hcount : (g.splitTo e i f p).vacant.length + 1 = g.vacant.length := by
      rw [hvacant, ← g.nodup_vacant.erase_eq_filter, List.length_erase_of_mem hi]
      have := List.length_pos_of_mem hi
      omega
    have hrecs : (g.splitTo e i f p).defer.length = g.defer.length + (f.splitRecord none).length := List.length_append
    obtain ⟨g', es, hsplit, hinto, hleft, hdefer⟩ := Group.splitParts_spec t (g := g.splitTo e i f p) (f := f.splitOff p.2) (k + 1)
      (by rw [Group.splitTo, aget_aput, if_pos rfl]) hh (by omega) fun h => by
        have := hd h
        rw [List.length_cons] at this
        obtain ⟨j, hj⟩ := Option.isSome_iff_exists.mp (show f.joinAddr.isSome = true from h)
        rw [hrecs, Fragment.splitRecord, hj]
        simp only [List.length_singleton]
        omega
    have hsub : ∀ x ∈ es, x ∈ g.vacant ∧ x ≠ i := fun x hx => by
      have := hinto.vacant x hx
      rw [hvacant, List.mem_filter] at this
      exact ⟨this.1, by simpa using this.2⟩
    have hnew : ∀ x, x ≠ e → aget (g.splitTo e i f p).frags x = if x = i then some (f.part p) else aget g.frags x := fun x hx => by
      rw [Group.splitTo, aget_aput, if_neg hx, aget_aput]
    refine ⟨g', i :: es, by rw [Group.splitParts_cons_free hf hh hfree hroom, hsplit], ⟨?_, ?_, ?_, hinto.stays, ?_, ?_, ?_⟩, ?_, ?_⟩
    · rw [List.length_cons, hinto.length, List.length_cons]
    · exact List.nodup_cons.mpr ⟨fun h => (hsub i h).2 rfl, hinto.nodup⟩
    · exact List.forall_mem_cons.mpr ⟨hi, fun x hx => (hsub x hx).1⟩
    · intro z hz
      rw [List.zip_cons_cons, List.mem_cons] at hz
      rcases hz with rfl | hz
      · rw [hinto.others i hie fun h => (hsub i h).2 rfl, hnew i hie, if_pos rfl]
      · rw [hinto.parts z hz, Fragment.part_splitOff]
    · intro x hx hxs
      rw [List.mem_cons, not_or] at hxs
      rw [hinto.others x hx hxs.2, hnew x hx, if_neg hxs.1]
    · exact (congrArg (fun y : Group => { y with frags := g.frags, defer := g.defer }) hinto.rest :)
    · rw [List.length_cons]
      omega
    · rw [hdefer, List.length_cons, splitRecords_succ f p.2, Group.splitTo, List.append_assoc]

/-- Where one entry is wanting, the last part becomes a DEFERRED record (R52). -/
theorem Group.splitParts_deferred {g : Group} {e : Nat} {f : Fragment} {w : Code} {j : Addr} {init : List (Nat × Mask)} {last : Nat × Mask}
    (k : Nat) (hf : aget g.frags e = some f) (hh : f.hdr = some w) (hj : f.joinAddr = some j) (hv : init.length = g.vacant.length)
    (hd : g.defer.length + (init.length + 1) ≤ 16) :
    ∃ g' es, g.splitParts k e (init ++ [last]) = some g' ∧ g.SplitInto g' e f (f.afterParts (init ++ [last])) init es ∧
      g'.defer = g.defer ++ splitRecords f init.length ++ (f.afterParts init).splitRecord (some (deferredArm e last)) := by
  obtain ⟨g', es, hsplit, hinto, hleft, hdefer⟩ := Group.splitParts_spec init k hf hh (by omega) fun _ => by omega
  have hplace : ∀ l : List (Nat × Mask), (f.afterParts l).joinAddr = f.joinAddr ∧ (f.afterParts l).hdr = f.hdr := fun l =>
    foldl_keeps (fun x : Fragment => x.joinAddr = f.joinAddr ∧ x.hdr = f.hdr) (fun x (p : Nat × Mask) => x.splitOff p.2) (fun _ _ h => h)
      _ _ ⟨rfl, rfl⟩
  obtain ⟨hjoin, hhdr⟩ := hplace init
  have hfull : g'.freeEntry (k + init.length) = none := by
    rcases g'.freeEntry_cases (k + init.length) with ⟨-, h⟩ | ⟨h, -⟩
    · exact h
    · exact absurd (List.eq_nil_of_length_eq_zero (by omega)) h
  have hrecs : (splitRecords f init.length).length = init.length := by simp [splitRecords, hj]
  have hlast : g'.splitParts (k + init.length) e [last] = some (g'.splitDeferred e (f.afterParts init) last) :=
    Group.splitParts_full hinto.stays (hhdr.trans hh) hfull (hjoin.trans hj) (by
      rw [hdefer, List.length_append, hrecs]
      omega)
  have hparts : ∀ z ∈ es.zip init, z.1 ≠ e := fun z hz h => by
    have hmem := (Group.mem_vacant.mp (hinto.vacant z.1 (List.of_mem_zip hz).1)).2
    rw [h, hf] at hmem
    cases hmem
  refine ⟨_, es, by rw [Group.splitParts_append, hsplit, Option.bind_some, hlast],
    ⟨hinto.length, hinto.nodup, hinto.vacant, ?_, fun z hz => ?_, fun i hi hes => ?_, ?_⟩, ?_⟩
  · rw [Group.splitDeferred, aget_aput, if_pos rfl, Fragment.afterParts, Fragment.afterParts, List.foldl_append]
    rfl
  · rw [Group.splitDeferred, aget_aput, if_neg (hparts z hz)]
    exact hinto.parts z hz
  · rw [Group.splitDeferred, aget_aput, if_neg hi]
    exact hinto.others i hi hes
  · exact hinto.rest
  · rw [Group.splitDeferred, hdefer]

/-! What is left of the fragment (R120). -/

/-- The lanes that stay. -/
def maskAfter (m : Mask) (l : List (Nat × Mask)) : Mask := l.foldl (fun m p => m &&& ~~~p.2) m

theorem getLsbD_maskAfter {i : Nat} (hi : i < 64) (l : List (Nat × Mask)) : ∀ m : Mask,
    (maskAfter m l).getLsbD i = true ↔ m.getLsbD i = true ∧ ∀ p ∈ l, p.2.getLsbD i = false := by
  induction l with
  | nil => simp [maskAfter]
  | cons p t ih =>
    intro m
    rw [maskAfter, List.foldl_cons, ← maskAfter, ih, BitVec.getLsbD_and, BitVec.getLsbD_not]
    simp [hi, and_assoc]

theorem Fragment.goto_afterParts (a : Addr) (l : List (Nat × Mask)) : ∀ (f : Fragment), l ≠ [] → (f.afterParts l).goto a =
    { f.goto a with mask := maskAfter f.mask l, join := if f.joinAddr.isSome then f.joinAddr else f.join } := by
  induction l with
  | nil => exact fun _ h => absurd rfl h
  | cons p t ih =>
    intro f _
    rw [Fragment.afterParts, List.foldl_cons, ← Fragment.afterParts, maskAfter, List.foldl_cons, ← maskAfter]
    by_cases ht : t = []
    · rw [ht]
      rfl
    · rw [ih _ ht, Fragment.joinAddr_splitOff]
      cases hj : f.joinAddr <;> simp [Fragment.splitOff, Fragment.goto, hj]

/-- The record of a part after others: it leads to the clause's join, unless it is the first (R52). -/
theorem Fragment.splitRecord_afterParts {f : Fragment} {j : Addr} (hj : f.joinAddr = some j) (l : List (Nat × Mask)) (arm : Option Deferred) :
    (f.afterParts l).splitRecord arm = [{ join := j, outer := if l = [] then f.join else some j, arm := arm }] := by
  by_cases hl : l = []
  · rw [hl, if_pos rfl, Fragment.afterParts, List.foldl_nil, Fragment.splitRecord, hj]
  · have hjoin : (f.afterParts l).join = some j := by
      have hgoto : (f.afterParts l).join = if f.joinAddr.isSome then f.joinAddr else f.join :=
        congrArg Fragment.join (Fragment.goto_afterParts 0#48 l f hl)
      rw [hgoto, hj]
      rfl
    have haddr : (f.afterParts l).joinAddr = some j :=
      (foldl_keeps (fun x : Fragment => x.joinAddr = f.joinAddr) (fun x (p : Nat × Mask) => x.splitOff p.2) (fun _ _ h => h) _ _ rfl).trans hj
    rw [if_neg hl, Fragment.splitRecord, haddr, hjoin]

/-! The group that a split leaves (R120). -/

/-- What is left of the fragment goes to the first part's target. -/
def Group.gone (g : Group) (e : Nat) (a : Addr) : Group := { g with frags := amod g.frags e fun x => x.goto a }

section
variable {s : State} {n m k e : Nat} {act : Mask} {gr : Group} {f : Fragment} {there : Nat → Addr} {ts more : List (Addr × Mask)}
  {p0 : Addr × Mask}

/-- The parts of an indirect transfer, in the order in which they are dealt (R120). -/
def transferParts (f : Fragment) (act : Mask) (ts : List (Addr × Mask)) : List (Addr × Mask) :=
  (if f.mask &&& ~~~act = 0#64 then [] else [(f.advance.clause, f.mask &&& ~~~act)]) ++ ts

/-- Whether entries and records suffice for the parts after the first (R52, R120). -/
def Group.fits (g : Group) (f : Fragment) (need : Nat) : Prop :=
  if f.joinAddr = none then need ≤ g.vacant.length else g.defer.length + need ≤ 16 ∧ need ≤ g.vacant.length + 1

theorem State.indirectTo_parts (hg : s.group? (groupKey n m k) = some gr) (hts : groupTargets (laneTargets act there) = targetParts ts)
    (hp : p0 :: more = transferParts f act ts) (hne : more ≠ []) :
    (gr.fits f more.length → s.indirectTo (.frag n m k e) f act (laneTargets act there) =
      (gr.splitParts s.tick e (targetParts more)).map fun g =>
        { s with groups := aput s.groups (groupKey n m k) (g.gone e p0.1), tick := s.tick + more.length }) ∧
    (¬gr.fits f more.length → s.indirectTo (.frag n m k e) f act (laneTargets act there) = none) := by
  have hparts : (if f.mask &&& ~~~act = 0#64 then [] else [(f.advance.clause.toNat, f.mask &&& ~~~act)]) ++
      groupTargets (laneTargets act there) = (p0.1.toNat, p0.2) :: targetParts more := by
    have hmap := congrArg targetParts hp
    rw [transferParts, targetParts, targetParts, List.map_append, List.map_cons] at hmap
    rw [hts, targetParts, targetParts, hmap]
    split <;> rfl
  have hlen : (targetParts more).length = more.length := List.length_map _
  have hpos := List.length_pos_of_ne_nil hne
  have hcount : gr.freeCount = gr.vacant.length := rfl
  simp only [State.indirectTo, hparts, agKey, hg, hlen, hcount, Config.deferDepth]
  rw [if_neg (by omega)]
  unfold Group.fits
  cases hj : f.joinAddr with
  | none => refine ⟨fun h => ?_, fun h => ?_⟩ <;> simp_all [Group.gone]
  | some j =>
    rw [if_neg (by simp)]
    refine ⟨fun h => ?_, fun h => ?_⟩
    · rw [if_neg (by simp [h.1, h.2])]
      simp [Group.gone]
    · rw [if_pos]
      simp only [Bool.not_eq_true', Bool.and_eq_false_iff, decide_eq_false_iff_not]
      omega

/-- One target of all lanes: none is left behind, and the fragment goes there (R120). -/
theorem State.indirectTo_one {x : Addr} (hf : s.front? (.frag n m k e) = some f) (hm : f.mask ≠ 0#64)
    (hthere : ∀ l ∈ lanesOf f.mask, there l = x) : s.indirectTo (.frag n m k e) f f.mask (laneTargets f.mask there) =
      some (s.modFront (.frag n m k e) fun y => y.goto x) := by
  have hts : groupTargets (laneTargets f.mask there) = targetParts [(x, f.mask)] :=
    groupTargets_laneTargets (by simp) (by simpa using hm) (fun l hl => by simp [hthere l hl]) fun p hp l => by
      rw [List.mem_singleton] at hp
      subst hp
      rw [Bool.eq_iff_iff, Bool.and_eq_true, List.contains_iff_mem, mem_lanesOf, beq_iff_eq]
      refine ⟨fun h => ?_, fun h => h.1.2⟩
      have hl : l < 64 := BitVec.lt_of_getLsbD h
      exact ⟨⟨hl, h⟩, hthere l (mem_lanesOf.mpr ⟨hl, h⟩)⟩
  obtain ⟨g, hg⟩ : ∃ g, s.group? (groupKey n m k) = some g := by
    cases hg : s.group? (groupKey n m k) with
    | none => simp [State.front?, agKey, hg] at hf
    | some g => exact ⟨g, rfl⟩
  have hnone : f.mask &&& ~~~f.mask = 0#64 := BitVec.and_not_self _
  simp [State.indirectTo, agKey, hg, hts, hnone, targetParts]

/-- The parts share out the fragment's lanes, so that the first part's are what is left when the others have gone (R120). -/
theorem maskAfter_parts (hact : ∀ l, act.getLsbD l = true → f.mask.getLsbD l = true)
    (hsorted : (ts.map fun p => p.1.toNat).Pairwise (· < ·)) (hall : ∀ l ∈ lanesOf act, there l ∈ ts.map (·.1))
    (hmask : ∀ p ∈ ts, ∀ l, p.2.getLsbD l = ((lanesOf act).contains l && there l == p.1)) (hp : p0 :: more = transferParts f act ts) :
    maskAfter f.mask (targetParts more) = p0.2 := by
  have hin : ∀ p ∈ ts, ∀ l, p.2.getLsbD l = true ↔ l ∈ lanesOf act ∧ there l = p.1 := fun p hp l => by
    rw [hmask p hp, Bool.and_eq_true, List.contains_iff_mem, beq_iff_eq]
  refine BitVec.eq_of_getLsbD_eq fun i hi => Bool.eq_iff_iff.mpr ?_
  have hlane : i ∈ lanesOf act ↔ act.getLsbD i = true := by rw [mem_lanesOf]; exact and_iff_right hi
  rw [getLsbD_maskAfter hi]
  have hmem : (∀ p ∈ targetParts more, p.2.getLsbD i = false) ↔ ∀ p ∈ more, ¬p.2.getLsbD i = true := by
    rw [targetParts, List.forall_mem_map]
    simp
  rw [hmem]
  by_cases hrest : f.mask &&& ~~~act = 0#64
  · -- no lane is left behind: the first part is a target's
    rw [transferParts, if_pos hrest, List.nil_append] at hp
    have hall0 : f.mask.getLsbD i = true → act.getLsbD i = true := fun hm => by
      have hz := congrArg (·.getLsbD i) hrest
      simp only [BitVec.getLsbD_and, BitVec.getLsbD_not, hi, hm, BitVec.getLsbD_zero, decide_true, Bool.true_and, Bool.not_eq_false'] at hz
      exact hz
    have hp0 : p0 ∈ ts := hp ▸ List.mem_cons_self
    rw [← hp, List.map_cons, List.pairwise_cons] at hsorted
    constructor
    · rintro ⟨hm, hnot⟩
      have hl := hlane.mpr (hall0 hm)
      obtain ⟨p, hpt, he⟩ := List.mem_map.mp (hall i hl)
      have hbit := (hin p hpt i).mpr ⟨hl, he.symm⟩
      rw [← hp, List.mem_cons] at hpt
      rcases hpt with rfl | hpt
      · exact hbit
      · exact absurd hbit (hnot p hpt)
    · intro h
      obtain ⟨hl, he⟩ := (hin p0 hp0 i).mp h
      refine ⟨hact i (hlane.mp hl), fun p hpm hbit => ?_⟩
      obtain ⟨-, he'⟩ := (hin p (hp ▸ List.mem_cons_of_mem _ hpm) i).mp hbit
      have hlt := hsorted.1 p.1.toNat (List.mem_map_of_mem hpm)
      rw [← he, ← he'] at hlt
      exact absurd hlt (Nat.lt_irrefl _)
  · -- the lanes left behind are the first part
    rw [transferParts, if_neg hrest, List.singleton_append, List.cons.injEq] at hp
    obtain ⟨rfl, rfl⟩ := hp
    rw [BitVec.getLsbD_and, BitVec.getLsbD_not, Bool.and_eq_true, Bool.and_eq_true, Bool.not_eq_true', decide_eq_true_iff]
    constructor
    · rintro ⟨hm, hnot⟩
      refine ⟨hm, hi, Bool.eq_false_iff.mpr fun ha => ?_⟩
      obtain ⟨p, hpt, he⟩ := List.mem_map.mp (hall i (hlane.mpr ha))
      exact hnot p hpt ((hin p hpt i).mpr ⟨hlane.mpr ha, he.symm⟩)
    · rintro ⟨hm, -, ha⟩
      exact ⟨hm, fun p hpt hbit => by rw [hlane.mp ((hin p hpt i).mp hbit).1] at ha; cases ha⟩

end

/-- What a dealt-out fragment's group looks like once what is left has gone to the first part's target. -/
theorem Group.SplitInto.gone {gr g' : Group} {e : Nat} {f : Fragment} {taken all : List (Addr × Mask)} {es : List Nat} {p0 : Addr × Mask}
    (h : gr.SplitInto g' e f (f.afterParts (targetParts all)) (targetParts taken) es) (hne : all ≠ [])
    (hmask : maskAfter f.mask (targetParts all) = p0.2) :
    es.length = taken.length ∧ es.Nodup ∧ (∀ i ∈ es, i ∈ gr.vacant) ∧
      aget (g'.gone e p0.1).frags e = some { f.goto p0.1 with mask := p0.2, join := if f.joinAddr.isSome then f.joinAddr else f.join } ∧
      (∀ z ∈ es.zip taken, z.1 ≠ e → aget (g'.gone e p0.1).frags z.1 =
        some { f.goto z.2.1 with mask := z.2.2, join := f.joinAddr, stopped := .no }) ∧
      (∀ i, i ≠ e → i ∉ es → aget (g'.gone e p0.1).frags i = aget gr.frags i) ∧
      { g'.gone e p0.1 with frags := gr.frags, defer := gr.defer } = gr := by
  have hother : ∀ i, i ≠ e → aget (g'.gone e p0.1).frags i = aget g'.frags i := fun i hi => by
    rw [Group.gone, aget_amod, if_neg hi]
  refine ⟨h.length.trans (List.length_map _), h.nodup, h.vacant, ?_, fun z hz hze => ?_, fun i hi hes => (hother i hi).trans (h.others i hi hes), h.rest⟩
  · rw [Group.gone, aget_amod, if_pos rfl, h.stays, Option.map_some,
      Fragment.goto_afterParts _ _ _ (by simpa [targetParts] using hne), hmask]
  · have hmem : (z.1, (z.2.1.toNat, z.2.2)) ∈ es.zip (targetParts taken) := by
      rw [targetParts, List.zip_map_right, List.mem_map]
      exact ⟨z, hz, rfl⟩
    rw [hother z.1 hze, h.parts _ hmem]
    simp [Fragment.part]

/-- Settles O14: a direct transfer by all lanes is `State.branch_all`; of the indirect ones, a bad target is `State.indirect_bad`, one
target for all lanes leaves a single part, and several are dealt by `Group.splitParts`. -/
theorem directAndIndirectTransfers : Obligations.DirectAndIndirectTransfers := by
  unfold Obligations.DirectAndIndirectTransfers
  refine ⟨?_, ?_, ?_⟩
  · intro s ag f tgt link g hf hh hb
    have hgoto : s.modFront ag (fun x => x.goto (f.target tgt)) =
        s.modFront ag fun f => f.goto (f.pc + BitVec.ofInt 48 (8 * tgt.toInt)) :=
      State.modFront_congr hf (congrArg f.goto (f.target_eq tgt))
    rw [← Fragment.target_eq] at hh hb
    refine ⟨fun h => ?_, fun h => ?_⟩
    · simp only [exec, execBra]
      rw [issueWith_ready h, State.branch_all hf hh hb, hgoto]
      rfl
    · obtain ⟨w, hw, hi⟩ := last_of_ready h hf rfl
      refine ⟨w, hw, ?_⟩
      have hlink : s.linkOf ag = f.link := by rw [State.linkOf, hf]; rfl
      simp only [exec, execCall]
      rw [issueWith_ready h, State.branch_all hf hh hb, hgoto, hlink, Fragment.link, Fragment.advance_of_last hw hi]
      rfl
  · intro s n m k e f act a link g x ag there bad hf hb
    refine ⟨fun hact hx hthere => ?_, fun l0 rest hbad => ?_⟩
    · subst hact
      have hland : ∀ l ∈ lanesOf f.mask, s.landingAt (keyDie (agKey ag)) (s.ptagOf (agKey ag)) (there l) = true := fun l hl => by
        rw [hthere l hl]
        exact hx
      have hgo : ∀ (sp : Spec) (pre : State → State), s.ready ag f.mask sp = true →
          s.indirect ag f.mask (s.pairTarget ag a) pre = pre (s.modFront ag fun f => f.goto x) := fun sp pre h => by
        have hone : s.indirectTo ag f f.mask (laneTargets f.mask (s.pairTarget ag a)) = some _ :=
          State.indirectTo_one hf (active_of_ready h hf).1 hthere
        rw [State.indirect_landing (there := s.pairTarget ag a) hf hb hland, hone]
        rfl
      refine ⟨fun h => ?_, fun h => ?_, fun h => ?_⟩
      · rw [exec_brx_ready h, hgo _ _ h]
        rfl
      · rw [exec_ret_ready h, hgo _ _ h]
        rfl
      · rw [exec_callx_ready hf h, hgo _ _ h]
    · obtain ⟨u, hu, hraise⟩ := State.indirect_bad (there := s.pairTarget ag a) hf hb hbad
      refine ⟨u, hu, fun h => ?_, fun h => ?_, fun h => ?_⟩
      · rw [exec_brx_ready h, hraise, hbad]
        rfl
      · rw [exec_ret_ready h, hraise, hbad]
        rfl
      · rw [exec_callx_ready hf h, hraise, hbad]
        rfl
  · intro s n m k e gr f act a link g ts p0 more ag key there rest hsorted hmasks hall hmask hp hne hg hf hfree went split h
    have hfr : s.front? ag = some f := (State.front_frag hg).trans hf
    obtain ⟨w, hw⟩ := hdr_of_ready h hfr
    have hts : groupTargets (laneTargets act (s.pairTarget ag a)) = targetParts ts := groupTargets_laneTargets hsorted hmasks hall hmask
    obtain ⟨hfits, hnofits⟩ := State.indirectTo_parts hg hts hp hne
    have hleft := maskAfter_parts (there := s.pairTarget ag a) (active_of_ready h hfr).2 hsorted hall hmask hp
    have hind := fun pre => State.indirect_landing (there := s.pairTarget ag a) hfr (fun l hl => (hfree l hl).1) (fun l hl => (hfree l hl).2) pre
    have hlen : (targetParts more).length = more.length := List.length_map _
    -- a group into which the parts have been dealt is one that the fragment's lanes went to
    have hwent : ∀ {g' : Group} {taken : List (Addr × Mask)} {es : List Nat},
        gr.SplitInto g' e f (f.afterParts (targetParts more)) (targetParts taken) es →
        went { s with groups := aput s.groups (groupKey n m k) (g'.gone e p0.1), tick := s.tick + more.length } (g'.gone e p0.1) es taken
          f.joinAddr := fun {g' taken es} hinto => by
      obtain ⟨hlength, hnodup, hvacant, hstays, hparts, hothers, hrest⟩ := hinto.gone hne hleft
      refine ⟨rfl, rfl, hlength, hnodup, hvacant, hstays, fun z hz => hparts z hz fun hze => ?_, hothers, hrest⟩
      have hnone := (Group.mem_vacant.mp (hvacant z.1 (List.of_mem_zip hz).1)).2
      rw [hze, hf] at hnone
      cases hnone
    have hdealt : ∀ {g' : Group}, gr.fits f more.length → gr.splitParts s.tick e (targetParts more) = some g' →
        s.indirectTo ag f act (laneTargets act (s.pairTarget ag a)) =
          some { s with groups := aput s.groups (groupKey n m k) (g'.gone e p0.1), tick := s.tick + more.length } := fun hfit hsplit => by
      rw [hfits hfit, hsplit]
      rfl
    have hfree : more.length ≤ gr.vacant.length → (f.joinAddr.isSome = true → gr.defer.length + more.length ≤ 16) →
        ∃ t gt es, s.indirectTo ag f act (laneTargets act (s.pairTarget ag a)) = some t ∧ went t gt es more f.joinAddr ∧
          gt.defer = gr.defer ++ splitRecords f more.length := fun hv hd => by
      obtain ⟨g', es, hsplit, hinto, -, hdefer⟩ := Group.splitParts_spec (targetParts more) s.tick hf hw (by rwa [hlen]) (by rwa [hlen])
      refine ⟨_, g'.gone e p0.1, es, hdealt ?_ hsplit, hwent hinto, by rw [← hlen]; exact hdefer⟩
      unfold Group.fits
      split
      · exact hv
      · next hj => exact ⟨hd (Option.isSome_iff_ne_none.mpr hj), by omega⟩
    have hex : ∀ {t}, s.indirectTo ag f act (laneTargets act (s.pairTarget ag a)) = some t → exec (.brx a g) s = .next t := fun ht => by
      rw [exec_brx_ready h, hind, ht]
      rfl
    refine ⟨fun hj hv => ?_, fun j hj hd hv => ?_, fun j init last hj hd hv hmore => ?_, fun hfull => ?_, fun u hu => ⟨fun hret => ?_, fun hcall hv hd => ?_⟩⟩
    · obtain ⟨t, gt, es, ht, hw, hdefer⟩ := hfree hv (by rw [hj]; exact fun h => by cases h)
      rw [hj] at hw
      exact ⟨t, gt, es, hex ht, hw, by rw [hdefer, splitRecords, hj, List.append_nil]⟩
    · obtain ⟨t, gt, es, ht, hw, hdefer⟩ := hfree hv fun _ => hd
      rw [hj] at hw
      exact ⟨t, gt, es, hex ht, hw, by rw [hdefer, splitRecords, hj]⟩
    · have hsplitlist : targetParts more = targetParts init ++ [(last.1.toNat, last.2)] := by rw [hmore, targetParts, List.map_append]; rfl
      have hcount : more.length = init.length + 1 := by rw [hmore, List.length_append, List.length_singleton]
      have hinit : (targetParts init).length = init.length := List.length_map _
      obtain ⟨g', es, hsplit, hinto, hdefer⟩ := Group.splitParts_deferred (init := targetParts init) (last := (last.1.toNat, last.2))
        s.tick hf hw hj (by omega) (by omega)
      rw [← hsplitlist] at hsplit hinto
      have hfit : gr.fits f more.length := by
        rw [Group.fits, if_neg (by rw [hj]; exact fun h => by cases h)]
        omega
      have hgt := hwent hinto
      rw [hj] at hgt
      refine ⟨_, g'.gone e p0.1, es, hex (hdealt hfit hsplit), hgt, hdefer.trans ?_⟩
      rw [hinit, splitRecords, hj, Fragment.splitRecord_afterParts hj]
      simp [targetParts, deferredArm, split]
    · have hnot : ¬gr.fits f more.length := by
        unfold Group.fits
        split
        · next hj =>
          rcases hfull with ⟨-, hv⟩ | ⟨hs, -⟩
          · omega
          · rw [hj] at hs; cases hs
        · next hj =>
          rcases hfull with ⟨hn, -⟩ | ⟨-, hor⟩
          · exact absurd hn hj
          · omega
      rw [exec_brx_ready h, hind, hnofits hnot]
      exact congrArg Host.Outcome.next (State.divDepth_of_group hg act)
    · rw [exec_ret_ready hret, ← exec_brx_ready h]
      exact hu
    · obtain ⟨t, gt, es, ht, -, -⟩ := hfree hv fun _ => hd
      obtain rfl := Host.Outcome.next.inj ((hex ht).symm.trans hu)
      rw [exec_callx_ready hfr hcall, hind, ht]
      rfl

end Sys2Proof.Machine
end

section
/-! PROOFS. Pieces performed alone, and stores performed (R38, R170, R178, R189, R197). -/

namespace Sys2Proof.Machine

/-! Pieces performed alone (R178, R197). -/

theorem Piece.meets_comm (p q : Piece) : p.meets q = q.meets p := by
  rw [Piece.meets, Piece.meets, Bool.and_comm]

theorem Piece.meets_self {p : Piece} (h : 1 ≤ p.len) : p.meets p = true := by
  simp only [Piece.meets, Bool.and_self, decide_eq_true_eq]
  omega

theorem filter_eq_self_of_pairwise {l : List Piece} {y : Piece} {f : Piece → Bool} (hp : l.Pairwise fun p q => p.meets q = false)
    (hl : ∀ p ∈ l, 1 ≤ p.len) (hy : y ∈ l) (hf : f y = true) (hn : ∀ p ∈ l, f p = true → p.meets y = true) : l.filter f = [y] := by
  induction l with
  | nil => simp at hy
  | cons z t ih =>
    obtain ⟨hz, ht⟩ := List.pairwise_cons.mp hp
    have hlt : ∀ p ∈ t, 1 ≤ p.len := fun p hp => hl p (List.mem_cons_of_mem _ hp)
    rcases List.mem_cons.mp hy with rfl | hyt
    · rw [List.filter_cons, if_pos hf, List.filter_eq_nil_iff.mpr]
      intro p hpt hfp
      have h := hz p hpt
      rw [Piece.meets_comm, hn p (List.mem_cons_of_mem _ hpt) hfp] at h
      cases h
    · have hzf : f z = false := Bool.eq_false_iff.mpr fun hfz => by
        have h := hz y hyt
        rw [hn z (List.mem_cons_self ..) hfz] at h
        cases h
      rw [List.filter_cons, hzf, if_neg Bool.false_ne_true]
      exact ih ht hlt hyt fun p hp => hn p (List.mem_cons_of_mem _ hp)

/-- A piece that no other one meets is performed alone. -/
theorem closeOver_alone {l : List Piece} {y : Piece} (h : (l.filter fun p => y.meets p) = [y]) (n : Nat) : closeOver l [y] n = [y] := by
  induction n with
  | zero => rfl
  | succ n ih =>
    have hany : (l.filter fun p => [y].any fun q => q.meets p) = [y] := by simpa using h
    rw [closeOver, hany, ih]

theorem Access.finish_all {x : Access} {y : Piece} :
    (x.finish [y]).pieces.all (·.done) = decide (∀ p ∈ x.pieces, p.done = true ∨ p = y) := by
  rw [Bool.eq_iff_iff, decide_eq_true_iff, List.all_eq_true]
  simp only [Access.finish, List.forall_mem_map, List.contains_iff_mem, List.mem_singleton]
  refine forall₂_congr fun p _ => ?_
  by_cases h : p = y <;> simp [h]

/-! An access of a fragment settled (R65): its group's scoreboard alone changes, and what waits in the group tries again. -/

/-- Two panels differ at most in their groups. -/
def State.groupsOnly (s t : State) : Prop := { t with groups := s.groups } = s

theorem State.groupsOnly_refl (s : State) : s.groupsOnly s := rfl

theorem State.groupsOnly_trans {s t u : State} (h : s.groupsOnly t) (h' : t.groupsOnly u) : s.groupsOnly u := by
  unfold State.groupsOnly at h h' ⊢
  rw [← h'] at h
  exact h

theorem State.modGroup_groupsOnly (s : State) (k : Nat) (F : Group → Group) : s.groupsOnly (s.modGroup k F) := rfl

section
variable {s t : State} (h : s.groupsOnly t)
include h

theorem State.groupsOnly.flight : t.flight = s.flight := (congrArg State.flight h :)
theorem State.groupsOnly.mem : t.mem = s.mem := (congrArg State.mem h :)
theorem State.groupsOnly.l2 : t.l2 = s.l2 := (congrArg State.l2 h :)
theorem State.groupsOnly.core (d c : Nat) : t.core d c = s.core d c := (congrArg (fun u : State => u.core d c) h :)
theorem State.groupsOnly.team (d n : Nat) : t.team? d n = s.team? d n := (congrArg (fun u : State => u.team? d n) h :)
theorem State.groupsOnly.stackByte (d a : Nat) : t.stackByte d a = s.stackByte d a := (congrArg (fun u : State => u.stackByte d a) h :)

end

section
variable {n m k e : Nat}

theorem State.setEmpty_groupsOnly (b : Bool) (c : Nat) : ∀ (s : State) (r : Nat), s.groupsOnly (s.setEmpty (.frag n m k e) r b c) := by
  induction c with
  | zero => exact fun s _ => s.groupsOnly_refl
  | succ c ih => exact fun s r => State.groupsOnly_trans (s.modGroup_groupsOnly _ _) (ih _ _)

theorem State.markDsts_groupsOnly (s : State) {x : Access} (hag : x.ag = .frag n m k e) (b : Bool) : s.groupsOnly (s.markDsts x b) := by
  unfold State.markDsts
  rw [hag]
  split
  · exact State.setEmpty_groupsOnly _ _ _ _
  · exact State.groupsOnly_trans (State.setEmpty_groupsOnly _ _ _ _) (State.setEmpty_groupsOnly _ _ _ _)

/-- The last piece of an access without error. -/
theorem State.settleAccess_last (u : State) (id : Nat) {x : Access} (hdone : x.pieces.all (·.done) = true) (hag : x.ag = .frag n m k e)
    (hbad : x.bad = 0#64) (hacq : x.acq = false) :
    State.groupsOnly { u with flight := adel u.flight id } (u.settleAccess id x) ∧
      (x.cnt = none → ∀ g, u.group? (groupKey n m k) = some g → (u.settleAccess id x).group? (groupKey n m k) =
        some ((g.modTags x.dst (fun t => { t with empty := false }) x.ndst).woken)) := by
  have heq : u.settleAccess id x = (State.markDsts { u with flight := adel u.flight id } x false).wake (groupKey n m k) := by
    rw [State.settleAccess, if_pos hdone, hacq, hbad, hag]
    rfl
  rw [heq]
  refine ⟨State.groupsOnly_trans (State.markDsts_groupsOnly _ hag false) (State.modGroup_groupsOnly _ _ _), fun hc g hg => ?_⟩
  have hmark : (State.markDsts { u with flight := adel u.flight id } x false).group? (groupKey n m k) =
      some (g.modTags x.dst (fun t => { t with empty := false }) x.ndst) := by
    rw [State.markDsts, hc, hag]
    exact ((State.became_refl (s := { u with flight := adel u.flight id }) hg).setEmpty (e := e) false x.ndst x.dst).1
  rw [State.wake, State.group_modGroup, if_pos rfl, hmark]
  rfl

/-- A piece that is not the last of its access. -/
theorem State.settleAccess_more (u : State) (id : Nat) {x : Access} (hdone : x.pieces.all (·.done) = false) :
    u.settleAccess id x = { u with flight := aput u.flight id x } := by
  rw [State.settleAccess, hdone]
  rfl

end

/-! Stores (R170, R178, R189). -/

/-- The panel with a piece of a store performed, before its access settles. -/
def State.storedPiece (s : State) (x : Access) (y : Piece) : State :=
  ((((s.refetch x y).remembers x y).putBytes x [y] y 0 y.len).streamed x y).draw

section
variable {s : State} {x : Access} {y : Piece} {id n m k e : Nat} {lanes : Mask}

theorem State.performStore_alone (hx : aget s.flight id = some x) (hk : x.kind = .store) (hag : x.ag = .frag n m k e)
    (hpick : (lanesOf lanes).flatMap (pickPiece s.tick x.pieces) = [y]) (hy : y ∈ x.pieces)
    (halone : (x.undone.filter fun p => y.meets p) = [y]) (honly : (x.undone.filter fun p => [y].contains p) = [y])
    (hclean : s.meetStore x y = .clean) (hcleans : ∀ q ∈ x.stands y, (s.refetch x y).meetStore x q = .clean)
    (hcleany : (s.refetch x y).meetStore x y = .clean) (hmay : s.mayPerform x y = true) :
    s.performStore id lanes = (s.storedPiece x y).settleAccess id (x.finish [y]) := by
  have hset : s.storeSet x [y] = [y] := by
    have hhard : ([y].filter fun p => s.meetStore x p != .clean && coversBlock x.undone (p.addr / 64)) = [] := by simp [hclean]
    rw [State.storeSet, closeOver_alone halone]
    simp only [hhard, List.any_nil, Bool.or_false]
    exact honly
  have hagain : x.again = x := by rw [Access.again, hag]
  have hbarred : (x.stands y).find? (fun q => (s.refetch x y).barred x (x.covered [y]) q) = none := by
    rw [List.find?_eq_none]
    intro q hq
    simp [State.barred, hcleans q hq]
  have hpieces : s.storePieces x [y] (x.covered [y]) [y] =
      ((((s.refetch x y).remembers x y).putBytes x [y] y 0 y.len).streamed x y, x.finish [y]) := by
    have hin : x.pieces.contains y = true := List.contains_iff_mem.mpr hy
    simp only [State.storePieces, hin, Bool.not_true, Bool.false_eq_true, if_false, hbarred, hcleany, if_true]
  simp only [State.performStore, hx, hk, hpick, hset, hagain, hpieces]
  simp [hmay, hag, State.storedPiece]

end

/-! A refetch before a store leaves memory and marks as they are (R176). -/

theorem State.l1Refetch_kept (s : State) (d c off : Nat) : s.memoryMoved (s.l1Refetch d c off) ∧ (s.l1Refetch d c off).mem = s.mem ∧
    (s.l1Refetch d c off).l2 = s.l2 ∧ (s.l1Refetch d c off).poison = s.poison ∧ (s.l1Refetch d c off).ue = s.ue := by
  have hreport := fun (F : Core → Core) a b c' e f => State.reportError_reports (s.modCore d c F) d a b c' e f
  unfold State.l1Refetch
  split
  · split
    · exact ⟨State.memoryMoved_trans (s.modCore_moved d c _) (State.reportError_moved _ _ _ _ _ _ _), (hreport _ _ _ _ _ _).mem,
        (hreport _ _ _ _ _ _).l2, (hreport _ _ _ _ _ _).poison, (hreport _ _ _ _ _ _).ue⟩
    · exact ⟨s.memoryMoved_refl, rfl, rfl, rfl, rfl⟩
  · exact ⟨s.memoryMoved_refl, rfl, rfl, rfl, rfl⟩

theorem State.l1Refetch_empty {s : State} {d c : Nat} (h : (s.core d c).l1 = []) (off : Nat) : s.l1Refetch d c off = s := by
  rw [State.l1Refetch, h]
  rfl

theorem State.l1Stream_kept (s : State) (d c off : Nat) : (s.l1Stream d c off).mem = s.mem ∧ (s.l1Stream d c off).l2 = s.l2 := ⟨rfl, rfl⟩

theorem State.streamed_moved (s : State) (x : Access) (y : Piece) : s.memoryMoved (s.streamed x y) ∧ (s.streamed x y).mem = s.mem ∧
    (s.streamed x y).l2 = s.l2 := by
  unfold State.streamed
  split
  · split
    · exact ⟨s.modCore_moved _ _ _, rfl, rfl⟩
    · exact ⟨s.memoryMoved_refl, rfl, rfl⟩
  · exact ⟨s.memoryMoved_refl, rfl, rfl⟩
  · exact ⟨s.memoryMoved_refl, rfl, rfl⟩

theorem State.stackByte_congr {s t : State} (hm : t.mem = s.mem) (hl : t.l2 = s.l2) (d a : Nat) : t.stackByte d a = s.stackByte d a := by
  rw [State.stackByte, State.stackByte, hm, hl]

/-! The bytes of a piece (R170, R178). -/

theorem putBytes_succ (s : State) (x : Access) (y : Piece) (i n : Nat) : s.putBytes x [y] y i (n + 1) =
    (s.putByte x (y.addr + i) y.cls (y.byteAt (y.addr + i))).putBytes x [y] y (i + 1) n := by
  have hlen : ([y].filter fun q => decide (q.addr ≤ y.addr + i) && decide (y.addr + i < q.addr + q.len)).length ≤ 1 :=
    List.length_filter_le _ _
  rw [State.putBytes, if_pos hlen]

/-- A byte stored to a page of another class than CORE is written at its home slice (R170). -/
theorem State.coreWrite_home {s : State} {cls : Nat} (hc : cls ≠ 0) (d c off : Nat) (l : List Byte) :
    s.memoryMoved (s.coreWrite d c off cls l) ∧ ∀ d' a, (s.coreWrite d c off cls l).stackByte d' a = (s.stackWrite d off l).stackByte d' a := by
  have hcores : (s.stackWrite d off l).cores = s.cores := (s.stackWrite_cores d off l).1
  rw [State.coreWrite, if_neg hc]
  cases hx : aget (s.core d c).l1 (off / 64) with
  | none => exact ⟨s.stackWrite_moved d off l, fun _ _ => rfl⟩
  | some z =>
    have hhas : (s.stackWrite d off l).l1Room d c off = true := by
      have hcore : (s.stackWrite d off l).core d c = s.core d c := by rw [State.core, hcores]; rfl
      rw [State.l1Room, State.l1Has, hcore, hx]
      rfl
    dsimp only
    rw [State.l1Put_of_room hhas]
    exact ⟨State.memoryMoved_trans (s.stackWrite_moved d off l) (State.modCore_moved _ _ _ _), fun _ _ => rfl⟩

section
variable {x : Access} {y : Piece} {n m k e : Nat}

/-- Bytes of a piece stored at the home slice. -/
theorem State.putBytes_home (hag : keyDie (agKey x.ag) = n) (hs : x.space = .glob) (hc : y.cls ≠ 0) (c : Nat) : ∀ (s : State) (i : Nat),
    y.addr + i + c ≤ 2 ^ 36 → s.memoryMoved (s.putBytes x [y] y i c) ∧ ∀ d a, a < 2 ^ 36 → (s.putBytes x [y] y i c).stackByte d a =
      if d = n ∧ y.addr + i ≤ a ∧ a < y.addr + i + c then y.byteAt a else s.stackByte d a := by
  induction c with
  | zero =>
    intro s i _
    refine ⟨s.memoryMoved_refl, fun d a _ => ?_⟩
    rw [if_neg (by omega)]
    rfl
  | succ c ih =>
    intro s i hi
    have hput : s.putByte x (y.addr + i) y.cls (y.byteAt (y.addr + i)) =
        s.coreWrite n x.core (y.addr + i) y.cls [y.byteAt (y.addr + i)] := by
      rw [State.putByte, hs, hag]
    obtain ⟨hmoved, hbytes⟩ := State.coreWrite_home (s := s) hc n x.core (y.addr + i) [y.byteAt (y.addr + i)]
    obtain ⟨hmoved', hbytes'⟩ := ih (s.putByte x (y.addr + i) y.cls (y.byteAt (y.addr + i))) (i + 1) (by omega)
    rw [putBytes_succ]
    refine ⟨State.memoryMoved_trans (hput ▸ hmoved) hmoved', fun d a ha => ?_⟩
    rw [hbytes' d a ha, hput, hbytes, State.stackByte_stackWrite n d a ha _ _ _ (by rw [List.length_singleton]; omega), List.length_singleton]
    by_cases h : d = n ∧ y.addr + i ≤ a ∧ a < y.addr + i + (c + 1)
    · rw [if_pos h]
      by_cases h1 : a = y.addr + i
      · rw [if_neg (by omega), if_pos (by omega), h1, Nat.sub_self, List.getD_cons_zero]
      · rw [if_pos (by omega)]
    · rw [if_neg h, if_neg (by omega), if_neg (by omega)]

/-- Bytes of a piece stored to local memory. -/
theorem State.putBytes_local (hag : keyDie (agKey x.ag) = n ∧ keySlot (agKey x.ag) = m) (hs : x.space = .loc) (c : Nat) :
    ∀ (s : State) (i : Nat) (t : Team), s.team? n m = some t → { s.putBytes x [y] y i c with teams := s.teams } = s ∧
      ∃ tt, (s.putBytes x [y] y i c).team? n m = some tt ∧
        ∀ a, tt.localByte a = if y.addr + i ≤ a ∧ a < y.addr + i + c then y.byteAt a else t.localByte a := by
  induction c with
  | zero =>
    intro s i t ht
    refine ⟨rfl, t, ht, fun a => ?_⟩
    rw [if_neg (by omega)]
  | succ c ih =>
    intro s i t ht
    have hput : s.putByte x (y.addr + i) y.cls (y.byteAt (y.addr + i)) =
        s.modTeam n m fun t => t.localPoke (y.addr + i) [y.byteAt (y.addr + i)] := by
      simp only [State.putByte, hs, hag.1, hag.2]
    have hteam : (s.putByte x (y.addr + i) y.cls (y.byteAt (y.addr + i))).team? n m =
        some (t.localPoke (y.addr + i) [y.byteAt (y.addr + i)]) := by
      rw [hput, State.team_modTeam, if_pos rfl, ht]
      rfl
    obtain ⟨hrest, tt, htt, hbytes⟩ := ih _ (i + 1) _ hteam
    rw [putBytes_succ]
    refine ⟨?_, tt, htt, fun a => ?_⟩
    · have hrest := congrArg (fun u : State => { u with teams := s.teams }) hrest
      exact hrest.trans (by rw [hput]; rfl)
    · rw [hbytes, show (t.localPoke (y.addr + i) [y.byteAt (y.addr + i)]).localByte a = _ from sget_localPut _ a _ _, List.length_singleton]
      by_cases h : y.addr + i ≤ a ∧ a < y.addr + i + (c + 1)
      · rw [if_pos h]
        by_cases h1 : a = y.addr + i
        · rw [if_neg (by omega), if_pos (by omega), h1, Nat.sub_self, List.getD_cons_zero]
        · rw [if_pos (by omega)]
      · rw [if_neg h, if_neg (by omega), if_neg (by omega)]
        rfl

end

/-! Bytes of an L1 line (R170). -/

theorem lineRead_one (z : L1Line) (i : Nat) : lineRead z i 1 = (z.data.extractLsb' (8 * i) 8).toNat := by
  rw [lineRead, BitVec.extractLsb'_toNat, Nat.shiftRight_eq_div_pow, Nat.pow_mul, pow_one]

theorem testBit_byte_mul (b lo k : Nat) : (b * 256 ^ lo).testBit k = (decide (8 * lo ≤ k) && b.testBit (k - 8 * lo)) := by
  rw [show (256 : Nat) ^ lo = 2 ^ (8 * lo) by rw [Nat.pow_mul], Nat.mul_comm, Nat.testBit_two_pow_mul]

/-- A byte put into a line is there, and the others stay. -/
theorem lineRead_lineWrite (z : L1Line) {lo i : Nat} (hlo : lo < 64) (hi : i < 64) (b : Byte) (dirty : Bool) :
    lineRead (lineWrite z lo [b] dirty) i 1 = if i = lo then b.toNat else lineRead z i 1 := by
  have hmask : ∀ k, ((256 ^ [b].length - 1) * 256 ^ lo).testBit k = (decide (8 * lo ≤ k) && decide (k < 8 * lo + 8)) := fun k => by
    rw [List.length_singleton, pow_one, testBit_byte_mul, show (256 - 1 : Nat) = 2 ^ 8 - 1 by rfl, Nat.testBit_two_pow_sub_one,
      Bool.eq_iff_iff]
    simp only [Bool.and_eq_true, decide_eq_true_eq]
    omega
  have hval : natOfBytes [b] = b.toNat := by simp [natOfBytes]
  rw [lineRead_one, lineRead_one]
  have hbits : ∀ j, j < 8 → ((lineWrite z lo [b] dirty).data.extractLsb' (8 * i) 8).getLsbD j =
      if i = lo then b.getLsbD j else (z.data.extractLsb' (8 * i) 8).getLsbD j := fun j hj => by
    have hk : 8 * i + j < 512 := by omega
    simp only [lineWrite, BitVec.getLsbD_extractLsb', hj, decide_true, Bool.true_and, BitVec.getLsbD_or, BitVec.getLsbD_and,
      BitVec.getLsbD_not, BitVec.getLsbD_ofNat, hk, hmask, hval, testBit_byte_mul]
    by_cases h : i = lo
    · subst h
      rw [if_pos rfl, Nat.add_sub_cancel_left, show decide (8 * i ≤ 8 * i + j) = true by simp, show decide (8 * i + j < 8 * i + 8) = true by simp [hj]]
      simp [BitVec.getLsbD]
    · rw [if_neg h]
      by_cases hlt : 8 * lo ≤ 8 * i + j
      · have hge : 8 * lo + 8 ≤ 8 * i + j := by omega
        have hbz : b.toNat.testBit (8 * i + j - 8 * lo) = false :=
          Nat.testBit_lt_two_pow (b.isLt.trans_le (Nat.pow_le_pow_right (by decide) (by omega)))
        rw [hbz, show decide (8 * i + j < 8 * lo + 8) = false by simp; omega]
        simp
      · rw [show decide (8 * lo ≤ 8 * i + j) = false by simpa using hlt]
        simp
  by_cases h : i = lo
  · rw [if_pos h]
    refine congrArg BitVec.toNat (BitVec.eq_of_getLsbD_eq (y := b) fun j hj => ?_)
    rw [hbits j hj, if_pos h]
  · rw [if_neg h]
    refine congrArg BitVec.toNat (BitVec.eq_of_getLsbD_eq fun j hj => ?_)
    rw [hbits j hj, if_neg h]

/-- Bytes of the line that a core fetches from the L2 are those of the stack. -/
theorem lineRead_fetched (s : State) (d off cls lo n : Nat) (dirty : BitVec 64) (hn : lo + n ≤ 64) :
    lineRead { cls := cls, data := BitVec.ofNat 512 (s.stackRead d off 64), dirty := dirty } lo n = s.stackRead d (off + lo) n := by
  have hwhole : s.stackRead d off 64 % 2 ^ 512 = s.stackRead d off 64 := by
    have h := natOfBytes_take 64 ((List.range 64).map fun i => s.stackByte d (off + i))
    rw [List.take_of_length_le (by simp), show (256 : Nat) ^ 64 = 2 ^ 512 from (Nat.pow_mul 2 8 64).symm] at h
    exact h.symm
  have hpart : (((List.range 64).map fun i => s.stackByte d (off + i)).drop lo).take n = (List.range n).map fun i => s.stackByte d (off + lo + i) := by
    refine List.ext_getElem (by simp; omega) fun i h1 h2 => ?_
    simp [Nat.add_assoc]
  rw [lineRead, BitVec.toNat_ofNat, hwhole, State.stackRead, State.stackRead, ← natOfBytes_drop, ← natOfBytes_take, hpart]

theorem State.stackRead_one (s : State) (d a : Nat) : s.stackRead d a 1 = (s.stackByte d a).toNat := by
  simp [State.stackRead, natOfBytes]

/-- `z` is the line of a core that a store changes, and it has room or is there; no other line is held. -/
def State.holdsLine (s : State) (d c line : Nat) (z : L1Line) : Prop :=
  (∀ z', aput (s.core d c).l1 line z' = [(line, z')]) ∧ (∀ off, off / 64 = line → s.l1Line d c off 0 = z ∧ s.l1Room d c off = true)

/-- A CORE store into the line. -/
theorem State.coreWrite_core {s : State} {d c line off : Nat} {z : L1Line} (h : s.holdsLine d c line z) (hoff : off / 64 = line) (b : Byte) :
    let t := s.coreWrite d c off 0 [b]
    t.holdsLine d c line (lineWrite z (off % 64) [b] true) ∧ (t.core d c).l1 = [(line, lineWrite z (off % 64) [b] true)] ∧
      s.memoryMoved t ∧ t.mem = s.mem ∧ t.l2 = s.l2 := by
  obtain ⟨hput, hline⟩ := h
  obtain ⟨hz, hroom⟩ := hline off hoff
  have heq : s.coreWrite d c off 0 [b] =
      s.modCore d c fun k => { k with l1 := aput k.l1 line (lineWrite z (off % 64) [b] true) } := by
    rw [State.coreWrite, if_pos rfl, hz, State.l1Put_of_room hroom, hoff]
  have hl1 : ((s.coreWrite d c off 0 [b]).core d c).l1 = [(line, lineWrite z (off % 64) [b] true)] := by
    rw [heq, State.core_modCore_self]
    exact hput _
  refine ⟨⟨fun z' => ?_, fun off' hoff' => ⟨?_, ?_⟩⟩, hl1, ?_, ?_, ?_⟩
  · rw [hl1]
    simp [aput]
  · rw [State.l1Line, hl1, hoff']
    simp [aget]
  · rw [State.l1Room, State.l1Has, hl1, hoff']
    simp [aget]
  · rw [heq]
    exact s.modCore_moved d c _
  · rw [heq]
    rfl
  · rw [heq]
    rfl

/-- Bytes of a piece stored to a CORE page, in the line that its core's L1 holds. -/
theorem State.putBytes_core {x : Access} {y : Piece} {n : Nat} (hag : keyDie (agKey x.ag) = n) (hs : x.space = .glob) (hc : y.cls = 0)
    (c : Nat) : ∀ (s : State) (i : Nat) (z : L1Line), s.holdsLine n x.core (y.addr / 64) z → y.addr % 64 + i + c ≤ 64 →
    let t := s.putBytes x [y] y i c
    s.memoryMoved t ∧ t.mem = s.mem ∧ t.l2 = s.l2 ∧ ∃ z', t.holdsLine n x.core (y.addr / 64) z' ∧
      (c ≠ 0 → (t.core n x.core).l1 = [(y.addr / 64, z')]) ∧ ∀ j, j < 64 → lineRead z' j 1 =
        if y.addr % 64 + i ≤ j ∧ j < y.addr % 64 + i + c then (y.byteAt (y.addr / 64 * 64 + j)).toNat else lineRead z j 1 := by
  induction c with
  | zero =>
    intro s i z h _
    refine ⟨s.memoryMoved_refl, rfl, rfl, z, h, fun hc => absurd rfl hc, fun j _ => ?_⟩
    rw [if_neg (by omega)]
  | succ c ih =>
    intro s i z h hi
    have hput : s.putByte x (y.addr + i) y.cls (y.byteAt (y.addr + i)) =
        s.coreWrite n x.core (y.addr + i) 0 [y.byteAt (y.addr + i)] := by
      rw [State.putByte, hs, hag, hc]
    obtain ⟨hholds, hl1, hmoved, hmem, hl2⟩ := State.coreWrite_core h (show (y.addr + i) / 64 = y.addr / 64 by omega) (y.byteAt (y.addr + i))
    rw [← hput] at hholds hl1 hmoved hmem hl2
    obtain ⟨hmoved', hmem', hl2', z', hz', hone, hbytes⟩ := ih _ (i + 1) _ hholds (by omega)
    dsimp only
    rw [putBytes_succ]
    refine ⟨State.memoryMoved_trans hmoved hmoved', hmem'.trans hmem, hl2'.trans hl2, z', hz', fun _ => ?_, fun j hj => ?_⟩
    · cases c with
      | zero =>
        have hline := (hz'.2 y.addr rfl).1
        have hline' := (hholds.2 y.addr rfl).1
        have heq : z' = lineWrite z ((y.addr + i) % 64) [y.byteAt (y.addr + i)] true := hline.symm.trans hline'
        rw [heq]
        exact hl1
      | succ c => exact hone (Nat.succ_ne_zero c)
    · rw [hbytes j hj, lineRead_lineWrite z (Nat.mod_lt _ (by decide)) hj]
      by_cases h : y.addr % 64 + i ≤ j ∧ j < y.addr % 64 + i + (c + 1)
      · rw [if_pos h]
        by_cases h1 : j = y.addr % 64 + i
        · rw [if_neg (by omega), if_pos (by omega), show y.addr / 64 * 64 + j = y.addr + i by omega]
        · rw [if_pos (by omega)]
      · rw [if_neg h, if_neg (by omega), if_neg (by omega)]

/-! A store of one piece (R170, R178, R189). -/

section
variable {x : Access} {y : Piece}

/-- Of pieces that do not meet, one that is not done is found alone. -/
theorem Access.undone_alone (hp : x.pieces.Pairwise fun p q => p.meets q = false) (hl : ∀ p ∈ x.pieces, 1 ≤ p.len) (hy : y ∈ x.pieces)
    (hdone : y.done = false) : (x.undone.filter fun p => y.meets p) = [y] ∧ (x.undone.filter fun p => [y].contains p) = [y] := by
  have hsub : x.undone.Sublist x.pieces := List.filter_sublist
  have hmem : y ∈ x.undone := List.mem_filter.mpr ⟨hy, by rw [hdone]; rfl⟩
  have hpos : ∀ p ∈ x.undone, 1 ≤ p.len := fun p hp => hl p (hsub.subset hp)
  refine ⟨filter_eq_self_of_pairwise (hp.sublist hsub) hpos hmem (Piece.meets_self (hl y hy)) fun p _ h => (Piece.meets_comm p y).trans h,
    filter_eq_self_of_pairwise (hp.sublist hsub) hpos hmem (by simp) fun p hp h => ?_⟩
  rw [List.contains_iff_mem, List.mem_singleton] at h
  rw [h]
  exact Piece.meets_self (hl y hy)

/-- One undone piece of a lane is picked (R197). -/
theorem pickPiece_one (t : Nat) {l : List Piece} {lane : Nat} (h : ∃ p ∈ l, p.lane = lane ∧ p.done = false) :
    ∃ y, pickPiece t l lane = [y] ∧ y ∈ l ∧ y.lane = lane ∧ y.done = false := by
  let c := l.filter fun p => p.lane == lane && !p.done
  have hc : ∀ p, p ∈ c ↔ p ∈ l ∧ p.lane = lane ∧ p.done = false := fun p => by simp [c]
  obtain ⟨p, hp⟩ := h
  have hpos : 0 < c.length := List.length_pos_of_mem ((hc p).mpr hp)
  have hpick : pickPiece t l lane = if c.length ≤ 1 then c else ((c)[Config.freeNat t % c.length]?).toList := rfl
  by_cases h1 : c.length ≤ 1
  · obtain ⟨y, hy⟩ := List.length_eq_one_iff.mp (show c.length = 1 by omega)
    exact ⟨y, by rw [hpick, if_pos h1, hy], (hc y).mp (by rw [hy]; exact List.mem_singleton.mpr rfl)⟩
  · have hlt : Config.freeNat t % c.length < c.length := Nat.mod_lt _ hpos
    exact ⟨(c)[Config.freeNat t % c.length], by rw [hpick, if_neg h1, List.getElem?_eq_getElem hlt]; rfl, (hc _).mp (List.getElem_mem hlt)⟩

theorem pickPiece_single (t : Nat) (hdone : y.done = false) : pickPiece t [y] y.lane = [y] := by
  simp [pickPiece, hdone]

section
variable {s : State} {rest : List Turn} {id n m k e l : Nat}

/-- A store's turn performs the piece that is picked, and settles its access. -/
theorem step_store (hs : s.agenda = .perform id (laneBit l) :: rest) (hl : l < 64) (hx : aget s.flight id = some x) (hk : x.kind = .store)
    (hag : x.ag = .frag n m k e) (hpick : pickPiece s.tick x.pieces l = [y]) (hp : x.pieces.Pairwise fun p q => p.meets q = false)
    (hlen : ∀ p ∈ x.pieces, 1 ≤ p.len) (hy : y ∈ x.pieces) (hdone : y.done = false) (hclean : s.meetStore x y = .clean)
    (hcleans : ∀ q ∈ y :: x.stands y, (State.refetch { s with agenda := rest, cur := none } x y).meetStore x q = .clean) (hmay : s.mayPerform x y = true) :
    step s = .next ((State.storedPiece { s with agenda := rest, cur := none } x y).settleAccess id (x.finish [y])) := by
  obtain ⟨halone, honly⟩ := Access.undone_alone hp hlen hy hdone
  rw [step, hs]
  dsimp only
  rw [State.performStore_alone (s := { s with agenda := rest, cur := none }) hx hk hag
    (by rw [lanesOf_laneBit hl, List.flatMap_singleton]; exact hpick) hy halone honly hclean
    (fun q hq => hcleans q (List.mem_cons_of_mem _ hq)) (hcleans y (List.mem_cons_self ..)) hmay]

/-! What a store meets where no sector is marked (R176). -/

theorem State.meetStore_home (hp : s.poison = []) (hu : s.ue = []) (hs : x.space = .glob) (hc : y.cls ≠ 0) : s.meetStore x y = .clean := by
  simp [State.meetStore, hs, hc, State.meetHome, hp, hu]

theorem State.meetStack_clean (hp : s.poison = []) (hu : s.ue = []) {d c : Nat} (hl : (s.core d c).l1 = []) (a : Nat) :
    s.meetStack d c a = .clean := by
  simp [State.meetStack, hp, hu, State.l1Bad, hl, aget]

theorem State.meetStore_core (hp : s.poison = []) (hu : s.ue = []) (hs : x.space = .glob) (hc : y.cls = 0)
    (hl : (s.core (keyDie (agKey x.ag)) x.core).l1 = []) : s.meetStore x y = .clean := by
  simp [State.meetStore, hs, hc, State.meetStack_clean hp hu hl]

theorem State.meetStore_local {t : Team} (ht : s.team? (keyDie (agKey x.ag)) (keySlot (agKey x.ag)) = some t) (hp : t.localPoison = [])
    (hu : t.localUe = []) (hs : x.space = .loc) : s.meetStore x y = .clean := by
  simp [State.meetStore, hs, ht, Team.meetLocal, hp, hu]

/-! The panel with the piece stored. -/

theorem State.storedPiece_home (hm : m < 2048) (hk : k < 16) (hag : x.ag = .frag n m k e) (hs : x.space = .glob) (hc : y.cls ≠ 0)
    (hy : y.addr + y.len ≤ 2 ^ 36) : (s.storedPiece x y).flight = s.flight ∧ ∀ d a, a < 2 ^ 36 → (s.storedPiece x y).stackByte d a =
      if d = n ∧ y.addr ≤ a ∧ a < y.addr + y.len then y.byteAt a else s.stackByte d a := by
  have hdie : keyDie (agKey x.ag) = n := by rw [hag]; exact keyDie_groupKey hm hk
  obtain ⟨hmoved, hmem, hl2, -, -⟩ := s.l1Refetch_kept (keyDie (agKey x.ag)) x.core y.addr
  have hpre : (s.refetch x y).remembers x y = s.l1Refetch (keyDie (agKey x.ag)) x.core y.addr := by
    rw [State.refetch, hs, State.remembers, hs]
  obtain ⟨hput, hbytes⟩ := State.putBytes_home hdie hs hc y.len ((s.refetch x y).remembers x y) 0 hy
  obtain ⟨hstream, hmem', hl2'⟩ := State.streamed_moved (((s.refetch x y).remembers x y).putBytes x [y] y 0 y.len) x y
  refine ⟨?_, fun d a ha => ?_⟩
  · exact hstream.flight.trans (hput.flight.trans (hpre ▸ hmoved.flight))
  · have hb := (State.stackByte_congr hmem' hl2' d a).trans (hbytes d a ha)
    rw [hpre, State.stackByte_congr hmem hl2] at hb
    rw [State.storedPiece, hpre]
    exact hb

theorem State.storedPiece_core (hm : m < 2048) (hk : k < 16) (hag : x.ag = .frag n m k e) (hs : x.space = .glob) (hc : y.cls = 0)
    (hlen : y.len ≠ 0) (hy : y.addr % 64 + y.len ≤ 64) (hl : (s.core n x.core).l1 = []) (hr : s.l1Room n x.core y.addr = true) :
    (s.storedPiece x y).flight = s.flight ∧ (s.storedPiece x y).mem = s.mem ∧ (s.storedPiece x y).l2 = s.l2 ∧
      ∃ z, ((s.storedPiece x y).core n x.core).l1 = [(y.addr / 64, z)] ∧ ∀ j, j < 64 → lineRead z j 1 =
        if y.addr % 64 ≤ j ∧ j < y.addr % 64 + y.len then (y.byteAt (y.addr / 64 * 64 + j)).toNat
        else (s.stackByte n (y.addr / 64 * 64 + j)).toNat := by
  have hdie : keyDie (agKey x.ag) = n := by rw [hag]; exact keyDie_groupKey hm hk
  have hpre : (s.refetch x y).remembers x y = s := by
    rw [State.refetch, hs, State.remembers, hs]
    exact State.l1Refetch_empty (by rw [hdie, hl]) _
  have hholds : s.holdsLine n x.core (y.addr / 64)
      { cls := 0, data := BitVec.ofNat 512 (s.stackRead n (y.addr / 64 * 64) 64), dirty := 0#64 } := by
    refine ⟨fun z' => by rw [hl]; rfl, fun off hoff => ⟨?_, ?_⟩⟩
    · rw [State.l1Line, hl, hoff]
      rfl
    · have h2 : s.l2Room n off = s.l2Room n y.addr := State.l2Room_congr s (by omega)
      rw [State.l1Room, State.l1Has, hoff, h2]
      exact hr
  obtain ⟨hmoved, hmem, hl2, z, -, hone, hbytes⟩ := State.putBytes_core hdie hs hc y.len s 0 _ hholds hy
  obtain ⟨hstream, hmem', hl2'⟩ := State.streamed_moved (s.putBytes x [y] y 0 y.len) x y
  have heq : s.storedPiece x y = ((s.putBytes x [y] y 0 y.len).streamed x y).draw := by rw [State.storedPiece, hpre]
  have hz : ∃ z', ((s.storedPiece x y).core n x.core).l1 = [(y.addr / 64, z')] ∧ z'.data = z.data := by
    have hl1 := hone hlen
    rw [heq]
    simp only [State.streamed, hs]
    split
    · refine ⟨{ z with stream := true }, ?_, rfl⟩
      have hcore := State.core_modCore_self (s.putBytes x [y] y 0 y.len) n x.core fun q =>
        { q with l1 := amod q.l1 (y.addr / 64) fun v => { v with stream := true } }
      rw [hdie]
      refine (congrArg Core.l1 hcore).trans ?_
      dsimp only
      rw [hl1]
      simp [amod, aget, aput]
    · exact ⟨z, hl1, rfl⟩
  obtain ⟨z', hz', hdata⟩ := hz
  rw [heq] at hz' ⊢
  refine ⟨hstream.flight.trans hmoved.flight, hmem'.trans hmem, hl2'.trans hl2, z', hz', fun j hj => ?_⟩
  rw [lineRead, hdata, ← lineRead, hbytes j hj]
  by_cases h : y.addr % 64 ≤ j ∧ j < y.addr % 64 + y.len
  · rw [if_pos h, if_pos (by omega)]
  · rw [if_neg h, if_neg (by omega), lineRead_fetched s n _ 0 j 1 _ (by omega), State.stackRead_one]

theorem State.storedPiece_local {t : Team} (hm : m < 2048) (hk : k < 16) (hag : x.ag = .frag n m k e) (hs : x.space = .loc)
    (ht : s.team? n m = some t) : { s.storedPiece x y with teams := s.teams, tick := s.tick } = s ∧
      ∃ tt, (s.storedPiece x y).team? n m = some tt ∧
        ∀ a, tt.localByte a = if y.addr ≤ a ∧ a < y.addr + y.len then y.byteAt a else t.localByte a := by
  have hdie : keyDie (agKey x.ag) = n := by rw [hag]; exact keyDie_groupKey hm hk
  have hslot : keySlot (agKey x.ag) = m := by rw [hag]; exact keySlot_groupKey hm hk
  have hpre : (s.refetch x y).remembers x y = s.modTeam n m fun t => { t with seq := t.remember y.addr y.len } := by
    rw [State.refetch, hs, State.remembers, hs, hdie, hslot]
  have hteam : ((s.refetch x y).remembers x y).team? n m = some { t with seq := t.remember y.addr y.len } := by
    rw [hpre, State.team_modTeam, if_pos rfl, ht]
    rfl
  obtain ⟨hrest, tt, htt, hbytes⟩ := State.putBytes_local (x := x) (y := y) ⟨hdie, hslot⟩ hs y.len _ 0 _ hteam
  have heq : s.storedPiece x y = (((s.refetch x y).remembers x y).putBytes x [y] y 0 y.len).draw := by
    rw [State.storedPiece, State.streamed, hs]
  rw [heq]
  refine ⟨?_, tt, htt, hbytes⟩
  have hrest := congrArg (fun u : State => { u with teams := s.teams, tick := s.tick }) hrest
  exact hrest.trans (by rw [hpre]; rfl)

end

theorem Piece.byteAt_add (p : Piece) (i : Nat) : p.byteAt (p.addr + i) = BitVec.ofNat 8 (p.data / 2 ^ (8 * i)) := by
  rw [Piece.byteAt, byteOf, Nat.add_sub_cancel_left, Nat.pow_mul]

theorem Piece.toNat_byteAt (p : Piece) (a : Nat) : (p.byteAt a).toNat = p.data / 2 ^ (8 * (a - p.addr)) % 256 := by
  rw [Piece.byteAt, byteOf, BitVec.toNat_ofNat, Nat.pow_mul]

theorem Access.finish_done (hp : x.pieces = [y]) : (x.finish [y]).pieces.all (·.done) = true := by
  rw [Access.finish_all, decide_eq_true_iff, hp]
  simp

section
variable {s : State} {rest : List Turn} {id n m k e : Nat}
  (hs : s.agenda = .perform id (laneBit y.lane) :: rest) (hx : aget s.flight id = some x) (hpieces : x.pieces = [y]) (hl : y.lane < 64)
  (hag : x.ag = .frag n m k e) (hkind : x.kind = .store) (hchunk : x.chunked = false) (hbad : x.bad = 0#64) (hacq : x.acq = false)
  (hm : m < 2048) (hk : k < 16) (hdone : y.done = false) (hlen : 1 ≤ y.len) (hmay : s.mayPerform x y = true)
include hs hx hpieces hl hag hkind hchunk hbad hacq hdone hlen hmay

/-- A store of one piece, once its place is clean: the piece is stored, and the access leaves flight. -/
theorem step_store_single (hclean : s.meetStore x y = .clean)
    (hcleans : (State.refetch { s with agenda := rest, cur := none } x y).meetStore x y = .clean) :
    ∃ t, step s = .next t ∧ State.groupsOnly { State.storedPiece { s with agenda := rest, cur := none } x y with
      flight := adel (State.storedPiece { s with agenda := rest, cur := none } x y).flight id } t := by
  have hstands : x.stands y = [y] := by rw [Access.stands, hchunk]; rfl
  refine ⟨_, step_store hs hl hx hkind hag (by rw [hpieces]; exact pickPiece_single _ hdone) (by rw [hpieces]; exact List.pairwise_singleton _ _)
    (by simpa [hpieces] using hlen) (by rw [hpieces]; exact List.mem_singleton.mpr rfl) hdone hclean (fun q hq => ?_) hmay,
    (State.settleAccess_last _ id (Access.finish_done hpieces) hag hbad hacq).1⟩
  rw [hstands] at hq
  have hq : q = y := by simpa using hq
  rw [hq]
  exact hcleans

include hm hk

/-- To a page of another class than CORE (R170, R178). -/
theorem store_home (hp : s.poison = []) (hu : s.ue = []) (hspace : x.space = .glob) (hc : y.cls ≠ 0) (hy : y.addr + y.len ≤ 2 ^ 36) :
    ∃ t, step s = .next t ∧ (∀ i, i < y.len → t.stackByte n (y.addr + i) = BitVec.ofNat 8 (y.data / 2 ^ (8 * i))) ∧
      s.stackFrame t n y.addr y.len ∧ t.flight = adel s.flight id := by
  obtain ⟨-, -, -, hp', hu'⟩ := State.l1Refetch_kept { s with agenda := rest, cur := none } (keyDie (agKey x.ag)) x.core y.addr
  have hrefetch : State.refetch { s with agenda := rest, cur := none } x y =
      State.l1Refetch { s with agenda := rest, cur := none } (keyDie (agKey x.ag)) x.core y.addr := by rw [State.refetch, hspace]
  obtain ⟨t, ht, hrest⟩ := step_store_single hs hx hpieces hl hag hkind hchunk hbad hacq hdone hlen hmay (State.meetStore_home hp hu hspace hc)
    (by rw [hrefetch]; exact State.meetStore_home (hp'.trans hp) (hu'.trans hu) hspace hc)
  obtain ⟨hflight, hbytes⟩ := State.storedPiece_home (s := { s with agenda := rest, cur := none }) hm hk hag hspace hc hy
  refine ⟨t, ht, fun i hi => ?_, fun d a ha hd => ?_, hrest.flight.trans (congrArg (adel · id) hflight)⟩
  · refine (hrest.stackByte n (y.addr + i)).trans ((hbytes n _ (by omega)).trans ?_)
    rw [if_pos ⟨rfl, by omega, by omega⟩, Piece.byteAt_add]
  · refine (hrest.stackByte d a).trans ((hbytes d a ha).trans ?_)
    rw [if_neg (fun h => by have := hd h.1; omega)]
    rfl

/-- To a CORE page (R170). -/
theorem store_core (hp : s.poison = []) (hu : s.ue = []) (hspace : x.space = .glob) (hc : y.cls = 0) (hy : y.addr % 64 + y.len ≤ 64)
    (hl1 : (s.core n x.core).l1 = []) (hr : s.l1Room n x.core y.addr = true) :
    ∃ t z, step s = .next t ∧ (t.core n x.core).l1 = [(y.addr / 64, z)] ∧
      (∀ i, i < 64 → lineRead z i 1 = if y.addr % 64 ≤ i ∧ i < y.addr % 64 + y.len then y.data / 2 ^ (8 * (i - y.addr % 64)) % 256
        else (s.stackByte n (y.addr / 64 * 64 + i)).toNat) ∧ t.flight = adel s.flight id ∧ t.mem = s.mem ∧ t.l2 = s.l2 := by
  have hdie : keyDie (agKey x.ag) = n := by rw [hag]; exact keyDie_groupKey hm hk
  have hl1' : (State.core { s with agenda := rest, cur := none } (keyDie (agKey x.ag)) x.core).l1 = [] := by rw [hdie]; exact hl1
  have hrefetch : State.refetch { s with agenda := rest, cur := none } x y = { s with agenda := rest, cur := none } := by
    rw [State.refetch, hspace]
    exact State.l1Refetch_empty hl1' _
  obtain ⟨t, ht, hrest⟩ := step_store_single hs hx hpieces hl hag hkind hchunk hbad hacq hdone hlen hmay
    (State.meetStore_core hp hu hspace hc hl1') (by rw [hrefetch]; exact State.meetStore_core hp hu hspace hc hl1')
  obtain ⟨hflight, hmem, hl2, z, hz, hbytes⟩ :=
    State.storedPiece_core (s := { s with agenda := rest, cur := none }) hm hk hag hspace hc (by omega) hy hl1 hr
  refine ⟨t, z, ht, (congrArg Core.l1 (hrest.core n x.core)).trans hz, fun i hi => ?_, hrest.flight.trans (congrArg (adel · id) hflight),
    hrest.mem.trans hmem, hrest.l2.trans hl2⟩
  rw [hbytes i hi, Piece.toNat_byteAt]
  by_cases h : y.addr % 64 ≤ i ∧ i < y.addr % 64 + y.len
  · rw [if_pos h, if_pos h, show y.addr / 64 * 64 + i - y.addr = i - y.addr % 64 by omega]
  · rw [if_neg h, if_neg h]
    rfl

/-- To local memory (R178, R189). -/
theorem store_local {tm : Team} (hspace : x.space = .loc) (htm : s.team? n m = some tm) (hp : tm.localPoison = []) (hu : tm.localUe = []) :
    ∃ t tt, step s = .next t ∧ t.team? n m = some tt ∧
      (∀ i, i < y.len → tt.localByte (y.addr + i) = BitVec.ofNat 8 (y.data / 2 ^ (8 * i))) ∧
      (∀ a, a < y.addr ∨ y.addr + y.len ≤ a → tt.localByte a = tm.localByte a) ∧ t.flight = adel s.flight id ∧ t.mem = s.mem ∧ t.l2 = s.l2 := by
  have hteam : s.team? (keyDie (agKey x.ag)) (keySlot (agKey x.ag)) = some tm := by
    rw [hag]
    simp only [agKey, keyDie_groupKey hm hk, keySlot_groupKey hm hk]
    exact htm
  have hrefetch : State.refetch { s with agenda := rest, cur := none } x y = { s with agenda := rest, cur := none } := by
    rw [State.refetch, hspace]
  obtain ⟨t, ht, hrest⟩ := step_store_single hs hx hpieces hl hag hkind hchunk hbad hacq hdone hlen hmay
    (State.meetStore_local hteam hp hu hspace)
    (by rw [hrefetch]; exact State.meetStore_local (s := { s with agenda := rest, cur := none }) hteam hp hu hspace)
  obtain ⟨hsame, tt, htt, hbytes⟩ := State.storedPiece_local (s := { s with agenda := rest, cur := none }) (x := x) (y := y) hm hk hag hspace htm
  have hflight : (State.storedPiece { s with agenda := rest, cur := none } x y).flight = s.flight := (congrArg State.flight hsame :)
  refine ⟨t, tt, ht, (hrest.team n m).trans htt, fun i hi => ?_, fun a ha => ?_, hrest.flight.trans (congrArg (adel · id) hflight),
    hrest.mem.trans (congrArg State.mem hsame :), hrest.l2.trans (congrArg State.l2 hsame :)⟩
  · rw [hbytes, if_pos (by omega), Piece.byteAt_add]
  · rw [hbytes, if_neg (by omega)]

end

end

end Sys2Proof.Machine
end

section
/-! PROOFS. Loads performed, and what a performed piece leaves of its access (R65, R178, R191, R196 to R198). -/

namespace Sys2Proof.Machine

/-! A piece settled, the last of its access or not (R65). -/

/-- The accesses in flight once piece `y` of access `x` is performed. -/
def Access.flightAfter (x : Access) (id : Nat) (y : Piece) (l : List (Nat × Access)) : List (Nat × Access) :=
  if ∀ p ∈ x.pieces, p.done = true ∨ p = y then adel l id
  else aput l id { x with pieces := x.pieces.map fun p => if p = y then { p with done := true } else p }

section
variable {x : Access} {y : Piece} {n m k e : Nat}

theorem Access.finish_one : x.finish [y] = { x with pieces := x.pieces.map fun p => if p = y then { p with done := true } else p } := by
  simp [Access.finish]

theorem State.settle_piece (u : State) (id : Nat) (hag : x.ag = .frag n m k e) (hbad : x.bad = 0#64) (hacq : x.acq = false) :
    State.groupsOnly { u with flight := x.flightAfter id y u.flight } (u.settleAccess id (x.finish [y])) ∧
      (x.cnt = none → ∀ g, u.group? (groupKey n m k) = some g → ∃ gt, (u.settleAccess id (x.finish [y])).group? (groupKey n m k) = some gt ∧
        (∀ r l, gt.rd r l = g.rd r l) ∧ (∀ r, r < x.dst ∨ x.dst + x.ndst ≤ r → gt.tag r = g.tag r) ∧
        ((∀ p ∈ x.pieces, p.done = true ∨ p = y) → ∀ j, j < x.ndst → (gt.tag (x.dst + j)).empty = false)) := by
  by_cases hall : ∀ p ∈ x.pieces, p.done = true ∨ p = y
  · have hdone : (x.finish [y]).pieces.all (·.done) = true := by rw [Access.finish_all, decide_eq_true hall]
    obtain ⟨hrest, hgroup⟩ := u.settleAccess_last id hdone (x := x.finish [y]) hag hbad hacq
    rw [Access.flightAfter, if_pos hall]
    refine ⟨hrest, fun hc g hg => ⟨_, hgroup hc g hg, fun r l => ?_, fun r hr => ?_, fun _ j hj => ?_⟩⟩
    · exact Group.modTags_rd _ _ _ _ _ _
    · refine (Group.tag_modTags _ _ _ _ _).trans (if_neg ?_)
      show ¬(x.dst ≤ r ∧ r < x.dst + x.ndst)
      omega
    · have htag : ((g.modTags x.dst (fun t => { t with empty := false }) x.ndst).tag (x.dst + j)).empty = false := by
        rw [Group.tag_modTags, if_pos (by omega)]
      exact htag
  · have hmore : (x.finish [y]).pieces.all (·.done) = false := by rw [Access.finish_all, decide_eq_false hall]
    rw [u.settleAccess_more id hmore, Access.flightAfter, if_neg hall, Access.finish_one]
    exact ⟨State.groupsOnly_refl _, fun _ g hg => ⟨g, hg, fun _ _ => rfl, fun _ _ => rfl, fun h => absurd h hall⟩⟩

/-! Loads (R65, R178, R196 to R198). -/

/-- A load's data return performs the piece that is picked, and settles its access. -/
theorem State.performLoad_alone {s u : State} {id l v : Nat} (hl : l < 64) (hag : x.ag = .frag n m k e)
    (hspace : x.space ≠ .tun) (hpick : pickPiece s.tick x.pieces l = [y]) (hp : x.pieces.Pairwise fun p q => p.meets q = false)
    (hlen : ∀ p ∈ x.pieces, 1 ≤ p.len) (hy : y ∈ x.pieces) (hmay : s.mayPerform x y = true)
    (hread : (if x.chunked then s.draw else s).readPiece x y = (u, some v)) :
    s.performLoad id x (laneBit l) = ((u.streamed x y).deliverPiece x y v).settleAccess id (x.finish [y]) := by
  have halone : (x.pieces.filter fun p => y.meets p) = [y] :=
    filter_eq_self_of_pairwise hp hlen hy (Piece.meets_self (hlen y hy)) fun p _ h => (Piece.meets_comm p y).trans h
  have hsel : (if x.chunked then [y] else closeOver x.pieces [y] 64) = [y] := by rw [closeOver_alone halone, ite_self]
  have hagain : x.again = x := by rw [Access.again, hag]
  have hpieces : (if x.chunked then s.draw else s).readPieces x [y] = ((u.streamed x y).deliverPiece x y v, x.finish [y]) := by
    unfold State.readPieces
    cases hs : x.space with
    | glob => simp only [State.loadPieces, hread]
    | loc => simp only [State.loadPieces, hread]
    | tun => exact absurd hs hspace
  have hlanes : (lanesOf (laneBit l)).flatMap (pickPiece s.tick x.pieces) = [y] := by rw [lanesOf_laneBit hl, List.flatMap_singleton]; exact hpick
  simp only [State.performLoad, hlanes, hsel, hagain, hpieces]
  simp [hmay, hag]

/-- A core's read of bytes inside a line, where no line is held and no sector is marked: those of the stack, and no byte moves. -/
theorem State.readPiece_glob {s : State} (hm : m < 2048) (hk : k < 16) (hag : x.ag = .frag n m k e) (hspace : x.space = .glob)
    (hp : s.poison = []) (hu : s.ue = []) (hl1 : (s.core n x.core).l1 = []) (hline : y.addr % 64 + y.len ≤ 64) :
    ∃ u, s.readPiece x y = (u, some (s.stackRead n y.addr y.len)) ∧ s.memoryMoved u ∧ u.mem = s.mem ∧ u.l2 = s.l2 := by
  have hdie : keyDie (agKey x.ag) = n := by rw [hag]; exact keyDie_groupKey hm hk
  obtain ⟨-, hmem, hl2, -, -⟩ := State.l1Put_line (s := s) (d := n) (c := x.core) (off := y.addr) (by rw [hl1]; simp) y.cls
  refine ⟨_, ?_, s.l1Put_moved n x.core y.addr (s.l1Line n x.core y.addr y.cls), hmem, hl2⟩
  have hval : lineRead (s.l1Line n x.core y.addr y.cls) (y.addr % 64) y.len = s.stackRead n y.addr y.len := by
    rw [State.l1Line, hl1]
    refine (lineRead_fetched s n _ _ _ _ _ hline).trans ?_
    rw [Nat.div_add_mod']
  simp only [State.readPiece, hspace, hdie, State.l1Refetch_empty hl1, State.meetStack_clean hp hu hl1, State.coreRead, hval]

theorem State.readPiece_local {s : State} {t : Team} (hm : m < 2048) (hk : k < 16) (hag : x.ag = .frag n m k e) (hspace : x.space = .loc)
    (ht : s.team? n m = some t) (hp : t.localPoison = []) (hu : t.localUe = []) :
    s.readPiece x y = (s, some (t.localRead y.addr y.len)) := by
  have hdie : keyDie (agKey x.ag) = n := by rw [hag]; exact keyDie_groupKey hm hk
  have hslot : keySlot (agKey x.ag) = m := by rw [hag]; exact keySlot_groupKey hm hk
  have hmeet : t.meetLocal y.addr = .clean := by simp [Team.meetLocal, hp, hu]
  simp only [State.readPiece, hspace, hdie, hslot, State.localGet, ht, hmeet]

/-! The registers of a load (R62, R65, R191, R198). -/

/-- The lanes that receive a piece's value: of an LDU, every active one (R198). -/
def Access.lanesFor (x : Access) (y : Piece) : Mask := if x.uniform then x.act else laneBit y.lane

theorem getElem?_wordsOf {len v j : Nat} (h : j < (len + 3) / 4) : (wordsOf len v)[j]? = some (BitVec.ofNat 32 (v / 2 ^ (32 * j))) := by
  simp [wordsOf, List.getElem?_map, List.getElem?_range h]

theorem length_wordsOf_val (len v : Nat) : (wordsOf len v).length = (len + 3) / 4 := by simp [wordsOf]

theorem State.deliverPiece_became {u : State} {g : Group} (hag : x.ag = .frag n m k e) (hg : u.group? (groupKey n m k) = some g)
    (hnd : x.ndst ≠ 0) (hd : x.dst + x.ndst ≤ 256) (hr : y.reg < x.ndst) (hl : y.lane < 64) (v : Nat) :
    u.became (u.deliverPiece x y v) (groupKey n m k) (g.setRegs (laneWrites (x.dst + y.reg) (x.lanesFor y) fun _ => wordsOf y.len v)) := by
  have hlanes : (if 256 ≤ x.dst then (if x.uniform || y.lane = lowLane x.act then [y.lane] else [])
      else if x.uniform then lanesOf x.act else [y.lane]) = lanesOf (x.lanesFor y) := by
    rw [if_neg (by omega), Access.lanesFor]
    split
    · rfl
    · rw [lanesOf_laneBit hl]
  have hwrites : laneWrites (x.dst + y.reg) (x.lanesFor y) (fun _ => wordsOf y.len v) =
      (lanesOf (x.lanesFor y)).flatMap fun l => wordsAt (x.dst + y.reg) l (wordsOf y.len v) := by
    rw [laneWrites, if_neg (by omega)]
  have heq : u.deliverPiece x y v = (laneWrites (x.dst + y.reg) (x.lanesFor y) fun _ => wordsOf y.len v).foldl
      (fun s w => s.wrReg (.frag n m k e) w.1 w.2.1 w.2.2) u := by
    rw [hwrites, List.foldl_flatMap, State.deliverPiece, if_neg hnd]
    simp only [hlanes, hag]
    exact congrArg (fun p => List.foldl p u (lanesOf (x.lanesFor y)))
      (funext fun s => funext fun l => s.wrWords_eq (.frag n m k e) l (wordsOf y.len v) (x.dst + y.reg))
  rw [heq]
  exact (State.became_refl hg).setRegs _

end

/-- No other register changes, nor does any in a lane that receives nothing. -/
theorem Group.rd_laneWrites_none (g : Group) {d nd r l : Nat} {act : Mask} {w : Nat → List Word} (hlen : ∀ l, (w l).length = nd)
    (hd : d + nd ≤ 256) (hl : l < 64) (h : act.getLsbD l = false ∨ r < d ∨ d + nd ≤ r) :
    (g.setRegs (laneWrites d act w)).rd r l = g.rd r l := by
  by_cases hact : act = 0#64
  · have hnil : laneWrites d act w = [] := by simp [laneWrites, hact, lanesOf]
    rw [hnil]
    rfl
  · refine Group.rd_laneWrites_other hact hlen g hl ?_
    by_cases hr : d ≤ r ∧ r < d + nd
    · exact .inr ⟨by omega, h.resolve_right (by omega)⟩
    · exact .inl hr

theorem Group.tag_laneWrites_none (g : Group) {d nd r : Nat} {act : Mask} {w : Nat → List Word} (hlen : ∀ l, (w l).length = nd)
    (h : r < d ∨ d + nd ≤ r) : (g.setRegs (laneWrites d act w)).tag r = g.tag r := by
  have hnone : ∀ z ∈ laneWrites d act w, z.1 ≠ r := fun z hz hzr => by
    by_cases hact : act = 0#64
    · simp [laneWrites, hact, lanesOf] at hz
    · have := reg_of_mem_laneWrites hact hlen hz
      omega
  rw [Group.tag_setRegs, marksCleared_of_not hnone, RegTag.clean_zero]

section
variable {s : State} {x : Access} {y : Piece} {gr : Group} {id n m k e l v : Nat}

/-- A load's data return, for the piece that is picked: its value is in the destination in the lanes that receive it, no other register
changes, and where it was the last piece the destinations are FULL (R65, R178). -/
theorem load_returns {u : State} (hx : aget s.flight id = some x) (hkind : x.kind = .load) (hl : l < 64) (hyl : y.lane = l)
    (hag : x.ag = .frag n m k e) (hspace : x.space ≠ .tun) (hbad : x.bad = 0#64) (hacq : x.acq = false) (hcnt : x.cnt = none)
    (hpick : pickPiece s.tick x.pieces l = [y]) (hp : x.pieces.Pairwise fun p q => p.meets q = false) (hlen : ∀ p ∈ x.pieces, 1 ≤ p.len)
    (hy : y ∈ x.pieces) (hmay : s.mayPerform x y = true) (hread : (if x.chunked then s.draw else s).readPiece x y = (u, some v))
    (hmoved : (if x.chunked then s.draw else s).memoryMoved u) (hmem : u.mem = s.mem) (hl2 : u.l2 = s.l2)
    (hg : s.group? (groupKey n m k) = some gr) (hd : x.dst + x.ndst ≤ 256) (hr : y.reg + (y.len + 3) / 4 ≤ x.ndst) :
    ∃ t gt, exec (.loadDataReturn id (laneBit l)) s = .next t ∧ t.group? (groupKey n m k) = some gt ∧
      t.flight = x.flightAfter id y s.flight ∧ t.mem = s.mem ∧ t.l2 = s.l2 ∧
      (∀ j i, j < (y.len + 3) / 4 → (x.lanesFor y).getLsbD i = true → gt.rd (x.dst + y.reg + j) i = BitVec.ofNat 32 (v / 2 ^ (32 * j))) ∧
      (∀ r i, i < 64 → ((x.lanesFor y).getLsbD i = false ∨ r < x.dst + y.reg ∨ x.dst + y.reg + (y.len + 3) / 4 ≤ r) → gt.rd r i = gr.rd r i) ∧
      (∀ r, r < x.dst ∨ x.dst + x.ndst ≤ r → gt.tag r = gr.tag r) ∧
      ((∀ p ∈ x.pieces, p.done = true ∨ p = y) → ∀ j, j < x.ndst → (gt.tag (x.dst + j)).empty = false) := by
  have hpos := hlen y hy
  have hwords : ∀ l : Nat, ((fun _ => wordsOf y.len v) l).length = (y.len + 3) / 4 := fun _ => length_wordsOf_val _ _
  have hexec : exec (.loadDataReturn id (laneBit l)) s = .next (s.performLoad id x (laneBit l)) := by
    simp only [exec, execLoadDataReturn, hx, hkind, if_true]
  obtain ⟨hsmoved, hsmem, hsl2⟩ := State.streamed_moved u x y
  have hgu : (u.streamed x y).group? (groupKey n m k) = some gr := by
    have hgroups : (u.streamed x y).groups = s.groups :=
      hsmoved.groups.trans (hmoved.groups.trans (by split <;> rfl))
    rw [State.group?, hgroups]
    exact hg
  have hflight : (u.streamed x y).flight = s.flight := hsmoved.flight.trans (hmoved.flight.trans (by split <;> rfl))
  have hbecame := State.deliverPiece_became (u := u.streamed x y) hag hgu (by omega) hd (by omega) (hyl ▸ hl) v
  obtain ⟨-, -, -, hdmem, hdl2⟩ := hbecame.rest
  have hdflight : ((u.streamed x y).deliverPiece x y v).flight = s.flight := (congrArg State.flight hbecame.2 :).trans hflight
  obtain ⟨hrest, hgroup⟩ := State.settle_piece ((u.streamed x y).deliverPiece x y v) id (y := y) hag hbad hacq
  obtain ⟨gt, hgt, hrd, htag, hfull⟩ := hgroup hcnt _ hbecame.1
  refine ⟨_, gt, hexec.trans (congrArg Host.Outcome.next (State.performLoad_alone hl hag hspace hpick hp hlen hy hmay hread)), hgt,
    hrest.flight.trans (congrArg (x.flightAfter id y) hdflight), hrest.mem.trans (hdmem.trans (hsmem.trans hmem)),
    hrest.l2.trans (hdl2.trans (hsl2.trans hl2)), fun j i hj hi => ?_, fun r i hi h => ?_, fun r h => ?_, hfull⟩
  · have hact : x.lanesFor y ≠ 0#64 := fun h0 => by rw [h0] at hi; simp at hi
    rw [hrd, Group.rd_laneWrites_active hact hwords gr (by omega) (by omega) hi, Nat.add_sub_cancel_left, getElem?_wordsOf hj]
    rfl
  · rw [hrd, Group.rd_laneWrites_none gr hwords (by omega) hi h]
  · rw [htag r h, Group.tag_laneWrites_none gr hwords (by omega)]

end

/-- Settles O29: a piece that no other meets is performed alone; what a store leaves is `State.storedPiece`, and a load's value reaches its
lanes by `load_returns`. -/
theorem storesAndLoadsArePerformed : Obligations.StoresAndLoadsArePerformed := by
  unfold Obligations.StoresAndLoadsArePerformed
  refine ⟨?_, ?_, ?_⟩
  · intro s rest id x y n m k e tm hs hx hpieces hl hfields hn hm hk hdone hlen hp hu hmay
    simp only [Prod.mk.injEq] at hfields
    obtain ⟨hag, hkind, hchunk, hbad, hnd, hacq⟩ := hfields
    refine ⟨fun hspace hc hy => ?_, fun hspace hc hy hl1 hr => ?_, fun hspace htm hlp hlu => ?_⟩
    · exact store_home hs hx hpieces hl hag hkind hchunk hbad hacq hm hk hdone hlen hmay hp hu hspace hc hy
    · exact store_core hs hx hpieces hl hag hkind hchunk hbad hacq hm hk hdone hlen hmay hp hu hspace hc hy hl1 hr
    · exact store_local hs hx hpieces hl hag hkind hchunk hbad hacq hm hk hdone hlen hmay hspace htm hlp hlu
  · intro s id x y n m k e gr tm ag hx hpieces hl hg hfields hn hm hk hdone hreg hlens halign hnd hd hp hu hl1 hmay returns
    simp only [Prod.mk.injEq] at hfields
    obtain ⟨hag, hkind, hchunk, hbad, hacq, hcnt⟩ := hfields
    have hline : 1 ≤ y.len ∧ y.addr % 64 + y.len ≤ 64 := by
      simp only [List.mem_cons, List.not_mem_nil, or_false] at hlens
      rcases hlens with h | h | h | h | h <;> rw [h] at halign ⊢ <;> omega
    have hy : y ∈ x.pieces := by rw [hpieces]; exact List.mem_singleton.mpr rfl
    have hall : ∀ p ∈ x.pieces, p.done = true ∨ p = y := by simp [hpieces]
    have hret : ∀ (v : Nat) (lanes : Nat → Prop) {u : State}, x.space ≠ .tun → s.readPiece x y = (u, some v) → s.memoryMoved u →
        u.mem = s.mem → u.l2 = s.l2 → (∀ i, i < 64 → ((x.lanesFor y).getLsbD i = true ↔ lanes i)) → returns v lanes := by
      intro v lanes u hspace hread hmoved hmem hl2 hlanes
      obtain ⟨t, gt, hex, hgt, hflight, hm', hl2', hval, hother, htag, hfull⟩ := load_returns (v := v) hx hkind hl rfl hag hspace hbad hacq hcnt
        (by rw [hpieces]; exact pickPiece_single _ hdone) (by rw [hpieces]; exact List.pairwise_singleton _ _)
        (by simpa [hpieces] using hline.1) hy hmay (by rw [hchunk]; exact hread) (by rw [hchunk]; exact hmoved) hmem hl2 hg hd (by omega)
      rw [hreg, Nat.add_zero] at hval hother
      refine ⟨t, gt, hex, hgt, fun j hj => ⟨hfull hall j hj, fun i hi hli => hval j i (hnd ▸ hj) ((hlanes i hi).mpr hli)⟩,
        fun r i hi h => hother r i hi ?_, htag, hflight.trans (if_pos hall), hm', hl2'⟩
      rw [← hnd]
      exact h.imp_left fun h => Bool.eq_false_iff.mpr fun hb => h ((hlanes i hi).mp hb)
    have hone : x.uniform = false → ∀ i, i < 64 → ((x.lanesFor y).getLsbD i = true ↔ i = y.lane) := fun hun i hi => by
      rw [Access.lanesFor, hun, if_neg Bool.false_ne_true, getLsbD_laneBit]
      simp [hi]
    refine ⟨fun hspace hun => ?_, fun hspace hun => ?_, fun hspace hun htm hlp hlu => ?_⟩
    · obtain ⟨u, hread, hmoved, hmem, hl2⟩ := State.readPiece_glob hm hk hag hspace hp hu hl1 hline.2
      exact hret _ _ (by rw [hspace]; decide) hread hmoved hmem hl2 (hone hun)
    · obtain ⟨u, hread, hmoved, hmem, hl2⟩ := State.readPiece_glob hm hk hag hspace hp hu hl1 hline.2
      exact hret _ _ (by rw [hspace]; decide) hread hmoved hmem hl2 fun i _ => by rw [Access.lanesFor, if_pos hun]
    · exact hret _ _ (by rw [hspace]; decide) (State.readPiece_local hm hk hag hspace htm hlp hlu) s.memoryMoved_refl rfl rfl (hone hun)
  · intro s id x l n m k e gr ag hx hl hg hn hm hk hfields hp hu hpair hplaces hmays hex now
    simp only [Prod.mk.injEq] at hfields
    obtain ⟨hag, hspace, hchunk, hbad, hacq, hun, hcnt⟩ := hfields
    have hlens : ∀ p ∈ x.pieces, 1 ≤ p.len ∧ p.len ≤ 4 ∧ p.addr % 64 + p.len ≤ 64 := fun p hp => by
      obtain ⟨hlen, halign, -⟩ := hplaces p hp
      simp only [List.mem_cons, List.not_mem_nil, or_false] at hlen
      rcases hlen with h | h | h <;> rw [h] at halign ⊢ <;> omega
    have hpos : ∀ p ∈ x.pieces, 1 ≤ p.len := fun p hp => (hlens p hp).1
    obtain ⟨y, hpick, hy, hyl, hdone⟩ := pickPiece_one s.tick hex
    have hmay := hmays y hy hyl hdone
    have htop := (hplaces y hy).2.2
    refine ⟨fun rest hs hkn hcls => ?_, fun hkind hl1 hd hregs => ?_⟩
    · simp only [Prod.mk.injEq] at hkn
      obtain ⟨-, -, -, hp', hu'⟩ := State.l1Refetch_kept { s with agenda := rest, cur := none } (keyDie (agKey x.ag)) x.core y.addr
      have hclean : ∀ q ∈ y :: x.stands y, (State.refetch { s with agenda := rest, cur := none } x y).meetStore x q = .clean := fun q hq => by
        have hqx : q ∈ x.pieces := by
          rcases List.mem_cons.mp hq with rfl | hq
          · exact hy
          · unfold Access.stands at hq
            split at hq
            · exact List.mem_of_mem_filter hq
            · rw [List.mem_singleton.mp hq]; exact hy
        rw [State.refetch, hspace]
        exact State.meetStore_home (hp'.trans hp) (hu'.trans hu) hspace (hcls q hqx)
      have hstep := step_store hs hl hx hkn.1 hag hpick hpair hpos hy hdone (State.meetStore_home hp hu hspace (hcls y hy)) hclean hmay
      obtain ⟨hflight, hbytes⟩ := State.storedPiece_home (s := { s with agenda := rest, cur := none }) hm hk hag hspace (hcls y hy) htop
      obtain ⟨hrest, -⟩ := State.settle_piece (State.storedPiece { s with agenda := rest, cur := none } x y) id (y := y) hag hbad hacq
      refine ⟨_, y, hstep, ⟨hy, hyl, hdone, hrest.flight.trans (congrArg (x.flightAfter id y) hflight)⟩, fun d a ha hd => ?_, fun i hi => ?_⟩
      · refine (hrest.stackByte d a).trans ((hbytes d a ha).trans ?_)
        rw [if_neg (fun h => by have := hd h.1; omega)]
        rfl
      · refine (hrest.stackByte n (y.addr + i)).trans ((hbytes n _ (by omega)).trans ?_)
        rw [if_pos ⟨rfl, by omega, by omega⟩, Piece.byteAt_add]
    · obtain ⟨hlo, hhi, hline⟩ := hlens y hy
      obtain ⟨u, hread, hmoved, hmem, hl2⟩ := State.readPiece_glob (s := s.draw) hm hk hag hspace hp hu hl1 hline
      have hreg := hregs y hy
      have hwords : (y.len + 3) / 4 = 1 := by omega
      obtain ⟨t, gt, hexec, hgt, hflight, hm', hl2', hval, hother, -, hfull⟩ := load_returns (u := u) (v := s.stackRead n y.addr y.len) hx hkind hl hyl
        hag (by rw [hspace]; decide) hbad hacq hcnt hpick hpair hpos hy hmay (by rw [hchunk]; exact hread) (by rw [hchunk]; exact hmoved) hmem hl2 hg hd
        (by omega)
      have hlanes : ∀ i, i < 64 → ((x.lanesFor y).getLsbD i = true ↔ i = l) := fun i hi => by
        rw [Access.lanesFor, hun, if_neg Bool.false_ne_true, getLsbD_laneBit, hyl]
        simp [hi]
      refine ⟨t, y, gt, hexec, ⟨hy, hyl, hdone, hflight⟩, hgt, ?_, fun r i hi h => hother r i hi ?_, hfull, hm', hl2'⟩
      · have h := hval 0 l (by omega) ((hlanes l hl).mpr rfl)
        rw [Nat.mul_zero, pow_zero, Nat.div_one, Nat.add_zero] at h
        exact h
      · rw [hwords]
        rcases h with h | h
        · exact .inl (Bool.eq_false_iff.mpr fun hb => h ((hlanes i hi).mp hb))
        · exact .inr (by omega)

end Sys2Proof.Machine
end

section
/-! PROOFS. The values of floating elements (R94, R95), in the order of their magnitudes. -/

namespace Sys2Proof.Machine

/-! Powers of two. -/

/-- The binade of a number given by a natural number and an exponent. -/
theorem intLog_mul_zpow {m : Nat} (hm : m ≠ 0) (e : ℤ) : Int.log 2 ((m : ℚ) * 2 ^ e) = Nat.log2 m + e := by
  have hm0 : (0 : ℚ) < m := by exact_mod_cast Nat.pos_of_ne_zero hm
  have hpos : (0 : ℚ) < (m : ℚ) * 2 ^ e := mul_pos hm0 (by positivity)
  have hlo : ((2 : ℕ) : ℚ) ^ ((Nat.log2 m : ℤ) + e) ≤ (m : ℚ) * 2 ^ e := by
    rw [zpow_add₀ (by norm_num), zpow_natCast]
    have : ((2 : ℕ) : ℚ) ^ Nat.log2 m ≤ m := by exact_mod_cast Nat.log2_self_le hm
    exact mul_le_mul_of_nonneg_right this (by positivity)
  have hhi : (m : ℚ) * 2 ^ e < ((2 : ℕ) : ℚ) ^ ((Nat.log2 m : ℤ) + e + 1) := by
    rw [show (Nat.log2 m : ℤ) + e + 1 = ((Nat.log2 m + 1 : ℕ) : ℤ) + e by push_cast; ring, zpow_add₀ (by norm_num), zpow_natCast]
    have : (m : ℚ) < ((2 : ℕ) : ℚ) ^ (Nat.log2 m + 1) := by exact_mod_cast Nat.lt_log2_self
    exact mul_lt_mul_of_pos_right this (by positivity)
  have h1 := (Int.zpow_le_iff_le_log (by norm_num) hpos).mp hlo
  have h2 := (Int.lt_zpow_iff_log_lt (by norm_num) hpos).mp hhi
  omega

/-! The value of a magnitude: exponent and fraction fields without the sign (R94). -/

/-- The value of a magnitude, of any size. -/
def FFmt.magVal (f : FFmt) (x : Nat) : ℚ :=
  if x / 2 ^ f.mb = 0 then (x % 2 ^ f.mb : Nat) * 2 ^ f.qmin
  else (2 ^ f.mb + x % 2 ^ f.mb : Nat) * 2 ^ (((x / 2 ^ f.mb : Nat) : ℤ) - 1 + f.qmin)

section
variable (f : FFmt)

theorem FFmt.magVal_subnormal {n : Nat} (h : n < 2 ^ f.mb) : f.magVal n = n * 2 ^ f.qmin := by
  rw [FFmt.magVal, if_pos (Nat.div_eq_of_lt h), Nat.mod_eq_of_lt h]

theorem FFmt.magVal_binade (i : Nat) {r : Nat} (h : r < 2 ^ f.mb) :
    f.magVal (i * 2 ^ f.mb + (2 ^ f.mb + r)) = (2 ^ f.mb + r : Nat) * 2 ^ ((i : ℤ) + f.qmin) := by
  have hx : i * 2 ^ f.mb + (2 ^ f.mb + r) = r + 2 ^ f.mb * (i + 1) := by ring
  have hdiv : (r + 2 ^ f.mb * (i + 1)) / 2 ^ f.mb = i + 1 := by
    rw [Nat.add_mul_div_left _ _ (Nat.two_pow_pos _), Nat.div_eq_of_lt h, Nat.zero_add]
  have hmod : (r + 2 ^ f.mb * (i + 1)) % 2 ^ f.mb = r := by rw [Nat.add_mul_mod_self_left, Nat.mod_eq_of_lt h]
  rw [hx, FFmt.magVal, hdiv, hmod, if_neg (Nat.succ_ne_zero i), Nat.cast_succ, add_sub_cancel_right]

/-- `n` quanta of the spacing `i` binades above the smallest. -/
theorem FFmt.magVal_add {n : Nat} (i : Nat) (hn : n ≤ 2 ^ (f.mb + 1)) (h : i = 0 ∨ 2 ^ f.mb ≤ n) :
    f.magVal (i * 2 ^ f.mb + n) = n * 2 ^ ((i : ℤ) + f.qmin) := by
  rw [Nat.pow_succ] at hn
  by_cases hsmall : n < 2 ^ f.mb
  · obtain rfl : i = 0 := h.resolve_right (by omega)
    rw [Nat.zero_mul, Nat.zero_add, f.magVal_subnormal hsmall, Nat.cast_zero, zero_add]
  · obtain ⟨r, rfl⟩ := Nat.exists_eq_add_of_le (Nat.le_of_not_lt hsmall)
    by_cases hr : r < 2 ^ f.mb
    · exact f.magVal_binade i hr
    · -- the next binade begins
      obtain rfl : r = 2 ^ f.mb := by omega
      have h := f.magVal_binade (i + 1) (r := 0) (Nat.two_pow_pos _)
      rw [show i * 2 ^ f.mb + (2 ^ f.mb + 2 ^ f.mb) = (i + 1) * 2 ^ f.mb + (2 ^ f.mb + 0) by ring, h, Nat.add_zero,
        show ((i + 1 : Nat) : ℤ) + f.qmin = 1 + (i + f.qmin) by push_cast; ring, zpow_add₀ (by norm_num), zpow_one]
      push_cast
      ring

/-- Greater magnitudes have greater values. -/
theorem FFmt.magVal_strictMono : StrictMono f.magVal := by
  refine strictMono_nat_of_lt_succ fun x => ?_
  obtain ⟨i, n, rfl, hn, h⟩ : ∃ i n, x = i * 2 ^ f.mb + n ∧ n < 2 ^ (f.mb + 1) ∧ (i = 0 ∨ 2 ^ f.mb ≤ n) := by
    have hmod := Nat.mod_lt x (Nat.two_pow_pos f.mb)
    have hdiv := Nat.div_add_mod' x (2 ^ f.mb)
    rw [Nat.pow_succ]
    cases hE : x / 2 ^ f.mb with
    | zero =>
      rw [hE] at hdiv
      exact ⟨0, x % 2 ^ f.mb, hdiv.symm, by omega, .inl rfl⟩
    | succ i =>
      rw [hE, Nat.succ_mul] at hdiv
      exact ⟨i, 2 ^ f.mb + x % 2 ^ f.mb, by omega, by omega, .inr (by omega)⟩
  rw [Nat.add_assoc, f.magVal_add i hn.le h, f.magVal_add i hn (h.imp_right fun h => by omega)]
  have hpos : (0 : ℚ) < 2 ^ ((i : ℤ) + f.qmin) := by positivity
  push_cast
  linarith [mul_lt_mul_of_pos_right (lt_add_one (n : ℚ)) hpos]

theorem FFmt.magVal_zero : f.magVal 0 = 0 := by rw [f.magVal_subnormal (Nat.two_pow_pos _), Nat.cast_zero, zero_mul]

theorem FFmt.magVal_nonneg (x : Nat) : 0 ≤ f.magVal x := f.magVal_zero ▸ f.magVal_strictMono.monotone (Nat.zero_le x)

theorem FFmt.qmin_eq : f.qmin = 2 - 2 ^ (f.eb - 1) - f.mb := by
  rw [FFmt.qmin, FFmt.bias]
  ring

/-- The smallest normal number. -/
theorem FFmt.magVal_normal : f.magVal (2 ^ f.mb) = 2 ^ (2 - 2 ^ (f.eb - 1) : ℤ) := by
  have h := f.magVal_binade 0 (r := 0) (Nat.two_pow_pos _)
  rw [Nat.zero_mul, Nat.zero_add, Nat.add_zero] at h
  rw [h, f.qmin_eq]
  push_cast
  rw [← zpow_natCast, ← zpow_add₀ (by norm_num)]
  congr 1
  ring

/-! Finite elements (R94, R95). -/

/-- The magnitude of an element: its bits without the sign. -/
def FFmt.magOf (f : FFmt) (x : Nat) : Nat := x % 2 ^ (f.eb + f.mb)

theorem FFmt.maxMag_lt (hmb : 1 ≤ f.mb) : f.maxMag < 2 ^ (f.eb + f.mb) := by
  have hpos := Nat.two_pow_pos f.mb
  have heb := Nat.two_pow_pos f.eb
  have h2 : 2 ≤ 2 ^ f.mb := Nat.le_self_pow (by omega) 2
  have hmul : (2 ^ f.eb - 1) * 2 ^ f.mb + 2 ^ f.mb = 2 ^ f.eb * 2 ^ f.mb := by
    rw [← Nat.succ_mul, Nat.succ_eq_add_one, Nat.sub_add_cancel heb]
  rw [FFmt.maxMag, FFmt.emax, Nat.pow_add]
  split <;> omega

/-- The fields of an element in its magnitude. -/
theorem FFmt.fields (x : Nat) : f.magOf x / 2 ^ f.mb = x / 2 ^ f.mb % 2 ^ f.eb ∧ f.magOf x % 2 ^ f.mb = x % 2 ^ f.mb := by
  rw [FFmt.magOf, Nat.add_comm f.eb f.mb, Nat.pow_add]
  exact ⟨Nat.mod_mul_right_div_self _ _ _, Nat.mod_mul_right_mod _ _ _⟩

/-- An element is finite up to the largest finite magnitude, and its value is that of its magnitude with its sign. -/
theorem finiteValue_eq (hmb : 1 ≤ f.mb) (heb : 1 ≤ f.eb) (x : Nat) : finiteValue f x = if f.maxMag < f.magOf x then none
    else some ((if x.testBit (f.eb + f.mb) then -1 else 1) * f.magVal (f.magOf x)) := by
  obtain ⟨hE, hm⟩ := f.fields x
  have hmod := Nat.mod_lt x (Nat.two_pow_pos f.mb)
  have hElt := Nat.mod_lt (x / 2 ^ f.mb) (Nat.two_pow_pos f.eb)
  have h2 : 2 ≤ 2 ^ f.mb := Nat.le_self_pow (by omega) 2
  have hmag : f.magOf x = x / 2 ^ f.mb % 2 ^ f.eb * 2 ^ f.mb + x % 2 ^ f.mb := by rw [← hE, ← hm, Nat.div_add_mod']
  have hbeyond : (x / 2 ^ f.mb % 2 ^ f.eb = 2 ^ f.eb - 1 ∧ (f.noInf = true → x % 2 ^ f.mb = 2 ^ f.mb - 1)) ↔ f.maxMag < f.magOf x := by
    rw [hmag, FFmt.maxMag, FFmt.emax]
    have h2e : 2 ≤ 2 ^ f.eb := Nat.le_self_pow (by omega) 2
    rcases Nat.lt_or_ge (x / 2 ^ f.mb % 2 ^ f.eb) (2 ^ f.eb - 1) with hlt | hge
    · -- the exponent field is below all ones
      have hle := Nat.mul_le_mul_right (2 ^ f.mb) (Nat.succ_le_of_lt hlt)
      rw [Nat.succ_mul] at hle
      refine iff_of_false (fun h => by omega) ?_
      split <;> omega
    · have hE : x / 2 ^ f.mb % 2 ^ f.eb = 2 ^ f.eb - 1 := by omega
      have hone := Nat.mul_le_mul_right (2 ^ f.mb) (show 1 ≤ 2 ^ f.eb - 1 by omega)
      rw [hE, and_iff_right rfl]
      split
      · next h => exact ⟨fun hm => by have := hm h; omega, fun hlt _ => by omega⟩
      · next h => exact iff_of_true (fun h' => absurd h' h) (by omega)
  unfold finiteValue
  dsimp only
  rw [if_congr hbeyond rfl rfl]
  refine if_congr Iff.rfl rfl ?_
  rw [FFmt.magVal, hE, hm, FFmt.qmin, FFmt.bias]
  split
  · rw [mul_assoc]
  · rw [mul_assoc, show ((x / 2 ^ f.mb % 2 ^ f.eb : Nat) : ℤ) - 1 + (1 - (2 ^ (f.eb - 1) - 1) - f.mb) =
      ((x / 2 ^ f.mb % 2 ^ f.eb : Nat) : ℤ) - (2 ^ (f.eb - 1) - 1) - f.mb by ring]

/-! An element with its sign (R94). -/

theorem signBit_add {neg : Bool} {mag : Nat} (h : mag < 2 ^ (f.eb + f.mb)) : f.magOf (f.signBit neg + mag) = mag ∧
    (f.signBit neg + mag).testBit (f.eb + f.mb) = neg ∧ (f.signBit neg + mag) / 2 ^ (f.eb + f.mb) = if neg then 1 else 0 := by
  have hdiv : (f.signBit neg + mag) / 2 ^ (f.eb + f.mb) = if neg then 1 else 0 := by
    cases neg with
    | false => rw [FFmt.signBit, if_neg Bool.false_ne_true, Nat.zero_add, Nat.div_eq_of_lt h]; rfl
    | true => rw [FFmt.signBit, if_pos rfl, Nat.add_div_left _ (Nat.two_pow_pos _), Nat.div_eq_of_lt h]; rfl
  refine ⟨?_, ?_, hdiv⟩
  · cases neg with
    | false => rw [FFmt.signBit, if_neg Bool.false_ne_true, Nat.zero_add, FFmt.magOf, Nat.mod_eq_of_lt h]
    | true => rw [FFmt.signBit, if_pos rfl, FFmt.magOf, Nat.add_mod_left, Nat.mod_eq_of_lt h]
  · rw [Nat.testBit_eq_decide_div_mod_eq, hdiv]
    cases neg <;> rfl

/-- The value of a finite magnitude with a sign. -/
theorem finiteValue_signBit_add (hmb : 1 ≤ f.mb) (heb : 1 ≤ f.eb) {neg : Bool} {mag : Nat} (h : mag ≤ f.maxMag) :
    finiteValue f (f.signBit neg + mag) = some ((if neg then -1 else 1) * f.magVal mag) := by
  obtain ⟨hmag, hsign, -⟩ := signBit_add f (neg := neg) (h.trans_lt (f.maxMag_lt hmb))
  rw [finiteValue_eq f hmb heb, hmag, hsign, if_neg (Nat.not_lt.mpr h)]

/-- A number is beyond the finite values where it is beyond the largest. -/
theorem beyond_iff (hmb : 1 ≤ f.mb) (heb : 1 ≤ f.eb) (v : ℚ) : (∀ x w, finiteValue f x = some w → |w| < v) ↔ f.magVal f.maxMag < v := by
  have habs : ∀ (b : Bool) (y : Nat), |(if b then -1 else 1) * f.magVal y| = f.magVal y := fun b y => by
    have := abs_of_nonneg (f.magVal_nonneg y)
    cases b <;> simp [this]
  constructor
  · intro h
    have hx := h _ _ (finiteValue_signBit_add f hmb heb (neg := false) le_rfl)
    rwa [habs] at hx
  · intro h x w hw
    rw [finiteValue_eq f hmb heb] at hw
    split at hw
    · cases hw
    · next hle =>
      rw [← Option.some.inj hw, habs]
      exact (f.magVal_strictMono.monotone (Nat.le_of_not_lt hle)).trans_lt h

/-! The exact value of an element (R94). -/

/-- A finite element unpacked: sign, significand and exponent, the exponent being that of its spacing. -/
theorem unpack_of_finite {x : Nat} {p : ℚ} (h : finiteValue f x = some p) : ∃ m e, f.unpack x = .fin (x.testBit (f.eb + f.mb)) m e ∧
    p = (if x.testBit (f.eb + f.mb) then -1 else 1) * (m * 2 ^ e) ∧ m < 2 ^ (f.mb + 1) ∧
    (e = f.qmin ∨ f.qmin ≤ e ∧ 2 ^ f.mb ≤ m) := by
  have hmod := Nat.mod_lt x (Nat.two_pow_pos f.mb)
  have hneg : (x / 2 ^ (f.eb + f.mb) % 2 == 1) = x.testBit (f.eb + f.mb) := by rw [Nat.testBit_eq_decide_div_mod_eq]; rfl
  unfold finiteValue at h
  dsimp only at h
  split at h
  · cases h
  · next hfin =>
    have hnan : (f.noInf && x / 2 ^ f.mb % 2 ^ f.eb == f.emax && x % 2 ^ f.mb == 2 ^ f.mb - 1) = false := by
      rw [Bool.eq_false_iff]
      intro hc
      simp only [Bool.and_eq_true, beq_iff_eq] at hc
      exact hfin ⟨hc.1.2, fun _ => hc.2⟩
    have hinf : (!f.noInf && x / 2 ^ f.mb % 2 ^ f.eb == f.emax) = false := by
      rw [Bool.eq_false_iff]
      intro hc
      simp only [Bool.and_eq_true, beq_iff_eq, Bool.not_eq_true'] at hc
      exact hfin ⟨hc.2, fun hn => by rw [hc.1] at hn; cases hn⟩
    unfold FFmt.unpack
    dsimp only
    rw [hnan, hinf, hneg, if_neg Bool.false_ne_true, if_neg Bool.false_ne_true, Nat.pow_succ]
    split at h
    · next h0 =>
      refine ⟨_, _, if_pos h0, ?_, by omega, .inl rfl⟩
      rw [← Option.some.inj h, FFmt.qmin, FFmt.bias, mul_assoc]
    · next h0 =>
      refine ⟨_, _, if_neg h0, ?_, by omega, .inr ⟨?_, by omega⟩⟩
      · rw [← Option.some.inj h, FFmt.bias, mul_assoc]
      · rw [FFmt.qmin]
        have : (1 : ℤ) ≤ ((x / 2 ^ f.mb % 2 ^ f.eb : Nat) : ℤ) := by exact_mod_cast Nat.pos_of_ne_zero h0
        omega

/-- The spacing at a number (R113). -/
theorem spacingExp_eq {m : Nat} (hm : m ≠ 0) (neg : Bool) (e : ℤ) :
    spacingExp f ((if neg then -1 else 1) * (m * 2 ^ e)) = f.quantum m e := by
  have habs : |(if neg then -1 else 1) * ((m : ℚ) * 2 ^ e)| = m * 2 ^ e := by
    have h : |(m : ℚ) * 2 ^ e| = m * 2 ^ e := abs_of_nonneg (by positivity)
    cases neg <;> simp [h]
  rw [spacingExp, habs, intLog_mul_zpow hm, FFmt.quantum, f.qmin_eq, bitLen, if_neg hm]
  congr 1
  push_cast
  ring

/-- The exponent that an element is unpacked with is that of its spacing. -/
theorem quantum_of_unpacked {m : Nat} {e : ℤ} (hm : m ≠ 0) (hlt : m < 2 ^ (f.mb + 1)) (h : e = f.qmin ∨ f.qmin ≤ e ∧ 2 ^ f.mb ≤ m) :
    f.quantum m e = e := by
  rw [FFmt.quantum, bitLen, if_neg hm]
  have hlog : Nat.log2 m < f.mb + 1 := (Nat.log2_lt hm).mpr hlt
  rcases h with rfl | ⟨hq, hge⟩
  · omega
  · have : f.mb ≤ Nat.log2 m := (Nat.le_log2 hm).mpr hge
    omega

/-! Quanta of a spacing as an element's magnitude (R105). -/

/-- `n` quanta of 2^q, encoded. -/
theorem magVal_encode {n : Nat} {q : ℤ} (hq : f.qmin ≤ q) (hn : n ≤ 2 ^ (f.mb + 1)) (h : q = f.qmin ∨ 2 ^ f.mb ≤ n) :
    f.magVal (f.encode n q).1 = n * 2 ^ q ∧ (f.encode n q).2 = decide (f.maxMag < (f.encode n q).1) := by
  obtain ⟨i, rfl⟩ : ∃ i : ℕ, q = i + f.qmin := ⟨(q - f.qmin).toNat, by omega⟩
  refine ⟨?_, rfl⟩
  have hi : ((i : ℤ) + f.qmin - f.qmin).toNat = i := by omega
  have hval := f.magVal_add i hn (h.imp_left fun h => by omega)
  rw [← hval]
  congr 1
  rw [FFmt.encode]
  by_cases htop : n = 2 ^ (f.mb + 1)
  · simp only [htop, if_true]
    rw [show ((i : ℤ) + f.qmin + 1 - f.qmin).toNat = i + 1 by omega, Nat.pow_succ]
    ring
  · simp only [htop, if_false, hi]

end

end Sys2Proof.Machine
end

section
/-! PROOFS. Stochastic conversion (R107, R113, R114, R135, R154). -/

namespace Sys2Proof.Machine

/-! A number as quanta of a spacing (R113). -/

/-- The whole quanta of 2^q in `m × 2^e`. -/
def wholeQuanta (m : Nat) (e q : ℤ) : Nat := if q < e then m * 2 ^ (e - q).toNat else m / 2 ^ (q - e).toNat

theorem quanta_eq (m : Nat) (e q : ℤ) :
    (m : ℚ) * 2 ^ e / 2 ^ q = wholeQuanta m e q + (m % 2 ^ (q - e).toNat : Nat) / (2 ^ (q - e).toNat : Nat) := by
  have hdiv : (m : ℚ) * 2 ^ e / 2 ^ q = m * 2 ^ (e - q) := by rw [zpow_sub₀ (by norm_num)]; ring
  rw [hdiv, wholeQuanta]
  split
  · next h =>
    rw [show (q - e).toNat = 0 by omega, pow_zero, Nat.mod_one, Nat.cast_zero, zero_div, add_zero]
    push_cast
    rw [← zpow_natCast, Int.toNat_of_nonneg (by omega)]
  · next h =>
    have hpos : ((2 ^ (q - e).toNat : Nat) : ℚ) ≠ 0 := by exact_mod_cast (Nat.two_pow_pos _).ne'
    have hpow : (2 : ℚ) ^ (e - q) = 1 / (2 ^ (q - e).toNat : Nat) := by
      push_cast
      rw [← zpow_natCast, Int.toNat_of_nonneg (by omega), one_div, ← zpow_neg]
      congr 1
      ring
    have hmod : (m : ℚ) = (m / 2 ^ (q - e).toNat : Nat) * (2 ^ (q - e).toNat : Nat) + (m % 2 ^ (q - e).toNat : Nat) := by
      exact_mod_cast (Nat.div_add_mod' m (2 ^ (q - e).toNat)).symm
    rw [hpow]
    field_simp
    exact hmod.trans (by ring)

/-- The discarded bits of `m` against the state's rotation (R113): whether a quantum is added. -/
def roundsUp (state : Word) (l m sh : Nat) : Nat :=
  if 2 ^ min sh 24 ≤ m % 2 ^ sh * 2 ^ min sh 24 / 2 ^ sh + (state.rotateLeft (7 * l % 32)).toNat % 2 ^ min sh 24 then 1 else 0

/-- The number of quanta that stochastic rounding delivers, in the terms of the exact number. -/
theorem quanta_rounded (state : Word) (l m N sh : Nat) :
    let x : ℚ := N + (m % 2 ^ sh : Nat) / (2 ^ sh : Nat)
    ((⌊x⌋ + if 2 ^ min sh 24 ≤ ⌊(x - ⌊x⌋) * 2 ^ min sh 24⌋ + (((state.rotateLeft (7 * l % 32)).toNat % 2 ^ min sh 24 : Nat) : ℤ)
      then 1 else 0 : ℤ) : ℚ) = (N + roundsUp state l m sh : Nat) ∧ (x - ⌊x⌋ ≠ 0 ↔ m % 2 ^ sh ≠ 0) := by
  intro x
  have hpos : (0 : ℚ) < (2 ^ sh : Nat) := by exact_mod_cast Nat.two_pow_pos sh
  have hlt : ((m % 2 ^ sh : Nat) : ℚ) / (2 ^ sh : Nat) < 1 := by
    rw [div_lt_one hpos]
    exact_mod_cast Nat.mod_lt m (Nat.two_pow_pos sh)
  have hnonneg : (0 : ℚ) ≤ (m % 2 ^ sh : Nat) / (2 ^ sh : Nat) := by positivity
  have hfloor : ⌊x⌋ = N := Int.floor_eq_iff.mpr ⟨by simp only [x, Int.cast_natCast]; linarith, by simp only [x, Int.cast_natCast]; linarith⟩
  have hfrac : x - ⌊x⌋ = (m % 2 ^ sh : Nat) / (2 ^ sh : Nat) := by rw [hfloor, Int.cast_natCast]; exact add_sub_cancel_left ..
  have hd : ⌊(x - ⌊x⌋) * 2 ^ min sh 24⌋ = ((m % 2 ^ sh * 2 ^ min sh 24 / 2 ^ sh : Nat) : ℤ) := by
    have h := Rat.floor_natCast_div_natCast (m % 2 ^ sh * 2 ^ min sh 24) (2 ^ sh)
    rw [Nat.cast_mul (m % 2 ^ sh), Nat.cast_pow 2 (min sh 24), Nat.cast_ofNat] at h
    rw [hfrac, div_mul_eq_mul_div, h, Int.natCast_div]
  refine ⟨?_, ?_⟩
  · rw [hd, hfloor, roundsUp]
    norm_cast
  · rw [hfrac, div_ne_zero_iff, Nat.cast_ne_zero]
    exact and_iff_left hpos.ne'

section
variable (f : FFmt) {m : Nat} {e : ℤ}

/-- At a format's own spacing a number has at most as many quanta as its significand holds, and as many as a normal one's where the
spacing is not the smallest. -/
theorem wholeQuanta_quantum (hm : m ≠ 0) : wholeQuanta m e (f.quantum m e) < 2 ^ (f.mb + 1) ∧ f.qmin ≤ f.quantum m e ∧
    (f.quantum m e = f.qmin ∨ 2 ^ f.mb ≤ wholeQuanta m e (f.quantum m e)) := by
  have hlt : m < 2 ^ (Nat.log2 m + 1) := Nat.lt_log2_self
  have hle : 2 ^ Nat.log2 m ≤ m := Nat.log2_self_le hm
  obtain ⟨q, hq⟩ : ∃ q, q = f.quantum m e := ⟨_, rfl⟩
  have hqdef : q = max (e + (Nat.log2 m + 1 : Nat) - (f.mb + 1)) f.qmin := by rw [hq, FFmt.quantum, bitLen, if_neg hm]
  rw [← hq, wholeQuanta]
  refine ⟨?_, by omega, ?_⟩
  · split
    · next h =>
      calc m * 2 ^ (e - q).toNat < 2 ^ (Nat.log2 m + 1) * 2 ^ (e - q).toNat := Nat.mul_lt_mul_of_pos_right hlt (Nat.two_pow_pos _)
        _ = 2 ^ (Nat.log2 m + 1 + (e - q).toNat) := (Nat.pow_add ..).symm
        _ ≤ 2 ^ (f.mb + 1) := Nat.pow_le_pow_right (by norm_num) (by omega)
    · next h =>
      rw [Nat.div_lt_iff_lt_mul (Nat.two_pow_pos _), ← Nat.pow_add]
      exact hlt.trans_le (Nat.pow_le_pow_right (by norm_num) (by omega))
  · by_cases hmin : q = f.qmin
    · exact .inl hmin
    · refine .inr ?_
      split
      · next h =>
        calc 2 ^ f.mb ≤ 2 ^ (Nat.log2 m + (e - q).toNat) := Nat.pow_le_pow_right (by norm_num) (by omega)
          _ = 2 ^ Nat.log2 m * 2 ^ (e - q).toNat := Nat.pow_add ..
          _ ≤ m * 2 ^ (e - q).toNat := Nat.mul_le_mul_right _ hle
      · next h =>
        rw [Nat.le_div_iff_mul_le (Nat.two_pow_pos _), ← Nat.pow_add]
        exact (Nat.pow_le_pow_right (by norm_num) (by omega)).trans hle

/-- The model's stochastic rounding, by its quanta. -/
theorem srRound_eq (sat : Bool) (state : Word) (l : Nat) (neg : Bool) (m : Nat) (e : ℤ) :
    let sh := (f.quantum m e - e).toNat
    let x := f.encode (wholeQuanta m e (f.quantum m e) + roundsUp state l m sh) (f.quantum m e)
    srRound f sat state l neg m e =
      if x.2 then (if sat then f.signBit neg + f.maxMag else f.signBit neg + f.infMag, { ovf := true, inx := true })
      else (f.signBit neg + x.1, { inx := m % 2 ^ sh != 0, unf := m % 2 ^ sh != 0 && decide (x.1 < 2 ^ f.mb) }) := rfl

/-- The model's stochastic rounding is that of R113. -/
theorem srRound_rounded (hmb : 1 ≤ f.mb) (heb : 1 ≤ f.eb) (hm : m ≠ 0) {neg : Bool} {p : ℚ} (hp : p = (if neg then -1 else 1) * (m * 2 ^ e))
    (he : spacingExp f32 p = e) (sat : Bool) (state : Word) (l : Nat) :
    StochasticRounded f sat state l p (srRound f sat state l neg m e) := by
  have hmpos : (0 : ℚ) < m * 2 ^ e := mul_pos (by exact_mod_cast Nat.pos_of_ne_zero hm) (by positivity)
  have habs : |p| = m * 2 ^ e := by
    rw [hp]
    cases neg <;> simp [abs_of_pos hmpos]
  have hneg : p < 0 ↔ neg = true := by
    rw [hp]
    cases neg
    · simpa using hmpos.le
    · simpa using hmpos
  have hsign : decide (p < 0) = neg := Bool.eq_iff_iff.mpr (decide_eq_true_iff.trans hneg)
  have hq : spacingExp f p = f.quantum m e := by rw [hp]; exact spacingExp_eq f hm neg e
  obtain ⟨htop, hqmin, hnorm⟩ := wholeQuanta_quantum f hm (e := e)
  unfold StochasticRounded
  dsimp only
  rw [hq, he, habs, quanta_eq, srRound_eq]
  obtain ⟨q, hqd⟩ : ∃ q, f.quantum m e = q := ⟨_, rfl⟩
  obtain ⟨sh, hsh⟩ : ∃ sh, (q - e).toNat = sh := ⟨_, rfl⟩
  rw [hqd] at htop hqmin hnorm ⊢
  rw [hsh]
  obtain ⟨hv, hfrac⟩ := quanta_rounded state l m (wholeQuanta m e q) sh
  rw [hv, hfrac]
  have hup : roundsUp state l m sh ≤ 1 := by unfold roundsUp; split <;> omega
  obtain ⟨n, hn⟩ : ∃ n, wholeQuanta m e q + roundsUp state l m sh = n := ⟨_, rfl⟩
  rw [hn]
  obtain ⟨hval, hover⟩ := magVal_encode f hqmin (show n ≤ 2 ^ (f.mb + 1) by omega) (hnorm.imp_right fun h => by omega)
  rw [← hval, beyond_iff f hmb heb, f.magVal_strictMono.lt_iff_lt, hover, ← f.magVal_normal, f.magVal_strictMono.lt_iff_lt,
    hsign]
  simp only [hneg]
  refine ⟨fun h => ?_, fun h => ?_⟩
  · rw [if_pos (decide_eq_true h)]
    cases sat <;> rfl
  · have hle := Nat.le_of_not_lt h
    rw [if_neg (by rwa [decide_eq_true_eq])]
    obtain ⟨-, -, hdiv⟩ := signBit_add f (neg := neg) (hle.trans_lt (f.maxMag_lt hmb))
    refine ⟨?_, hdiv, rfl, by simp, by simp⟩
    rw [finiteValue_signBit_add f hmb heb hle]
    cases neg <;> simp

end

end Sys2Proof.Machine
end

section
/-! PROOFS. CVT.SR and the generator it rounds by (R107, R113, R114, R154). -/

namespace Sys2Proof.Machine

/-! The value of a conversion (R107, R113). -/

/-- The floating formats that CVT names: fields, canonical NaN, and F8E4 for the one without infinity (R94, R95). -/
theorem nfFmt_spec {dst : NumFmt} {t : FFmt} (h : nfFmt dst = some t) :
    1 ≤ t.mb ∧ 1 ≤ t.eb ∧ t.nan = canonicalNan dst ∧ (t.noInf = true → t.nan = 0x7F) := by
  cases dst <;> cases h <;> decide

theorem unpack_nan32 {x : Word} (h : IsNan32 x) : f32.unpack x.toNat = .nan := by
  unfold IsNan32 at h
  have he : x.toNat / 8388608 % 256 = 255 := by omega
  have hm : x.toNat % 8388608 ≠ 0 := by omega
  simp [FFmt.unpack, f32, FFmt.emax, he, hm]

theorem unpack_inf32 (neg : Bool) : f32.unpack (inf32 neg).toNat = .inf neg := by cases neg <;> decide

section
variable {dst : NumFmt} {t : FFmt} (h : nfFmt dst = some t) (sat : Bool) (y : Word) (l : Nat)
include h

theorem cvtSr_fin {x m : Nat} {neg : Bool} {e : ℤ} (hx : f32.unpack x = .fin neg m e) :
    cvtSr dst sat y l x = if m = 0 then (t.signBit neg, Flags.none) else srRound t sat y l neg m e := by simp only [cvtSr, h, hx]

theorem cvtSr_nan {x : Nat} (hx : f32.unpack x = .nan) : cvtSr dst sat y l x = (t.nan, Flags.none) := by simp only [cvtSr, h, hx, cvtFF]

theorem cvtSr_inf {x : Nat} {neg : Bool} (hx : f32.unpack x = .inf neg) :
    cvtSr dst sat y l x = if t.noInf then (t.nan, { inv := true }) else (t.inf neg, Flags.none) := by simp only [cvtSr, h, hx, cvtFF]

/-- A finite number other than zero is rounded stochastically. -/
theorem cvtSr_rounded {x : Nat} {p : ℚ} (hx : finiteValue f32 x = some p) (hp : p ≠ 0) :
    StochasticRounded t sat y l p (cvtSr dst sat y l x) := by
  obtain ⟨hmb, heb, -⟩ := nfFmt_spec h
  obtain ⟨m, e, hu, hv, hlt, he⟩ := unpack_of_finite f32 hx
  have hm : m ≠ 0 := by
    rintro rfl
    exact hp (by rw [hv, Nat.cast_zero, zero_mul, mul_zero])
  rw [cvtSr_fin h sat y l hu, if_neg hm]
  refine srRound_rounded t hmb heb hm hv ?_ sat y l
  rw [hv, spacingExp_eq f32 hm, quantum_of_unpacked f32 hm hlt he]

/-- Zero keeps its sign. -/
theorem cvtSr_zero {x : Word} (hx : finiteValue f32 x.toNat = some 0) :
    cvtSr dst sat y l x.toNat = (signAt t (x.getLsbD 31), Flags.none) := by
  obtain ⟨m, e, hu, hv, -⟩ := unpack_of_finite f32 hx
  have hm : m = 0 := by
    have hsign : (if x.toNat.testBit (f32.eb + f32.mb) then -1 else 1 : ℚ) ≠ 0 := by split <;> norm_num
    have h2 : (2 : ℚ) ^ e ≠ 0 := by positivity
    exact_mod_cast (mul_eq_zero.mp ((mul_eq_zero.mp hv.symm).resolve_left hsign)).resolve_right h2
  rw [cvtSr_fin h sat y l hu, if_pos hm]
  rfl

end

/-! The generator (R113, R114). -/

/-- A generator advanced once. -/
theorem Core.seed_stepSeed (c : Core) (now p : Nat) : (c.stepSeed now p).1.seed now p = seedNext (c.seed now p) := by
  have hkept : ∀ w, aget (c.takeSeed now p).seedWrites p = some w → ¬w.clock < now := by
    intro w hw hlt
    unfold Core.takeSeed at hw
    split at hw
    · split at hw
      · rw [aget_adel, if_pos rfl] at hw
        cases hw
      · next hc hv => exact hv (Option.some.inj (hc.symm.trans hw) ▸ hlt)
    · next hc => cases hc.symm.trans hw
  have hseed : ∀ c' : Core, (∀ w, aget c'.seedWrites p = some w → ¬w.clock < now) → c'.seed now p = sget 1#32 c'.seeds p := by
    intro c' hc'
    unfold Core.seed
    cases hw : aget c'.seedWrites p with
    | none => rfl
    | some w => exact if_neg (hc' w hw)
  exact (hseed (c.stepSeed now p).1 hkept).trans ((sget_sset ..).trans (if_pos rfl))

/-- A write of ROUND_SEED acts from the clock after it. -/
theorem Core.seed_of_pending {c : Core} {p : Nat} {w : SeedWrite} (h : aget c.seedWrites p = some w) (now : Nat) :
    c.seed now p = if w.clock < now then w.value else sget 1#32 c.seeds p := by simp only [Core.seed, h]

/-- An issue by a fragment takes one advanced state of its partition's generator, whatever its lanes. -/
theorem advanceSeed_frag {s : State} {n m k e : Nat} {gr : Group} (hg : s.group? (agKey (.frag n m k e)) = some gr) :
    let d := keyDie (agKey (.frag n m k e))
    s.advanceSeed (.frag n m k e) = (s.modCore d gr.core fun _ => ((s.core d gr.core).stepSeed s.clock gr.part).1,
      seedNext ((s.core d gr.core).seed s.clock gr.part)) := by
  simp only [State.advanceSeed, State.partOf, hg]
  rfl

/-! CVT.SR (R151 to R154). -/

theorem nfElem_f32 (w : Word) : nfElem .f32 w 0 = w.toNat := by
  simp only [nfElem, nfWidth, NumFmt.elems]
  omega

/-- CVT.SR of a fragment whose checks pass. -/
theorem exec_cvt_sr {s : State} {n m k e : Nat} {act : Mask} {d : RegNo} {a c : Src} {dst : NumFmt} {g : Guard}
    (h : s.ready (.frag n m k e) act (aluSpec false g (cvtSrcs a c dst) d 1) = true) (sat : Bool) (j : BitVec 2) :
    exec (.cvt d a c .f32 dst .sr sat j g) s = .next ((s.advanceSeed (.frag n m k e)).1.lanewise (.frag n m k e) act d fun l =>
      let r := cvtSr dst sat (s.advanceSeed (.frag n m k e)).2 l (s.src (.frag n m k e) a 0 l).toNat
      (nfPut dst (if NumFmt.elems dst = 1 then 0#32 else s.src (.frag n m k e) c 0 l) j.toNat r.1, r.2)) := by
  have hx : ∀ l, s.vals (.frag n m k e) (cvtSrcs a c dst) 0 0 l = s.src (.frag n m k e) a 0 l := fun l => by
    unfold cvtSrcs
    split <;> rfl
  have hc : ∀ l, s.vals (.frag n m k e) (cvtSrcs a c dst) 1 0 l =
      if NumFmt.elems dst = 1 then 0#32 else s.src (.frag n m k e) c 0 l := fun l => by
    unfold cvtSrcs
    split <;> rfl
  have hsp : (aluSpec false g (cvtSrcs a c dst) d 1).srcs = cvtSrcs a c dst := rfl
  have helems : NumFmt.elems .f32 = 1 := rfl
  simp only [exec, execCvt, issueWith_ready h, if_true, hsp, hx, hc, helems, nfElem_f32, State.lanewise, State.computed,
    List.map_map, foldl_flags_map]
  rfl

/-- Settles O11: an issue advances the generator once and rounds every active lane by the advanced state; the value is that of the
exact number's quanta, and a pending write of ROUND_SEED acts after its clock. -/
theorem stochasticConversionAdvances : Obligations.StochasticConversionAdvances := by
  refine ⟨?_, ?_, ?_⟩
  · intro s n m g0 e act d a c dst sat j g gr ag key hg _ hr x y
    refine ⟨(s.advanceSeed ag).1, ?_, ?_, ?_⟩
    · rw [advanceSeed_frag hg]
      rfl
    · rw [advanceSeed_frag hg, State.core_modCore_self]
      exact Core.seed_stepSeed ..
    · have hy : (s.advanceSeed ag).2 = y := by rw [advanceSeed_frag hg]; rfl
      rw [← hy]
      exact exec_cvt_sr hr sat j
  · intro dst sat y x l ft hf
    obtain ⟨-, -, hnan, h7F⟩ := nfFmt_spec hf
    refine ⟨fun p hp h0 => cvtSr_rounded hf sat y l hp h0, fun h0 => cvtSr_zero hf sat y l h0, fun hn => ?_, fun neg hi => ?_⟩
    · rw [cvtSr_nan hf sat y l (unpack_nan32 hn), hnan]
    · rw [hi, cvtSr_inf hf sat y l (unpack_inf32 neg)]
      split
      · next h => rw [h7F h]
      · next h => rw [FFmt.inf, FFmt.infMag, if_neg h]; rfl
  · intro c p w hw
    exact ⟨fun now h => (Core.seed_of_pending hw now).trans (if_neg (Nat.not_lt.mpr h)),
      fun now h => (Core.seed_of_pending hw now).trans (if_pos h)⟩

end Sys2Proof.Machine
end

section
/-! PROOFS. The single rounding of an exact magnitude (R101, R103, R105, R106). -/

namespace Sys2Proof.Machine

section
variable {K : Type*} [Field K] [LinearOrder K] [IsStrictOrderedRing K]

/-- Whether a magnitude of `t` quanta and a fraction of one goes up to the next quantum (R105). -/
def goesUp (mode : RMode) (neg : Bool) (t : ℤ) (frac : K) : Prop :=
  match mode with
  | .rne | .sr => 1 / 2 < frac ∨ frac = 1 / 2 ∧ t % 2 = 1
  | .rz => False
  | .ru => 0 < frac ∧ neg = false
  | .rd => 0 < frac ∧ neg = true

/-- The bits below the quantum that the model looks at: `r` of `D`, and whether a fraction of the last lies below them. -/
def bitsUp (mode : RMode) (neg : Bool) (t r D : Nat) (sticky : Bool) : Bool :=
  match mode with
  | .rne | .sr => decide (D < r * 2) || (r * 2 == D && (sticky || t % 2 == 1))
  | .rz => false
  | .ru => (r * 2 != 0 || sticky) && !neg
  | .rd => (r * 2 != 0 || sticky) && neg

theorem quantise_eq (mode : RMode) (neg : Bool) (m : Nat) (e : ℤ) (sticky : Bool) (q : ℤ) :
    let r := m % 2 ^ (q - e).toNat
    let t := wholeQuanta m e q
    quantise mode neg m e sticky q =
      (if bitsUp mode neg t r (2 ^ (q - e).toNat) sticky then t + 1 else t, r * 2 != 0 || sticky) := by
  intro r t
  unfold quantise
  by_cases hq : q < e
  · have hsh : (q - e).toNat = 0 := by omega
    have ht : t = m * 2 ^ (e - q).toNat := if_pos hq
    have hr : r = 0 := by simp only [r, hsh, pow_zero, Nat.mod_one]
    rw [ht, hr]
    simp only [hq, if_true, hsh, pow_zero, Nat.mod_one, Nat.div_one]
    cases mode <;> rfl
  · have ht : t = m / 2 ^ (q - e).toNat := if_neg hq
    rw [ht]
    simp only [hq, if_false]
    cases mode <;> rfl

/-- A fraction in bits: at most a half, a half, or more, by its leading bits and what lies below. -/
theorem half_lt_frac {r D : Nat} {sticky : Bool} {δ : K} (hD : 0 < D) (heven : D % 2 = 0 ∨ sticky = false) (h0 : 0 ≤ δ)
    (h1 : δ < 1) (hδ : sticky = true ↔ δ ≠ 0) :
    (1 / 2 < ((r : K) + δ) / D ↔ D < r * 2 ∨ r * 2 = D ∧ sticky = true) ∧
      (((r : K) + δ) / D = 1 / 2 ↔ r * 2 = D ∧ sticky = false) := by
  have hDK : (0 : K) < D := by exact_mod_cast hD
  rw [lt_div_iff₀ hDK, div_eq_iff hDK.ne', hδ, ← Bool.not_eq_true, hδ]
  rcases lt_trichotomy D (r * 2) with hlt | rfl | hgt
  · have : (D : K) < r * 2 := by exact_mod_cast hlt
    exact ⟨iff_of_true (by linarith) (.inl hlt), iff_of_false (by intro h; linarith) (by omega)⟩
  · have hpos : 0 < δ ↔ δ ≠ 0 := ⟨fun h => h.ne', fun h => h0.lt_of_ne' h⟩
    push_cast
    refine ⟨?_, ?_⟩
    · rw [← hpos]
      exact ⟨fun h => .inr ⟨rfl, by linarith⟩, fun h => by rcases h with h | ⟨-, h⟩ <;> [omega; linarith]⟩
    · rw [not_not]
      exact ⟨fun h => ⟨rfl, by linarith⟩, fun h => by rw [h.2]; ring⟩
  · have hlt : (r : K) * 2 + 2 * δ < D := by
      by_cases h : δ = 0
      · have : (r : K) * 2 < D := by exact_mod_cast hgt
        rw [h]
        linarith
      · have hr : r * 2 + 2 ≤ D := by
          rcases heven with he | hs
          · omega
          · exact absurd (hδ.mpr h) (by rw [hs]; exact Bool.false_ne_true)
        have : (r : K) * 2 + 2 ≤ D := by exact_mod_cast hr
        linarith
    exact ⟨iff_of_false (by linarith) (by omega), iff_of_false (by intro h; linarith) (by omega)⟩

theorem frac_pos_iff {r D : Nat} {sticky : Bool} {δ : K} (hD : 0 < D) (h0 : 0 ≤ δ) (hδ : sticky = true ↔ δ ≠ 0) :
    0 < ((r : K) + δ) / D ↔ (r * 2 != 0 || sticky) = true := by
  have hDK : (0 : K) < D := by exact_mod_cast hD
  have hr : (0 : K) ≤ r := Nat.cast_nonneg r
  rw [div_pos_iff_of_pos_right hDK, Bool.or_eq_true, hδ, bne_iff_ne]
  constructor
  · intro h
    by_contra hn
    push Not at hn
    have : r = 0 := by omega
    rw [this, hn.2] at h
    simp at h
  · rintro (h | h)
    · have : (0 : K) < r := by exact_mod_cast (show 0 < r by omega)
      linarith
    · linarith [h0.lt_of_ne' h]

/-- The model's bits decide as the fraction does. -/
theorem bitsUp_iff (mode : RMode) (neg : Bool) (t : Nat) {r D : Nat} {sticky : Bool} {δ : K} (hD : 0 < D)
    (heven : D % 2 = 0 ∨ sticky = false) (h0 : 0 ≤ δ) (h1 : δ < 1) (hδ : sticky = true ↔ δ ≠ 0) :
    bitsUp mode neg t r D sticky = true ↔ goesUp mode neg t (((r : K) + δ) / D) := by
  obtain ⟨hlt, heq⟩ := half_lt_frac (r := r) hD heven h0 h1 hδ
  have hpos := frac_pos_iff (r := r) hD h0 hδ
  have hnear : (decide (D < r * 2) || (r * 2 == D && (sticky || t % 2 == 1))) = true ↔
      1 / 2 < ((r : K) + δ) / D ∨ ((r : K) + δ) / D = 1 / 2 ∧ (t : ℤ) % 2 = 1 := by
    rw [hlt, heq, show (t : ℤ) % 2 = 1 ↔ t % 2 = 1 by omega]
    cases sticky <;> simp
  cases mode with
  | rne => exact hnear
  | sr => exact hnear
  | rz => exact iff_of_false Bool.false_ne_true id
  | ru => exact Bool.and_eq_true_iff.trans (and_congr hpos.symm (by cases neg <;> decide))
  | rd => exact Bool.and_eq_true_iff.trans (and_congr hpos.symm Iff.rfl)

/-- A magnitude and a fraction of its last place, in quanta of 2^q: whole ones and a fraction. -/
theorem quanta_add {m : Nat} {e q : ℤ} {δ : K} (h0 : 0 ≤ δ) (h1 : δ < 1) (hδ : δ ≠ 0 → e < q) :
    let frac : K := ((m % 2 ^ (q - e).toNat : Nat) + δ) / (2 ^ (q - e).toNat : Nat)
    ((m : K) + δ) * 2 ^ e / 2 ^ q = wholeQuanta m e q + frac ∧ 0 ≤ frac ∧ frac < 1 := by
  intro frac
  have hD : (0 : K) < (2 ^ (q - e).toNat : Nat) := by exact_mod_cast Nat.two_pow_pos _
  have hmod : ((m % 2 ^ (q - e).toNat : Nat) : K) + 1 ≤ (2 ^ (q - e).toNat : Nat) := by
    exact_mod_cast Nat.mod_lt m (Nat.two_pow_pos _)
  have hquanta : (m : K) * 2 ^ e / 2 ^ q = wholeQuanta m e q + (m % 2 ^ (q - e).toNat : Nat) / (2 ^ (q - e).toNat : Nat) := by
    have h := congrArg (Rat.cast : ℚ → K) (quanta_eq m e q)
    push_cast at h ⊢
    exact h
  have hsmall : δ * 2 ^ e / 2 ^ q = δ / (2 ^ (q - e).toNat : Nat) := by
    by_cases h : δ = 0
    · rw [h, zero_mul, zero_div, zero_div]
    · have hlt := hδ h
      have hq : (2 : K) ^ q = 2 ^ e * (2 ^ (q - e).toNat : Nat) := by
        push_cast
        rw [← zpow_natCast, ← zpow_add₀ two_ne_zero]
        congr 1
        omega
      rw [hq, mul_comm δ, mul_div_mul_left _ _ (zpow_ne_zero _ two_ne_zero)]
  refine ⟨?_, div_nonneg (add_nonneg (Nat.cast_nonneg _) h0) hD.le, (div_lt_one hD).mpr (by linarith)⟩
  rw [add_mul, add_div, hquanta, hsmall, add_assoc, ← add_div]

end

section
variable {K : Type*} [Field K] [LinearOrder K] [IsStrictOrderedRing K]

theorem goesUp.pos {mode : RMode} {neg : Bool} {t : ℤ} {frac : K} (h : goesUp mode neg t frac) : 0 < frac := by
  have hhalf : (0 : K) < 1 / 2 := by norm_num
  cases mode with
  | rne | sr => exact h.elim hhalf.trans fun h => h.1 ▸ hhalf
  | rz => exact h.elim
  | ru | rd => exact h.1

/-- What the model makes of `m + δ` units of 2^e at a spacing, the fraction δ lying below the spacing: it rounds the exact quotient. -/
theorem quantise_spec (mode : RMode) (neg : Bool) (m : Nat) {e q : ℤ} {sticky : Bool} {δ : K} (h0 : 0 ≤ δ) (h1 : δ < 1)
    (hδ : sticky = true ↔ δ ≠ 0) (hlt : sticky = true → e < q) : ∃ frac : K,
    ((m : K) + δ) * 2 ^ e / 2 ^ q = wholeQuanta m e q + frac ∧ 0 ≤ frac ∧ frac < 1 ∧
    ((quantise mode neg m e sticky q).2 = true ↔ frac ≠ 0) ∧
    (goesUp mode neg (wholeQuanta m e q) frac → (quantise mode neg m e sticky q).1 = wholeQuanta m e q + 1) ∧
    (¬goesUp mode neg (wholeQuanta m e q) frac → (quantise mode neg m e sticky q).1 = wholeQuanta m e q) := by
  obtain ⟨hx, hf0, hf1⟩ := quanta_add h0 h1 (q := q) (m := m) (fun hd => hlt (hδ.mpr hd))
  have hD := Nat.two_pow_pos (q - e).toNat
  have heven : 2 ^ (q - e).toNat % 2 = 0 ∨ sticky = false := by
    cases hs : sticky with
    | false => exact .inr rfl
    | true =>
      obtain ⟨k, hk⟩ : ∃ k, (q - e).toNat = k + 1 := ⟨(q - e).toNat - 1, by have := hlt hs; omega⟩
      exact .inl (by rw [hk, Nat.pow_succ, Nat.mul_mod_left])
  have hup := bitsUp_iff mode neg (wholeQuanta m e q) (r := m % 2 ^ (q - e).toNat) hD heven h0 h1 hδ
  have hpos := frac_pos_iff (r := m % 2 ^ (q - e).toNat) hD h0 hδ
  refine ⟨_, hx, hf0, hf1, ?_, fun hu => ?_, fun hu => ?_⟩
  · rw [quantise_eq, ← hpos]
    exact ⟨fun hp => hp.ne', fun hp => hf0.lt_of_ne' hp⟩
  · rw [quantise_eq, if_pos (hup.mpr hu)]
  · rw [quantise_eq, if_neg (fun hb => hu (hup.mp hb))]

/-- `m × 2^e`, and a fraction of its last place where `sticky`, is the magnitude `x`; where there is a fraction, `m` has more bits
than the significand of the format. -/
structure HasMagnitude (f : FFmt) (m : Nat) (e : ℤ) (sticky : Bool) (x : K) : Prop where
  pos : m ≠ 0
  lower : (m : K) * 2 ^ e ≤ x
  upper : x < (m + 1) * 2 ^ e
  exact : sticky = true ↔ x ≠ m * 2 ^ e
  deep : sticky = true → 2 ^ (f.mb + 1) ≤ m

theorem hasMagnitude_exact (f : FFmt) {m : Nat} (hm : m ≠ 0) (e : ℤ) : HasMagnitude f m e false ((m : K) * 2 ^ e) where
  pos := hm
  lower := le_rfl
  upper := mul_lt_mul_of_pos_right (lt_add_one _) (by positivity)
  exact := iff_of_false Bool.false_ne_true (fun h => h rfl)
  deep h := by cases h

/-- The exponent of the last place of a format's significand at `m × 2^e`, in a range without end. -/
def FFmt.place (f : FFmt) (m : Nat) (e : ℤ) : ℤ := e + bitLen m - (f.mb + 1)

theorem quantum_eq_max (f : FFmt) (m : Nat) (e : ℤ) : f.quantum m e = max (f.place m e) f.qmin := rfl

section
variable {f : FFmt} {m : Nat} {e : ℤ} {sticky : Bool} {x : K} (h : HasMagnitude f m e sticky x) (mode : RMode) (neg : Bool)
include h

theorem HasMagnitude.pos_value : 0 < x := by
  have hm : (0 : K) < m := by exact_mod_cast Nat.pos_of_ne_zero h.pos
  exact (mul_pos hm (by positivity)).trans_le h.lower

/-- What the model makes of the magnitude at a spacing not below the format's own: it rounds the exact quotient. -/
theorem HasMagnitude.rounded_quanta {q : ℤ} (hq : f.place m e ≤ q) :
    ∃ frac : K, x / 2 ^ q = wholeQuanta m e q + frac ∧ 0 ≤ frac ∧ frac < 1 ∧
    ((quantise mode neg m e sticky q).2 = true ↔ frac ≠ 0) ∧
    (goesUp mode neg (wholeQuanta m e q) frac → (quantise mode neg m e sticky q).1 = wholeQuanta m e q + 1) ∧
    (¬goesUp mode neg (wholeQuanta m e q) frac → (quantise mode neg m e sticky q).1 = wholeQuanta m e q) := by
  have h2 : (0 : K) < 2 ^ e := by positivity
  obtain ⟨δ, rfl⟩ : ∃ δ, x = (m + δ) * 2 ^ e := ⟨x / 2 ^ e - m, by field_simp; ring⟩
  have h0 : 0 ≤ δ := by
    have := le_of_mul_le_mul_right h.lower h2
    linarith
  have h1 : δ < 1 := by
    have := lt_of_mul_lt_mul_right h.upper h2.le
    linarith
  have hδ : sticky = true ↔ δ ≠ 0 := by
    rw [h.exact, Ne, mul_eq_mul_right_iff, or_iff_left h2.ne', add_eq_left]
  refine quantise_spec mode neg m h0 h1 hδ fun hs => ?_
  have : f.mb + 1 ≤ Nat.log2 m := (Nat.le_log2 h.pos).mpr (h.deep hs)
  rw [FFmt.place, bitLen, if_neg h.pos] at hq
  omega

/-- The quanta that the model delivers differ from the magnitude where it reports them inexact. -/
theorem HasMagnitude.inexact_iff {q : ℤ} (hq : f.place m e ≤ q) :
    (quantise mode neg m e sticky q).2 = true ↔ ((quantise mode neg m e sticky q).1 : K) * 2 ^ q ≠ x := by
  obtain ⟨frac, hx, hf0, hf1, hinx, hup, hdown⟩ := h.rounded_quanta mode neg hq
  have h2 : (2 : K) ^ q ≠ 0 := by positivity
  rw [hinx, Ne, Ne, ← eq_div_iff h2, hx, not_iff_not]
  by_cases hu : goesUp mode neg (wholeQuanta m e q) frac
  · rw [hup hu, Nat.cast_succ, add_right_inj]
    exact iff_of_false hu.pos.ne' hf1.ne'
  · rw [hdown hu, left_eq_add]

end

/-- A magnitude rounded to quanta, as the statements have it. -/
theorem HasMagnitude.roundsTo {f : FFmt} {m : Nat} {e : ℤ} {sticky : Bool} {x : ℚ} (h : HasMagnitude f m e sticky x) (mode : RMode)
    (neg : Bool) {q : ℤ} (hq : f.place m e ≤ q) :
    RoundsTo mode neg x (2 ^ q) ((quantise mode neg m e sticky q).1 * 2 ^ q) := by
  obtain ⟨frac, hx, hf0, hf1, -, hup, hdown⟩ := h.rounded_quanta mode neg hq
  have hfloor : ⌊x / 2 ^ q⌋ = wholeQuanta m e q := by
    rw [hx, Int.floor_eq_iff]
    exact ⟨by simpa using hf0, by simpa using hf1⟩
  have hfrac : x / 2 ^ q - (wholeQuanta m e q : ℤ) = frac := by rw [hx, Int.cast_natCast, add_sub_cancel_left]
  unfold RoundsTo
  dsimp only
  rw [hfloor, hfrac]
  refine ⟨fun hu => ?_, fun hu => ?_⟩
  · rw [hup hu, Nat.cast_succ, Int.cast_natCast]
  · rw [hdown hu, Int.cast_natCast]

end

section
variable {K : Type*} [Field K] [LinearOrder K] [IsStrictOrderedRing K]
variable {f : FFmt} {m : Nat} {e : ℤ} {sticky : Bool} {x : K} (h : HasMagnitude f m e sticky x)

include h in
/-- The magnitude lies in the binade that its place is of. -/
theorem HasMagnitude.binade : 2 ^ (f.place m e + f.mb) ≤ x ∧ x < 2 ^ (f.place m e + f.mb + 1) := by
  have hplace : f.place m e + f.mb = (Nat.log2 m : ℤ) + e := by rw [FFmt.place, bitLen, if_neg h.pos]; push_cast; ring
  have h2 : (0 : K) ≤ 2 ^ e := by positivity
  have hlo : (2 : K) ^ Nat.log2 m ≤ m := by exact_mod_cast Nat.log2_self_le h.pos
  have hhi : (m : K) + 1 ≤ 2 ^ (Nat.log2 m + 1) := by exact_mod_cast (Nat.lt_log2_self : m < 2 ^ (Nat.log2 m + 1))
  rw [hplace]
  constructor
  · rw [zpow_add₀ two_ne_zero, zpow_natCast]
    exact (mul_le_mul_of_nonneg_right hlo h2).trans h.lower
  · rw [add_right_comm, show ((Nat.log2 m : ℤ) + 1) = ((Nat.log2 m + 1 : Nat) : ℤ) by push_cast; ring, zpow_add₀ two_ne_zero, zpow_natCast]
    exact h.upper.trans_le (mul_le_mul_of_nonneg_right hhi h2)

theorem quantum_place_le (f : FFmt) (m : Nat) (e : ℤ) : f.place m e ≤ f.quantum m e := le_max_left ..

include h in
/-- The number of quanta of the format's own spacing. -/
theorem HasMagnitude.quanta_bounds (mode : RMode) (neg : Bool) :
    let n := (quantise mode neg m e sticky (f.quantum m e)).1
    n ≤ 2 ^ (f.mb + 1) ∧ f.qmin ≤ f.quantum m e ∧ (f.quantum m e = f.qmin ∨ 2 ^ f.mb ≤ n) := by
  intro n
  obtain ⟨htop, hqmin, hnorm⟩ := wholeQuanta_quantum f h.pos (e := e)
  obtain ⟨frac, -, -, -, -, hup, hdown⟩ := h.rounded_quanta mode neg (quantum_place_le f m e)
  have hn : n = wholeQuanta m e (f.quantum m e) + 1 ∨ n = wholeQuanta m e (f.quantum m e) := (em _).imp hup hdown
  exact ⟨by omega, hqmin, hnorm.imp_right fun h => by omega⟩

include h in
/-- The value of what the model encodes. -/
theorem HasMagnitude.magVal (mode : RMode) (neg : Bool) :
    f.magVal (f.encode (quantise mode neg m e sticky (f.quantum m e)).1 (f.quantum m e)).1 =
      (quantise mode neg m e sticky (f.quantum m e)).1 * 2 ^ f.quantum m e := by
  obtain ⟨htop, hqmin, hnorm⟩ := h.quanta_bounds mode neg
  exact (magVal_encode f hqmin htop hnorm).1

end

/-- The model's rounding of a number other than zero. -/
theorem FFmt.round_eq (f : FFmt) (mode : RMode) (neg : Bool) {m : Nat} (hm : m ≠ 0) (e : ℤ) (sticky : Bool) :
    let n := quantise mode neg m e sticky (f.quantum m e)
    let mag := (f.encode n.1 (f.quantum m e)).1
    f.round mode neg m e sticky = if f.maxMag < mag then (f.overflow mode neg, { ovf := true, inx := true })
      else (f.signBit neg + mag, { inx := n.2, unf := n.2 && f.tiny mode neg m e sticky }) := by
  intro n mag
  have hz : (decide (m = 0) && !sticky) = false := by rw [decide_eq_false hm, Bool.false_and]
  unfold FFmt.round
  dsimp only
  rw [hz, if_neg Bool.false_ne_true]
  exact if_congr decide_eq_true_iff rfl rfl

theorem FFmt.round_zero (f : FFmt) (mode : RMode) (neg : Bool) (e : ℤ) : f.round mode neg 0 e false = (f.signBit neg, Flags.none) := rfl

/-! Tininess after rounding (R103). -/

/-- The smallest normal number as quanta of half the subnormal spacing. -/
theorem least_eq (f : FFmt) : (2 : ℚ) ^ (2 - 2 ^ (f.eb - 1) : ℤ) = 2 ^ (f.mb + 1) * 2 ^ (f.qmin - 1) := by
  rw [f.qmin_eq, ← zpow_natCast, ← zpow_add₀ two_ne_zero]
  congr 1
  push_cast
  ring

/-- A number, in quanta of half the subnormal spacing, is tiny after rounding where it stays below the last of them before the
smallest normal number, or above it does not round up to that. -/
theorem tinyAfter_iff (f : FFmt) (mode : RMode) {p y : ℚ} (hp : |p| = y * 2 ^ (f.qmin - 1)) :
    TinyAfter f mode p ↔ y < 2 ^ (f.mb + 1) ∧
      ¬(2 ^ (f.mb + 1) - 1 ≤ y ∧ goesUp mode (decide (p < 0)) (2 ^ (f.mb + 1) - 1) (y - (2 ^ (f.mb + 1) - 1))) := by
  have hodd : (2 ^ (f.mb + 1) - 1 : ℤ) % 2 = 1 := by rw [pow_succ]; omega
  have hN1 : (1 : ℚ) ≤ 2 ^ (f.mb + 1) := one_le_pow₀ one_le_two
  have hu : (0 : ℚ) < 2 ^ (f.qmin - 1) := by positivity
  unfold TinyAfter
  dsimp only
  rw [least_eq, mul_div_cancel_left₀ _ (zero_lt_one.trans_le hN1).ne']
  generalize (2 : ℚ) ^ (f.mb + 1) = N at *
  generalize (2 : ℚ) ^ (f.qmin - 1) = u at *
  have hlt : ∀ c, |p| < c * u ↔ y < c := fun c => by rw [hp, mul_lt_mul_iff_left₀ hu]
  have hnear : |p| < N * u - u / 2 ↔ y < N ∧ ¬(N - 1 ≤ y ∧ (1 / 2 < y - (N - 1) ∨ y - (N - 1) = 1 / 2 ∧ True)) := by
    rw [show N * u - u / 2 = (N - 1 / 2) * u by ring, hlt]
    refine ⟨fun h => ⟨by linarith, fun hc => ?_⟩, fun hn => not_le.mp fun hc => hn.2 ⟨by linarith, ?_⟩⟩
    · rcases hc.2 with hc | hc <;> linarith
    · rcases hc.lt_or_eq with hc | hc
      · exact .inl (by linarith)
      · exact .inr ⟨by linarith, trivial⟩
  have hfar : |p| ≤ N * u - u ↔ y < N ∧ ¬(N - 1 ≤ y ∧ 0 < y - (N - 1)) := by
    rw [show N * u - u = (N - 1) * u by ring, hp, mul_le_mul_iff_left₀ hu]
    exact ⟨fun h => ⟨by linarith, fun hc => by linarith⟩, fun h => not_lt.mp fun hc => h.2 ⟨hc.le, by linarith⟩⟩
  have hlast : 0 ≤ N * u - u := by
    have := mul_le_mul_of_nonneg_right hN1 hu.le
    linarith
  cases mode with
  | rne | sr => simpa only [goesUp, hodd] using hnear
  | rz => simp only [goesUp, and_false, not_false_eq_true, and_true, hlt]
  | ru =>
    rcases lt_or_ge p 0 with hneg | hneg
    · simp only [goesUp, decide_eq_true hneg, Bool.true_eq_false, and_false, not_false_eq_true, and_true, ← hlt, abs_of_neg hneg]
      exact ⟨fun h => by linarith, fun h => ⟨by linarith, by linarith⟩⟩
    · simp only [goesUp, decide_eq_false (not_lt.mpr hneg), and_true]
      rw [← hfar, abs_of_nonneg hneg]
      exact ⟨fun h => h.2, fun h => ⟨by linarith, h⟩⟩
  | rd =>
    rcases lt_or_ge p 0 with hneg | hneg
    · simp only [goesUp, decide_eq_true hneg, and_true]
      rw [← hfar, abs_of_neg hneg]
      exact ⟨fun h => by linarith, fun h => ⟨by linarith, by linarith⟩⟩
    · simp only [goesUp, decide_eq_false (not_lt.mpr hneg), Bool.false_eq_true, and_false, not_false_eq_true, and_true, ← hlt, abs_of_nonneg hneg]
      exact ⟨fun h => h.2, fun h => ⟨by linarith, h⟩⟩

/-- The model's test of tininess. -/
theorem HasMagnitude.tiny_iff {f : FFmt} {m : Nat} {e : ℤ} {sticky : Bool} {p : ℚ} (h : HasMagnitude f m e sticky |p|)
    (mode : RMode) : f.tiny mode (decide (p < 0)) m e sticky = true ↔ TinyAfter f mode p := by
  obtain ⟨hlo, hhi⟩ := h.binade
  obtain ⟨P, hP⟩ : ∃ P, f.place m e = P := ⟨_, rfl⟩
  have hu : (0 : ℚ) < 2 ^ (f.qmin - 1) := by positivity
  have hmb : (2 : ℚ) ^ (f.mb + 1) = 2 ^ f.mb * 2 := pow_succ ..
  have hone : (1 : ℚ) ≤ 2 ^ f.mb := one_le_pow₀ one_le_two
  have hplace : ∀ (i : ℤ) (n : Nat), (2 : ℚ) ^ (i + n) / 2 ^ i = 2 ^ n := fun i n => by
    rw [zpow_add₀ two_ne_zero, zpow_natCast, mul_div_cancel_left₀ _ (by positivity)]
  rw [tinyAfter_iff f mode (div_mul_cancel₀ _ hu.ne').symm]
  unfold FFmt.tiny
  dsimp only
  rw [show e + (bitLen m : ℤ) - (f.mb + 1) = f.place m e from rfl, hP]
  rw [hP] at hlo hhi
  rcases lt_trichotomy P (f.qmin - 1) with hlt | heq | hgt
  · -- far below the normal range
    have hy : |p| / 2 ^ (f.qmin - 1) < 2 ^ f.mb := by
      rw [← hplace (f.qmin - 1), div_lt_div_iff_of_pos_right hu]
      exact hhi.trans_le (zpow_le_zpow_right₀ one_le_two (by omega))
    exact iff_of_true (by simp [hlt, show P < f.qmin by omega]) ⟨by linarith, fun hc => by linarith [hc.1]⟩
  · -- the last binade below it, whose spacing is half the subnormal one
    obtain ⟨frac, hx, hf0, hf1, -, hup, hdown⟩ := h.rounded_quanta mode (decide (p < 0)) (q := P) hP.le
    have hy : |p| / 2 ^ P < 2 ^ (f.mb + 1) := by
      rw [← hplace P, div_lt_div_iff_of_pos_right (by positivity)]
      exact hhi.trans_eq (by rw [Nat.cast_succ, add_assoc])
    rw [← heq]
    rw [hx] at hy ⊢
    have htop : wholeQuanta m e P < 2 ^ (f.mb + 1) := by exact_mod_cast (show (wholeQuanta m e P : ℚ) < 2 ^ (f.mb + 1) by linarith)
    rw [and_iff_right hy, show (decide (P < f.qmin) && (decide (P < P) ||
      (quantise mode (decide (p < 0)) m e sticky P).1 != 2 ^ (f.mb + 1))) = ((quantise mode (decide (p < 0)) m e sticky P).1 != 2 ^ (f.mb + 1))
      by simp [show P < f.qmin by omega], bne_iff_ne, Ne, not_iff_not]
    have hcast : wholeQuanta m e P + 1 = 2 ^ (f.mb + 1) →
        (2 : ℚ) ^ (f.mb + 1) - 1 = wholeQuanta m e P ∧ (2 ^ (f.mb + 1) - 1 : ℤ) = wholeQuanta m e P := fun ht =>
      ⟨sub_eq_of_eq_add (by exact_mod_cast ht.symm), sub_eq_of_eq_add (by exact_mod_cast ht.symm)⟩
    constructor
    · intro hn
      have hu : goesUp mode (decide (p < 0)) (wholeQuanta m e P) frac := by
        by_contra hc
        have := hdown hc
        omega
      obtain ⟨hq, hz⟩ := hcast ((hup hu).symm.trans hn)
      rw [hq, hz, add_sub_cancel_left]
      exact ⟨by linarith, hu⟩
    · rintro ⟨hge, hu⟩
      have hlt : 2 ^ (f.mb + 1) < wholeQuanta m e P + 2 := by
        exact_mod_cast (show (2 : ℚ) ^ (f.mb + 1) < wholeQuanta m e P + 2 by linarith)
      have ht : wholeQuanta m e P + 1 = 2 ^ (f.mb + 1) := by omega
      obtain ⟨hq, hz⟩ := hcast ht
      rw [hq, hz, add_sub_cancel_left] at hu
      rw [hup hu, ht]
  · have hy : 2 ^ (f.mb + 1) ≤ |p| / 2 ^ (f.qmin - 1) := by
      rw [← hplace (f.qmin - 1), div_le_div_iff_of_pos_right hu]
      exact (zpow_le_zpow_right₀ one_le_two (by push_cast; omega)).trans hlo
    exact iff_of_false (by simp [show ¬P < f.qmin by omega]) fun hc => not_lt.mpr hy hc.1

/-! The single rounding (R101, R103, R106). -/

section
variable {f : FFmt} (hmb : 1 ≤ f.mb) (heb : 1 ≤ f.eb)

theorem signAt_eq (f : FFmt) (neg : Bool) : signAt f neg = f.signBit neg := rfl

/-- The spacing at a number is the model's. -/
theorem HasMagnitude.spacingExp {m : Nat} {e : ℤ} {sticky : Bool} {p : ℚ} (h : HasMagnitude f m e sticky |p|) :
    spacingExp f p = f.quantum m e := by
  obtain ⟨hlo, hhi⟩ := h.binade
  have h1 := (Int.zpow_le_iff_le_log (b := 2) (by norm_num) h.pos_value).mp (by exact_mod_cast hlo)
  have h2 := (Int.lt_zpow_iff_log_lt (b := 2) (by norm_num) h.pos_value).mp (by exact_mod_cast hhi)
  rw [Machine.spacingExp, quantum_eq_max, f.qmin_eq]
  congr 1
  omega

include hmb heb in
/-- What the model makes of a number is that number rounded once. -/
theorem HasMagnitude.roundedOnce {m : Nat} {e : ℤ} {sticky : Bool} {p : ℚ} (h : HasMagnitude f m e sticky |p|) (mode : RMode) :
    RoundedOnce f mode p (f.round mode (decide (p < 0)) m e sticky) := by
  have hto := h.roundsTo mode (decide (p < 0)) (quantum_place_le f m e)
  have hinx := h.inexact_iff mode (decide (p < 0)) (quantum_place_le f m e)
  have hmag := h.magVal mode (decide (p < 0))
  rw [← hmag] at hto hinx
  refine ⟨_, by rw [h.spacingExp]; exact hto, ?_⟩
  dsimp only
  rw [beyond_iff f hmb heb, f.magVal_strictMono.lt_iff_lt, f.round_eq mode _ h.pos]
  refine ⟨fun hover => ?_, fun hover => ?_⟩
  · rw [if_pos hover, signAt_eq]
    unfold FFmt.overflow
    cases mode <;> simp only [decide_eq_true_eq]
  · rw [if_neg hover]
    have hle := Nat.le_of_not_lt hover
    obtain ⟨-, -, hdiv⟩ := signBit_add f (neg := decide (p < 0)) (hle.trans_lt (f.maxMag_lt hmb))
    refine ⟨?_, fun _ => ?_, rfl, hinx, ?_⟩
    · rw [finiteValue_signBit_add f hmb heb hle]
      by_cases hp : p < 0 <;> simp [hp]
    · simpa only [decide_eq_true_eq] using hdiv
    · rw [Bool.and_eq_true, hinx, h.tiny_iff]

include hmb heb in
/-- Zero of either sign, with no flag, is zero rounded once. -/
theorem roundedOnce_zero (mode : RMode) (neg : Bool) : RoundedOnce f mode 0 (f.signBit neg, Flags.none) := by
  have hfin : finiteValue f (f.signBit neg) = some 0 := by
    rw [← Nat.add_zero (f.signBit neg), finiteValue_signBit_add f hmb heb (Nat.zero_le _), f.magVal_zero, mul_zero]
  refine ⟨0, ?_, fun hb => ?_, fun _ => ⟨?_, fun h => absurd rfl h, rfl, ?_, ?_⟩⟩
  · unfold RoundsTo
    cases mode <;> norm_num
  · exact absurd (hb _ _ hfin) (by norm_num)
  · rw [hfin, neg_zero, ite_self]
  · simp [Flags.none]
  · simp [Flags.none]

include hmb heb in
/-- A magnitude with a sign, rounded once. -/
theorem HasMagnitude.signed_roundedOnce {m : Nat} {e : ℤ} {sticky : Bool} {x : ℚ} (h : HasMagnitude f m e sticky x) (mode : RMode)
    (neg : Bool) : RoundedOnce f mode ((if neg then -1 else 1) * x) (f.round mode neg m e sticky) := by
  have hpos := h.pos_value
  cases neg with
  | false =>
    have := HasMagnitude.roundedOnce hmb heb (p := x) (by rwa [abs_of_pos hpos]) mode
    rw [decide_eq_false hpos.not_gt] at this
    rwa [if_neg Bool.false_ne_true, one_mul]
  | true =>
    have := HasMagnitude.roundedOnce hmb heb (p := -x) (by rwa [abs_neg, abs_of_pos hpos]) mode
    rw [decide_eq_true (neg_neg_of_pos hpos)] at this
    rwa [if_pos rfl, neg_one_mul]

include hmb heb in
/-- The value of a natural number and an exponent with a sign, rounded once. -/
theorem round_roundedOnce (mode : RMode) (neg : Bool) (m : Nat) (e : ℤ) :
    RoundedOnce f mode ((if neg then -1 else 1) * (m * 2 ^ e)) (f.round mode neg m e false) := by
  by_cases hm : m = 0
  · rw [hm, f.round_zero, Nat.cast_zero, zero_mul, mul_zero]
    exact roundedOnce_zero hmb heb mode neg
  · exact (hasMagnitude_exact (K := ℚ) f hm e).signed_roundedOnce hmb heb mode neg

end

/-- A rounded number's magnitude is at most the infinity's, or the largest finite one where there is none. -/
theorem round_magnitude (f : FFmt) (mode : RMode) (neg : Bool) (m : Nat) (e : ℤ) (sticky : Bool) :
    ∃ s mag, (f.round mode neg m e sticky).1 = f.signBit s + mag ∧ mag ≤ max f.infMag f.maxMag := by
  unfold FFmt.round
  dsimp only
  split
  · exact ⟨neg, 0, rfl, Nat.zero_le _⟩
  · split
    · unfold FFmt.overflow
      refine ⟨neg, _, rfl, ?_⟩
      cases mode <;> cases neg <;> simp
    · next h =>
      have hle := Nat.le_of_not_lt fun hlt => h (decide_eq_true hlt)
      exact ⟨neg, _, rfl, hle.trans (le_max_right ..)⟩

theorem infMag_lt {f : FFmt} (hmb : 1 ≤ f.mb) : max f.infMag f.maxMag < 2 ^ (f.eb + f.mb) := by
  refine max_lt ?_ (f.maxMag_lt hmb)
  rw [FFmt.infMag]
  split
  · exact f.maxMag_lt hmb
  · rw [FFmt.emax, Nat.pow_add]
    exact Nat.mul_lt_mul_of_pos_right (Nat.sub_lt (Nat.two_pow_pos _) one_pos) (Nat.two_pow_pos _)

/-- A rounded number is an element of the format. -/
theorem round_lt {f : FFmt} (hmb : 1 ≤ f.mb) (mode : RMode) (neg : Bool) (m : Nat) (e : ℤ) (sticky : Bool) :
    (f.round mode neg m e sticky).1 < 2 ^ (f.eb + f.mb + 1) := by
  obtain ⟨s, mag, heq, hle⟩ := round_magnitude f mode neg m e sticky
  have hlt := hle.trans_lt (infMag_lt hmb)
  have hsign : f.signBit s ≤ 2 ^ (f.eb + f.mb) := by unfold FFmt.signBit; split <;> omega
  rw [heq, Nat.pow_succ]
  omega

end Sys2Proof.Machine
end

section
/-! PROOFS. Sums, differences, products and fused sums of finite operands (R101, R106, R109, R143, R149). -/

namespace Sys2Proof.Machine

/-! Exact values (R94). -/

/-- The number that an exact value is; 0 for NaN and the infinities. -/
def FV.val : FV → ℚ
  | .fin neg m e => (if neg then -1 else 1) * (m * 2 ^ e)
  | .nan | .inf _ => 0

/-- Neither NaN nor an infinity. -/
def FV.IsFin (x : FV) : Prop := ∃ neg m e, x = .fin neg m e

/-- A zero of the sign `b`. -/
def FV.isZeroOf (b : Bool) : FV → Bool
  | .fin neg m _ => (neg == b) && m == 0
  | .nan | .inf _ => false

theorem FV.val_fin_eq_zero {neg : Bool} {m : Nat} {e : ℤ} : FV.val (.fin neg m e) = 0 ↔ m = 0 := by
  have hsign : (if neg then -1 else 1 : ℚ) ≠ 0 := by cases neg <;> norm_num
  have h2 : (2 : ℚ) ^ e ≠ 0 := by positivity
  rw [FV.val, mul_eq_zero, or_iff_right hsign, mul_eq_zero, or_iff_left h2, Nat.cast_eq_zero]

theorem FV.val_neg (x : FV) : x.neg.val = -x.val := by
  cases x with
  | nan | inf => exact neg_zero.symm
  | fin neg m e => cases neg <;> simp [FV.neg, FV.val]

theorem FV.val_mul {x y : FV} (hx : x.IsFin) (hy : y.IsFin) : (x.mul y).val = x.val * y.val := by
  obtain ⟨s, m, e, rfl⟩ := hx
  obtain ⟨t, n, k, rfl⟩ := hy
  have h2 : (2 : ℚ) ^ (e + k) = 2 ^ e * 2 ^ k := zpow_add₀ two_ne_zero ..
  cases s <;> cases t <;> simp [FV.mul, FV.val, h2] <;> ring

theorem FV.IsFin.mul {x y : FV} (hx : x.IsFin) (hy : y.IsFin) : (x.mul y).IsFin := by
  obtain ⟨s, m, e, rfl⟩ := hx
  obtain ⟨t, n, k, rfl⟩ := hy
  exact ⟨_, _, _, rfl⟩

theorem FV.IsFin.neg {x : FV} (hx : x.IsFin) : x.neg.IsFin := by
  obtain ⟨s, m, e, rfl⟩ := hx
  exact ⟨_, _, _, rfl⟩

/-- A finite element's exact value. -/
theorem unpack_val {f : FFmt} {x : Nat} {p : ℚ} (h : finiteValue f x = some p) : (f.unpack x).IsFin ∧ (f.unpack x).val = p := by
  obtain ⟨m, e, hu, hv, -⟩ := unpack_of_finite f h
  exact ⟨⟨_, _, _, hu⟩, by rw [hu, hv]; rfl⟩

theorem FV.isZeroOf_fin {s b : Bool} {m : Nat} {e : ℤ} :
    FV.isZeroOf b (.fin s m e) = true ↔ FV.val (.fin s m e) = 0 ∧ s = b := by
  rw [FV.val_fin_eq_zero, FV.isZeroOf, Bool.and_eq_true, beq_iff_eq, beq_iff_eq, and_comm]

theorem FV.isZeroOf_neg (b : Bool) (x : FV) : x.neg.isZeroOf b = x.isZeroOf !b := by
  cases x with
  | nan | inf => rfl
  | fin neg m e => cases b <;> cases neg <;> rfl

theorem isZeroOf_unpack {f : FFmt} {x : Nat} {p : ℚ} (h : finiteValue f x = some p) (b : Bool) :
    (f.unpack x).isZeroOf b = true ↔ p = 0 ∧ x.testBit (f.eb + f.mb) = b := by
  obtain ⟨m, e, hu, -⟩ := unpack_of_finite f h
  rw [← (unpack_val h).2, hu, FV.isZeroOf_fin]

/-- The sign of a zero product is that of its factors. -/
theorem isZeroOf_mul_unpack {f g : FFmt} {x y : Nat} {p q : ℚ} (hx : finiteValue f x = some p) (hy : finiteValue g y = some q)
    (b : Bool) : ((f.unpack x).mul (g.unpack y)).isZeroOf b = true ↔
      p * q = 0 ∧ (x.testBit (f.eb + f.mb) != y.testBit (g.eb + g.mb)) = b := by
  obtain ⟨hxf, hxv⟩ := unpack_val hx
  obtain ⟨hyf, hyv⟩ := unpack_val hy
  obtain ⟨m, e, hxu, -⟩ := unpack_of_finite f hx
  obtain ⟨n, k, hyu, -⟩ := unpack_of_finite g hy
  rw [← hxv, ← hyv, ← FV.val_mul hxf hyf, hxu, hyu]
  exact FV.isZeroOf_fin

/-! Exact sums (R101, R109). -/

theorem FV.scaled_val {x : FV} {e0 : ℤ} (hx : x.IsFin) (h : e0 ≤ x.exp) : (x.scaled e0 : ℚ) * 2 ^ e0 = x.val := by
  obtain ⟨s, m, e, rfl⟩ := hx
  have h2 : (2 : ℚ) ^ e = 2 ^ (e - e0).toNat * 2 ^ e0 := by
    rw [← zpow_natCast, ← zpow_add₀ two_ne_zero]
    congr 1
    rw [FV.exp] at h
    omega
  rw [FV.scaled, FV.val, h2]
  cases s <;> push_cast <;> simp <;> ring

/-- The common exponent that a sum is formed with. -/
def commonExp (l : List FV) : ℤ := l.foldl (fun a x => min a x.exp) 0

/-- A sum's number of quanta of its common exponent. -/
def commonQuanta (l : List FV) : ℤ := l.foldl (fun a x => a + x.scaled (commonExp l)) 0

theorem foldl_min_le (l : List FV) (a : ℤ) :
    l.foldl (fun a x => min a x.exp) a ≤ a ∧ ∀ x ∈ l, l.foldl (fun a x => min a x.exp) a ≤ x.exp := by
  induction l generalizing a with
  | nil => exact ⟨le_rfl, fun x hx => by cases hx⟩
  | cons y t ih =>
    obtain ⟨ha, ht⟩ := ih (min a y.exp)
    refine ⟨ha.trans (min_le_left ..), fun x hx => ?_⟩
    rcases List.mem_cons.mp hx with rfl | hx
    · exact ha.trans (min_le_right ..)
    · exact ht x hx

theorem foldl_scaled {e0 : ℤ} (l : List FV) (hl : ∀ x ∈ l, x.IsFin) (he : ∀ x ∈ l, e0 ≤ x.exp) (a : ℤ) :
    ((l.foldl (fun a x => a + x.scaled e0) a : ℤ) : ℚ) * 2 ^ e0 = a * 2 ^ e0 + (l.map FV.val).sum := by
  induction l generalizing a with
  | nil => simp
  | cons y t ih =>
    rw [List.foldl_cons, ih (fun x hx => hl x (.tail _ hx)) (fun x hx => he x (.tail _ hx)), List.map_cons, List.sum_cons,
      ← FV.scaled_val (hl y (.head _)) (he y (.head _))]
    push_cast
    ring

theorem zeroSign_eq (mode : RMode) (l : List FV) : zeroSign mode l =
    if l.all (FV.isZeroOf true) then true else if l.all (FV.isZeroOf false) then false else mode == .rd := by
  have h : ∀ b, (fun x : FV => match x with
    | .fin neg m _ => (if b then neg else !neg) && m == 0
    | .nan | .inf _ => false) = FV.isZeroOf b := fun b => by
    funext x
    cases x with
    | nan | inf => rfl
    | fin neg m e => cases b <;> cases neg <;> rfl
  rw [← h true, ← h false]
  rfl

/-- An integer as a sign and a magnitude. -/
theorem sign_natAbs (t : ℤ) (x : ℚ) : (if decide (t < 0) = true then -1 else 1 : ℚ) * ((t.natAbs : ℕ) * x) = t * x := by
  rw [← mul_assoc, Nat.cast_natAbs]
  rcases lt_or_ge t 0 with ht | ht
  · rw [if_pos (decide_eq_true ht), abs_of_neg ht]
    push_cast
    ring
  · rw [if_neg (by simpa using ht), abs_of_nonneg ht, one_mul]

/-- A sum of finite values as one rounding of the common exponent's multiple. -/
theorem sum_eq {f : FFmt} (mode : RMode) {l : List FV} (hl : ∀ x ∈ l, x.IsFin) (nanIn : Bool) : ∃ (t : ℤ) (e : ℤ),
    (l.map FV.val).sum = t * 2 ^ e ∧ f.sum mode l nanIn =
      if t = 0 then (f.signBit (zeroSign mode l), Flags.none) else f.round mode (decide (t < 0)) t.natAbs e false := by
  have hnan : l.any FV.isNan = false := by
    rw [List.any_eq_false]
    intro x hx
    obtain ⟨s, m, e, rfl⟩ := hl x hx
    exact Bool.false_ne_true
  have hinf : ∀ b, l.contains (.inf b) = false := fun b => by
    rw [Bool.eq_false_iff, Ne, List.contains_iff_mem]
    intro hx
    obtain ⟨s, m, e, h⟩ := hl _ hx
    cases h
  refine ⟨commonQuanta l, commonExp l, ?_, ?_⟩
  · have h := foldl_scaled l hl (foldl_min_le l 0).2 0
    rw [Int.cast_zero, zero_mul, zero_add] at h
    exact h.symm
  · unfold FFmt.sum
    rw [hnan, hinf, hinf]
    rfl

section
variable {f : FFmt} (hmb : 1 ≤ f.mb) (heb : 1 ≤ f.eb) (mode : RMode)
include hmb

/-- A sum of finite values is the exact sum rounded once. -/
theorem sum_rounded (heb : 1 ≤ f.eb) {l : List FV} (hl : ∀ x ∈ l, x.IsFin) (nanIn : Bool) :
    RoundedOnce f mode (l.map FV.val).sum (f.sum mode l nanIn) := by
  obtain ⟨t, e, hv, hs⟩ := sum_eq (f := f) mode hl nanIn
  rw [hs, hv]
  split
  · next h => rw [h, Int.cast_zero, zero_mul]; exact roundedOnce_zero hmb heb mode _
  · next h =>
    have hround := round_roundedOnce hmb heb mode (decide (t < 0)) t.natAbs e
    rwa [sign_natAbs] at hround

theorem sum_lt {l : List FV} (hl : ∀ x ∈ l, x.IsFin) (nanIn : Bool) : (f.sum mode l nanIn).1 < 2 ^ (f.eb + f.mb + 1) := by
  obtain ⟨t, e, -, hs⟩ := sum_eq (f := f) mode hl nanIn
  rw [hs]
  split
  · exact round_lt hmb mode (zeroSign mode l) 0 0 false
  · exact round_lt hmb ..

end

/-- The sign of a sum of finite values that is exactly zero. -/
theorem sum_zero {f : FFmt} (mode : RMode) {l : List FV} (hl : ∀ x ∈ l, x.IsFin) (nanIn : Bool) (h : (l.map FV.val).sum = 0) :
    f.sum mode l nanIn = (f.signBit (zeroSign mode l), Flags.none) := by
  obtain ⟨t, e, hv, hs⟩ := sum_eq (f := f) mode hl nanIn
  have h2 : (2 : ℚ) ^ e ≠ 0 := by positivity
  have ht : t = 0 := by
    rw [hv] at h
    exact_mod_cast (mul_eq_zero.mp h).resolve_right h2
  rw [hs, if_pos ht]

/-! The signs of zero sums (R106, R109). -/

theorem zeroSign_of_all (mode : RMode) {l : List FV} (b : Bool) (hne : l ≠ []) (h : ∀ x ∈ l, x.isZeroOf b = true) : zeroSign mode l = b := by
  rw [zeroSign_eq]
  cases b with
  | true => rw [if_pos (List.all_eq_true.mpr h)]
  | false =>
    obtain ⟨x, hx⟩ := List.exists_mem_of_ne_nil l hne
    have hx' : x.isZeroOf true = false := by
      have := h x hx
      cases x with
      | nan | inf => rfl
      | fin neg m e => cases neg <;> simp_all [FV.isZeroOf]
    rw [if_neg (fun ha => by rw [List.all_eq_true.mp ha x hx] at hx'; cases hx'), if_pos (List.all_eq_true.mpr h)]

theorem zeroSign_of_mixed (mode : RMode) {l : List FV} (h : ∀ b, ∃ x ∈ l, ¬x.isZeroOf b = true) : zeroSign mode l = (mode == .rd) := by
  have hn : ∀ b, ¬l.all (FV.isZeroOf b) = true := fun b ha => by
    obtain ⟨x, hx, hnot⟩ := h b
    exact hnot (List.all_eq_true.mp ha x hx)
  rw [zeroSign_eq, if_neg (hn true), if_neg (hn false)]

/-- The sign of a zero sum of two: theirs where they are zeros of one sign, else the mode's. -/
theorem zeroSign_pair (mode : RMode) {a b : FV} {p q : ℚ} {s t : Bool} (ha : ∀ c, a.isZeroOf c = true ↔ p = 0 ∧ s = c)
    (hb : ∀ c, b.isZeroOf c = true ↔ q = 0 ∧ t = c) (h0 : q + p = 0) :
    zeroSign mode [a, b] = if decide (p = 0) && s == t then s else mode == .rd := by
  by_cases h : p = 0 ∧ s = t
  · obtain ⟨hp, rfl⟩ := h
    rw [decide_eq_true hp, Bool.true_and, if_pos (beq_self_eq_true s)]
    refine zeroSign_of_all mode s (List.cons_ne_nil _ _) fun x hx => ?_
    rcases List.mem_pair.mp hx with rfl | rfl
    · exact (ha s).mpr ⟨hp, rfl⟩
    · exact (hb s).mpr ⟨by linarith, rfl⟩
  · rw [if_neg (by simpa using h)]
    refine zeroSign_of_mixed mode fun c => ?_
    by_cases hc : a.isZeroOf c = true
    · refine ⟨b, by simp, fun hbc => h ?_⟩
      obtain ⟨hp, hs⟩ := (ha c).mp hc
      exact ⟨hp, hs.trans ((hb c).mp hbc).2.symm⟩
    · exact ⟨a, by simp, hc⟩

/-! Sums, products and fused sums of finite elements. -/

section
variable {f : FFmt} (hmb : 1 ≤ f.mb) (heb : 1 ≤ f.eb) (rm : RMode) {x y z : Nat} {p q t : ℚ}
  (hx : finiteValue f x = some p) (hy : finiteValue f y = some q) (hz : finiteValue f z = some t)
include hx hy

theorem isFin_pair : ∀ v ∈ [f.unpack x, f.unpack y], v.IsFin := by
  simp [(unpack_val hx).1, (unpack_val hy).1]

theorem isFin_pair_neg : ∀ v ∈ [f.unpack x, (f.unpack y).neg], v.IsFin := by
  simp [(unpack_val hx).1, (unpack_val hy).1.neg]

theorem val_pair : ([f.unpack x, f.unpack y].map FV.val).sum = p + q := by simp [(unpack_val hx).2, (unpack_val hy).2]

theorem val_pair_neg : ([f.unpack x, (f.unpack y).neg].map FV.val).sum = p - q := by
  simp [(unpack_val hx).2, (unpack_val hy).2, FV.val_neg, ← sub_eq_add_neg]

include hmb heb in
theorem add_rounded : RoundedOnce f rm (p + q) (f.add rm x y) :=
  val_pair hx hy ▸ sum_rounded hmb rm heb (isFin_pair hx hy) _

include hmb heb in
theorem sub_rounded : RoundedOnce f rm (p - q) (f.sub rm x y) :=
  val_pair_neg hx hy ▸ sum_rounded hmb rm heb (isFin_pair_neg hx hy) _

theorem add_zero_sign (h : p + q = 0) : f.add rm x y =
    (f.signBit (if decide (p = 0) && x.testBit (f.eb + f.mb) == y.testBit (f.eb + f.mb) then x.testBit (f.eb + f.mb)
      else rm == .rd), Flags.none) := by
  have hs := sum_zero (f := f) rm (isFin_pair hx hy) ((f.unpack x).isNan || (f.unpack y).isNan)
    ((val_pair hx hy).trans h)
  rw [zeroSign_pair rm (isZeroOf_unpack hx) (isZeroOf_unpack hy) (by linarith)] at hs
  exact hs

theorem sub_zero_sign (h : p - q = 0) : f.sub rm x y =
    (f.signBit (if decide (p = 0) && x.testBit (f.eb + f.mb) != y.testBit (f.eb + f.mb) then x.testBit (f.eb + f.mb)
      else rm == .rd), Flags.none) := by
  have hs := sum_zero (f := f) rm (isFin_pair_neg hx hy) ((f.unpack x).isNan || (f.unpack y).isNan)
    ((val_pair_neg hx hy).trans h)
  have hneg : ∀ c, (f.unpack y).neg.isZeroOf c = true ↔ -q = 0 ∧ (!y.testBit (f.eb + f.mb)) = c := fun c => by
    have hnot : ∀ a c : Bool, a = !c ↔ (!a) = c := by decide
    rw [FV.isZeroOf_neg, isZeroOf_unpack hy, neg_eq_zero, hnot]
  rw [zeroSign_pair rm (isZeroOf_unpack hx) hneg (by linarith)] at hs
  have hne : ∀ a b : Bool, (a == !b) = (a != b) := by decide
  rw [hne] at hs
  exact hs

/-- A product of finite elements as one rounding. -/
theorem mul_round : ∃ s m e, (f.unpack x).mul (f.unpack y) = .fin s m e ∧ f.mul rm x y = f.round rm s m e false ∧
    p * q = (if s then -1 else 1) * (m * 2 ^ e) ∧ s = (x.testBit (f.eb + f.mb) != y.testBit (f.eb + f.mb)) := by
  have hv := FV.val_mul (unpack_val hx).1 (unpack_val hy).1
  rw [(unpack_val hx).2, (unpack_val hy).2] at hv
  obtain ⟨m, e, hxu, -⟩ := unpack_of_finite f hx
  obtain ⟨n, k, hyu, -⟩ := unpack_of_finite f hy
  refine ⟨_, m * n, e + k, by rw [hxu, hyu]; rfl, ?_, by rw [← hv, hxu, hyu]; rfl, rfl⟩
  unfold FFmt.mul
  rw [hxu, hyu]
  rfl

include hmb heb in
theorem mul_rounded : RoundedOnce f rm (p * q) (f.mul rm x y) := by
  obtain ⟨s, m, e, -, hr, hv, -⟩ := mul_round rm hx hy
  rw [hr, hv]
  exact round_roundedOnce hmb heb rm s m e

theorem mul_zero_sign (h : p * q = 0) :
    f.mul rm x y = (f.signBit (x.testBit (f.eb + f.mb) != y.testBit (f.eb + f.mb)), Flags.none) := by
  obtain ⟨s, m, e, -, hr, hv, hs⟩ := mul_round rm hx hy
  have hm : m = 0 := FV.val_fin_eq_zero.mp (hv.symm.trans h)
  rw [hr, hm, f.round_zero, hs]

include hz

theorem isFin_fma : ∀ v ∈ [(f.unpack x).mul (f.unpack y), f.unpack z], v.IsFin := by
  simp [(unpack_val hx).1.mul (unpack_val hy).1, (unpack_val hz).1]

theorem val_fma : ([(f.unpack x).mul (f.unpack y), f.unpack z].map FV.val).sum = p * q + t := by
  simp [FV.val_mul (unpack_val hx).1 (unpack_val hy).1, (unpack_val hx).2, (unpack_val hy).2, (unpack_val hz).2]

include hmb heb in
theorem fma_rounded : RoundedOnce f rm (p * q + t) (f.fma rm x y z) :=
  val_fma hx hy hz ▸ sum_rounded hmb rm heb (isFin_fma hx hy hz) _

theorem fma_zero_sign (h : p * q + t = 0) : f.fma rm x y z =
    (f.signBit (if decide (t = 0) && (x.testBit (f.eb + f.mb) != y.testBit (f.eb + f.mb)) == z.testBit (f.eb + f.mb)
      then z.testBit (f.eb + f.mb) else rm == .rd), Flags.none) := by
  have hs := sum_zero (f := f) rm (isFin_fma hx hy hz) ((f.unpack x).isNan || (f.unpack y).isNan || (f.unpack z).isNan)
    ((val_fma hx hy hz).trans h)
  rw [zeroSign_pair rm (isZeroOf_mul_unpack hx hy) (isZeroOf_unpack hz) (by linarith)] at hs
  have h0 : p * q = 0 ↔ t = 0 := ⟨fun h => by linarith, fun h => by linarith⟩
  have hsame : ∀ a b c d : Bool, (if c && a == b then a else d) = if c && a == b then b else d := by decide
  rw [decide_eq_decide.mpr h0, hsame] at hs
  exact hs

end

end Sys2Proof.Machine
end

section
/-! PROOFS. The reciprocal, the square root and its reciprocal (R101, R105, R147), the dot product and the scaling (R150, R156). -/

namespace Sys2Proof.Machine

/-! The integer square root. -/

theorem isqrtFrom_spec (x n : Nat) : ∀ r, r * r ≤ x → x < (r + 2 ^ n) * (r + 2 ^ n) →
    isqrtFrom x r n * isqrtFrom x r n ≤ x ∧ x < (isqrtFrom x r n + 1) * (isqrtFrom x r n + 1) := by
  induction n with
  | zero => exact fun r hlo hhi => ⟨hlo, hhi⟩
  | succ n ih =>
    intro r hlo hhi
    rw [isqrtFrom]
    split
    · next h => exact ih _ h (by rwa [Nat.add_assoc, ← Nat.two_mul, ← Nat.pow_succ'])
    · next h => exact ih _ hlo (Nat.lt_of_not_le h)

theorem isqrt_spec (x : Nat) : isqrt x * isqrt x ≤ x ∧ x < (isqrt x + 1) * (isqrt x + 1) := by
  refine isqrtFrom_spec x _ 0 (Nat.zero_le _) ?_
  have hlen : x < 2 ^ bitLen x := by
    rw [bitLen]
    split
    · next h => rw [h]; exact one_pos
    · exact Nat.lt_log2_self
  rw [Nat.zero_add, ← Nat.pow_add]
  exact hlen.trans_le (Nat.pow_le_pow_right two_pos (by omega))

/-! Magnitudes given by a quotient and by a root. -/

/-- A quotient of natural numbers, by its whole part and whether there is a rest. -/
theorem hasMagnitude_div (f : FFmt) {a b : Nat} (hb : 0 < b) (h : 2 ^ (f.mb + 1) * b ≤ a) (e : ℤ) :
    HasMagnitude f (a / b) e (a % b != 0) ((a : ℚ) / b * 2 ^ e) := by
  have hbq : (0 : ℚ) < b := by exact_mod_cast hb
  have h2 : (0 : ℚ) < 2 ^ e := by positivity
  have hdeep : 2 ^ (f.mb + 1) ≤ a / b := (Nat.le_div_iff_mul_le hb).mpr h
  have ha : (a : ℚ) / b = (a / b : Nat) + (a % b : Nat) / b := by
    rw [div_eq_iff hbq.ne', add_mul, div_mul_cancel₀ _ hbq.ne']
    exact_mod_cast (Nat.div_add_mod' a b).symm
  have hrest : ((a % b : Nat) : ℚ) / b < 1 := (div_lt_one hbq).mpr (by exact_mod_cast Nat.mod_lt a hb)
  have hnonneg : (0 : ℚ) ≤ (a % b : Nat) / b := by positivity
  refine ⟨(Nat.two_pow_pos _ |>.trans_le hdeep).ne', ?_, ?_, ?_, fun _ => hdeep⟩
  · exact mul_le_mul_of_nonneg_right (by linarith) h2.le
  · exact mul_lt_mul_of_pos_right (by linarith) h2
  · rw [bne_iff_ne, Ne, Ne, mul_left_inj' h2.ne', ha, add_eq_left, div_eq_zero_iff, or_iff_left hbq.ne', Nat.cast_eq_zero]

/-- The root of a real number, by the whole part of the root and whether there is a rest. -/
theorem hasMagnitude_sqrt (f : FFmt) {r : Nat} {x : ℝ} {sticky : Bool} (hx : 0 ≤ x) (hlo : (r : ℝ) * r ≤ x)
    (hhi : x < (r + 1) * (r + 1)) (hs : sticky = true ↔ (r : ℝ) * r ≠ x) (hdeep : 2 ^ (f.mb + 1) ≤ r) (e : ℤ) :
    HasMagnitude f r e sticky (Real.sqrt x * 2 ^ e) := by
  have h2 : (0 : ℝ) < 2 ^ e := by positivity
  have hr : (0 : ℝ) ≤ r := Nat.cast_nonneg r
  refine ⟨(Nat.two_pow_pos _ |>.trans_le hdeep).ne', ?_, ?_, ?_, fun _ => hdeep⟩
  · exact mul_le_mul_of_nonneg_right (Real.le_sqrt_of_sq_le (by rwa [sq])) h2.le
  · exact mul_lt_mul_of_pos_right ((Real.sqrt_lt' (by linarith)).mpr (by rwa [sq])) h2
  · rw [hs, Ne, Ne, mul_left_inj' h2.ne', Real.sqrt_eq_iff_mul_self_eq hx hr, eq_comm]

/-! The nearest element to a real number (R105). -/

/-- The magnitude of `n` quanta of a spacing. -/
theorem encode_eq (f : FFmt) {n : Nat} {q : ℤ} (hq : f.qmin ≤ q) : (f.encode n q).1 = (q - f.qmin).toNat * 2 ^ f.mb + n := by
  unfold FFmt.encode
  dsimp only
  split
  · next h =>
    rw [h, show (q + 1 - f.qmin).toNat = (q - f.qmin).toNat + 1 by omega, Nat.pow_succ]
    ring
  · rfl

/-- Between two successive multiples of the format's own spacing at a number lies no element. -/
theorem HasMagnitude.gap {f : FFmt} (hmb : 1 ≤ f.mb) (heb : 1 ≤ f.eb) {m : Nat} {e : ℤ} {sticky : Bool} {x : ℝ}
    (h : HasMagnitude f m e sticky x) {y : Nat} {w : ℚ} (hw : finiteValue f y = some w) :
    let q := f.quantum m e
    (w : ℝ) ≤ wholeQuanta m e q * 2 ^ q ∨ (wholeQuanta m e q + 1 : ℝ) * 2 ^ q ≤ w := by
  intro q
  obtain ⟨htop, hqmin, hnorm⟩ := wholeQuanta_quantum f h.pos (e := e)
  obtain ⟨hlo, -⟩ := magVal_encode f hqmin htop.le hnorm
  obtain ⟨hhi, -⟩ := magVal_encode f hqmin (n := wholeQuanta m e q + 1) htop (hnorm.imp_right fun h => Nat.le_succ_of_le h)
  rw [encode_eq f hqmin] at hlo hhi
  have key : w ≤ wholeQuanta m e q * 2 ^ q ∨ (wholeQuanta m e q + 1 : ℚ) * 2 ^ q ≤ w := by
    have hpos : (0 : ℚ) ≤ wholeQuanta m e q * 2 ^ q := by positivity
    rw [finiteValue_eq f hmb heb] at hw
    split at hw
    · cases hw
    · have hmag := f.magVal_nonneg (f.magOf y)
      rw [← Option.some.inj hw]
      split
      · exact .inl (by linarith)
      · rw [one_mul, ← hlo, ← Nat.cast_succ, ← hhi]
        rcases Nat.lt_or_ge ((q - f.qmin).toNat * 2 ^ f.mb + wholeQuanta m e q) (f.magOf y) with hlt | hge
        · exact .inr (f.magVal_strictMono.monotone hlt)
        · exact .inl (f.magVal_strictMono.monotone hge)
  have hcast := key.imp (Rat.cast_le (K := ℝ)).mpr (Rat.cast_le (K := ℝ)).mpr
  push_cast at hcast
  exact hcast

/-- A number rounded to the nearest quantum lies at least as near as anything outside the gap that it lies in, and its quanta are even
where something else lies as near. -/
theorem nearest_of_gap {t n : Nat} {u frac q w : ℝ} (hu : 0 < u) (hq : q = t * u + frac * u)
    (hf0 : 0 ≤ frac) (hf1 : frac < 1) (hup : goesUp .rne false t frac → n = t + 1) (hdown : ¬goesUp .rne false t frac → n = t)
    (hw : w ≤ t * u ∨ t * u + u ≤ w) :
    |n * u - q| ≤ |w - q| ∧ (|n * u - q| = |w - q| → n * u ≠ w → n % 2 = 0) := by
  have ha : 0 ≤ frac * u := mul_nonneg hf0 hu.le
  have hb : frac * u < u := mul_lt_of_lt_one_left hu hf1
  have hdist : w ≤ t * u ∧ |w - q| = q - w ∨ t * u + u ≤ w ∧ |w - q| = w - q :=
    hw.imp (fun h => ⟨h, (abs_sub_comm w q).trans (abs_of_nonneg (by linarith))⟩) fun h => ⟨h, abs_of_nonneg (by linarith)⟩
  by_cases hgo : goesUp .rne false t frac
  · have hn : (n : ℝ) * u = t * u + u := by rw [hup hgo, Nat.cast_succ, add_one_mul]
    have hhalf : u ≤ 2 * (frac * u) := by
      have : 1 / 2 ≤ frac := hgo.elim le_of_lt fun h => h.1.ge
      linarith [mul_le_mul_of_nonneg_right this hu.le]
    rw [hn, abs_of_nonneg (by linarith : 0 ≤ t * u + u - q)]
    rcases hdist with ⟨hw, hd⟩ | ⟨hw, hd⟩ <;> rw [hd]
    · refine ⟨by linarith, fun heq _ => ?_⟩
      have hfrac : frac = 1 / 2 := mul_right_cancel₀ hu.ne' (by linarith)
      have hodd := hgo.resolve_left (by linarith)
      have := hup hgo
      omega
    · exact ⟨by linarith, fun heq hne => absurd (by linarith) hne⟩
  · have hn : (n : ℝ) * u = t * u := by rw [hdown hgo]
    have hle : ¬1 / 2 < frac := fun h => hgo (.inl h)
    have hhalf : 2 * (frac * u) ≤ u := by linarith [mul_le_mul_of_nonneg_right (not_lt.mp hle) hu.le]
    rw [hn, abs_sub_comm (t * u : ℝ), abs_of_nonneg (by linarith : 0 ≤ q - t * u)]
    rcases hdist with ⟨hw, hd⟩ | ⟨hw, hd⟩ <;> rw [hd]
    · exact ⟨by linarith, fun heq hne => absurd (by linarith) hne⟩
    · refine ⟨by linarith, fun heq _ => ?_⟩
      have hfrac : frac = 1 / 2 := mul_right_cancel₀ hu.ne' (by linarith)
      have heven : ¬(t : ℤ) % 2 = 1 := fun h => hgo (.inr ⟨hfrac, h⟩)
      have := hdown hgo
      omega

theorem f32_maxMag_large : (2 : ℚ) ^ (127 : ℤ) ≤ f32.magVal f32.maxMag := by
  have h := f32.magVal_binade 253 (r := 0) (by decide)
  have hval : f32.magVal (253 * 2 ^ f32.mb + (2 ^ f32.mb + 0)) = 2 ^ (127 : ℤ) := by
    rw [h, show f32.qmin = -149 by decide]
    norm_num [f32]
  rw [← hval]
  exact f32.magVal_strictMono.monotone (by decide)

/-- A positive number inside the normal range of FP32, rounded once. -/
theorem HasMagnitude.rootRounded {m : Nat} {e : ℤ} {sticky : Bool} {q : ℝ} (h : HasMagnitude f32 m e sticky q) (mode : RMode)
    (hlo : -149 ≤ f32.place m e) (hhi : f32.place m e ≤ 100) : RootRounded f32 mode q (f32.round mode false m e sticky) := by
  have hmb : 1 ≤ f32.mb := by decide
  have heb : 1 ≤ f32.eb := by decide
  have hqmin : f32.qmin = -149 := by decide
  have hquantum : f32.quantum m e = f32.place m e := by rw [quantum_eq_max, hqmin, max_eq_left hlo]
  obtain ⟨frac, hx, hf0, hf1, -, hup, hdown⟩ := h.rounded_quanta mode false le_rfl
  have hinx := h.inexact_iff mode false le_rfl
  have hmag := h.magVal mode false
  have hgap := fun y w (hw : finiteValue f32 y = some w) => h.gap hmb heb hw
  obtain ⟨htop, -, -⟩ := h.quanta_bounds mode false
  have heq := f32.round_eq mode false h.pos e sticky
  have hmageq := encode_eq f32 (n := (quantise mode false m e sticky (f32.place m e)).1) (q := f32.place m e) (by rw [hqmin]; exact hlo)
  dsimp only at heq hgap
  rw [hquantum] at hmag hgap htop heq
  have htiny : f32.tiny mode false m e sticky = false := by
    unfold FFmt.tiny
    dsimp only
    rw [show e + (bitLen m : ℤ) - (f32.mb + 1) = f32.place m e from rfl, hqmin, decide_eq_false (not_lt.mpr hlo), Bool.false_and]
  generalize f32.place m e = Q at *
  generalize quantise mode false m e sticky Q = n at *
  generalize (f32.encode n.1 Q).1 = mag at *
  have hmax : ¬f32.maxMag < mag := fun hlt => by
    have hbig := f32.magVal_strictMono hlt
    have hn : (n.1 : ℚ) ≤ 2 ^ 24 := by exact_mod_cast htop
    have hsmall : (n.1 : ℚ) * 2 ^ Q ≤ 2 ^ 24 * 2 ^ (100 : ℤ) :=
      mul_le_mul hn (zpow_le_zpow_right₀ one_le_two hhi) (by positivity) (by positivity)
    have h124 : (2 : ℚ) ^ 24 * 2 ^ (100 : ℤ) < 2 ^ (127 : ℤ) := by norm_num
    linarith [f32_maxMag_large]
  rw [heq, if_neg hmax, htiny, Bool.and_false]
  refine ⟨rfl, n.1 * 2 ^ Q, ?_, ?_, fun y w hw => ?_⟩
  · rw [finiteValue_signBit_add f32 hmb heb (Nat.le_of_not_lt hmax), if_neg Bool.false_ne_true, one_mul, hmag]
  · push_cast
    exact hinx
  · have hu : (0 : ℝ) < 2 ^ Q := by positivity
    have hw' := hgap y w hw
    rw [add_one_mul] at hw'
    rw [div_eq_iff hu.ne', add_mul] at hx
    have hn : ((n.1 * 2 ^ Q : ℚ) : ℝ) = n.1 * 2 ^ Q := by push_cast; rfl
    have hpar : (f32.signBit false + mag) % 2 = n.1 % 2 := by
      have hsign : f32.signBit false = 0 := rfl
      have hpow : 2 ^ f32.mb = 2 * 2 ^ 22 := by decide
      rw [hsign, hmageq, hpow]
      omega
    have ha : 0 ≤ frac * 2 ^ Q := mul_nonneg hf0 hu.le
    have hb : frac * 2 ^ Q < 2 ^ Q := mul_lt_of_lt_one_left hu hf1
    have hbelow : n.1 = wholeQuanta m e Q → (n.1 * 2 ^ Q : ℝ) ≤ q ∧ (w ≤ q → w ≤ n.1 * 2 ^ Q) := fun heq => by
      refine ⟨by rw [heq]; linarith, fun h => (Rat.cast_le (K := ℝ)).mp ?_⟩
      rw [hn, heq]
      exact hw'.resolve_right (by linarith)
    rw [hn]
    cases mode with
    | rne | sr =>
      obtain ⟨hnear, htie⟩ := nearest_of_gap hu hx hf0 hf1 hup hdown hw'
      exact ⟨hnear, fun h1 h2 => hpar.trans (htie h1 fun h3 => h2 (Rat.cast_injective (α := ℝ) (hn.trans h3)))⟩
    | rz => exact hbelow (hdown id)
    | rd => exact hbelow (hdown fun h => Bool.false_ne_true h.2)
    | ru =>
      refine ⟨?_, fun h => (Rat.cast_le (K := ℝ)).mp (hn ▸ ?_)⟩
      all_goals rcases hf0.eq_or_lt with h0 | hpos
      · rw [hdown fun h => h.pos.ne h0, hx, ← h0, zero_mul, add_zero]
      · rw [hup ⟨hpos, rfl⟩, hx, Nat.cast_succ, add_one_mul]
        linarith
      · rw [hdown fun h => h.pos.ne h0]
        rwa [hx, ← h0, zero_mul, add_zero] at h
      · rw [hup ⟨hpos, rfl⟩, Nat.cast_succ, add_one_mul]
        exact hw'.resolve_left fun hle => by linarith [mul_pos hpos hu]

/-! The SFU forms (R147) and the statement on finite operands. -/

/-- An FP32 result in a register. -/
theorem w32_toNat {r : Nat × Flags} (h : r.1 < 2 ^ 32) : ((w32 r).1.toNat, (w32 r).2) = r := by
  rw [w32, BitVec.toNat_ofNat, Nat.mod_eq_of_lt h]

theorem f32_round_lt (mode : RMode) (neg : Bool) (m : Nat) (e : ℤ) (sticky : Bool) : (f32.round mode neg m e sticky).1 < 2 ^ 32 :=
  round_lt (f := f32) (by decide) mode neg m e sticky

theorem bitLen_bounds {n a b : Nat} (hlo : 2 ^ a ≤ n) (hhi : n < 2 ^ b) : a < bitLen n ∧ bitLen n ≤ b := by
  have hn : n ≠ 0 := (Nat.two_pow_pos a |>.trans_le hlo).ne'
  rw [bitLen, if_neg hn]
  exact ⟨Nat.lt_succ_of_le ((Nat.le_log2 hn).mpr hlo), (Nat.log2_lt hn).mpr hhi⟩

/-- The exponent of an FP32 element. -/
theorem f32_exp_le {x m : Nat} {s : Bool} {e : ℤ} (h : f32.unpack x = .fin s m e) : e ≤ 105 := by
  have hE : x / 2 ^ f32.mb % 2 ^ f32.eb < 256 := Nat.mod_lt _ (by decide)
  unfold FFmt.unpack at h
  dsimp only at h
  split at h
  · cases h
  · split at h
    · split at h <;> cases h
    · split at h
      · cases h; decide
      · cases h
        have h1 : f32.bias = 127 := by decide
        have h2 : f32.mb = 23 := rfl
        omega

/-- A finite FP32 word unpacked, with the bounds of its exponent. -/
theorem fv32_of_finite {x : Word} {p : ℚ} (h : finiteValue f32 x.toNat = some p) : ∃ m e, fv32 x = .fin (x.getLsbD 31) m e ∧
    p = (if x.getLsbD 31 then -1 else 1) * (m * 2 ^ e) ∧ m < 2 ^ 24 ∧ -149 ≤ e ∧ e ≤ 105 := by
  obtain ⟨m, e, hu, hp, hm, he⟩ := unpack_of_finite f32 h
  have hqmin : f32.qmin = -149 := by decide
  exact ⟨m, e, hu, hp, hm, by omega, f32_exp_le hu⟩

theorem recip_eq (neg : Bool) (m : Nat) (e : ℤ) : recip neg m e =
    f32.round .rne neg (2 ^ (bitLen m + 64) / m) (-((bitLen m + 64 : Nat) : ℤ) - e) (2 ^ (bitLen m + 64) % m != 0) := rfl

/-- FRCP of a finite number other than zero. -/
theorem frcpW_rounded {x : Word} {p : ℚ} (hx : finiteValue f32 x.toNat = some p) (hp : p ≠ 0) :
    RoundedOnce f32 .rne (1 / p) ((frcpW x).1.toNat, (frcpW x).2) := by
  obtain ⟨m, e, hu, hv, hlt, -⟩ := fv32_of_finite hx
  have hm : m ≠ 0 := by
    rintro rfl
    exact hp (by rw [hv, Nat.cast_zero, zero_mul, mul_zero])
  have heq : frcpW x = w32 (recip (x.getLsbD 31) m e) := by
    unfold frcpW
    rw [hu]
    exact if_neg hm
  rw [heq, recip_eq, w32_toNat (f32_round_lt ..)]
  have hbig : 2 ^ (f32.mb + 1) * m ≤ 2 ^ (bitLen m + 64) := by
    have hlen : m < 2 ^ bitLen m := by rw [bitLen, if_neg hm]; exact Nat.lt_log2_self
    rw [Nat.mul_comm, Nat.pow_add 2 (bitLen m)]
    exact Nat.mul_le_mul hlen.le (Nat.pow_le_pow_right two_pos (by decide : f32.mb + 1 ≤ 64))
  have h := (hasMagnitude_div f32 (Nat.pos_of_ne_zero hm) hbig (-((bitLen m + 64 : Nat) : ℤ) - e)).signed_roundedOnce (by decide) (by decide)
    .rne (x.getLsbD 31)
  have hval : 1 / p = (if x.getLsbD 31 then -1 else 1) * (((2 ^ (bitLen m + 64) : Nat) : ℚ) / m * 2 ^ (-((bitLen m + 64 : Nat) : ℤ) - e)) := by
    have hm' : (m : ℚ) ≠ 0 := Nat.cast_ne_zero.mpr hm
    rw [hv, zpow_sub₀ two_ne_zero, zpow_neg, zpow_natCast]
    push_cast
    split <;> field_simp
  rw [hval]
  exact h

/-- A positive number with its exponent made even, as FSQRT and FRSQ take it. -/
theorem even_exponent (m : Nat) (e : ℤ) : ∃ (n : Nat) (k : ℤ), (if e % 2 != 0 then 2 * m else m) = n ∧
    (if e % 2 != 0 then e - 1 else e) / 2 = k ∧ (m : ℝ) * 2 ^ e = n * (2 ^ k) ^ 2 ∧ m ≤ n ∧ n ≤ 2 * m ∧ e ≤ 2 * k + 1 ∧ 2 * k ≤ e := by
  refine ⟨_, _, rfl, rfl, ?_, ?_⟩
  · by_cases h : e % 2 = 0
    · simp only [h, bne_self_eq_false, Bool.false_eq_true, if_false]
      rw [← zpow_natCast, ← zpow_mul]
      congr 2
      push_cast
      omega
    · simp only [bne_iff_ne, ne_eq, h, not_false_eq_true, if_true]
      rw [← zpow_natCast, ← zpow_mul, show e = 1 + (e - 1) / 2 * (2 : ℕ) by push_cast; omega, zpow_add₀ two_ne_zero]
      push_cast
      rw [show (1 + (e - 1) / 2 * 2 - 1) / 2 = (e - 1) / 2 by omega]
      ring
  · split
    · next h => have := bne_iff_ne.mp h; omega
    · next h => have : e % 2 = 0 := by simpa using h
                omega

theorem sqrtR_rounded (mode : RMode) {m : Nat} {e : ℤ} (hm : m ≠ 0) (hlt : m < 2 ^ 24) (hlo : -149 ≤ e) (hhi : e ≤ 105) :
    RootRounded f32 mode (Real.sqrt (m * 2 ^ e)) (sqrtR mode m e) := by
  obtain ⟨n, k, hn, hk, hval, hmn, hnm, he1, he2⟩ := even_exponent m e
  unfold sqrtR
  dsimp only
  rw [hn, hk]
  obtain ⟨hsq, hsq'⟩ := isqrt_spec (n * 2 ^ 128)
  obtain ⟨r, hr⟩ : ∃ r, isqrt (n * 2 ^ 128) = r := ⟨_, rfl⟩
  rw [hr] at hsq hsq' ⊢
  have hrlo : 2 ^ 64 ≤ r := by
    by_contra hc
    have := Nat.mul_le_mul (Nat.succ_le_of_lt (Nat.lt_of_not_le hc)) (Nat.succ_le_of_lt (Nat.lt_of_not_le hc))
    have hn1 : 1 * 2 ^ 128 ≤ n * 2 ^ 128 := Nat.mul_le_mul_right _ (by omega)
    norm_num at this hn1 hsq'
    omega
  have hrhi : r < 2 ^ 77 := by
    by_contra hc
    have := Nat.mul_le_mul (Nat.le_of_not_lt hc) (Nat.le_of_not_lt hc)
    norm_num at this hsq
    omega
  obtain ⟨hb1, hb2⟩ := bitLen_bounds hrlo hrhi
  have h : HasMagnitude f32 r (k - 64) (r * r != n * 2 ^ 128) (Real.sqrt (n * 2 ^ 128) * 2 ^ (k - 64)) := by
    refine hasMagnitude_sqrt f32 (by positivity) (by exact_mod_cast hsq) (by exact_mod_cast hsq') ?_ (Nat.le_trans (by decide) hrlo) _
    rw [bne_iff_ne]
    exact not_congr (by exact_mod_cast Iff.rfl)
  have hroot : Real.sqrt (m * 2 ^ e) = Real.sqrt (n * 2 ^ 128) * 2 ^ (k - 64) := by
    rw [hval, Real.sqrt_mul (Nat.cast_nonneg n), Real.sqrt_mul (Nat.cast_nonneg n), Real.sqrt_sq (by positivity),
      show (2 : ℝ) ^ 128 = (2 ^ 64) ^ 2 by norm_num, Real.sqrt_sq (by positivity), mul_assoc, zpow_sub₀ two_ne_zero]
    congr 1
    norm_num
    ring
  rw [hroot]
  refine h.rootRounded mode ?_ ?_ <;> rw [FFmt.place, show f32.mb = 23 from rfl] <;> omega

theorem rsqrtR_rounded {m : Nat} {e : ℤ} (hm : m ≠ 0) (hlt : m < 2 ^ 24) (hlo : -149 ≤ e) (hhi : e ≤ 105) :
    RootRounded f32 .rne (1 / Real.sqrt (m * 2 ^ e)) (rsqrtR m e) := by
  obtain ⟨n, k, hn, hk, hval, hmn, hnm, he1, he2⟩ := even_exponent m e
  unfold rsqrtR
  dsimp only
  rw [hn, hk]
  have hn0 : 0 < n := by omega
  have hn25 : n < 2 ^ 25 := by omega
  obtain ⟨hsq, hsq'⟩ := isqrt_spec (2 ^ 256 / n)
  obtain ⟨r, hr⟩ : ∃ r, isqrt (2 ^ 256 / n) = r := ⟨_, rfl⟩
  rw [hr] at hsq hsq' ⊢
  have hrlo : 2 ^ 115 ≤ r := by
    by_contra hc
    have hle := Nat.mul_le_mul (Nat.succ_le_of_lt (Nat.lt_of_not_le hc)) (Nat.succ_le_of_lt (Nat.lt_of_not_le hc))
    have hdiv : 2 ^ 231 ≤ 2 ^ 256 / n := (Nat.le_div_iff_mul_le hn0).mpr (by
      have := Nat.mul_le_mul_left (2 ^ 231) hn25.le
      norm_num at this ⊢
      exact this)
    norm_num at hle hdiv hsq'
    omega
  have hrhi : r < 2 ^ 129 := by
    by_contra hc
    have hle := Nat.mul_le_mul (Nat.le_of_not_lt hc) (Nat.le_of_not_lt hc)
    have hdiv : 2 ^ 256 / n ≤ 2 ^ 256 := Nat.div_le_self ..
    norm_num at hle hsq hdiv
    omega
  obtain ⟨hb1, hb2⟩ := bitLen_bounds hrlo hrhi
  have hnR : (0 : ℝ) < n := by exact_mod_cast hn0
  have h : HasMagnitude f32 r (-128 - k) (r * r * n != 2 ^ 256) (Real.sqrt (2 ^ 256 / n) * 2 ^ (-128 - k)) := by
    refine hasMagnitude_sqrt f32 (by positivity) ?_ ?_ ?_ (Nat.le_trans (by decide) hrlo) _
    · rw [le_div_iff₀ hnR]
      exact_mod_cast (Nat.le_div_iff_mul_le hn0).mp hsq
    · rw [div_lt_iff₀ hnR]
      exact_mod_cast (Nat.div_lt_iff_lt_mul hn0).mp hsq'
    · rw [bne_iff_ne, Ne, Ne, eq_div_iff hnR.ne']
      exact not_congr (by exact_mod_cast Iff.rfl)
  have hroot : 1 / Real.sqrt (m * 2 ^ e) = Real.sqrt (2 ^ 256 / n) * 2 ^ (-128 - k) := by
    have hs : Real.sqrt n ≠ 0 := (Real.sqrt_pos.mpr hnR).ne'
    rw [hval, Real.sqrt_mul hnR.le, Real.sqrt_sq (by positivity), Real.sqrt_div (by positivity),
      show (2 : ℝ) ^ 256 = (2 ^ 128) ^ 2 by norm_num, Real.sqrt_sq (by positivity), zpow_sub₀ two_ne_zero, zpow_neg]
    field_simp
  rw [hroot]
  refine h.rootRounded .rne ?_ ?_ <;> rw [FFmt.place, show f32.mb = 23 from rfl] <;> omega

/-- A positive finite FP32 word unpacked. -/
theorem fv32_of_pos {x : Word} {p : ℚ} (h : finiteValue f32 x.toNat = some p) (hp : 0 < p) : ∃ m e, fv32 x = .fin false m e ∧
    p = m * 2 ^ e ∧ m ≠ 0 ∧ m < 2 ^ 24 ∧ -149 ≤ e ∧ e ≤ 105 := by
  obtain ⟨m, e, hu, hv, hlt, hlo, hhi⟩ := fv32_of_finite h
  have h2 : (0 : ℚ) ≤ m * 2 ^ e := by positivity
  cases hs : x.getLsbD 31 with
  | true =>
    rw [hs, if_pos rfl] at hv
    linarith
  | false =>
    rw [hs, if_neg Bool.false_ne_true, one_mul] at hv
    refine ⟨m, e, hs ▸ hu, hv, ?_, hlt, hlo, hhi⟩
    rintro rfl
    rw [hv, Nat.cast_zero, zero_mul] at hp
    exact hp.false

/-- FRSQ and FSQRT of a positive number. -/
theorem frsqW_fsqrtW_rounded (rm : RMode) {x : Word} {p : ℚ} (hx : finiteValue f32 x.toNat = some p) (hp : 0 < p) :
    RootRounded f32 .rne (1 / Real.sqrt p) ((frsqW x).1.toNat, (frsqW x).2) ∧
      RootRounded f32 rm (Real.sqrt p) ((fsqrtW rm x).1.toNat, (fsqrtW rm x).2) := by
  obtain ⟨m, e, hu, rfl, hm, hlt, hlo, hhi⟩ := fv32_of_pos hx hp
  have hr : frsqW x = w32 (rsqrtR m e) := by
    unfold frsqW
    rw [hu]
    exact (if_neg hm).trans (if_neg Bool.false_ne_true)
  have hs : fsqrtW rm x = w32 (sqrtR rm m e) := by
    unfold fsqrtW
    rw [hu]
    exact (if_neg hm).trans (if_neg Bool.false_ne_true)
  have hr' : (rsqrtR m e).1 < 2 ^ 32 := f32_round_lt ..
  have hs' : (sqrtR rm m e).1 < 2 ^ 32 := f32_round_lt ..
  rw [hr, hs, w32_toNat hr', w32_toNat hs']
  push_cast
  exact ⟨rsqrtR_rounded hm hlt hlo hhi, sqrtR_rounded rm hm hlt hlo hhi⟩

/-! The dot product of two and the scaling (R150, R156). -/

theorem half_eq (w : Word) (i : Nat) : half w i = w.toNat / 2 ^ (16 * i) % 2 ^ 16 := by
  rw [half, bits, show 16 * i + 15 + 1 - 16 * i = 16 by omega]

/-- A scale's exact value: its low 12 bits, all ones in the exponent field being NaN (R97). -/
theorem ue8m4_of_finite {x : Nat} (h : x / 16 % 256 ≠ 255) : ∃ m e, ue8m4 x = .fin false m e ∧ scaleValue x = m * 2 ^ e := by
  unfold ue8m4 scaleValue
  dsimp only
  rw [show nbits x 11 4 = x / 16 % 256 from rfl, show nbits x 3 0 = x % 16 by norm_num [nbits], if_neg h]
  split <;> exact ⟨_, _, rfl, rfl⟩

theorem ue8m4_low (x : Nat) : ue8m4 (x % 2 ^ 16) = ue8m4 (x % 2 ^ 12) := by
  have he : nbits (x % 2 ^ 16) 11 4 = nbits (x % 2 ^ 12) 11 4 := by norm_num [nbits]; omega
  have hm : nbits (x % 2 ^ 16) 3 0 = nbits (x % 2 ^ 12) 3 0 := by norm_num [nbits]
  unfold ue8m4
  rw [he, hm]

theorem scalW_rounded (rm : RMode) (k : Bool) (x y : Word) {p : ℚ} (hx : finiteValue f32 x.toNat = some p)
    (hsc : y.toNat / 2 ^ (if k then 16 else 0) % 2 ^ 12 / 16 ≠ 255) :
    let v := p * scaleValue (y.toNat / 2 ^ (if k then 16 else 0) % 2 ^ 12)
    RoundedOnce f32 rm v ((scalW rm k x y).1.toNat, (scalW rm k x y).2) ∧ (v = 0 → (scalW rm k x y).1 = zero32 (x.getLsbD 31)) := by
  intro v
  have hhalf : half y (if k then 1 else 0) = y.toNat / 2 ^ (if k then 16 else 0) % 2 ^ 16 := by rw [half_eq]; cases k <;> rfl
  obtain ⟨n, j, hsu, hsv⟩ := ue8m4_of_finite (x := y.toNat / 2 ^ (if k then 16 else 0) % 2 ^ 12)
    (by rwa [Nat.mod_eq_of_lt (by omega : y.toNat / 2 ^ (if k then 16 else 0) % 2 ^ 12 / 16 < 256)])
  obtain ⟨m, e, hxu, hxv, -⟩ := fv32_of_finite hx
  have hmul : (fv32 x).mul (ue8m4 (half y (if k then 1 else 0))) = .fin (x.getLsbD 31) (m * n) (e + j) := by
    rw [hhalf, ue8m4_low, hsu, hxu]
    cases x.getLsbD 31 <;> rfl
  have heq : scalW rm k x y = w32 (f32.round rm (x.getLsbD 31) (m * n) (e + j) false) := by
    unfold scalW
    dsimp only
    rw [hmul]
    rfl
  have hv : v = (if x.getLsbD 31 then -1 else 1) * ((m * n : Nat) * 2 ^ (e + j)) := by
    rw [show v = p * scaleValue _ from rfl, hsv, hxv, zpow_add₀ two_ne_zero]
    push_cast
    ring
  rw [heq, w32_toNat (f32_round_lt ..), hv]
  refine ⟨round_roundedOnce (by decide) (by decide) .., fun h => ?_⟩
  rw [FV.val_fin_eq_zero.mp h, f32.round_zero]
  cases x.getLsbD 31 <;> rfl

theorem pfmt_fields (f : PFmt) : (pfmt f).eb + (pfmt f).mb = 15 := by cases f <;> rfl

/-- PDOT2 of finite elements: one sum, rounded once to FP32. -/
theorem pdot2W_rounded (f : PFmt) (rm : RMode) (x y z : Word) {p0 q0 p1 q1 t : ℚ}
    (hx0 : finiteValue (pfmt f) (half x 0) = some p0) (hy0 : finiteValue (pfmt f) (half y 0) = some q0)
    (hx1 : finiteValue (pfmt f) (half x 1) = some p1) (hy1 : finiteValue (pfmt f) (half y 1) = some q1)
    (hz : finiteValue f32 z.toNat = some t) :
    let n (i : Nat) : Bool := (half x i).testBit 15 != (half y i).testBit 15
    RoundedOnce f32 rm (p0 * q0 + p1 * q1 + t) ((pdot2W (pfmt f) rm x y z).1.toNat, (pdot2W (pfmt f) rm x y z).2) ∧
    (p0 * q0 + p1 * q1 + t = 0 → (pdot2W (pfmt f) rm x y z).1 =
      zero32 (if p0 * q0 = 0 ∧ p1 * q1 = 0 ∧ n 0 = z.getLsbD 31 ∧ n 1 = z.getLsbD 31 then z.getLsbD 31 else rm == .rd)) := by
  intro n
  have hfin : ∀ v ∈ [((pfmt f).unpack (half x 0)).mul ((pfmt f).unpack (half y 0)),
      ((pfmt f).unpack (half x 1)).mul ((pfmt f).unpack (half y 1)), fv32 z], v.IsFin := by
    simp [(unpack_val hx0).1.mul (unpack_val hy0).1, (unpack_val hx1).1.mul (unpack_val hy1).1,
      show (fv32 z).IsFin from (unpack_val hz).1]
  have hval : ([((pfmt f).unpack (half x 0)).mul ((pfmt f).unpack (half y 0)),
      ((pfmt f).unpack (half x 1)).mul ((pfmt f).unpack (half y 1)), fv32 z].map FV.val).sum = p0 * q0 + p1 * q1 + t := by
    simp [FV.val_mul (unpack_val hx0).1 (unpack_val hy0).1, FV.val_mul (unpack_val hx1).1 (unpack_val hy1).1, (unpack_val hx0).2,
      (unpack_val hy0).2, (unpack_val hx1).2, (unpack_val hy1).2, show (fv32 z).val = t from (unpack_val hz).2, add_assoc]
  unfold pdot2W
  dsimp only
  rw [w32_toNat (sum_lt (f := f32) (by decide) rm hfin _)]
  refine ⟨hval ▸ sum_rounded (by decide) rm (by decide) hfin _, fun h => ?_⟩
  have hz0 : ∀ b, (fv32 z).isZeroOf b = true ↔ t = 0 ∧ z.getLsbD 31 = b := isZeroOf_unpack hz
  have h0 : ∀ b, (((pfmt f).unpack (half x 0)).mul ((pfmt f).unpack (half y 0))).isZeroOf b = true ↔ p0 * q0 = 0 ∧ n 0 = b := fun b => by
    rw [isZeroOf_mul_unpack hx0 hy0, pfmt_fields]
  have h1 : ∀ b, (((pfmt f).unpack (half x 1)).mul ((pfmt f).unpack (half y 1))).isZeroOf b = true ↔ p1 * q1 = 0 ∧ n 1 = b := fun b => by
    rw [isZeroOf_mul_unpack hx1 hy1, pfmt_fields]
  have hsign : zeroSign rm [((pfmt f).unpack (half x 0)).mul ((pfmt f).unpack (half y 0)),
      ((pfmt f).unpack (half x 1)).mul ((pfmt f).unpack (half y 1)), fv32 z] =
      if p0 * q0 = 0 ∧ p1 * q1 = 0 ∧ n 0 = z.getLsbD 31 ∧ n 1 = z.getLsbD 31 then z.getLsbD 31 else rm == .rd := by
    split
    · next hall =>
      obtain ⟨hp, hq, hn0, hn1⟩ := hall
      refine zeroSign_of_all rm _ (List.cons_ne_nil _ _) ?_
      simp only [List.forall_mem_cons, List.not_mem_nil, false_imp_iff, implies_true, and_true, h0, h1, hz0]
      exact ⟨⟨hp, hn0⟩, ⟨hq, hn1⟩, by linarith⟩
    · next hnot =>
      refine zeroSign_of_mixed rm fun b => ?_
      by_contra hc
      simp only [List.mem_cons, List.not_mem_nil, or_false, exists_eq_or_imp, exists_eq_left, h0, h1, hz0, not_or, not_not] at hc
      obtain ⟨⟨hp, hn0⟩, ⟨hq, hn1⟩, -, hb⟩ := hc
      exact hnot ⟨hp, hq, hn0.trans hb.symm, hn1.trans hb.symm⟩
  rw [sum_zero rm hfin _ (hval.trans h), hsign]
  generalize (if p0 * q0 = 0 ∧ p1 * q1 = 0 ∧ n 0 = z.getLsbD 31 ∧ n 1 = z.getLsbD 31 then z.getLsbD 31 else rm == .rd) = b
  cases b <;> rfl

/-- The formats of the computing instructions. -/
theorem computing_format {f : FFmt} (h : f ∈ [f32, f16, bf16]) : 1 ≤ f.mb ∧ 1 ≤ f.eb := by
  simp only [List.mem_cons, List.not_mem_nil, or_false] at h
  rcases h with rfl | rfl | rfl <;> decide

/-- Settles O8: sums and fused sums are exact integer sums at one exponent, rounded once by `round_roundedOnce`; quotients and roots are
rounded from their whole part and whether there is a rest. -/
theorem finiteResultsRoundOnce : Obligations.FiniteResultsRoundOnce := by
  refine ⟨fun f rm x y z p q t hf hx hy hz => ?_, fun f rm x y z p0 q0 p1 q1 t hx0 hy0 hx1 hy1 hz => ?_,
    fun x p hx hp => frcpW_rounded hx hp, fun rm x p hx hp => frsqW_fsqrtW_rounded rm hx hp,
    fun rm k x y p hx hsc => scalW_rounded rm k x y hx hsc⟩
  · obtain ⟨hmb, heb⟩ := computing_format hf
    refine ⟨⟨add_rounded hmb heb rm hx hy, mul_rounded hmb heb rm hx hy, sub_rounded hmb heb rm hx hy, fma_rounded hmb heb rm hx hy hz⟩,
      fun h => congrArg Prod.fst (add_zero_sign rm hx hy h), fun h => congrArg Prod.fst (sub_zero_sign rm hx hy h),
      fun h => congrArg Prod.fst (mul_zero_sign rm hx hy h), fun h => congrArg Prod.fst (fma_zero_sign rm hx hy hz h)⟩
  · simp only [← half_eq] at *
    exact pdot2W_rounded f rm x y z hx0 hy0 hx1 hy1 hz

end Sys2Proof.Machine
end

section
/-! PROOFS. Conversions (R103, R107, R153). -/

namespace Sys2Proof.Machine

/-! A floating number rounded to an integer (R105, R107). -/

/-- A magnitude given by its sign, as an integer. -/
def signedCount (neg : Bool) (n : Nat) : ℤ := if neg then -(n : ℤ) else n

theorem floor_count {t : Nat} {frac : ℚ} (hf0 : 0 ≤ frac) (hf1 : frac < 1) : ⌊(t + frac : ℚ)⌋ = t :=
  Int.floor_eq_iff.mpr ⟨by rw [Int.cast_natCast]; linarith, by rw [Int.cast_natCast]; linarith⟩

theorem ceil_count {t n : Nat} {frac : ℚ} (hf0 : 0 ≤ frac) (hf1 : frac < 1) (hup : 0 < frac → n = t + 1) (hdown : ¬0 < frac → n = t) :
    ⌈(t + frac : ℚ)⌉ = n := by
  rw [Int.ceil_eq_iff, Int.cast_natCast]
  rcases hf0.eq_or_lt with h0 | hpos
  · rw [hdown (by rw [← h0]; exact lt_irrefl _), ← h0, add_zero]
    exact ⟨sub_one_lt _, le_rfl⟩
  · rw [hup hpos, Nat.cast_succ]
    exact ⟨by linarith, by linarith⟩

/-- The nearest whole number of quanta, the even one between two. -/
theorem nearest_count {t n : Nat} {frac : ℚ} (hf0 : 0 ≤ frac) (hf1 : frac < 1) (hup : goesUp .rne false t frac → n = t + 1)
    (hdown : ¬goesUp .rne false t frac → n = t) : |(t + frac : ℚ) - n| ≤ 1 / 2 ∧ (|(t + frac : ℚ) - n| = 1 / 2 → n % 2 = 0) := by
  by_cases hgo : goesUp .rne false t frac
  · have hhalf : 1 / 2 ≤ frac := hgo.elim le_of_lt fun h => h.1.ge
    have hn := hup hgo
    rw [hn, Nat.cast_succ, abs_of_nonpos (by linarith)]
    refine ⟨by linarith, fun h => ?_⟩
    have hodd := hgo.resolve_left (by linarith)
    omega
  · have hle : frac ≤ 1 / 2 := not_lt.mp fun h => hgo (.inl h)
    have hn := hdown hgo
    rw [hn, add_sub_cancel_left, abs_of_nonneg hf0]
    refine ⟨hle, fun h => ?_⟩
    have : ¬(t : ℤ) % 2 = 1 := fun ht => hgo (.inr ⟨h, ht⟩)
    omega

/-- The integer that the model rounds a number to, and when that differs from it. -/
theorem quantise_intRounded (rm : RMode) (neg : Bool) (m : Nat) (e : ℤ) :
    let p : ℚ := (if neg then -1 else 1) * (m * 2 ^ e)
    let r := quantise rm neg m e false 0
    IntRounded rm p (signedCount neg r.1) ∧ (r.2 = true ↔ ((signedCount neg r.1 : ℤ) : ℚ) ≠ p) := by
  dsimp only
  obtain ⟨frac, hx, hf0, hf1, hinx, hup, hdown⟩ := quantise_spec (K := ℚ) (q := 0) rm neg m (e := e) (sticky := false) le_rfl
    one_pos (iff_of_false Bool.false_ne_true fun h => h rfl) (fun h => by cases h)
  rw [add_zero, zpow_zero, div_one] at hx
  rw [hx]
  generalize wholeQuanta m e 0 = t at *
  generalize quantise rm neg m e false 0 = r at *
  have ht : (0 : ℚ) ≤ t := Nat.cast_nonneg t
  have hfloor := floor_count (t := t) hf0 hf1
  constructor
  · cases rm with
    | rne | sr =>
      obtain ⟨hnear, heven⟩ := nearest_count hf0 hf1 hup hdown
      cases neg with
      | false =>
        simp only [IntRounded, signedCount, Bool.false_eq_true, if_false, one_mul, Int.cast_natCast]
        exact ⟨hnear, fun h => by have := heven h; omega⟩
      | true =>
        have habs : |-1 * (t + frac : ℚ) - ((-(r.1 : ℤ) : ℤ) : ℚ)| = |t + frac - r.1| := by
          rw [← abs_neg]
          congr 1
          push_cast
          ring
        simp only [IntRounded, signedCount, if_true, habs]
        exact ⟨hnear, fun h => by have := heven h; omega⟩
    | rz =>
      rw [hdown id]
      cases neg with
      | false => simp only [IntRounded, signedCount, Bool.false_eq_true, if_false, one_mul, hfloor, if_pos (show (0 : ℚ) ≤ t + frac by linarith)]
      | true =>
        simp only [IntRounded, signedCount, if_true, neg_one_mul, Int.ceil_neg, hfloor]
        split
        · next h =>
          have h0 : (t : ℚ) = 0 := by linarith
          have h1 : frac = 0 := by linarith
          rw [h1, Nat.cast_eq_zero.mp h0]
          simp
        · rfl
    | ru =>
      cases neg with
      | false =>
        simp only [IntRounded, signedCount, Bool.false_eq_true, if_false, one_mul]
        exact (ceil_count hf0 hf1 (fun h => hup ⟨h, rfl⟩) fun h => hdown fun hg => h hg.1).symm
      | true =>
        rw [hdown fun h => Bool.false_ne_true h.2.symm]
        simp only [IntRounded, signedCount, if_true, neg_one_mul, Int.ceil_neg, hfloor]
    | rd =>
      cases neg with
      | false =>
        rw [hdown fun h => Bool.false_ne_true h.2]
        simp only [IntRounded, signedCount, Bool.false_eq_true, if_false, one_mul, hfloor]
      | true =>
        simp only [IntRounded, signedCount, if_true, neg_one_mul, Int.floor_neg]
        rw [ceil_count hf0 hf1 (fun h => hup ⟨h, rfl⟩) fun h => hdown fun hg => h hg.1]
  · have hne : frac ≠ 0 ↔ (r.1 : ℚ) ≠ t + frac := by
      rcases em (goesUp rm neg t frac) with hu | hu
      · rw [hup hu, Nat.cast_succ]
        exact iff_of_true hu.pos.ne' (by intro h; linarith)
      · rw [hdown hu, Ne, Ne, left_eq_add]
    rw [hinx, hne]
    cases neg with
    | false => simp [signedCount]
    | true => simp only [signedCount, if_true, neg_one_mul, Int.cast_neg, Int.cast_natCast, Ne, neg_inj]

/-- A number of more than 40 bits stays so large. -/
theorem large_quantise (rm : RMode) (neg : Bool) {m : Nat} (hm : m ≠ 0) {e : ℤ} (h : 40 < e + bitLen m) :
    2 ^ 40 ≤ (quantise rm neg m e false 0).1 := by
  obtain ⟨frac, hx, hf0, hf1, -, hup, hdown⟩ := quantise_spec (K := ℚ) (q := 0) rm neg m (e := e) (sticky := false) le_rfl
    one_pos (iff_of_false Bool.false_ne_true fun h => h rfl) (fun h => by cases h)
  rw [add_zero, zpow_zero, div_one] at hx
  have hbig := (hasMagnitude_exact (K := ℚ) f32 hm e).binade.1
  have hpow : (2 : ℚ) ^ 40 ≤ 2 ^ (f32.place m e + f32.mb) := by
    rw [← zpow_natCast]
    refine zpow_le_zpow_right₀ one_le_two ?_
    rw [FFmt.place]
    push_cast
    omega
  have ht : 2 ^ 40 ≤ wholeQuanta m e 0 := by
    have : (2 ^ 40 : ℚ) < (wholeQuanta m e 0 + 1 : Nat) := by
      push_cast
      linarith
    exact Nat.le_of_lt_succ (by exact_mod_cast this)
  rcases em (goesUp rm neg (wholeQuanta m e 0) frac) with hu | hu
  · rw [hup hu]
    exact ht.trans (Nat.le_succ _)
  · rw [hdown hu]
    exact ht

/-! Clamping (R153). -/

theorem nfRange_le (f : NumFmt) : (nfRange f).1 ≤ (nfRange f).2 ∧ -(2 ^ 40) < (nfRange f).1 ∧ (nfRange f).2 < 2 ^ 40 := by
  cases f <;> decide

theorem nfClamp_eq (f : NumFmt) (n : ℤ) : (nfClamp f n).1 = nfOfInt f (max (nfRange f).1 (min n (nfRange f).2)) ∧
    ((nfClamp f n).2 = true ↔ n < (nfRange f).1 ∨ (nfRange f).2 < n) := by
  obtain ⟨hle, -⟩ := nfRange_le f
  unfold nfClamp
  split
  · next h => exact ⟨by rw [min_eq_left (by omega), max_eq_left h.le], iff_of_true rfl (.inl h)⟩
  · split
    · next h => exact ⟨by rw [min_eq_right h.le, max_eq_right hle], iff_of_true rfl (.inr h)⟩
    · next h1 h2 => exact ⟨by rw [min_eq_left (by omega), max_eq_right (by omega)], iff_of_false Bool.false_ne_true (by omega)⟩

/-! NaN and the infinities (R94, R95). -/

theorem unpack_nan {f : FFmt} {x : Nat} (h : NanElem f x) : f.unpack x = .nan := by
  obtain ⟨he, hm⟩ := h
  unfold FFmt.unpack
  dsimp only
  rw [FFmt.emax, he]
  cases hf : f.noInf with
  | true =>
    rw [hf, if_pos rfl] at hm
    simp [hm]
  | false =>
    rw [hf, if_neg Bool.false_ne_true] at hm
    simp [hm]

theorem unpack_inf {f : FFmt} (hf : f.noInf = false) (neg : Bool) :
    f.unpack (signAt f neg + (2 ^ f.eb - 1) * 2 ^ f.mb) = .inf neg := by
  have hlt : (2 ^ f.eb - 1) * 2 ^ f.mb < 2 ^ (f.eb + f.mb) := by
    rw [Nat.pow_add]
    exact Nat.mul_lt_mul_of_pos_right (Nat.sub_lt (Nat.two_pow_pos _) one_pos) (Nat.two_pow_pos _)
  obtain ⟨hmag, -, hdiv⟩ := signBit_add f (neg := neg) hlt
  obtain ⟨hE, hm⟩ := f.fields (f.signBit neg + (2 ^ f.eb - 1) * 2 ^ f.mb)
  rw [hmag, Nat.mul_div_cancel _ (Nat.two_pow_pos _)] at hE
  rw [hmag, Nat.mul_mod_left] at hm
  unfold FFmt.unpack
  dsimp only
  rw [signAt_eq, ← hE, ← hm, hdiv, hf, FFmt.emax]
  cases neg <;> simp

/-! Conversions by the kinds of their formats (R153). -/

section
variable {src dst : NumFmt} (rm : RMode) (sat : Bool) (x : Nat)

theorem cvtElem_ff {fs ft : FFmt} (hs : nfFmt src = some fs) (ht : nfFmt dst = some ft) :
    cvtElem src dst rm sat x = cvtFF ft rm sat (fs.unpack x) := by
  unfold cvtElem
  rw [hs, ht]

theorem cvtElem_fi {fs : FFmt} (hs : nfFmt src = some fs) (ht : nfFmt dst = none) :
    cvtElem src dst rm sat x = cvtFI dst rm (fs.unpack x) := by
  unfold cvtElem
  rw [hs, ht]

theorem cvtElem_if {ft : FFmt} (hs : nfFmt src = none) (ht : nfFmt dst = some ft) : cvtElem src dst rm sat x =
    let v := nfInt src x
    let r := ft.round rm (decide (v < 0)) v.natAbs 0 false
    if sat && r.2.ovf then (ft.signBit (decide (v < 0)) + ft.maxMag, r.2) else r := by
  unfold cvtElem
  rw [hs, ht]

theorem cvtElem_ii (hs : nfFmt src = none) (ht : nfFmt dst = none) : cvtElem src dst rm sat x =
    ((nfClamp dst (nfInt src x)).1, { sat := (nfClamp dst (nfInt src x)).2 }) := by
  unfold cvtElem
  rw [hs, ht]

end

theorem cvtFF_fin (t : FFmt) (rm : RMode) (sat neg : Bool) (m : Nat) (e : ℤ) : cvtFF t rm sat (.fin neg m e) =
    let r := t.round rm neg m e false
    if sat && r.2.ovf then (t.signBit neg + t.maxMag, r.2) else r := rfl

/-- Floating to floating (R107). -/
theorem cvtFF_rounded {ft : FFmt} (hmb : 1 ≤ ft.mb) (heb : 1 ≤ ft.eb) (rm : RMode) (neg : Bool) (m : Nat) (e : ℤ) :
    let p : ℚ := (if neg then -1 else 1) * (m * 2 ^ e)
    RoundedOnce ft rm p (cvtFF ft rm false (.fin neg m e)) ∧
    (∃ u, RoundedOnce ft rm p u ∧ cvtFF ft rm true (.fin neg m e) =
      (if u.2.ovf then signAt ft (decide (p < 0)) + ft.maxMag else u.1, u.2)) ∧
    (p = 0 → ∀ sat, cvtFF ft rm sat (.fin neg m e) = (signAt ft neg, Flags.none)) := by
  intro p
  have hround := round_roundedOnce hmb heb rm neg m e
  refine ⟨hround, ⟨_, hround, ?_⟩, fun h sat => ?_⟩
  · by_cases hm : m = 0
    · rw [hm]
      rfl
    · have hpos : (0 : ℚ) < m * 2 ^ e := mul_pos (by exact_mod_cast Nat.pos_of_ne_zero hm) (by positivity)
      have hneg : decide (p < 0) = neg := by
        cases neg with
        | false => exact decide_eq_false (by simpa [p] using hpos.le)
        | true => exact decide_eq_true (by simpa [p] using hpos)
      rw [hneg, cvtFF_fin]
      dsimp only
      rw [Bool.true_and]
      split <;> rfl
  · have hm : m = 0 := FV.val_fin_eq_zero.mp h
    rw [hm, cvtFF_fin, ft.round_zero]
    cases sat <;> rfl

/-- Floating to integer (R107): rounded and clamped. -/
theorem cvtFI_rounded (dst : NumFmt) (rm : RMode) (neg : Bool) {m : Nat} {e : ℤ} (he : m = 0 → e ≤ 40) :
    let p : ℚ := (if neg then -1 else 1) * (m * 2 ^ e)
    let r := cvtFI dst rm (.fin neg m e)
    ∃ n, IntRounded rm p n ∧ r.1 = nfOfInt dst (max (nfRange dst).1 (min n (nfRange dst).2)) ∧
      (r.2.sat = true ↔ n < (nfRange dst).1 ∨ (nfRange dst).2 < n) ∧ (r.2.inx = true ↔ (n : ℚ) ≠ p ∧ r.2.sat = false) := by
  intro p r
  obtain ⟨hround, hinx⟩ := quantise_intRounded rm neg m e
  obtain ⟨hclamp, hsat⟩ := nfClamp_eq dst (signedCount neg (quantise rm neg m e false 0).1)
  refine ⟨_, hround, ?_⟩
  have hr : r = if 40 < e + bitLen m then (nfOfInt dst (if neg then (nfRange dst).1 else (nfRange dst).2), { sat := true }) else
      ((nfClamp dst (signedCount neg (quantise rm neg m e false 0).1)).1,
        { sat := (nfClamp dst (signedCount neg (quantise rm neg m e false 0).1)).2,
          inx := (quantise rm neg m e false 0).2 && !(nfClamp dst (signedCount neg (quantise rm neg m e false 0).1)).2 }) := rfl
  by_cases hbig : 40 < e + bitLen m
  · have hm : m ≠ 0 := by
      rintro rfl
      have := he rfl
      rw [bitLen, if_pos rfl] at hbig
      omega
    have hlarge := large_quantise rm neg hm hbig
    obtain ⟨hle, hlo, hhi⟩ := nfRange_le dst
    generalize (quantise rm neg m e false 0).1 = n at *
    rw [hr, if_pos hbig]
    cases neg with
    | false =>
      have hn : (nfRange dst).2 < signedCount false n := by rw [signedCount, if_neg Bool.false_ne_true]; omega
      exact ⟨by rw [min_eq_right hn.le, max_eq_right hle]; rfl, iff_of_true rfl (.inr hn),
        iff_of_false Bool.false_ne_true fun h => Bool.false_ne_true h.2.symm⟩
    | true =>
      have hn : signedCount true n < (nfRange dst).1 := by rw [signedCount, if_pos rfl]; omega
      exact ⟨by rw [min_eq_left (by omega), max_eq_left hn.le]; rfl, iff_of_true rfl (.inl hn),
        iff_of_false Bool.false_ne_true fun h => Bool.false_ne_true h.2.symm⟩
  · rw [hr, if_neg hbig]
    refine ⟨hclamp, hsat, ?_⟩
    rw [Bool.and_eq_true, hinx, Bool.not_eq_true']

/-- Integer to floating (R107). -/
theorem round_int_rounded {ft : FFmt} (hmb : 1 ≤ ft.mb) (heb : 1 ≤ ft.eb) (rm : RMode) (v : ℤ) :
    RoundedOnce ft rm v (ft.round rm (decide (v < 0)) v.natAbs 0 false) := by
  have h := round_roundedOnce hmb heb rm (decide (v < 0)) v.natAbs 0
  rwa [sign_natAbs, zpow_zero, mul_one] at h

/-- The exponent of a zero of a format of CVT. -/
theorem nfFmt_qmin_le {src : NumFmt} {fs : FFmt} (h : nfFmt src = some fs) : fs.qmin ≤ 40 ∧ 1 ≤ fs.mb := by
  cases src <;> cases h <;> decide

/-- Settles O9: by the kinds of the two formats; a finite element is rounded by `round_roundedOnce`, or to an integer by
`quantise_intRounded`, and clamped. -/
theorem conversionResults : Obligations.ConversionResults := by
  intro src dst rm sat x _ _ r lo hi
  refine ⟨fun fs ft p hs ht hx => ?_, fun fs p hs ht hx => ?_, fun ft hs ht => ?_, fun hs ht => ?_, fun fs hs hn => ?_,
    fun fs neg hs hinf hx => ?_⟩
  · obtain ⟨hmb, heb, -⟩ := nfFmt_spec ht
    obtain ⟨m, e, hu, rfl, -⟩ := unpack_of_finite fs hx
    obtain ⟨hplain, hsat, hzero⟩ := cvtFF_rounded hmb heb rm (x.testBit (fs.eb + fs.mb)) m e
    simp only [r, cvtElem_ff rm sat x hs ht, hu]
    refine ⟨?_, ?_, fun h => hzero h sat⟩
    · rintro rfl
      exact hplain
    · rintro rfl
      exact hsat
  · obtain ⟨m, e, hu, rfl, -, he⟩ := unpack_of_finite fs hx
    obtain ⟨hqmin, hmb⟩ := nfFmt_qmin_le hs
    simp only [r, cvtElem_fi rm sat x hs ht, hu]
    refine cvtFI_rounded dst rm _ ?_
    rintro rfl
    have := Nat.two_pow_pos fs.mb
    omega
  · obtain ⟨hmb, heb, -⟩ := nfFmt_spec ht
    have hround := round_int_rounded hmb heb rm (nfInt src x)
    simp only [r, cvtElem_if rm sat x hs ht]
    refine ⟨?_, ?_, fun h0 => ?_⟩
    · rintro rfl
      exact hround
    · rintro rfl
      refine ⟨_, hround, ?_⟩
      rw [Bool.true_and]
      split
      · next hovf => exact ⟨rfl, fun h => by rw [hovf] at h; cases h⟩
      · exact ⟨rfl, fun _ => rfl⟩
    · rw [h0]
      cases sat <;> rfl
  · obtain ⟨hclamp, hsat⟩ := nfClamp_eq dst (nfInt src x)
    simp only [r, cvtElem_ii rm sat x hs ht]
    exact ⟨hclamp, hsat⟩
  · cases ht : nfFmt dst with
    | some ft =>
      obtain ⟨-, -, hnan, -⟩ := nfFmt_spec ht
      simp only [r, cvtElem_ff rm sat x hs ht, unpack_nan hn, ← hnan]
      rfl
    | none =>
      simp only [r, cvtElem_fi rm sat x hs ht, unpack_nan hn]
      cases dst <;> cases ht <;> rfl
  · have hu := unpack_inf hinf neg
    rw [← hx] at hu
    cases ht : nfFmt dst with
    | some ft =>
      obtain ⟨-, -, -, h7F⟩ := nfFmt_spec ht
      simp only [r, cvtElem_ff rm sat x hs ht, hu, cvtFF]
      split
      · next h => rw [h7F h]
      · next h => rw [FFmt.inf, FFmt.infMag, if_neg h]; rfl
    | none =>
      simp only [r, cvtElem_fi rm sat x hs ht, hu, cvtFI]
      cases neg <;> rfl

end Sys2Proof.Machine
end

section
/-! PROOFS. Special values, order and class of FP32 (R94, R102, R106, R109, R143 to R146). -/

namespace Sys2Proof.Machine

/-! NaN, the infinities and zeros of FP32. -/

theorem getLsbD_31 (x : Word) : x.getLsbD 31 = decide (2 ^ 31 ≤ x.toNat) := by
  have hx := x.isLt
  rw [BitVec.getLsbD, Nat.testBit_eq_decide_div_mod_eq]
  exact decide_eq_decide.mpr (by omega)

theorem isNan32_iff_nanElem (x : Word) : IsNan32 x ↔ NanElem f32 x.toNat := by
  unfold IsNan32 NanElem
  norm_num [f32]
  omega

theorem isNan_fv32 (x : Word) : (fv32 x).isNan = true ↔ IsNan32 x := by
  refine ⟨fun h => ?_, fun h => by rw [show fv32 x = .nan from unpack_nan32 h]; rfl⟩
  rw [isNan32_iff_nanElem]
  unfold fv32 FFmt.unpack at h
  norm_num [f32, FFmt.emax] at h
  unfold NanElem
  norm_num [f32]
  split at h
  · next he =>
    split at h
    · cases h
    · next hm => exact ⟨he, hm⟩
  · split at h <;> cases h

theorem isNan_fv32_false {x : Word} (h : ¬IsNan32 x) : (fv32 x).isNan = false := by
  rw [← Bool.not_eq_true, isNan_fv32]
  exact h

theorem fv32_inf (n : Bool) : fv32 (inf32 n) = .inf n := unpack_inf32 n

theorem finiteValue_zero32 (n : Bool) : finiteValue f32 (zero32 n).toNat = some 0 := by
  have h := finiteValue_signBit_add f32 (by decide) (by decide) (neg := n) (mag := 0) (Nat.zero_le _)
  rw [f32.magVal_zero, mul_zero] at h
  rw [← h]
  cases n <;> rfl

theorem w32_zero (n : Bool) : w32 (f32.signBit n, Flags.none) = (zero32 n, Flags.none) := by cases n <;> rfl

/-! Sums and products with NaN and infinities (R109). -/

theorem sum_nan (f : FFmt) (mode : RMode) {l : List FV} (h : l.any FV.isNan = true) (nanIn : Bool) :
    f.sum mode l nanIn = (f.nan, { inv := !nanIn }) := by
  unfold FFmt.sum
  rw [h, Bool.true_or, if_pos rfl]

theorem FV.mul_nan {x y : FV} (h : (x.isNan || y.isNan) = true) : x.mul y = .nan := by
  rcases Bool.or_eq_true_iff.mp h with hx | hy
  · cases x with
    | nan => rfl
    | inf | fin => cases hx
  · cases y with
    | nan => cases x <;> rfl
    | inf | fin => cases hy

section
variable (rm : RMode) {x y z : Word}

theorem add_nan (h : IsNan32 x ∨ IsNan32 y) : w32 (f32.add rm x.toNat y.toNat) = nanQuiet ∧ w32 (f32.sub rm x.toNat y.toNat) = nanQuiet ∧
    w32 (f32.mul rm x.toNat y.toNat) = nanQuiet := by
  have hnan : ((fv32 x).isNan || (fv32 y).isNan) = true := by rwa [Bool.or_eq_true, isNan_fv32, isNan_fv32]
  have hneg : ∀ v : FV, v.neg.isNan = v.isNan := fun v => by cases v <;> rfl
  have hadd : f32.add rm x.toNat y.toNat = (f32.nan, { inv := !((fv32 x).isNan || (fv32 y).isNan) }) :=
    sum_nan f32 rm (l := [fv32 x, fv32 y]) (by simpa using hnan) _
  have hsub : f32.sub rm x.toNat y.toNat = (f32.nan, { inv := !((fv32 x).isNan || (fv32 y).isNan) }) :=
    sum_nan f32 rm (l := [fv32 x, (fv32 y).neg]) (by simpa [hneg] using hnan) _
  have hmul : f32.mul rm x.toNat y.toNat = f32.value rm ((fv32 x).mul (fv32 y)) ((fv32 x).isNan || (fv32 y).isNan) := rfl
  rw [hadd, hsub, hmul, FV.mul_nan hnan, hnan]
  exact ⟨rfl, rfl, rfl⟩

theorem fma_nan (h : IsNan32 x ∨ IsNan32 y ∨ IsNan32 z) : w32 (f32.fma rm x.toNat y.toNat z.toNat) = nanQuiet := by
  have hnan : ((fv32 x).isNan || (fv32 y).isNan || (fv32 z).isNan) = true := by
    rwa [Bool.or_eq_true, Bool.or_eq_true, isNan_fv32, isNan_fv32, isNan_fv32, or_assoc]
  have hany : [(fv32 x).mul (fv32 y), fv32 z].any FV.isNan = true := by
    rcases Bool.or_eq_true_iff.mp hnan with hxy | hz
    · rw [FV.mul_nan hxy]
      rfl
    · simp [hz]
  have hfma : f32.fma rm x.toNat y.toNat z.toNat = (f32.nan, { inv := !((fv32 x).isNan || (fv32 y).isNan || (fv32 z).isNan) }) :=
    sum_nan f32 rm hany _
  rw [hfma, hnan]
  rfl

/-- A sum with one infinity, or with two of one sign, is that infinity. -/
theorem sum_inf (f : FFmt) (l : List FV) (m : Bool) (nanIn : Bool) (hm : .inf m ∈ l) (hn : .inf (!m) ∉ l) (hnan : l.any FV.isNan = false) :
    f.sum rm l nanIn = (f.inf m, Flags.none) := by
  have h1 : l.contains (.inf m) = true := List.contains_iff_mem.mpr hm
  have h2 : l.contains (.inf !m) = false := by rwa [Bool.eq_false_iff, Ne, List.contains_iff_mem]
  unfold FFmt.sum
  cases m with
  | false => rw [hnan, h1, show l.contains (.inf true) = false from h2]; rfl
  | true => rw [hnan, h1, show l.contains (.inf false) = false from h2]; rfl

end

/-! What FADD, FSUB, FMUL and FFMA make of infinities and zeros. -/

section
variable (rm : RMode) (m n : Bool)

theorem add_inf_inf : w32 (f32.add rm (inf32 m).toNat (inf32 n).toNat) = if m = n then (inf32 m, Flags.none) else nanInvalid := by
  have h : f32.add rm (inf32 m).toNat (inf32 n).toNat = f32.sum rm [.inf m, .inf n] false := by
    unfold FFmt.add
    rw [unpack_inf32, unpack_inf32]
    rfl
  rw [h]
  cases m <;> cases n <;> rfl

theorem sub_inf_inf : w32 (f32.sub rm (inf32 m).toNat (inf32 n).toNat) = if m = n then nanInvalid else (inf32 m, Flags.none) := by
  have h : f32.sub rm (inf32 m).toNat (inf32 n).toNat = f32.sum rm [.inf m, .inf !n] false := by
    unfold FFmt.sub
    rw [unpack_inf32, unpack_inf32]
    rfl
  rw [h]
  cases m <;> cases n <;> rfl

theorem unpack_zero32 : f32.unpack (zero32 m).toNat = .fin m 0 (-149) := by cases m <;> decide

theorem mul_zero_inf : w32 (f32.mul rm (zero32 m).toNat (inf32 n).toNat) = nanInvalid ∧
    w32 (f32.mul rm (inf32 m).toNat (zero32 n).toNat) = nanInvalid ∧
    w32 (f32.mul rm (inf32 m).toNat (inf32 n).toNat) = (inf32 (m != n), Flags.none) := by
  unfold FFmt.mul
  rw [unpack_inf32, unpack_inf32, unpack_zero32, unpack_zero32]
  exact ⟨rfl, rfl, by cases m <;> cases n <;> rfl⟩

theorem fma_zero_inf {z : Word} (hz : ¬IsNan32 z) : w32 (f32.fma rm (zero32 m).toNat (inf32 n).toNat z.toNat) = nanInvalid := by
  unfold FFmt.fma
  rw [unpack_inf32, unpack_zero32]
  dsimp only
  rw [show (f32.unpack z.toNat).isNan = false from isNan_fv32_false hz, sum_nan f32 rm (by rfl)]
  rfl

theorem add_zero_zero : w32 (f32.add rm (zero32 m).toNat (zero32 n).toNat) =
    (if m = n then zero32 m else zero32 (rm == .rd), Flags.none) := by
  have hsign : ∀ b : Bool, (zero32 b).toNat.testBit (f32.eb + f32.mb) = b := by decide
  rw [add_zero_sign rm (finiteValue_zero32 m) (finiteValue_zero32 n) (add_zero 0), w32_zero, hsign, hsign, decide_eq_true rfl,
    Bool.true_and]
  cases m <;> cases n <;> rfl

section
variable {x : Word} {p : ℚ} (hx : finiteValue f32 x.toNat = some p)
include hx

theorem add_inf_finite : w32 (f32.add rm (inf32 m).toNat x.toNat) = (inf32 m, Flags.none) ∧
    w32 (f32.add rm x.toNat (inf32 m).toNat) = (inf32 m, Flags.none) := by
  obtain ⟨s, k, e, hu⟩ := (unpack_val hx).1
  have hinf : w32 (f32.inf m, Flags.none) = (inf32 m, Flags.none) := by cases m <;> rfl
  unfold FFmt.add
  rw [unpack_inf32, hu]
  dsimp only
  rw [sum_inf rm f32 [.inf m, .fin s k e] m _ (by simp) (by simp) rfl, sum_inf rm f32 [.fin s k e, .inf m] m _ (by simp) (by simp) rfl]
  exact ⟨hinf, hinf⟩

theorem sub_same (hp : p ≠ 0) : w32 (f32.sub rm x.toNat x.toNat) = (zero32 (rm == .rd), Flags.none) := by
  rw [sub_zero_sign rm hx hx (sub_self p), decide_eq_false hp, Bool.false_and, if_neg Bool.false_ne_true, w32_zero]

theorem mul_inf_finite (hp : p ≠ 0) : w32 (f32.mul rm (inf32 m).toNat x.toNat) = (inf32 (m != x.getLsbD 31), Flags.none) := by
  obtain ⟨k, e, hu, hv, -⟩ := fv32_of_finite hx
  have hk : k ≠ 0 := by
    rintro rfl
    exact hp (by rw [hv, Nat.cast_zero, zero_mul, mul_zero])
  have hmul : (FV.inf m).mul (.fin (x.getLsbD 31) k e) = .inf (m != x.getLsbD 31) := if_neg hk
  unfold FFmt.mul
  rw [unpack_inf32, show f32.unpack x.toNat = _ from hu]
  dsimp only
  rw [hmul]
  generalize (m != x.getLsbD 31) = b
  cases b <;> rfl

end

end

/-! Order (R102, R144, R145). -/

/-- Words of one value: the same word, or two zeros. -/
def SameValue (x y : Word) : Prop := x = y ∨ x.toNat % 2 ^ 31 = 0 ∧ y.toNat % 2 ^ 31 = 0

theorem place32_eq (x : Word) :
    place32 x = if 2 ^ 31 ≤ x.toNat then -((x.toNat % 2 ^ 31 : Nat) : ℤ) - 1 else ((x.toNat % 2 ^ 31 : Nat) : ℤ) := by
  rw [place32, getLsbD_31]
  simp only [decide_eq_true_eq]
  split
  · rfl
  · rw [Nat.mod_eq_of_lt (by omega)]

theorem place32_inj {x y : Word} (h : place32 x = place32 y) : x = y := by
  have hx := x.isLt
  have hy := y.isLt
  rw [place32_eq, place32_eq] at h
  refine BitVec.eq_of_toNat_eq ?_
  split at h <;> split at h <;> omega

theorem isZero_fv32 {x : Word} (h : ¬IsNan32 x) : (fv32 x).isZero = true ↔ x.toNat % 2 ^ 31 = 0 := by
  unfold IsNan32 at h
  unfold fv32 FFmt.unpack
  norm_num [f32, FFmt.emax]
  split
  · split
    · exact iff_of_false Bool.false_ne_true (by omega)
    · omega
  · split
    · simp only [FV.isZero, beq_iff_eq]
      omega
    · simp only [FV.isZero, beq_iff_eq]
      omega

/-- The value of a finite word, by its sign and its magnitude. -/
theorem finiteValue_word {x : Word} {p : ℚ} (h : finiteValue f32 x.toNat = some p) :
    p = (if 2 ^ 31 ≤ x.toNat then -1 else 1) * f32.magVal (x.toNat % 2 ^ 31) := by
  rw [finiteValue_eq f32 (by decide) (by decide)] at h
  split at h
  · cases h
  · rw [← Option.some.inj h, show x.toNat.testBit (f32.eb + f32.mb) = x.getLsbD 31 from rfl, getLsbD_31]
    simp only [decide_eq_true_eq]
    rfl

/-- Finite words lie in the order of their values, and only zeros have one value. -/
theorem value_order {x y : Word} {p q : ℚ} (hx : finiteValue f32 x.toNat = some p) (hy : finiteValue f32 y.toNat = some q) :
    (p = q ↔ SameValue x y) ∧ (p < q ↔ ¬SameValue x y ∧ place32 x < place32 y) := by
  have hmono := f32.magVal_strictMono
  have h0 := f32.magVal_zero
  have hxpos := f32.magVal_nonneg (x.toNat % 2 ^ 31)
  have hypos := f32.magVal_nonneg (y.toNat % 2 ^ 31)
  have hxz : f32.magVal (x.toNat % 2 ^ 31) = 0 ↔ x.toNat % 2 ^ 31 = 0 := by rw [← h0, hmono.injective.eq_iff]
  have hyz : f32.magVal (y.toNat % 2 ^ 31) = 0 ↔ y.toNat % 2 ^ 31 = 0 := by rw [← h0, hmono.injective.eq_iff]
  have heq : f32.magVal (x.toNat % 2 ^ 31) = f32.magVal (y.toNat % 2 ^ 31) ↔ x.toNat % 2 ^ 31 = y.toNat % 2 ^ 31 := hmono.injective.eq_iff
  have hlt : f32.magVal (x.toNat % 2 ^ 31) < f32.magVal (y.toNat % 2 ^ 31) ↔ x.toNat % 2 ^ 31 < y.toNat % 2 ^ 31 := hmono.lt_iff_lt
  have hgt : f32.magVal (y.toNat % 2 ^ 31) < f32.magVal (x.toNat % 2 ^ 31) ↔ y.toNat % 2 ^ 31 < x.toNat % 2 ^ 31 := hmono.lt_iff_lt
  have hword : x = y ↔ x.toNat = y.toNat := BitVec.toNat_inj.symm
  have hxlt := x.isLt
  have hylt := y.isLt
  rw [finiteValue_word hx, finiteValue_word hy, SameValue, place32_eq, place32_eq, hword]
  generalize f32.magVal (x.toNat % 2 ^ 31) = u at *
  generalize f32.magVal (y.toNat % 2 ^ 31) = v at *
  have hmixed : (-u = v ↔ u = 0 ∧ v = 0) ∧ (-u < v ↔ ¬(u = 0 ∧ v = 0)) ∧ (u = -v ↔ u = 0 ∧ v = 0) ∧ ¬u < -v := by
    refine ⟨⟨fun h => ⟨by linarith, by linarith⟩, fun h => by linarith [h.1, h.2]⟩, ⟨fun h hz => by linarith [hz.1, hz.2], fun h => ?_⟩,
      ⟨fun h => ⟨by linarith, by linarith⟩, fun h => by linarith [h.1, h.2]⟩, by linarith⟩
    by_contra hc
    exact h ⟨by linarith, by linarith⟩
  obtain ⟨hmp, hmlt, hpm, hpn⟩ := hmixed
  by_cases hsx : 2 ^ 31 ≤ x.toNat <;> by_cases hsy : 2 ^ 31 ≤ y.toNat <;>
    simp only [hsx, hsy, if_true, if_false, one_mul, neg_one_mul, neg_inj, neg_lt_neg_iff, heq, hlt, hgt, hmp, hmlt, hpm, hpn, hxz, hyz,
      false_iff] <;>
    omega

theorem fkey_eq (x : Word) : fkey x = place32 x := rfl

/-- FMIN and FMAX (R102, R144). -/
theorem fminmax_extremes (x y : Word) : Extremes x y (fminmax false x y) (fminmax true x y) := by
  unfold Extremes fminmax
  simp only [← isNan_fv32, fkey_eq, Bool.not_eq_true]
  refine ⟨fun hx hy => ?_, fun hx hy => ?_, fun hx hy => ?_, fun hx hy => ?_⟩ <;> rw [hx, hy]
  · exact ⟨rfl, rfl⟩
  · exact ⟨rfl, rfl⟩
  · exact ⟨rfl, rfl⟩
  · by_cases h : place32 x ≤ place32 y <;> simp [h]

/-- FCMP of two numbers (R102, R145). -/
theorem fcondHolds_place {x y : Word} (hx : ¬IsNan32 x) (hy : ¬IsNan32 y) (c : FCond) : fcondHolds c x y = true ↔ match c with
    | .eq => SameValue x y
    | .ne => ¬SameValue x y
    | .lt => ¬SameValue x y ∧ place32 x < place32 y
    | .le => SameValue x y ∨ place32 x < place32 y
    | .gt => ¬SameValue x y ∧ place32 y < place32 x
    | .ge => SameValue x y ∨ place32 y < place32 x
    | .un => False
    | .ord => True := by
  have heq : (x == y || (fv32 x).isZero && (fv32 y).isZero) = true ↔ SameValue x y := by
    rw [Bool.or_eq_true, Bool.and_eq_true, isZero_fv32 hx, isZero_fv32 hy, beq_iff_eq]
    rfl
  unfold fcondHolds
  rw [isNan_fv32_false hx, isNan_fv32_false hy]
  simp only [← fkey_eq]
  by_cases hs : SameValue x y
  · rw [heq.mpr hs]
    cases c <;> simp [hs]
  · have hne : fkey x ≠ fkey y := fun hp => hs (.inl (place32_inj hp))
    have hge : fkey y ≤ fkey x ↔ fkey y < fkey x := by omega
    rw [Bool.eq_false_iff.mpr fun h => hs (heq.mp h)]
    cases c <;> simp [hs, hge]

theorem value_le {x y : Word} {p q : ℚ} (hx : finiteValue f32 x.toNat = some p) (hy : finiteValue f32 y.toNat = some q) :
    p ≤ q ↔ SameValue x y ∨ place32 x < place32 y := by
  obtain ⟨heq, hlt⟩ := value_order hx hy
  rw [le_iff_eq_or_lt, heq, hlt]
  exact ⟨fun h => h.imp id And.right, fun h => (em (SameValue x y)).imp id fun hn => ⟨hn, h.resolve_left hn⟩⟩

theorem SameValue.comm {x y : Word} : SameValue x y ↔ SameValue y x := or_congr eq_comm and_comm

theorem fcondHolds_value {x y : Word} {p q : ℚ} (hx : finiteValue f32 x.toNat = some p) (hy : finiteValue f32 y.toNat = some q)
    (hnx : ¬IsNan32 x) (hny : ¬IsNan32 y) (c : FCond) : fcondHolds c x y = true ↔ match c with
    | .eq => p = q
    | .ne => p ≠ q
    | .lt => p < q
    | .le => p ≤ q
    | .gt => q < p
    | .ge => q ≤ p
    | .un => False
    | .ord => True := by
  obtain ⟨heq, hlt⟩ := value_order hx hy
  rw [fcondHolds_place hnx hny]
  cases c with
  | eq => exact heq.symm
  | ne => exact not_congr heq.symm
  | lt => exact hlt.symm
  | le => exact (value_le hx hy).symm
  | gt => exact (and_congr_left' (not_congr SameValue.comm)).trans (value_order hy hx).2.symm
  | ge => exact (or_congr_left SameValue.comm).trans (value_le hy hx).symm
  | un | ord => rfl

theorem fcondHolds_nan {x y : Word} (h : IsNan32 x ∨ IsNan32 y) (c : FCond) : fcondHolds c x y = true ↔ c = .ne ∨ c = .un := by
  have hnan : ((fv32 x).isNan || (fv32 y).isNan) = true := by rwa [Bool.or_eq_true, isNan_fv32, isNan_fv32]
  unfold fcondHolds
  rw [hnan]
  cases c <;> simp

/-- FCLASS's bit number (R146). -/
def classIndex (x : Nat) : Nat :=
  let e := x / 2 ^ 23 % 2 ^ 8
  let m := x % 2 ^ 23
  if e = 255 then (if m = 0 then (if x < 2 ^ 31 then 7 else 0) else if m < 2 ^ 22 then 8 else 9)
  else if e = 0 then (if m = 0 then (if x < 2 ^ 31 then 4 else 3) else if x < 2 ^ 31 then 5 else 2)
  else if x < 2 ^ 31 then 6 else 1

theorem fclassW_eq (x : Word) : fclassW x = BitVec.ofNat 32 (2 ^ classIndex x.toNat) := by
  have hm : bits x 22 0 = x.toNat % 2 ^ 23 := by rw [bits, pow_zero, Nat.div_one]
  unfold fclassW classIndex
  rw [show bits x 30 23 = x.toNat / 2 ^ 23 % 2 ^ 8 from rfl, hm, getLsbD_31]
  simp only [decide_eq_true_eq, ← Nat.not_lt, ite_not]

/-! The forms that set no flag. -/

section
variable {s : State} {ag : Agent} {act : Mask}

/-- A form of two sources whose results raise no flag. -/
theorem alu2_quiet {g : Guard} {a b : Src} {d : RegNo} (h : s.ready ag act (aluSpec false g [(a, 1), (b, 1)] d 1) = true)
    (f : Word → Word → Word) : alu2 false d a b g (fun x y => quiet (f x y)) s =
      .next (s.quietly ag act d fun l => [f (s.src ag a 0 l) (s.src ag b 0 l)]) := aluOp_ready h d _

/-- A form of one source whose results raise no flag. -/
theorem alu1_quiet {g : Guard} {a : Src} {d : RegNo} (h : s.ready ag act (aluSpec false g [(a, 1)] d 1) = true)
    (f : Word → Word) : alu1 false d a g (fun x => quiet (f x)) s = .next (s.quietly ag act d fun l => [f (s.src ag a 0 l)]) :=
  aluOp_ready h d _

end

/-- Settles O10: the special values by `FFmt.sum` and `FV.mul` of the operands unpacked; finite words lie in the order of their values. -/
theorem floatSpecialsOrderAndClass : Obligations.FloatSpecialsOrderAndClass := by
  refine ⟨fun rm x y z m n => ?_, fun s ag act d a b c g => ⟨fun h => ?_, fun h => ?_⟩⟩
  · obtain ⟨hzi, hiz, hii⟩ := mul_zero_inf rm m n
    refine ⟨add_nan rm, fma_nan rm, add_inf_inf rm m n, sub_inf_inf rm m n, hzi, hiz, hii, fma_zero_inf rm m n, add_zero_zero rm m n,
      fun p hx => ?_⟩
    obtain ⟨hl, hr⟩ := add_inf_finite rm m hx
    exact ⟨hl, hr, fun hp => ⟨sub_same rm hx hp, mul_inf_finite rm m hx hp⟩⟩
  · refine ⟨_, _, _, alu2_quiet h (fminmax false), alu2_quiet h (fminmax true), alu2_quiet h fun x y => wordOfBool (fcondHolds c x y),
      fun l => ?_⟩
    refine ⟨fminmax_extremes _ _, fun hn => fcondHolds_nan hn c, fun hx hy => ⟨fun p q hp hq => ?_, ?_⟩⟩
    · exact (fcondHolds_value hp hq hx hy c).trans (by cases c <;> rfl)
    · exact (fcondHolds_place hx hy c).trans (by cases c <;> rfl)
  · refine ⟨fun l => classIndex (s.src ag a 0 l).toNat, (alu1_quiet h fclassW).trans ?_, fun l => rfl⟩
    simp only [fclassW_eq]

end Sys2Proof.Machine
end

section
/-! PROOFS. Groups of 16 products, scales, drains and CB2 weights (R98, R108 to R112, R352, R355, R359). -/

namespace Sys2Proof.Machine

/-! Plus-times (R109, R110). -/

/-- A zero sum rounded to nearest is negative only of negative zeros. -/
theorem zeroSign_rne (l : List FV) : zeroSign .rne l = l.all (FV.isZeroOf true) := by
  rw [zeroSign_eq]
  cases l.all (FV.isZeroOf true)
  · rw [if_neg Bool.false_ne_true]
    exact ite_self _
  · rfl

/-- A rounded FP32 number in a register. -/
theorem rounded_word {q : ℚ} {r : Nat × Flags} (h : RoundedOnce f32 .rne q r) (hlt : r.1 < 2 ^ 32) :
    ∃ fl, RoundedOnce f32 .rne q ((BitVec.ofNat 32 r.1).toNat, fl) :=
  ⟨r.2, by rwa [BitVec.toNat_ofNat, Nat.mod_eq_of_lt hlt]⟩

/-- The word that is negative zero. -/
theorem eq_negZero_iff {x : Word} {p : ℚ} (h : finiteValue f32 x.toNat = some p) : (fv32 x).isZeroOf true = true ↔ x = 0x80000000#32 := by
  rw [show (fv32 x).isZeroOf true = true ↔ p = 0 ∧ x.getLsbD 31 = true from isZeroOf_unpack h true, getLsbD_31, decide_eq_true_eq]
  have hx := x.isLt
  have hzero : f32.magVal (x.toNat % 2 ^ 31) = 0 ↔ x.toNat % 2 ^ 31 = 0 := by
    rw [← f32.magVal_zero, f32.magVal_strictMono.injective.eq_iff]
  constructor
  · rintro ⟨hp, hs⟩
    rw [finiteValue_word h, if_pos hs, neg_one_mul, neg_eq_zero, hzero] at hp
    refine BitVec.eq_of_toNat_eq (show x.toNat = 2147483648 from ?_)
    omega
  · intro hw
    have hn : x.toNat = 2147483648 := congrArg BitVec.toNat hw
    refine ⟨?_, by omega⟩
    rw [finiteValue_word h, hzero.mpr (by omega), mul_zero]

/-- The products of a group. -/
def groupProducts (fa fb : FFmt) (a b col : Nat) : List FV :=
  (List.range 16).map fun k => (fa.unpack (elemAt a fa.bytes k)).mul (fb.unpack (elemAt b fb.bytes (16 * col + k)))

theorem oneGroup_plus (fa fb : FFmt) (gr : Nat → Word) (acc : Word) (a b col : Nat) :
    oneGroup (.plus fa fb) gr acc a b col = BitVec.ofNat 32 (f32.sum .rne (fv32 acc :: groupProducts fa fb a b col) false).1 := rfl

section
variable {fa fb : FFmt} (gr : Nat → Word) {acc : Word} {a b col : Nat}

theorem oneGroup_plus_nan (h : IsNan32 acc ∨
    ∃ k, k < 16 ∧ (NanElem fa (elemAt a fa.bytes k) ∨ NanElem fb (elemAt b fb.bytes (16 * col + k)))) :
    oneGroup (.plus fa fb) gr acc a b col = 0x7FC00000#32 := by
  have hany : (fv32 acc :: groupProducts fa fb a b col).any FV.isNan = true := by
    rw [List.any_eq_true]
    rcases h with h | ⟨k, hk, h⟩
    · exact ⟨_, .head _, (isNan_fv32 acc).mpr h⟩
    · refine ⟨_, .tail _ (List.mem_map_of_mem (List.mem_range.mpr hk)), ?_⟩
      rw [FV.mul_nan]
      · rfl
      · rcases h with h | h <;> rw [unpack_nan h]
        · rfl
        · exact Bool.or_true _
  rw [oneGroup_plus, sum_nan f32 .rne hany]
  rfl

variable {pa pb : Nat → ℚ} (h : ∀ k, k < 16 → finiteValue fa (elemAt a fa.bytes k) = some (pa k) ∧
  finiteValue fb (elemAt b fb.bytes (16 * col + k)) = some (pb k))
include h

theorem groupProducts_fin : (∀ v ∈ groupProducts fa fb a b col, v.IsFin) ∧
    (groupProducts fa fb a b col).map FV.val = (List.range 16).map fun k => pa k * pb k := by
  refine ⟨fun v hv => ?_, ?_⟩
  · obtain ⟨k, hk, rfl⟩ := List.mem_map.mp hv
    obtain ⟨ha, hb⟩ := h k (List.mem_range.mp hk)
    exact (unpack_val ha).1.mul (unpack_val hb).1
  · rw [groupProducts, List.map_map]
    refine List.map_congr_left fun k hk => ?_
    obtain ⟨ha, hb⟩ := h k (List.mem_range.mp hk)
    exact (FV.val_mul (unpack_val ha).1 (unpack_val hb).1).trans (by rw [(unpack_val ha).2, (unpack_val hb).2])

theorem oneGroup_plus_inf (n : Bool) (hacc : acc = inf32 n) : oneGroup (.plus fa fb) gr acc a b col = acc := by
  obtain ⟨hfin, -⟩ := groupProducts_fin h
  have hnot : FV.inf (!n) ∉ FV.inf n :: groupProducts fa fb a b col := by
    intro hm
    rcases List.mem_cons.mp hm with hm | hm
    · cases n <;> cases hm
    · obtain ⟨s, m, e, hf⟩ := hfin _ hm
      cases hf
  have hnan : (FV.inf n :: groupProducts fa fb a b col).any FV.isNan = false := by
    rw [List.any_eq_false]
    intro v hv
    rcases List.mem_cons.mp hv with rfl | hv
    · exact Bool.false_ne_true
    · obtain ⟨s, m, e, rfl⟩ := hfin v hv
      exact Bool.false_ne_true
  rw [oneGroup_plus, hacc, fv32_inf, sum_inf .rne f32 _ n false (.head _) hnot hnan]
  cases n <;> rfl

theorem oneGroup_plus_finite {c : ℚ} (hc : finiteValue f32 acc.toNat = some c) :
    let q := c + ((List.range 16).map fun k => pa k * pb k).sum
    let r := oneGroup (.plus fa fb) gr acc a b col
    (∃ fl, RoundedOnce f32 .rne q (r.toNat, fl)) ∧ (q = 0 → r = zero32 ((fv32 acc :: groupProducts fa fb a b col).all (FV.isZeroOf true))) := by
  intro q r
  obtain ⟨hfin, hval⟩ := groupProducts_fin h
  have hall : ∀ v ∈ fv32 acc :: groupProducts fa fb a b col, v.IsFin := fun v hv => by
    rcases List.mem_cons.mp hv with rfl | hv
    · exact (unpack_val hc).1
    · exact hfin v hv
  have hsum : ((fv32 acc :: groupProducts fa fb a b col).map FV.val).sum = q := by
    rw [List.map_cons, List.sum_cons, hval, show (fv32 acc).val = c from (unpack_val hc).2]
  refine ⟨hsum ▸ rounded_word (sum_rounded (by decide) .rne (by decide) hall false) (sum_lt (f := f32) (by decide) .rne hall false),
    fun h0 => ?_⟩
  rw [show r = _ from oneGroup_plus .., sum_zero .rne hall false (hsum.trans h0), zeroSign_rne]
  generalize (fv32 acc :: groupProducts fa fb a b col).all (FV.isZeroOf true) = s
  cases s <;> rfl

/-- Negative zero comes only of negative zeros. -/
theorem allNeg_iff {c : ℚ} (hc : finiteValue f32 acc.toNat = some c) :
    (fv32 acc :: groupProducts fa fb a b col).all (FV.isZeroOf true) = true ↔ acc = 0x80000000#32 ∧
      ∀ k, k < 16 → pa k * pb k = 0 ∧
        (elemAt a fa.bytes k).testBit (fa.eb + fa.mb) ≠ (elemAt b fb.bytes (16 * col + k)).testBit (fb.eb + fb.mb) := by
  rw [List.all_cons, Bool.and_eq_true, eq_negZero_iff hc, List.all_eq_true]
  refine and_congr_right' ?_
  simp only [groupProducts, List.mem_map, List.mem_range, forall_exists_index, and_imp, forall_apply_eq_imp_iff₂]
  refine forall₂_congr fun k hk => ?_
  obtain ⟨ha, hb⟩ := h k hk
  rw [isZeroOf_mul_unpack ha hb, bne_iff_ne]

end

/-! Bytes and CB2 weights (R98, R110). -/

/-- A sum formed term by term modulo 2^32. -/
theorem foldl_add_ofInt (l : List Nat) (g : Nat → ℤ) (acc : Word) :
    l.foldl (fun c k => c + BitVec.ofInt 32 (g k)) acc = acc + BitVec.ofInt 32 (l.map g).sum := by
  induction l generalizing acc with
  | nil => simp
  | cons k t ih => rw [List.foldl_cons, ih, List.map_cons, List.sum_cons, BitVec.ofInt_add, BitVec.add_assoc]

theorem elemAt_eq (x n i : Nat) : elemAt x n i = x / 2 ^ (8 * n * i) % 2 ^ (8 * n) := by
  have h : ∀ k, 256 ^ k = 2 ^ (8 * k) := fun k => by rw [show 256 = 2 ^ 8 by rfl, ← Nat.pow_mul]
  rw [elemAt, h, h, ← Nat.mul_assoc]

theorem signed8_elemAt (x i : Nat) : signed8 (elemAt x 1 i) = (BitVec.ofNat 8 (x / 2 ^ (8 * i))).toInt := by
  rw [elemAt_eq, BitVec.toInt_eq_toNat_cond, BitVec.toNat_ofNat, signed8]
  norm_num
  have := Nat.mod_lt (x / 2 ^ (8 * i)) (by decide : 0 < 256)
  split <;> split <;> omega

/-- The weight `i` of a word of CB2 weights (R98). -/
def wordWeight (gr : Nat → Word) (w i : Nat) : ℤ :=
  let q := (gr (w / 256)).toNat / 2 ^ (4 * i) % 16 + w % 2
  let flips := ((List.range 7).filter fun k => w.testBit (k + 1)).length
  if (if i < 7 then w.testBit (i + 1) else decide (flips % 2 = 1)) then -(q : ℤ) else q

theorem cb2Weight_eq (gr : Nat → Word) {w : Nat} (hw : w < 2 ^ 16) (i : Nat) : cb2Weight gr w i = wordWeight gr w i := by
  have hbit : ∀ k, (nbits w (k + 1) (k + 1) == 1) = w.testBit (k + 1) := fun k => by
    rw [nbits, Nat.testBit_eq_decide_div_mod_eq, show k + 1 + 1 - (k + 1) = 1 by omega, pow_one]
    rfl
  have hhigh : nbits w 15 8 = w / 256 := by rw [nbits]; norm_num; omega
  have hq : bits (gr (w / 256)) (4 * i + 3) (4 * i) = (gr (w / 256)).toNat / 2 ^ (4 * i) % 16 := by
    rw [bits, show 4 * i + 3 + 1 - 4 * i = 4 by omega]
    rfl
  unfold cb2Weight wordWeight
  simp only [hbit, hhigh, hq]
  rfl

/-! The least and the greatest (R102, R110). -/

theorem fminmax_not_nan (big : Bool) {x y : Word} (hx : ¬IsNan32 x) (hy : ¬IsNan32 y) :
    (fminmax big x y = x ∨ fminmax big x y = y) ∧
      if big then place32 x ≤ place32 (fminmax big x y) ∧ place32 y ≤ place32 (fminmax big x y)
      else place32 (fminmax big x y) ≤ place32 x ∧ place32 (fminmax big x y) ≤ place32 y := by
  obtain ⟨-, -, -, h⟩ := fminmax_extremes x y
  obtain ⟨hmin, hmax⟩ := h hx hy
  rcases le_or_gt (place32 x) (place32 y) with hle | hgt
  · cases big with
    | false => rw [hmin, if_pos hle]; exact ⟨.inl rfl, le_rfl, hle⟩
    | true => rw [hmax, if_pos hle]; exact ⟨.inr rfl, hle, le_rfl⟩
  · cases big with
    | false => rw [hmin, if_neg hgt.not_ge]; exact ⟨.inr rfl, hgt.le, le_rfl⟩
    | true => rw [hmax, if_neg hgt.not_ge]; exact ⟨.inl rfl, le_rfl, hgt.le⟩

/-- Folding FMIN or FMAX over words that are no NaN gives one of them, at the end of their order. -/
theorem foldl_fminmax (big : Bool) (l : List Word) (c : Word) (h : ∀ x ∈ c :: l, ¬IsNan32 x) :
    l.foldl (fminmax big) c ∈ c :: l ∧ ∀ x ∈ c :: l,
      if big then place32 x ≤ place32 (l.foldl (fminmax big) c) else place32 (l.foldl (fminmax big) c) ≤ place32 x := by
  induction l generalizing c with
  | nil => exact ⟨.head _, fun x hx => by rw [List.mem_singleton.mp hx]; cases big <;> exact le_rfl⟩
  | cons y t ih =>
    obtain ⟨hmem, hord⟩ := fminmax_not_nan big (h c (.head _)) (h y (.tail _ (.head _)))
    have hnext : ∀ x ∈ fminmax big c y :: t, ¬IsNan32 x := fun x hx => by
      rcases List.mem_cons.mp hx with rfl | hx
      · rcases hmem with hm | hm <;> rw [hm]
        · exact h c (.head _)
        · exact h y (.tail _ (.head _))
      · exact h x (.tail _ (.tail _ hx))
    obtain ⟨hin, hall⟩ := ih _ hnext
    rw [List.foldl_cons]
    refine ⟨?_, fun x hx => ?_⟩
    · rcases List.mem_cons.mp hin with heq | hin
      · rw [heq]
        rcases hmem with hm | hm <;> rw [hm]
        · exact .head _
        · exact .tail _ (.head _)
      · exact .tail _ (.tail _ hin)
    · have hfirst := hall _ (.head _)
      have hcase : x = c ∨ x = y ∨ x ∈ t := by simpa using hx
      cases big with
      | false =>
        rcases hcase with rfl | rfl | hx
        · exact le_trans hfirst hord.1
        · exact le_trans hfirst hord.2
        · exact hall x (.tail _ hx)
      | true =>
        rcases hcase with rfl | rfl | hx
        · exact le_trans hord.1 hfirst
        · exact le_trans hord.2 hfirst
        · exact hall x (.tail _ hx)

theorem extreme_nan (big : Bool) {c : Word} {l : List Word} (h : ∃ x ∈ c :: l, IsNan32 x) : extreme big c l = 0x7FC00000#32 := by
  obtain ⟨x, hx, hn⟩ := h
  exact if_pos (List.any_eq_true.mpr ⟨x, hx, (isNan_fv32 x).mpr hn⟩)

theorem extreme_eq_foldl (big : Bool) {c : Word} {l : List Word} (h : ∀ x ∈ c :: l, ¬IsNan32 x) :
    extreme big c l = l.foldl (fminmax big) c := by
  refine if_neg fun ha => ?_
  obtain ⟨x, hx, hn⟩ := List.any_eq_true.mp ha
  exact h x hx ((isNan_fv32 x).mp hn)

/-- The order of words as the statement has it. -/
theorem place32_eq_mod (x : Word) :
    (if x.getLsbD 31 then -((x.toNat % 2 ^ 31 : Nat) : ℤ) - 1 else ((x.toNat % 2 ^ 31 : Nat) : ℤ)) = place32 x := by
  rw [place32_eq, getLsbD_31]
  simp only [decide_eq_true_eq]

/-! Min-plus and max-times (R110). -/

theorem unpack_infMag {g : FFmt} (h : g ∈ [bf16, f16]) : g.unpack g.infMag = .inf false := by
  simp only [List.mem_cons, List.not_mem_nil, or_false] at h
  rcases h with rfl | rfl <;> decide

/-- Only the bits of +∞ unpack to +∞. -/
theorem eq_infMag_of_unpack {g : FFmt} (h : g ∈ [bf16, f16]) {x : Nat} (hx : x < 2 ^ 16) (hu : g.unpack x = .inf false) : x = g.infMag := by
  simp only [List.mem_cons, List.not_mem_nil, or_false] at h
  rcases h with rfl | rfl
  · unfold FFmt.unpack at hu
    norm_num [bf16, FFmt.emax, FFmt.infMag] at hu ⊢
    split at hu
    · split at hu
      · have := FV.inf.inj hu
        simp at this
        omega
      · cases hu
    · split at hu <;> cases hu
  · unfold FFmt.unpack at hu
    norm_num [f16, FFmt.emax, FFmt.infMag] at hu ⊢
    split at hu
    · split at hu
      · have := FV.inf.inj hu
        simp at this
        omega
      · cases hu
    · split at hu <;> cases hu

theorem minPlusSum_sum {g : FFmt} {x y : Nat} (hx : g.unpack x ≠ .inf false) (hy : g.unpack y ≠ .inf false) : minPlusSum g x y =
    BitVec.ofNat 32 (f32.sum .rne [g.unpack x, g.unpack y] ((g.unpack x).isNan || (g.unpack y).isNan)).1 := by
  refine if_neg ?_
  simp [hx, hy]

section
variable {g : FFmt} (hg : g ∈ [bf16, f16]) {x y : Nat}
include hg

theorem minPlusSum_inf (h : x = g.infMag ∨ y = g.infMag) : minPlusSum g x y = 0x7F800000#32 := by
  refine if_pos ?_
  rcases h with rfl | rfl <;> simp [unpack_infMag hg]

theorem minPlusSum_nan (hx : x < 2 ^ 16) (hy : y < 2 ^ 16) (hxi : x ≠ g.infMag) (hyi : y ≠ g.infMag) (h : NanElem g x ∨ NanElem g y) :
    minPlusSum g x y = 0x7FC00000#32 := by
  rw [minPlusSum_sum (fun hu => hxi (eq_infMag_of_unpack hg hx hu)) (fun hu => hyi (eq_infMag_of_unpack hg hy hu)), sum_nan]
  · rfl
  · rcases h with h | h <;> simp [unpack_nan h, FV.isNan]

end

theorem minPlusSum_finite {g : FFmt} {x y : Nat} {p q : ℚ} (hx : finiteValue g x = some p) (hy : finiteValue g y = some q) :
    ∃ fl, RoundedOnce f32 .rne (p + q) ((minPlusSum g x y).toNat, fl) := by
  have hne : ∀ {z r}, finiteValue g z = some r → g.unpack z ≠ .inf false := fun hz hu => by
    obtain ⟨s, m, e, hf⟩ := (unpack_val hz).1
    rw [hu] at hf
    cases hf
  have hfin := isFin_pair hx hy
  rw [minPlusSum_sum (hne hx) (hne hy), ← val_pair hx hy]
  exact rounded_word (sum_rounded (by decide) .rne (by decide) hfin _) (sum_lt (f := f32) (by decide) .rne hfin _)

/-- A product of max-times. -/
def maxTimesTerm (x y : Nat) : Word :=
  BitVec.ofNat 32 (f32.value .rne ((bf16.unpack x).mul (bf16.unpack y)) ((bf16.unpack x).isNan || (bf16.unpack y).isNan)).1

theorem oneGroup_maxTimes (gr : Nat → Word) (acc : Word) (a b col : Nat) : oneGroup .maxTimes gr acc a b col =
    extreme true acc ((List.range 16).map fun k => maxTimesTerm (elemAt a 2 k) (elemAt b 2 (16 * col + k))) := rfl

/-- A product of finite elements is rounded once, and is no NaN. -/
theorem maxTimesTerm_finite {x y : Nat} {p q : ℚ} (hx : finiteValue bf16 x = some p) (hy : finiteValue bf16 y = some q) :
    (∃ fl, RoundedOnce f32 .rne (p * q) ((maxTimesTerm x y).toNat, fl)) ∧ ¬IsNan32 (maxTimesTerm x y) := by
  obtain ⟨s, m, e, hmul, -, hv, -⟩ := mul_round .rne hx hy
  have hterm : maxTimesTerm x y = BitVec.ofNat 32 (f32.round .rne s m e false).1 := by
    unfold maxTimesTerm
    rw [hmul]
    rfl
  rw [hterm]
  refine ⟨hv ▸ rounded_word (round_roundedOnce (by decide) (by decide) .rne s m e) (f32_round_lt ..), ?_⟩
  obtain ⟨t, mag, heq, hle⟩ := round_magnitude f32 .rne s m e false
  have hmax : max f32.infMag f32.maxMag = 2139095040 := by decide
  have hsign : f32.signBit t = 0 ∨ f32.signBit t = 2147483648 := by cases t <;> decide
  rw [IsNan32, BitVec.toNat_ofNat, heq]
  omega

/-! MSCALE and MDRN (R112, R355, R359). -/

theorem ue8m4_nan {x : Nat} (h : x / 16 % 256 = 255) : ue8m4 x = .nan := by
  unfold ue8m4
  dsimp only
  rw [show nbits x 11 4 = x / 16 % 256 from rfl, if_pos h]

/-- An infinity times a scale of 0 is NaN, whatever the other scale. -/
theorem inf_mul_mul_zero {x y : Nat} (n : Bool) (h : scaleValue x = 0 ∨ scaleValue y = 0) :
    ((FV.inf n).mul (ue8m4 x)).mul (ue8m4 y) = .nan := by
  have hzero : ∀ {z m e}, ue8m4 z = .fin false m e → scaleValue z = m * 2 ^ e → scaleValue z = 0 → m = 0 := fun {z m e} _ hv h0 => by
    have h2 : (2 : ℚ) ^ e ≠ 0 := by positivity
    exact_mod_cast (mul_eq_zero.mp (hv.symm.trans h0)).resolve_right h2
  by_cases hx : x / 16 % 256 = 255
  · rw [ue8m4_nan hx]
    rfl
  · obtain ⟨m, e, hu, hv⟩ := ue8m4_of_finite hx
    rw [hu]
    by_cases hm : m = 0
    · rw [hm]
      rfl
    · have hy0 : scaleValue y = 0 := h.resolve_left fun h0 => hm (hzero hu hv h0)
      have hinf : (FV.inf n).mul (.fin false m e) = .inf (n != false) := if_neg hm
      rw [hinf]
      by_cases hy : y / 16 % 256 = 255
      · rw [ue8m4_nan hy]
        rfl
      · obtain ⟨k, j, hu', hv'⟩ := ue8m4_of_finite hy
        rw [hu', hzero hu' hv' hy0]
        rfl

theorem mscaleW_nan (c : Word) (p : FV) {a b : FV} (h : (p.isNan || (fv32 c).isNan || a.isNan || b.isNan) = true) :
    mscaleW c p a b = 0x7FC00000#32 := if_pos h

/-- MSCALE of numbers, one of whose products may be NaN, is one sum. -/
theorem mscaleW_sum (c : Word) (p : FV) {a b : FV} (h : (p.isNan || (fv32 c).isNan || a.isNan || b.isNan) = false) :
    mscaleW c p a b = BitVec.ofNat 32 (f32.sum .rne [fv32 c, (p.mul a).mul b] false).1 := if_neg (by rw [h]; exact Bool.false_ne_true)

theorem mscaleW_nan_product (c : Word) (p : FV) {a b : FV} (h : (p.mul a).mul b = .nan) : mscaleW c p a b = 0x7FC00000#32 := by
  cases hn : p.isNan || (fv32 c).isNan || a.isNan || b.isNan with
  | true => exact mscaleW_nan c p hn
  | false =>
    rw [mscaleW_sum c p hn, h, sum_nan f32 .rne (by simp [FV.isNan])]
    rfl

/-- A partial sum's exact value. -/
theorem partialVal_val {int : Bool} {w : Word} {vp : ℚ}
    (h : if int = true then vp = (w.toInt : ℚ) else finiteValue f32 w.toNat = some vp) :
    (partialVal int w).IsFin ∧ (partialVal int w).val = vp := by
  cases int with
  | true =>
    refine ⟨⟨_, _, _, rfl⟩, ?_⟩
    rw [if_pos rfl] at h
    rw [partialVal, if_pos rfl, FV.val, sign_natAbs, zpow_zero, mul_one, h]
  | false => exact unpack_val h

theorem FV.IsFin.not_nan {x : FV} (h : x.IsFin) : x.isNan = false := by
  obtain ⟨s, m, e, rfl⟩ := h
  rfl

theorem mscaleW_rounded {int : Bool} {c w : Word} {x y : Nat} {vc vp : ℚ} (hx : x / 16 % 256 ≠ 255) (hy : y / 16 % 256 ≠ 255)
    (hc : finiteValue f32 c.toNat = some vc) (hp : if int = true then vp = (w.toInt : ℚ) else finiteValue f32 w.toNat = some vp) :
    ∃ fl, RoundedOnce f32 .rne (vc + vp * scaleValue x * scaleValue y)
      ((mscaleW c (partialVal int w) (ue8m4 x) (ue8m4 y)).toNat, fl) := by
  have hscale : ∀ {z}, z / 16 % 256 ≠ 255 → (ue8m4 z).IsFin ∧ (ue8m4 z).val = scaleValue z := fun {z} hz => by
    obtain ⟨m, e, hu, hv⟩ := ue8m4_of_finite hz
    refine ⟨⟨_, _, _, hu⟩, ?_⟩
    rw [hu, hv, FV.val, if_neg Bool.false_ne_true, one_mul]
  obtain ⟨hxf, hxv⟩ := hscale hx
  obtain ⟨hyf, hyv⟩ := hscale hy
  obtain ⟨hpf, hpv⟩ := partialVal_val hp
  obtain ⟨hcf, hcv⟩ : (fv32 c).IsFin ∧ (fv32 c).val = vc := unpack_val hc
  have hfin : ∀ v ∈ [fv32 c, ((partialVal int w).mul (ue8m4 x)).mul (ue8m4 y)], v.IsFin := by
    simp [hcf, (hpf.mul hxf).mul hyf]
  have hval : ([fv32 c, ((partialVal int w).mul (ue8m4 x)).mul (ue8m4 y)].map FV.val).sum = vc + vp * scaleValue x * scaleValue y := by
    simp [FV.val_mul (hpf.mul hxf) hyf, FV.val_mul hpf hxf, hxv, hyv, hpv, hcv]
  rw [mscaleW_sum c _ (by rw [hpf.not_nan, hcf.not_nan, hxf.not_nan, hyf.not_nan]; rfl), ← hval]
  exact rounded_word (sum_rounded (by decide) .rne (by decide) hfin false) (sum_lt (f := f32) (by decide) .rne hfin false)

theorem value_rounded {f : FFmt} (hmb : 1 ≤ f.mb) (heb : 1 ≤ f.eb) {w : Word} {p : ℚ} (h : finiteValue f32 w.toNat = some p) :
    RoundedOnce f .rne p (f.value .rne (fv32 w) true) := by
  obtain ⟨m, e, hu, rfl, -⟩ := fv32_of_finite h
  rw [hu]
  exact round_roundedOnce hmb heb .rne _ m e

/-- Or-and (R110). -/
theorem oneGroup_orAnd (gr : Nat → Word) (acc : Word) (a b col : Nat) :
    let some1 : Prop := acc ≠ 0#32 ∨ ∃ k, k < 16 ∧ a.testBit k = true ∧ b.testBit (16 * col + k) = true
    (some1 → oneGroup .orAnd gr acc a b col = 1#32) ∧ (¬some1 → oneGroup .orAnd gr acc a b col = 0#32) := by
  intro some1
  have h : (acc != 0#32 || (List.range 16).any fun k => a.testBit k && b.testBit (16 * col + k)) = true ↔ some1 := by
    simp only [some1, Bool.or_eq_true, bne_iff_ne, List.any_eq_true, List.mem_range, Bool.and_eq_true]
  exact ⟨fun hs => if_pos (h.mpr hs), fun hs => if_neg (hs ∘ h.mp)⟩

/-- Bytes times bytes (R110). -/
theorem oneGroup_int8 (gr : Nat → Word) (acc : Word) (a b col : Nat) : oneGroup .int8 gr acc a b col = acc + BitVec.ofInt 32
    ((List.range 16).map fun k => (BitVec.ofNat 8 (a / 2 ^ (8 * k))).toInt * (BitVec.ofNat 8 (b / 2 ^ (8 * (16 * col + k)))).toInt).sum := by
  simp only [← signed8_elemAt]
  exact foldl_add_ofInt _ (fun k => signed8 (elemAt a 1 k) * signed8 (elemAt b 1 (16 * col + k))) acc

/-- Bytes times CB2 weights (R98, R110). -/
theorem oneGroup_cb2 (gr : Nat → Word) (acc : Word) (a b col : Nat) : oneGroup .cb2 gr acc a b col = acc + BitVec.ofInt 32
    ((List.range 16).map fun k => (BitVec.ofNat 8 (a / 2 ^ (8 * k))).toInt *
      wordWeight gr (b / 2 ^ (16 * ((16 * col + k) / 8)) % 2 ^ 16) ((16 * col + k) % 8)).sum := by
  have hw : ∀ k, wordWeight gr (b / 2 ^ (16 * ((16 * col + k) / 8)) % 2 ^ 16) ((16 * col + k) % 8) =
      cb2Weight gr (elemAt b 2 ((16 * col + k) / 8)) ((16 * col + k) % 8) := fun k => by
    rw [elemAt_eq, cb2Weight_eq gr (Nat.mod_lt _ (Nat.two_pow_pos _))]
  simp only [← signed8_elemAt, hw]
  exact foldl_add_ofInt _
    (fun k => signed8 (elemAt a 1 k) * cb2Weight gr (elemAt b 2 ((16 * col + k) / 8)) ((16 * col + k) % 8)) acc

/-- Settles O24: plus-times, MSCALE and min-plus are sums of exact values (`sum_rounded`), products and drains single roundings; the least
and the greatest come of a fold of FMIN or FMAX. -/
theorem matrixArithmetic : Obligations.MatrixArithmetic := by
  refine ⟨fun kind fa fb gr acc a b col pa pb => ?_, fun gr acc a b col => ?_, fun g gr acc a b col hg => ?_,
    fun gr acc a b col pa pb => ?_, fun int c w x y => ?_, fun w => ?_⟩
  · intro ea eb r allNeg _
    refine ⟨oneGroup_plus_nan gr, fun h => ⟨oneGroup_plus_inf gr h, fun c hc => ?_⟩⟩
    obtain ⟨honce, hzero⟩ := oneGroup_plus_finite gr h hc
    have hneg := allNeg_iff h hc
    refine ⟨honce, fun h0 hall => ?_, fun h0 hall => ?_⟩
    · exact (hzero h0).trans (by rw [hneg.mpr hall]; rfl)
    · exact (hzero h0).trans (by rw [Bool.eq_false_iff.mpr fun h => hall (hneg.mp h)]; rfl)
  · obtain ⟨hone, hzero⟩ := oneGroup_orAnd gr acc a b col
    refine ⟨oneGroup_int8 gr acc a b col, oneGroup_cb2 gr acc a b col, fun w i hw hi => ?_, hone, fun h0 hk => hzero ?_⟩
    · dsimp only
      rw [cb2Weight_eq gr hw, Nat.div_eq_of_lt hi, Nat.mul_zero, pow_zero, Nat.div_one, Nat.mod_eq_of_lt hw, Nat.mod_eq_of_lt hi]
      rfl
    · rintro (h | ⟨k, hk16, ha, hb⟩)
      · exact h h0
      · rcases hk k hk16 with h | h
        · rw [h] at ha
          cases ha
        · rw [h] at hb
          cases hb
  · intro term l r
    refine ⟨fun x y hx hy => ⟨minPlusSum_inf hg, minPlusSum_nan hg hx hy, fun p q hp hq => minPlusSum_finite hp hq⟩,
      extreme_nan false, fun h => ?_⟩
    obtain ⟨hmem, hleast⟩ := foldl_fminmax false _ acc h
    rw [show r = _ from extreme_eq_foldl false h]
    simp only [place32_eq_mod]
    exact ⟨hmem, hleast⟩
  · intro r
    refine ⟨fun h => extreme_nan true ⟨acc, .head _, h⟩, fun hacc h => ?_⟩
    have hterm := fun k hk => maxTimesTerm_finite (h k hk).1 (h k hk).2
    have hnan : ∀ x ∈ acc :: (List.range 16).map fun k => maxTimesTerm (elemAt a 2 k) (elemAt b 2 (16 * col + k)), ¬IsNan32 x := by
      intro x hx
      rcases List.mem_cons.mp hx with rfl | hx
      · exact hacc
      · obtain ⟨k, hk, rfl⟩ := List.mem_map.mp hx
        exact (hterm k (List.mem_range.mp hk)).2
    obtain ⟨hmem, hmost⟩ := foldl_fminmax true _ acc hnan
    refine ⟨_, fun k hk => (hterm k hk).1, ?_⟩
    rw [show r = _ from (oneGroup_maxTimes gr acc a b col).trans (extreme_eq_foldl true hnan)]
    simp only [place32_eq_mod]
    exact ⟨hmem, hmost⟩
  · intro r
    refine ⟨fun h => mscaleW_nan c _ ?_, fun n hint hw hs => mscaleW_nan_product c _ ?_,
      fun vc vp hx hy hc hp => mscaleW_rounded hx hy hc hp⟩
    · rcases h with h | h | h | ⟨rfl, h⟩
      · simp [(isNan_fv32 c).mpr h]
      · simp [ue8m4_nan h, FV.isNan]
      · simp [ue8m4_nan h, FV.isNan]
      · simp [partialVal, (isNan_fv32 w).mpr h]
    · rw [hint, hw, partialVal, if_neg Bool.false_ne_true, fv32_inf]
      exact inf_mul_mul_zero n hs
  · refine ⟨rfl, fun h => ?_, fun p hp => ⟨_, _, rfl, ⟨_, value_rounded (by decide) (by decide) hp⟩, rfl,
      ⟨_, value_rounded (by decide) (by decide) hp⟩⟩⟩
    have hnan : fv32 w = .nan := unpack_nan32 h
    unfold drainBytes
    rw [hnan]
    exact ⟨rfl, rfl⟩

end Sys2Proof.Machine
end

section
/-! PROOFS. What each operation of a join does, and the turn of a gang (R317, R323). -/

namespace Sys2Proof.Machine

/-! What each operation of a join does (R323). -/

theorem joinMin_least (x y : Word) : (JoinOp.apply .min x y).toInt = min x.toInt y.toInt := by
  unfold JoinOp.apply
  dsimp only
  split
  · next h => exact (min_eq_left h).symm
  · next h => exact (min_eq_right (le_of_not_ge h)).symm

theorem joinMax_most (x y : Word) : (JoinOp.apply .max x y).toInt = max x.toInt y.toInt := by
  unfold JoinOp.apply
  dsimp only
  split
  · next h => exact (max_eq_left h).symm
  · next h => exact (max_eq_right (le_of_not_ge h)).symm

theorem joinUmin_least (x y : Word) : (JoinOp.apply .umin x y).toNat = min x.toNat y.toNat := by
  unfold JoinOp.apply
  dsimp only
  split
  · next h => exact (min_eq_left h).symm
  · next h => exact (min_eq_right (le_of_not_ge h)).symm

theorem joinUmax_most (x y : Word) : (JoinOp.apply .umax x y).toNat = max x.toNat y.toNat := by
  unfold JoinOp.apply
  dsimp only
  split
  · next h => exact (max_eq_left h).symm
  · next h => exact (max_eq_right (le_of_not_ge h)).symm

/-- Every operation of a join, on any two words. -/
theorem joinOp_apply (x y : Word) :
    JoinOp.apply .none x y = x ∧ JoinOp.apply .add x y = x + y ∧ JoinOp.apply .and x y = x &&& y ∧ JoinOp.apply .or x y = x ||| y ∧
    intOf false (JoinOp.apply .min x y) = min (intOf false x) (intOf false y) ∧
    intOf false (JoinOp.apply .max x y) = max (intOf false x) (intOf false y) ∧
    intOf true (JoinOp.apply .umin x y) = min (intOf true x) (intOf true y) ∧
    intOf true (JoinOp.apply .umax x y) = max (intOf true x) (intOf true y) ∧
    JoinOp.apply .fadd x y = (w32 (f32.add .rne x.toNat y.toNat)).1 ∧ Extremes x y (JoinOp.apply .fmin x y) (JoinOp.apply .fmax x y) := by
  have hunsigned : ∀ z : Word, intOf true z = (z.toNat : Int) := fun _ => rfl
  refine ⟨rfl, rfl, rfl, rfl, joinMin_least x y, joinMax_most x y, ?_, ?_, rfl, fminmax_extremes x y⟩
  · rw [hunsigned, hunsigned, hunsigned, joinUmin_least, Nat.cast_min]
  · rw [hunsigned, hunsigned, hunsigned, joinUmax_most, Nat.cast_max]

/-- A list in a freely chosen order has the same elements as often. -/
theorem freeOrder_perm {α : Type} (n : Nat) : ∀ (t : Nat) (l : List α), (freeOrder t n l).Perm l := by
  induction n with
  | zero => exact fun _ l => List.Perm.refl l
  | succ n ih =>
    intro t l
    unfold freeOrder
    dsimp only
    split
    · exact List.Perm.refl l
    · next x hx =>
      obtain ⟨hlt, rfl⟩ := List.getElem?_eq_some_iff.mp hx
      exact (List.Perm.cons _ (ih _ _)).trans (List.getElem_cons_eraseIdx_perm hlt)

/-- The value of a join combines every checkpoint once, in some order (R323). -/
theorem Recruit.total_eq (r : Recruit) (a : Word) (t : Nat) :
    ∃ cs, (r.helpers.map fun h => h.2.ckpt).Perm cs ∧ r.total a t = cs.foldl (JoinOp.apply r.op) a := by
  refine ⟨_, ?_, rfl⟩
  split
  · exact (freeOrder_perm _ _ _).symm
  · exact List.Perm.refl _

/-! The turn of a gang (R317). -/

theorem groupKey_keyDie (k : Nat) : groupKey (keyDie k) (keySlot k) (keyG k) = k := by
  have hslot : k / 16 / Config.nSlots * Config.nSlots + k / 16 % Config.nSlots = k / 16 := Nat.div_add_mod' _ _
  rw [groupKey, teamKey, keyDie, keySlot, keyG, hslot]
  exact Nat.div_add_mod' k 16

section
variable {s : State} {k h : Nat} {gr : Group} {x : Helper} (hg : s.group? k = some gr) (hx : s.helper? k h = some x)
include hg hx

theorem State.takeGang_none (f : Fragment) (l : List (Nat × Helper))
    (hy : ∃ y, aget (s.core (keyDie k) gr.core).gangs x.bank = some y ∧ y.clock = s.clock) : s.takeGang k h f l = none := by
  obtain ⟨y, hy, hc⟩ := hy
  have hk := groupKey_keyDie k
  have ht := takeGang_held (n := keyDie k) (m := keySlot k) (k := keyG k) (by rw [hk]) (by rwa [hk]) (by rwa [hk]) f l hy hc
  rwa [hk] at ht

theorem State.takeGang_some (f : Fragment) (l : List (Nat × Helper))
    (hy : ∀ y, aget (s.core (keyDie k) gr.core).gangs x.bank = some y → y.clock ≠ s.clock) :
    ∃ t, s.takeGang k h f l = some t ∧ { t with cores := s.cores } = s ∧
      aget (t.core (keyDie k) gr.core).gangs x.bank =
        some { clock := s.clock, key := k, pc := f.pc.toNat, helpers := l.map (·.1) } := by
  have hk := groupKey_keyDie k
  have ht := takeGang_free (n := keyDie k) (m := keySlot k) (k := keyG k) (by rw [hk]) (by rwa [hk]) (by rwa [hk]) f l hy
  rw [hk] at ht
  refine ⟨_, ht, rfl, ?_⟩
  rw [State.core_modCore, if_pos rfl]
  exact (aget_aput _ _ _ _).trans (if_pos rfl)

end

end Sys2Proof.Machine
end

section
/-! PROOFS. The records of helpers, iterations that end, HNEXT and HQUIT, and the issue of HJOIN (R104, R322, R323, R326 to R328, R382). -/

namespace Sys2Proof.Machine

/-! What the operations of a helper leave, as one record of its group (R104, R321, R322, R326 to R328). -/

/-- A recruitment with one helper replaced. -/
def Recruit.put (r : Recruit) (h : Nat) (x : Helper) : Recruit := { r with helpers := aput r.helpers h x }

/-- A group with its recruitment replaced. -/
def Group.recruited (g : Group) (r : Recruit) : Group := { g with recruit := some r }

@[simp] theorem Recruit.put_put (r : Recruit) (h : Nat) (x y : Helper) : (r.put h x).put h y = r.put h y := by
  simp [Recruit.put, aput_aput]

theorem Recruit.aget_put (r : Recruit) (h : Nat) (x : Helper) : aget (r.put h x).helpers h = some x :=
  (aget_aput _ _ _ _).trans (if_pos rfl)

/-- A recruitment once a further iteration has failed (R327). -/
def Recruit.failed (r : Recruit) (z : HelperRec) : Recruit := { r with recs := r.recs ++ [z], dealing := false }

/-- A record of a helper (R328). -/
def recordOf (h now : Nat) (iter : BitVec 28) (f : FaultRec) : HelperRec :=
  { clock := now, helper := h, words := recordWords h iter f }

/-- A group once a further iteration of its helpers has failed. -/
def Group.recorded (g : Group) (r : Recruit) (z : HelperRec) : Group :=
  { g with hrecs := putRecord g.hrecs 0 ((r.recs ++ [z]).flatMap (·.words)), recruit := some (r.failed z) }

/-- A record later than the others stands last. -/
theorem recordPlace_last {l : List HelperRec} {now : Nat} (h : Nat) (hl : ∀ e ∈ l, e.clock < now) : recordPlace l now h = l.length := by
  unfold recordPlace
  rw [List.filter_eq_self.mpr fun e he => ?_]
  simp [(hl e he).ne]

theorem sget_putRecord_of_lt {j : Nat} (ws : List Word) : ∀ (m : List (Nat × Word)) (i : Nat), j < i →
    sget 0#32 (putRecord m i ws) j = sget 0#32 m j := by
  induction ws with
  | nil => exact fun _ _ _ => rfl
  | cons w ws ih =>
    intro m i hj
    rw [putRecord, ih _ _ (by omega), sget_sset, if_neg (by omega)]

/-- Words put one after another are read back. -/
theorem sget_putRecord {w : Word} (ws : List Word) : ∀ (m : List (Nat × Word)) (i j : Nat), ws[j]? = some w →
    sget 0#32 (putRecord m i ws) (i + j) = w := by
  induction ws with
  | nil => exact fun _ _ _ h => absurd h (by simp)
  | cons v ws ih =>
    intro m i j hj
    cases j with
    | zero =>
      rw [putRecord, sget_putRecord_of_lt ws _ _ (by omega), sget_sset, if_pos (by omega)]
      simpa using hj
    | succ j =>
      rw [putRecord, show i + (j + 1) = i + 1 + j by omega]
      exact ih _ _ _ (by simpa using hj)

/-- The words of a further record stand after those of the others (R328). -/
theorem sget_recorded {g : Group} {r : Recruit} {z : HelperRec} (hl : ∀ e ∈ r.recs, e.words.length = 6) {j : Nat} {w : Word}
    (hw : z.words[j]? = some w) : sget 0#32 (g.recorded r z).hrecs (6 * r.recs.length + j) = w := by
  have hlen : (r.recs.flatMap (·.words)).length = 6 * r.recs.length := by
    rw [List.length_flatMap, List.map_congr_left hl, List.map_const', List.sum_replicate, smul_eq_mul, mul_comm]
  have hget : ((r.recs ++ [z]).flatMap (·.words))[6 * r.recs.length + j]? = some w := by
    rw [List.flatMap_append, List.getElem?_append_right (by omega), hlen, Nat.add_sub_cancel_left]
    simpa using hw
  have h := sget_putRecord _ g.hrecs 0 _ hget
  rwa [Nat.zero_add] at h

section
variable {s : State} {key h : Nat} {gr : Group} {r : Recruit} {x : Helper} (hg : s.group? key = some gr) (hr : gr.recruit = some r)
include hg hr

theorem State.helpersOf_eq : s.helpersOf key = r.helpers := by
  simp only [State.helpersOf, hg, hr, Option.bind_some, Option.map_some, Option.getD_some]

theorem State.modRecruit_eq (F : Recruit → Recruit) : s.modRecruit key F = s.putGroup key (gr.recruited (F r)) := by
  rw [State.modRecruit, State.modGroup_eq_putGroup hg, hr]
  rfl

/-- A failed iteration recorded after fewer than four others, all earlier (R327, R328). -/
theorem State.helperRecord_eq {now : Nat} (iter : BitVec 28) (f : FaultRec) (hlen : r.recs.length < 4) (hl : ∀ e ∈ r.recs, e.clock < now) :
    s.helperRecord key h now iter f = s.putGroup key (gr.recorded r (recordOf h now iter f)) := by
  have hfour : (r.recs ++ [recordOf h now iter f]).length ≤ 4 := by simpa using hlen
  rw [State.helperRecord, State.modGroup_eq_putGroup hg]
  simp only [hr, recordPlace_last h hl, List.take_length, List.drop_length]
  rw [show ({ clock := now, helper := h, words := recordWords h iter f } : HelperRec) = recordOf h now iter f from rfl,
    List.take_of_length_le hfour, decide_eq_false (Nat.not_lt.mpr hfour), Bool.or_false]
  rfl

variable (hx : aget r.helpers h = some x)
include hx

theorem State.modHelper_eq (F : Helper → Helper) : s.modHelper key h F = s.putGroup key (gr.recruited (r.put h (F x))) := by
  rw [State.modHelper, State.modRecruit_eq hg hr, amod_of_aget hx]
  rfl

/-- A helper that stops: its flags do not join its recruiter's (log 22). -/
theorem State.helperStops_eq : s.helperLeaves key h .stopped = s.putGroup key (gr.recruited (r.put h { x with life := .stopped })) := by
  rw [State.helperLeaves, State.helper_of_recruit hg hr hx]
  exact State.modHelper_eq hg hr hx _

/-- A helper that retires (R104, R321). -/
theorem State.helperRetires_eq : s.helperLeaves key h .retired =
    s.putGroup key { gr.recruited (r.put h { x with life := .retired }) with sticky := gr.sticky ||| x.sticky } := by
  have hset := State.modHelper_eq hg hr hx fun y => { y with life := .retired }
  rw [State.helperLeaves, State.helper_of_recruit hg hr hx]
  dsimp only
  rw [if_pos rfl, hset, State.modGroup_eq_putGroup (State.group_putGroup _ _ _), State.putGroup_putGroup]
  rfl

end

/-! Iterations that end: HNEXT, HQUIT and the overrun (R322, R326 to R328, R382). -/

theorem Helper.late_iff (x : Helper) (now : Nat) : x.late now = true ↔ x.dealt + 65536 ≤ now := decide_eq_true_iff

theorem lowIter_le (t : Option (BitVec 28)) (i : BitVec 28) : ∃ j, lowIter t i = some j ∧ j.toNat ≤ i.toNat := by
  unfold lowIter
  split
  · split
    · next j hj => exact ⟨j, rfl, hj⟩
    · exact ⟨i, rfl, le_rfl⟩
  · exact ⟨i, rfl, le_rfl⟩

section
variable {s : State} {key h : Nat} {gr : Group} {r : Recruit} {x : Helper} (hg : s.group? key = some gr) (hr : gr.recruit = some r)
  (hx : aget r.helpers h = some x)
include hg hr hx

/-- A fault of a helper that runs, recorded after fewer than four others, all of earlier clocks (R327). -/
theorem State.helperFault_eq (f : FaultRec) (hrun : x.life = .running) (hlen : r.recs.length < 4) (hl : ∀ e ∈ r.recs, e.clock < s.clock) :
    s.helperFault key h f = s.putGroup key ((gr.recorded r (recordOf h s.clock x.iter f)).recruited
      ((r.failed (recordOf h s.clock x.iter f)).put h { x with life := .stopped })) := by
  rw [State.helperFault, State.helper_of_recruit hg hr hx]
  dsimp only
  rw [if_pos hrun, State.helperRecord_eq hg hr _ _ hlen hl,
    State.helperStops_eq (State.group_putGroup _ _ _) (r := r.failed (recordOf h s.clock x.iter f)) rfl hx, State.putGroup_putGroup]

theorem State.timeOut_early (h0 : ¬x.dealt + 65536 ≤ s.clock) : s.timeOut key h = s := by
  have hlate : x.late s.clock = false := Bool.eq_false_iff.mpr fun hc => h0 ((x.late_iff _).mp hc)
  rw [State.timeOut, State.helper_of_recruit hg hr hx]
  simp only [hlate, Bool.and_false, Bool.false_eq_true, if_false]

/-- The record of an overrun iteration (R326). -/
def overrunRecord (h : Nat) (x : Helper) : HelperRec :=
  recordOf h (x.dealt + 65536) x.iter { code := 14, pc := x.front.pc, detail := x.iter.setWidth 32 }

/-- An overrun iteration, recorded after fewer than four others, all earlier (R326, R328). -/
theorem State.timeOut_late (hrun : x.life = .running) (h0 : x.dealt + 65536 ≤ s.clock) (hlen : r.recs.length < 4)
    (hl : ∀ e ∈ r.recs, e.clock < x.dealt + 65536) :
    s.timeOut key h = s.putGroup key ((gr.recorded r (overrunRecord h x)).recruited
      ({ r.failed (overrunRecord h x) with timeout := lowIter r.timeout x.iter }.put h { x with life := .stopped })) := by
  have hlate : (x.life = .running && x.late s.clock) = true := by simp [hrun, (x.late_iff _).mpr h0]
  have hrec : s.helperRecord key h (x.dealt + Config.iterationClocks) x.iter { code := 14, pc := x.front.pc, detail := x.iter.setWidth 32 } =
      s.putGroup key (gr.recorded r (overrunRecord h x)) := State.helperRecord_eq hg hr _ _ hlen hl
  have hmod := State.modRecruit_eq (State.group_putGroup s key (gr.recorded r (overrunRecord h x))) (r := r.failed (overrunRecord h x)) rfl
    fun r => { r with timeout := lowIter r.timeout x.iter, dealing := false }
  rw [State.putGroup_putGroup] at hmod
  rw [State.timeOut, State.helper_of_recruit hg hr hx]
  dsimp only
  rw [if_pos hlate, hrec, hmod, State.helperStops_eq (State.group_putGroup _ _ _) (x := x)
    (r := { r.failed (overrunRecord h x) with timeout := lowIter r.timeout x.iter }) rfl hx, State.putGroup_putGroup]
  rfl

/-- A helper with its checkpoint taken: v0 (R322, log 62). -/
def Helper.checked (x : Helper) : Helper := { x with ckpt := sget 0#32 x.v 0 }

/-- The recruiting fragment as a next iteration finds it. -/
def Group.recruiter (g : Group) (r : Recruit) : Fragment := (aget g.frags r.entry).getD { clause := r.target, mask := 0#64 }

/-- A helper that takes the next iteration (R322). -/
def Helper.took (x : Helper) (r : Recruit) (fr : Fragment) (now : Nat) : Helper :=
  { x.checked with iter := r.next, dealt := now, front := x.front.nextIter fr r.target }

/-- The end of an iteration, from the panel with the checkpoint taken (R322). -/
theorem State.iterationEnds_eq (again : Bool) :
    let u := s.putGroup key (gr.recruited (r.put h x.checked))
    s.iterationEnds key h again = if again && r.dealing && decide (r.next.toNat < r.hi.toNat) then
        (u.modRecruit key fun r => { r with next := r.next + 1#28 }).modHelper key h fun y =>
          { y with iter := r.next, dealt := s.clock, front := y.front.nextIter (gr.recruiter r) r.target }
      else u.helperLeaves key h .retired := by
  have hc : (s.modHelper key h fun x => { x with ckpt := sget 0#32 x.v 0 }) = s.putGroup key (gr.recruited (r.put h x.checked)) :=
    State.modHelper_eq hg hr hx _
  rw [State.iterationEnds, hc, State.group_putGroup]
  rfl

theorem State.iterationEnds_took (hd : r.dealing = true) (hn : r.next.toNat < r.hi.toNat) :
    s.iterationEnds key h true =
      s.putGroup key (gr.recruited ({ r with next := r.next + 1#28 }.put h (x.took r (gr.recruiter r) s.clock))) := by
  have hagain : (true && r.dealing && decide (r.next.toNat < r.hi.toNat)) = true := by simp [hd, hn]
  have hmod := State.modRecruit_eq (State.group_putGroup s key (gr.recruited (r.put h x.checked))) (r := r.put h x.checked) rfl
    fun r => { r with next := r.next + 1#28 }
  rw [State.iterationEnds_eq hg hr hx, if_pos hagain, hmod, State.putGroup_putGroup,
    State.modHelper_eq (State.group_putGroup _ _ _) (r := { r.put h x.checked with next := r.next + 1#28 }) rfl (r.aget_put h x.checked),
    State.putGroup_putGroup]
  exact congrArg (fun q => s.putGroup key (gr.recruited q)) (({ r with next := r.next + 1#28 } : Recruit).put_put h x.checked _)

theorem State.iterationEnds_retires {again : Bool} (hd : again = true → r.dealing = false ∨ r.hi.toNat ≤ r.next.toNat) :
    s.iterationEnds key h again = s.putGroup key
      { gr.recruited (r.put h { x.checked with life := .retired }) with sticky := gr.sticky ||| x.sticky } := by
  have hagain : (again && r.dealing && decide (r.next.toNat < r.hi.toNat)) = false := by
    cases again with
    | false => rfl
    | true => rcases hd rfl with hd | hd <;> simp [hd]
  rw [State.iterationEnds_eq hg hr hx, hagain, if_neg Bool.false_ne_true,
    State.helperRetires_eq (State.group_putGroup _ _ _) (r := r.put h x.checked) rfl (r.aget_put h x.checked), Recruit.put_put,
    State.putGroup_putGroup]
  rfl

end

/-! HNEXT, HQUIT and HELPER_ITERATION_TIMEOUT (R322, R326, R382). -/

/-- A helper with the unmet errors of v0 met, in some lanes (R382). -/
def Helper.unmarked (x : Helper) (m : Mask) : Helper :=
  { x with tags := sset {} x.tags 0 { sget {} x.tags 0 with ue := (sget {} x.tags 0).ue &&& ~~~m } }

section
variable {s : State} {n m k h : Nat} {act : Mask} {g : Guard}

theorem exec_hnext_ready (hready : s.ready (.helper n m k h) act (helperSpec g) = true) :
    exec (.hnext g) s = .next (s.reached (.helper n m k h) h true) := by
  simp only [exec, execHnext]
  rw [issueWith_ready hready]

theorem exec_hquit_ready (hready : s.ready (.helper n m k h) act (helperSpec g) = true) :
    exec (.hquit g) s = .next (s.reached (.helper n m k h) h false) := by
  simp only [exec, execHquit]
  rw [issueWith_ready hready]

variable {gr : Group} {r : Recruit} {x : Helper} (hg : s.group? (groupKey n m k) = some gr) (hr : gr.recruit = some r)
  (hx : aget r.helpers h = some x)
include hg hr hx

/-- What HNEXT and HQUIT do: after the iteration's clocks, with a v0 in error, or in time. -/
theorem State.reached_eq (again : Bool) : s.reached (.helper n m k h) h again =
    if x.late s.clock then s.timeOut (groupKey n m k) h
    else if (s.rdTag (.helper n m k h) 0).poison ≠ 0#64 then
      (s.meetReg (.helper n m k h) 0 x.front.mask).helperFault (groupKey n m k) h { code := 36, lanes := x.front.mask, pc := x.front.pc }
    else s.iterationEnds (groupKey n m k) h again := by
  simp only [State.reached, agKey, State.helpersOf_eq hg hr, hx]

theorem State.reached_late (again : Bool) (h0 : x.dealt + 65536 ≤ s.clock) :
    s.reached (.helper n m k h) h again = s.timeOut (groupKey n m k) h := by
  rw [State.reached_eq hg hr hx, if_pos ((x.late_iff _).mpr h0)]

theorem State.reached_inTime (again : Bool) (h0 : s.clock < x.dealt + 65536) (hp : (s.rdTag (.helper n m k h) 0).poison = 0#64) :
    s.reached (.helper n m k h) h again = s.iterationEnds (groupKey n m k) h again := by
  have hlate : ¬x.late s.clock = true := fun hc => Nat.not_le.mpr h0 ((x.late_iff _).mp hc)
  rw [State.reached_eq hg hr hx, if_neg hlate, if_neg (not_not_intro hp)]

theorem State.reached_poisoned (again : Bool) (h0 : s.clock < x.dealt + 65536) (hp : (s.rdTag (.helper n m k h) 0).poison ≠ 0#64) :
    s.reached (.helper n m k h) h again = (s.meetReg (.helper n m k h) 0 x.front.mask).helperFault (groupKey n m k) h
      { code := 36, lanes := x.front.mask, pc := x.front.pc } := by
  have hlate : ¬x.late s.clock = true := fun hc => Nat.not_le.mpr h0 ((x.late_iff _).mp hc)
  rw [State.reached_eq hg hr hx, if_neg hlate, if_pos hp]

/-- Errors of v0 that are met change marks alone and report (R382). -/
theorem State.meetV0 (lanes : Mask) : let u := s.meetReg (.helper n m k h) 0 lanes
    ∃ gu ru xu, u.group? (groupKey n m k) = some gu ∧ gu.recruit = some ru ∧ aget ru.helpers h = some xu ∧ gu.sticky = gr.sticky ∧
      ru.recs = r.recs ∧ (xu.life, xu.ckpt, xu.iter, xu.front) = (x.life, x.ckpt, x.iter, x.front) ∧ u.clock = s.clock ∧ s.sameMem u := by
  intro u
  by_cases hue : (decide ((0 : Nat) < 640) && (s.rdTag (.helper n m k h) 0).ue &&& s.readLanes (.helper n m k h) 0 lanes != 0#64) = true
  · have hset : (s.modTag (.helper n m k h) 0 fun t => { t with ue := t.ue &&& ~~~s.readLanes (.helper n m k h) 0 lanes }) =
        s.putGroup (groupKey n m k) (gr.recruited (r.put h (x.unmarked (s.readLanes (.helper n m k h) 0 lanes)))) :=
      State.modHelper_eq hg hr hx _
    obtain ⟨d, a, b, c, hu⟩ : ∃ d a b c, u = (s.modTag (.helper n m k h) 0 fun t =>
      { t with ue := t.ue &&& ~~~s.readLanes (.helper n m k h) 0 lanes }).reportError d a b c 0 1 := ⟨_, _, _, _, if_pos hue⟩
    rw [hset] at hu
    rw [hu]
    have hm := State.reportError_mails (s.putGroup (groupKey n m k)
      (gr.recruited (r.put h (x.unmarked (s.readLanes (.helper n m k h) 0 lanes))))) d a b c 0 1
    exact ⟨_, _, _, (hm.group _).trans (State.group_putGroup _ _ _), rfl, r.aget_put h _, rfl, rfl, rfl, hm.clock, hm.sameMem⟩
  · have hu : u = s := if_neg hue
    rw [hu]
    exact ⟨gr, r, x, hg, hr, hx, rfl, rfl, rfl, rfl, rfl, rfl⟩

/-- A v0 in error stops the helper and is recorded (R327, R382). -/
theorem State.poisonedV0_stops (again : Bool) (hrun : x.life = .running) (h0 : s.clock < x.dealt + 65536)
    (hp : (s.rdTag (.helper n m k h) 0).poison ≠ 0#64) (hlen : r.recs.length < 4) (hl : ∀ e ∈ r.recs, e.clock < s.clock)
    (hw : ∀ e ∈ r.recs, e.words.length = 6) :
    ∃ gt rt y, (s.reached (.helper n m k h) h again).group? (groupKey n m k) = some gt ∧ gt.recruit = some rt ∧ aget rt.helpers h = some y ∧
      (y.life, y.ckpt, y.iter, rt.dealing, rt.recs.length) = (HelperLife.stopped, x.ckpt, x.iter, false, r.recs.length + 1) ∧
      gt.sticky = gr.sticky ∧ s.sameMem (s.reached (.helper n m k h) h again) ∧
      ∀ (j : Nat) (w : Word), (recordWords h x.iter { code := 36, lanes := x.front.mask, pc := x.front.pc })[j]? = some w →
        sget 0#32 gt.hrecs (6 * r.recs.length + j) = w := by
  obtain ⟨gu, ru, xu, hgu, hru, hxu, hsticky, hrecs, hsame, hclock, hmem⟩ := State.meetV0 hg hr hx x.front.mask
  simp only [Prod.mk.injEq] at hsame
  obtain ⟨hlife, hckpt, hiter, -⟩ := hsame
  have hfault := State.helperFault_eq hgu hru hxu { code := 36, lanes := x.front.mask, pc := x.front.pc } (hlife.trans hrun)
    (by rwa [hrecs]) (by rwa [hrecs, hclock])
  rw [State.reached_poisoned hg hr hx again h0 hp, hfault]
  refine ⟨_, _, _, State.group_putGroup _ _ _, rfl, Recruit.aget_put _ _ _, ?_, hsticky, hmem, fun j w hj => ?_⟩
  · simp [Recruit.put, Recruit.failed, hckpt, hiter, hrecs]
  · rw [← hrecs]
    exact sget_recorded (by rwa [hrecs]) (by rwa [recordOf, hiter])

/-- An overrun iteration stops its helper and is recorded (R326). -/
theorem State.overrun_stops (hrun : x.life = .running) (h0 : x.dealt + 65536 ≤ s.clock) (hlen : r.recs.length < 4)
    (hl : ∀ e ∈ r.recs, e.clock < x.dealt + 65536) (hw : ∀ e ∈ r.recs, e.words.length = 6) :
    ∃ t gt rt y, exec (.helperIterationTimeout n m k h) s = .next t ∧ t.group? (groupKey n m k) = some gt ∧ gt.recruit = some rt ∧
      aget rt.helpers h = some y ∧ y.life = .stopped ∧ rt.dealing = false ∧ rt.recs.length = r.recs.length + 1 ∧
      gt.sticky = gr.sticky ∧ (∃ i, rt.timeout = some i ∧ i.toNat ≤ x.iter.toNat) ∧ t.mem = s.mem ∧ t.l2 = s.l2 ∧
      ∀ (i : Nat) (w : Word), (recordWords h x.iter { code := 14, pc := x.front.pc, detail := x.iter.setWidth 32 })[i]? = some w →
        sget 0#32 gt.hrecs (6 * r.recs.length + i) = w := by
  have hexec : exec (.helperIterationTimeout n m k h) s = .next (s.timeOut (groupKey n m k) h) := rfl
  rw [State.timeOut_late hg hr hx hrun h0 hlen hl] at hexec
  refine ⟨_, _, _, _, hexec, State.group_putGroup _ _ _, rfl, Recruit.aget_put _ _ _, rfl, rfl, ?_, rfl, lowIter_le _ _, rfl, rfl,
    fun i w hi => sget_recorded hw hi⟩
  simp [Recruit.put, Recruit.failed]

end

/-! What an iteration that ends in time leaves (R104, R322). -/

/-- An instruction of helper `h` ends an iteration: its checkpoint is v0, no register and no fragment of the recruiter changes, and `p`
says what becomes of the recruitment, of the helper and of the group's flags. -/
def State.iterated (s : State) (key h : Nat) (gr : Group) (x : Helper) (i : Instr) (p : Recruit → Helper → Word → Prop) : Prop :=
  ∃ t gt rt y, exec i s = .next t ∧ t.group? key = some gt ∧ gt.recruit = some rt ∧ aget rt.helpers h = some y ∧
    y.ckpt = sget 0#32 x.v 0 ∧ y.v = x.v ∧ gt.v = gr.v ∧ gt.s = gr.s ∧ gt.frags = gr.frags ∧ t.mem = s.mem ∧ t.l2 = s.l2 ∧
    t.flight = s.flight ∧ p rt y (gt.sticky.setWidth 32)

section
variable {s : State} {n m k h : Nat} {act : Mask} {g : Guard} {gr : Group} {r : Recruit} {x : Helper}
  (hg : s.group? (groupKey n m k) = some gr) (hr : gr.recruit = some r) (hx : aget r.helpers h = some x)
  (h0 : s.clock < x.dealt + 65536)
  (hp : (s.rdTag (.helper n m k h) 0).poison = 0#64)
include hg hr hx h0 hp

/-- HNEXT with an iteration left: the helper takes it (R185, R322). -/
theorem hnext_takes (hready : s.ready (.helper n m k h) act (helperSpec g) = true) (hrun : x.life = .running) (hd : r.dealing = true)
    (hn : r.next.toNat < r.hi.toNat) :
    s.iterated (groupKey n m k) h gr x (.hnext g) fun rt y _ => y.iter = r.next ∧ rt.next = r.next + 1#28 ∧ y.dealt = s.clock ∧
      y.life = .running ∧ (y.front.clause, y.front.idx, y.front.hdr, y.front.wait, y.front.mask) = (r.target, 0, none, Wait.run, x.front.mask) ∧
      ∀ fr, aget gr.frags r.entry = some fr → (y.front.past, y.front.fenceAll) = (fr.past, fr.fenceAll) := by
  have hexec := exec_hnext_ready hready
  rw [State.reached_inTime hg hr hx true h0 hp, State.iterationEnds_took hg hr hx hd hn] at hexec
  refine ⟨_, _, _, _, hexec, State.group_putGroup _ _ _, rfl, Recruit.aget_put _ _ _, rfl, rfl, rfl, rfl, rfl, rfl, rfl, rfl,
    rfl, rfl, rfl, hrun, rfl, fun fr hfr => ?_⟩
  have hrec : gr.recruiter r = fr := by rw [Group.recruiter, hfr, Option.getD_some]
  rw [← hrec]
  rfl

/-- What retires a helper (R104, R322). -/
theorem State.iterated_retires {i : Instr} {again : Bool} (hi : exec i s = .next (s.reached (.helper n m k h) h again))
    (hd : again = true → r.dealing = false ∨ r.hi.toNat ≤ r.next.toNat) :
    s.iterated (groupKey n m k) h gr x i fun rt y st => y.life = .retired ∧ rt.next = r.next ∧ st = (gr.sticky ||| x.sticky).setWidth 32 := by
  rw [State.reached_inTime hg hr hx again h0 hp, State.iterationEnds_retires hg hr hx hd] at hi
  exact ⟨_, _, _, _, hi, State.group_putGroup _ _ _, rfl, Recruit.aget_put _ _ _, rfl, rfl, rfl, rfl, rfl, rfl, rfl, rfl, rfl, rfl, rfl⟩

end

/-! The issue of HJOIN (R323). -/

/-- An instruction that issues when a source in error would stop it issues when it sees to that itself. -/
theorem State.ready_ownErr {s : State} {ag : Agent} {act : Mask} {sp : Spec} (h : s.ready ag act sp = true) :
    s.ready ag act { sp with ownErr := true } = true := by
  unfold State.ready at h ⊢
  cases hf : s.front? ag with
  | none => simp [hf] at h
  | some f =>
    have hadm : ({ sp with ownErr := true } : Spec).admits ag = sp.admits ag := rfl
    have hrules : clauseRules f { sp with ownErr := true } = clauseRules f sp := rfl
    simp only [hf, hadm, hrules, Bool.true_or, Bool.and_true, Bool.and_eq_true, Bool.or_eq_true] at h ⊢
    tauto

/-- A source of a ready instruction that is read in every active lane holds no error there (R382). -/
theorem State.clean_of_ready {s : State} {ag : Agent} {act : Mask} {sp : Spec} (h : s.ready ag act sp = true) (ho : sp.ownErr = false)
    {r : Nat} (hr : (r, act) ∈ sp.reads act) : (decide (r < 640) && (s.rdTag ag r).poison &&& act != 0#64) = false := by
  unfold State.ready at h
  cases hf : s.front? ag with
  | none => simp [hf] at h
  | some f =>
    simp only [hf, ho, Bool.false_or, Bool.and_eq_true] at h
    have hall : ((sp.reads act).all fun x => !(decide (x.1 < 640) && (s.rdTag ag x.1).poison &&& x.2 != 0#64)) = true := by tauto
    have hx : (!(decide (r < 640) && (s.rdTag ag r).poison &&& act != 0#64)) = true := List.all_eq_true.mp hall _ hr
    rwa [Bool.not_eq_true'] at hx

section
variable {s : State} {n m k e : Nat} {act : Mask} {gr : Group} {f : Fragment} {r : Recruit} {d : RegNo} {a : Src}
  (hg : s.group? (groupKey n m k) = some gr) (hr : gr.recruit = some r) (he : r.entry = e) (hf : aget gr.frags e = some f)
  (h : s.ready (.frag n m k e) act { cls := 3, srcs := [(a, 1)], dsts := [(d, 2)], hlp := false } = true)
include hg hr he hf h

/-- HJOIN holds its fragment, with the pair D EMPTY and A read in the recruiter's lane (R323). -/
theorem exec_hjoin_ready : exec (.hjoin d a) s = .next
    (((s.setEmpty (.frag n m k e) d.toNat true 2).modRecruit (groupKey n m k) fun q =>
      { q with hjoin := some (d, s.src (.frag n m k e) a 0 r.lane, f.pc), hjoinBad := false }).modFront (.frag n m k e) fun f =>
        { f with wait := .hjoin, stall := .none }) := by
  have hclean : (decide (a.r.toNat < 640) && (s.rdTag (.frag n m k e) a.r.toNat).poison &&& act != 0#64) = false :=
    State.clean_of_ready h rfl (by simp [Spec.reads])
  simp only [exec, execHjoin]
  rw [issueWith_ready (State.ready_ownErr h)]
  have hentry : ¬r.entry ≠ e := not_not_intro he
  have hval : s.vals (.frag n m k e) [(a, 1)] 0 0 r.lane = s.src (.frag n m k e) a 0 r.lane := rfl
  simp only [State.front_frag hg, hf, agKey, hg, hr, Option.bind_some, if_neg hentry, hclean, hval, Bool.false_eq_true, if_false]

theorem hjoin_holds : ∃ t gt, exec (.hjoin d a) s = .next t ∧ t.group? (groupKey n m k) = some gt ∧
    gt.recruit = some { r with hjoin := some (d, s.src (.frag n m k e) a 0 r.lane, f.pc), hjoinBad := false } ∧
    gt.frags = aput gr.frags e { f with wait := .hjoin, stall := .none } ∧ gt.v = gr.v ∧ gt.s = gr.s ∧
    (gt.tag d.toNat).empty = true ∧ (gt.tag (d.toNat + 1)).empty = true ∧ t.mem = s.mem ∧ t.l2 = s.l2 := by
  let g0 := gr.modTags d.toNat (fun t => { t with empty := true }) 2
  have hset := ((State.became_refl hg).setEmpty (e := e) true 2 d.toNat).modGroup fun g => { g with recruit := g.recruit.map fun q =>
    { q with hjoin := some (d, s.src (.frag n m k e) a 0 r.lane, f.pc), hjoinBad := false } }
  have hwait := hset.modGroup fun g => { g with frags := amod g.frags e fun f => { f with wait := .hjoin, stall := .none } }
  have htag : ∀ q, d.toNat ≤ q → q < d.toNat + 2 → (g0.tag q).empty = true := fun q hlo hhi => by
    rw [Group.tag_modTags, if_pos ⟨hlo, hhi⟩]
  obtain ⟨-, -, -, hmem, hl2⟩ := hwait.rest
  exact ⟨_, _, exec_hjoin_ready hg hr he hf h, hwait.1, congrArg (Option.map _) hr, amod_of_aget hf _, rfl, rfl,
    htag _ le_rfl (by omega), htag _ (by omega) (by omega), hmem, hl2⟩

end

end Sys2Proof.Machine
end

section
/-! PROOFS. RECRUIT (R316, R318, R320). -/

namespace Sys2Proof.Machine

/-! RECRUIT (R316, R318, R320). -/

/-- How many helpers a RECRUIT takes, no drain being asked for (R316, R318). -/
def recruitCount (lo hi : BitVec 28) (most free : Nat) : Nat :=
  if hi.toNat ≤ lo.toNat then 0 else min most (min (hi.toNat - lo.toNat) (4 * free))

/-- What RECRUIT writes (R318). -/
def recruitWord (lo hi : BitVec 28) (most free : Nat) : Word :=
  let count := recruitCount lo hi most free
  BitVec.ofNat 32 ((if hi.toNat ≤ lo.toNat then 3 else if count = 0 then 1 else 0) * 2 ^ 28 + count)

/-- The helpers of a recruitment at its start (R320). -/
def startHelpers (o : JoinOp) (entry : Addr) (f : Fragment) (lo : BitVec 28) (now : Nat) (free : List (Nat × Nat)) (count : Nat) :
    List (Nat × Helper) :=
  (List.range count).map fun h => (h, newHelper o entry f (lo + BitVec.ofNat 28 h) now ((free[h / 4]?).getD (0, 0)))

theorem startHelpers_keys {o : JoinOp} {entry : Addr} {f : Fragment} {lo : BitVec 28} {now : Nat} {free : List (Nat × Nat)} (count : Nat) :
    (startHelpers o entry f lo now free count).map (·.1) = List.range count := by
  rw [startHelpers, List.map_map]
  exact List.map_id _

/-- Each helper starts at the entry, with the operation's identity in v0, its own iteration and its slice. -/
theorem startHelpers_spec {o : JoinOp} {entry : Addr} {f : Fragment} {lo : BitVec 28} {now : Nat} {free : List (Nat × Nat)} {count h : Nat}
    {x : Helper} (hcount : count ≤ 4 * free.length) (hx : aget (startHelpers o entry f lo now free count) h = some x) :
    sget 0#32 x.v 0 = JoinOp.identity o ∧ (∀ i, i ≠ 0 → sget 0#32 x.v i = 0#32) ∧
      x.iter = lo + BitVec.ofNat 28 h ∧ x.front.clause = entry ∧ x.front.hdr = none ∧ x.life = .running ∧
      free[h / 4]? = some (x.bank, x.slice) := by
  obtain ⟨i, hi, he⟩ := List.mem_map.mp (mem_of_aget hx)
  rw [List.mem_range] at hi
  rw [Prod.mk.injEq] at he
  obtain ⟨rfl, rfl⟩ := he
  have hlt : i / 4 < free.length := by omega
  refine ⟨?_, fun j hj => ?_, rfl, rfl, rfl, rfl, ?_⟩
  · exact (sget_sset _ _ _ _ _).trans (if_pos rfl)
  · exact (sget_sset _ _ _ _ _).trans (if_neg hj)
  · rw [List.getElem?_eq_getElem hlt]
    rfl

theorem recruitCount_le (lo hi : BitVec 28) (most free : Nat) : recruitCount lo hi most free ≤ 4 * free := by
  unfold recruitCount
  split <;> omega

/-- A recruitment at its start (R318). -/
def startRecruit (o : JoinOp) (entry : Addr) (f : Fragment) (e : Nat) (d : RegNo) (lo hi : BitVec 28) (now : Nat) (free : List (Nat × Nat))
    (count : Nat) : Recruit :=
  { op := o, lo := lo, hi := hi, next := lo + BitVec.ofNat 28 count, dealing := decide (0 < count), g := count, entry := e
    lane := lowLane f.mask, target := entry, helpers := startHelpers o entry f lo now free count, dst := d.toNat, since := some now }

section
variable {s : State} {n m k e : Nat} {gr : Group} {f : Fragment} {d : RegNo} {o : JoinOp} {lo hi : BitVec 28} {most : Nat} {entry : Addr}

theorem State.doRecruit_eq (hm : m < 2048) (hk : k < 16) (hpre : s.preemptAsked (groupKey n m k) = false)
    (hkill : ((s.teamOf? (groupKey n m k)).map (·.killed)).getD false = false) :
    let free := s.slicesFree n gr.core gr.part
    s.doRecruit (.frag n m k e) f gr e d o lo hi most entry =
      (((s.wrReg (.frag n m k e) d.toNat (lowLane f.mask) (recruitWord lo hi most free.length)).modGroup (groupKey n m k) fun g =>
        { g with hrecs := [], recruit := some (startRecruit o entry f e d lo hi s.clock free (recruitCount lo hi most free.length)) }).advance
          (.frag n m k e)) := by
  intro free
  have hdrain : (decide (hi.toNat ≤ lo.toNat) || false) = true ↔ hi.toNat ≤ lo.toNat := by simp
  simp only [State.doRecruit, agKey, hpre, hkill, keyDie_groupKey hm hk, Bool.or_self, hdrain, Bool.false_eq_true, if_false]
  rfl

/-- What RECRUIT leaves once its checks have passed. -/
theorem State.doRecruit_spec (hg : s.group? (groupKey n m k) = some gr) (hf : aget gr.frags e = some f) (hm : m < 2048) (hk : k < 16)
    (hl : lowLane f.mask < 64) (hpre : s.preemptAsked (groupKey n m k) = false)
    (hkill : ((s.teamOf? (groupKey n m k)).map (·.killed)).getD false = false) :
    let free := s.slicesFree n gr.core gr.part
    let t := s.doRecruit (.frag n m k e) f gr e d o lo hi most entry
    ∃ gt, s.wentOn t (.frag n m k e) ∧ t.group? (groupKey n m k) = some gt ∧
      gt.rd d.toNat (lowLane f.mask) = recruitWord lo hi most free.length ∧
      gt.recruit = some (startRecruit o entry f e d lo hi s.clock free (recruitCount lo hi most free.length)) ∧ gt.hrecs = [] ∧
      t.mem = s.mem ∧ t.l2 = s.l2 ∧ t.flight = s.flight := by
  intro free t
  have ht : t = _ := State.doRecruit_eq (e := e) (f := f) (gr := gr) (d := d) (o := o) (lo := lo) (hi := hi) (most := most)
    (entry := entry) hm hk hpre hkill
  have hb := (((State.became_refl hg).setReg (e := e) d.toNat (lowLane f.mask) (recruitWord lo hi most free.length)).modGroup fun g =>
    { g with hrecs := [], recruit := some (startRecruit o entry f e d lo hi s.clock free (recruitCount lo hi most free.length)) }).modGroup
      fun g => { g with frags := amod g.frags e Fragment.advance }
  obtain ⟨-, -, -, hmem, hl2⟩ := hb.rest
  rw [ht]
  refine ⟨_, State.wentOn_of_group hg hf hb.1 ?_ rfl, hb.1, ?_, rfl, rfl, hmem, hl2, (congrArg State.flight hb.2 :)⟩
  · have hfrags := gr.setReg_rest d.toNat (lowLane f.mask) (recruitWord lo hi most free.length)
    have hfrags : (gr.setReg d.toNat (lowLane f.mask) (recruitWord lo hi most free.length)).frags = gr.frags := (congrArg Group.frags hfrags :)
    show aget (amod (gr.setReg _ _ _).frags e Fragment.advance) e = some f.advance
    rw [hfrags, aget_amod, if_pos rfl, hf, Option.map_some]
  · exact (gr.rd_setReg _ hl hl).trans (if_pos ⟨rfl, .inl rfl⟩)

end

/-- The one lane of a fragment (R318). -/
theorem lowLane_of_popMask {m : Mask} (h : popMask m = 1) : lowLane m < 64 := by
  have hm : m ≠ 0#64 := by
    rintro rfl
    exact absurd h (by decide)
  exact (lowLane_mem hm).1

section
variable {s : State} {n m k e : Nat} {act : Mask} {gr : Group} {f : Fragment} {d : RegNo} {a b c : Src} {op : BitVec 4} {o : JoinOp} {j : Src}
  {entry : Addr}

/-- RECRUIT with its checks passed (R318, R319). -/
theorem exec_recruit_ready (hm : m < 2048) (hk : k < 16) (hg : s.group? (groupKey n m k) = some gr) (hf : aget gr.frags e = some f)
    (h : s.ready (.frag n m k e) act { cls := 3, srcs := [(a, 2), (b, 2), (c, 1)], dsts := [(d, 1)] } = true)
    (hpop : popMask f.mask = 1) (ho : JoinOp.ofCode op = some o) (hmost : 0 < bits (s.src (.frag n m k e) c 0 (lowLane f.mask)) 5 0)
    (hbusy : s.agFetchBusy (.frag n m k e) (f.pc + 8#48) = false) (hj : s.hjoinNext (.frag n m k e) f = some j)
    (hjr : j.r.toNat < 640 → (s.rdTag (.frag n m k e) j.r.toNat).empty = false ∧ (s.rdTag (.frag n m k e) j.r.toNat).arm = 0#64)
    (hout : gr.writesOut = false)
    (hentry : addrOfPair (s.src (.frag n m k e) b 1 (lowLane f.mask)) (s.src (.frag n m k e) b 0 (lowLane f.mask)) = entry)
    (hfree : s.agFetchBusy (.frag n m k e) entry = false) (hland : s.landingAt n (s.ptagOf (groupKey n m k)) entry = true) :
    exec (.recruit d a b c op { g := 0#4, neg := false }) s = .next (s.doRecruit (.frag n m k e) f gr e d o
      ((s.src (.frag n m k e) a 0 (lowLane f.mask)).setWidth 28) ((s.src (.frag n m k e) a 1 (lowLane f.mask)).setWidth 28)
      (bits (s.src (.frag n m k e) c 0 (lowLane f.mask)) 5 0) entry) := by
  have hA : ∀ i l, s.vals (.frag n m k e) [(a, 2), (b, 2), (c, 1)] 0 i l = s.src (.frag n m k e) a i l := fun _ _ => rfl
  have hB : ∀ i l, s.vals (.frag n m k e) [(a, 2), (b, 2), (c, 1)] 1 i l = s.src (.frag n m k e) b i l := fun _ _ => rfl
  have hC : ∀ i l, s.vals (.frag n m k e) [(a, 2), (b, 2), (c, 1)] 2 i l = s.src (.frag n m k e) c i l := fun _ _ => rfl
  have hwait : (decide (j.r.toNat < 640) && ((s.rdTag (.frag n m k e) j.r.toNat).empty ||
      (s.rdTag (.frag n m k e) j.r.toNat).arm != 0#64)) = false := by
    by_cases h640 : j.r.toNat < 640
    · obtain ⟨hempty, harm⟩ := hjr h640
      simp [hempty, harm]
    · simp [h640]
  simp only [exec, execRecruit]
  rw [issueWith_ready h]
  simp only [State.front_frag hg, hf, agKey, hg, hA, hB, hC, hbusy, hj, ho, hpop, hmost.ne', hentry, hfree, keyDie_groupKey hm hk, hland,
    hout, hwait, Bool.and_false, Bool.not_true, Bool.or_self, Bool.false_eq_true, ne_eq, not_true_eq_false, decide_false, if_false]

end

end Sys2Proof.Machine
end

section
/-! PROOFS. The completion of HJOIN, and its fault (R323, R324). -/

namespace Sys2Proof.Machine

/-! The completion of HJOIN (R323, R324). -/

/-- A register of a lane after a write of one in that lane (R60). -/
theorem Group.rd_setReg_lane (g : Group) (r q l : Nat) (w : Word) : (g.setReg r l w).rd q l = if q = r then w else g.rd q l := by
  rw [Group.setReg, Group.rd_modTag]
  unfold Group.rd Group.wr
  by_cases hr : r < 256 <;> by_cases hq : q < 256 <;> simp only [hr, hq, if_true, if_false, sget_sset]
  · exact if_congr (by omega) rfl rfl
  · rw [if_neg (by omega)]
  · rw [if_neg (by omega)]
  · exact if_congr (by omega) rfl rfl

/-- The status word that HJOIN writes (R324). -/
def Recruit.statusWord (r : Recruit) : Word := BitVec.ofNat 32 (r.status * 2 ^ 28 + r.next.toNat)

/-- A group is another but for its registers and their tags. -/
def Group.sameBut (x y : Group) : Prop := { x with v := y.v, s := y.s, tags := y.tags } = y

theorem Group.sameBut_of_tags {x y : Group} (h : { x with tags := y.tags } = y) : x.sameBut y := by
  unfold Group.sameBut
  rw [← h]

theorem Group.sameBut_trans {x y z : Group} (h : x.sameBut y) (h' : y.sameBut z) : x.sameBut z := by
  unfold Group.sameBut at h h'
  rw [← h] at h'
  exact h'

section
variable {x y : Group} (h : x.sameBut y)
include h

theorem Group.sameBut.frags : x.frags = y.frags := (congrArg Group.frags (show { x with v := y.v, s := y.s, tags := y.tags } = y from h) :)
theorem Group.sameBut.ended : x.ended = y.ended := (congrArg Group.ended (show { x with v := y.v, s := y.s, tags := y.tags } = y from h) :)
theorem Group.sameBut.parked : x.parked = y.parked := (congrArg Group.parked (show { x with v := y.v, s := y.s, tags := y.tags } = y from h) :)
theorem Group.sameBut.held : x.held = y.held := (congrArg Group.held (show { x with v := y.v, s := y.s, tags := y.tags } = y from h) :)
theorem Group.sameBut.trapVec : x.trapVec = y.trapVec :=
  (congrArg Group.trapVec (show { x with v := y.v, s := y.s, tags := y.tags } = y from h) :)

end

/-- A group with HJOIN's pair written (R323). -/
def Group.pairWritten (g : Group) (r : Recruit) (d : Nat) (w : Word) : Group :=
  ((g.setReg d r.lane w).setReg (d + 1) r.lane r.statusWord).modTags d (fun t => { t with empty := false }) 2

section
variable (g : Group) (r : Recruit) (d : Nat) (w : Word)

/-- The pair holds the total and the status word. -/
theorem Group.rd_pairWritten : (g.pairWritten r d w).rd d r.lane = w ∧ (g.pairWritten r d w).rd (d + 1) r.lane = r.statusWord := by
  rw [Group.pairWritten, Group.modTags_rd, Group.modTags_rd, Group.rd_setReg_lane, Group.rd_setReg_lane, Group.rd_setReg_lane,
    if_neg (by omega), if_pos rfl, if_pos rfl]
  exact ⟨rfl, rfl⟩

theorem Group.tag_pairWritten : ((g.pairWritten r d w).tag d).empty = false ∧ ((g.pairWritten r d w).tag (d + 1)).empty = false := by
  rw [Group.pairWritten, Group.tag_modTags, Group.tag_modTags, if_pos (by omega), if_pos (by omega)]
  exact ⟨rfl, rfl⟩

theorem Group.pairWritten_sameBut : (g.pairWritten r d w).sameBut g :=
  Group.sameBut_trans (Group.sameBut_of_tags (Group.modTags_rest _ 2 _ d))
    (Group.sameBut_trans (Group.setReg_rest _ _ _ _) (g.setReg_rest _ _ _))

end

/-- The recruiting fragment as it runs again (R185). -/
def Fragment.resumed (f : Fragment) (now : Nat) (wide : Bool) : Fragment :=
  { f with wait := .run, fenceAll := now, fenceInv := f.fenceInv || wide }

/-- The panel as HJOIN completes: no helper waits for an answer any more, and the order of the join is drawn (R323). -/
def State.beforeJoin (s : State) (key : Nat) (r : Recruit) : State :=
  { s with pends := s.pends.filter fun e => !isHelperOf key e.2.ag, tick := s.tick + r.helpers.length }

/-- The panel once HJOIN has written its pair (R323). -/
def State.putPair (s : State) (ag : Agent) (r : Recruit) (d : Nat) (w : Word) : State :=
  (s.wrWords ag d r.lane [w, r.statusWord]).setEmpty ag d false 2

theorem State.putPair_became {s : State} {n m k e : Nat} {gr : Group} (hg : s.group? (groupKey n m k) = some gr) (r : Recruit) (d : Nat)
    (w : Word) : s.became (s.putPair (.frag n m k e) r d w) (groupKey n m k) (gr.pairWritten r d w) := by
  have hwords := ((State.became_refl hg).setReg (e := e) d r.lane w).setReg (e := e) (d + 1) r.lane r.statusWord
  exact hwords.setEmpty false 2 d

/-- The panel with HJOIN's pair written, the recruitment closed and its fragment running (R323, R185). -/
def State.joinWritten (s : State) (n m k : Nat) (r : Recruit) (d : RegNo) (a : Word) : State :=
  ((s.beforeJoin (groupKey n m k) r).putPair (.frag n m k r.entry) r d.toNat (r.total a s.tick)).joinHelpers (groupKey n m k)
    (.frag n m k r.entry) (r.helpers.any fun h => h.2.front.fenceInv)

section
variable {s : State} {n m k : Nat} {gr : Group} {r : Recruit} {d : RegNo} {a : Word} {pc : Addr}
  (hg : s.group? (groupKey n m k) = some gr) (hr : gr.recruit = some r) (hj : r.hjoin = some (d, a, pc))
  (hdone : s.helpersDone (groupKey n m k) gr r = true) (hbad : r.hjoinBad = false)
  (hbusy : s.regsBusy (.frag n m k r.entry) d.toNat 2 = false)
include hg hr hj hdone hbad hbusy

/-- HJOIN_COMPLETE once the helpers are done, with no iteration failed (R323). -/
theorem exec_hjoinComplete_good (h : r.failure = none) : exec (.hjoinComplete n m k) s =
    .next (((s.joinWritten n m k r d a).advance (.frag n m k r.entry)).wake (groupKey n m k)) := by
  simp only [exec, execHjoinComplete, hg, hr, hj, hdone, hbusy, hbad, h, Bool.not_true, Bool.or_self, Bool.false_eq_true, if_false]
  rfl

/-- HJOIN_COMPLETE once the helpers are done, with one failed (R324). -/
theorem exec_hjoinComplete_failed {c dt : Nat} (h : r.failure = some (c, dt)) : exec (.hjoinComplete n m k) s =
    .next (((s.joinWritten n m k r d a).raise (.frag n m k r.entry)
      { code := c, detail := BitVec.ofNat 32 dt, pc := pc, lanes := laneBit r.lane }).wake (groupKey n m k)) := by
  simp only [exec, execHjoinComplete, hg, hr, hj, hdone, hbusy, hbad, h, Bool.not_true, Bool.or_self, Bool.false_eq_true, if_false]
  rfl

end

/-! The group that HJOIN completes in: it goes on, or meets the fault of R324. -/

/-- A group holds the pair that HJOIN writes (R323, R324). -/
def Recruit.pairIn (r : Recruit) (d : Nat) (a : Word) (g : Group) : Prop :=
  g.rd (d + 1) r.lane = BitVec.ofNat 32 (r.status * 2 ^ 28 + r.next.toNat) ∧
  (∃ cs, (r.helpers.map fun h => h.2.ckpt).Perm cs ∧ g.rd d r.lane = cs.foldl (JoinOp.apply r.op) a) ∧
  (g.tag d).empty = false ∧ (g.tag (d + 1)).empty = false

/-- That depends on the group's registers and tags alone. -/
theorem Recruit.pairIn_congr {r : Recruit} {d : Nat} {a : Word} {g g' : Group} (h : r.pairIn d a g) (hv : g'.v = g.v) (hs : g'.s = g.s)
    (ht : g'.tags = g.tags) : r.pairIn d a g' := by
  have hrd : ∀ q l, g'.rd q l = g.rd q l := fun q l => by rw [Group.rd, Group.rd, hv, hs]
  have htag : ∀ q, g'.tag q = g.tag q := fun q => by rw [Group.tag, Group.tag, ht]
  unfold Recruit.pairIn
  rw [hrd, hrd, htag, htag]
  exact h

theorem Group.pairIn_pairWritten (g : Group) (r : Recruit) (d : Nat) (a : Word) (t : Nat) :
    r.pairIn d a (g.pairWritten r d (r.total a t)) := by
  obtain ⟨htotal, hstatus⟩ := g.rd_pairWritten r d (r.total a t)
  obtain ⟨htag, htag'⟩ := g.tag_pairWritten r d (r.total a t)
  obtain ⟨cs, hperm, hcs⟩ := r.total_eq a t
  exact ⟨hstatus, ⟨cs, hperm, htotal.trans hcs⟩, htag, htag'⟩

/-- A group with its recruitment closed and one fragment replaced. -/
def Group.closed (g : Group) (e : Nat) (x : Fragment) : Group := { g with recruit := none, frags := aput g.frags e x }

theorem State.wake_eq {s : State} {key : Nat} {g : Group} (hg : s.group? key = some g) : s.wake key = s.putGroup key g.woken :=
  State.modGroup_eq_putGroup hg Group.woken

/-- A group with one fragment replaced. -/
def Group.withFrag (g : Group) (e : Nat) (x : Fragment) : Group := { g with frags := aput g.frags e x }

theorem Group.aget_withFrag (g : Group) (e : Nat) (x : Fragment) : aget (g.withFrag e x).frags e = some x :=
  (aget_aput _ _ _ _).trans (if_pos rfl)

theorem State.advance_withFrag {s : State} {n m k e : Nat} {g : Group} {x : Fragment} (hg : s.group? (groupKey n m k) = some g)
    (hx : aget g.frags e = some x) : s.advance (.frag n m k e) = s.putGroup (groupKey n m k) (g.withFrag e x.advance) :=
  State.advance_frag_eq hg hx

/-- The recruitment closed and its fragment running again, where it stood (R185). -/
theorem State.joinHelpers_spec {s : State} {n m k e : Nat} {g : Group} {f : Fragment} (hg : s.group? (groupKey n m k) = some g)
    (hf : aget g.frags e = some f) (inv : Bool) : ∃ x : Fragment, (x.clause, x.idx, x.hdr) = (f.clause, f.idx, f.hdr) ∧
      s.joinHelpers (groupKey n m k) (.frag n m k e) inv = s.putGroup (groupKey n m k) (g.closed e x) := by
  have hclosed := State.modGroup_eq_putGroup hg fun g => { g with recruit := none }
  have hrun := State.modFront_frag (e := e) (f := f) (State.group_putGroup s (groupKey n m k) { g with recruit := none }) hf
    fun f => f.resumed s.fresh (inv || s.pairOf (groupKey n m k))
  rw [State.modGroup_eq_putGroup (State.group_putGroup _ _ _), State.putGroup_putGroup, ← hclosed] at hrun
  exact ⟨f.resumed s.fresh (inv || s.pairOf (groupKey n m k)), rfl, hrun⟩

/-- The recruitment closed in a panel whose group holds the pair. -/
theorem State.became.joinHelpers {s v : State} {n m k e : Nat} {g : Group} {f : Fragment} (h : s.became v (groupKey n m k) g)
    (hf : aget g.frags e = some f) (inv : Bool) : let t := v.joinHelpers (groupKey n m k) (.frag n m k e) inv
    ∃ x : Fragment, (x.clause, x.idx, x.hdr) = (f.clause, f.idx, f.hdr) ∧ t.group? (groupKey n m k) = some (g.closed e x) ∧ s.sameMem t := by
  intro t
  obtain ⟨x, hx, hjoin⟩ := State.joinHelpers_spec h.1 hf inv
  obtain ⟨-, -, -, hmem, hl2⟩ := h.rest
  have ht : t = v.putGroup (groupKey n m k) (g.closed e x) := hjoin
  rw [ht]
  exact ⟨x, hx, State.group_putGroup _ _ _, hmem, hl2⟩

section
variable {s : State} {n m k : Nat} {gr : Group} {f : Fragment} {r : Recruit} (hg : s.group? (groupKey n m k) = some gr)
  (hf : aget gr.frags r.entry = some f) (d : RegNo) (a : Word)
include hg hf

/-- The panel with HJOIN's pair written. -/
theorem State.joinWritten_spec : ∃ (x : Fragment) (gj : Group), (x.clause, x.idx, x.hdr) = (f.clause, f.idx, f.hdr) ∧
    gj.sameBut gr ∧ r.pairIn d.toNat a gj ∧
    (s.joinWritten n m k r d a).group? (groupKey n m k) = some (gj.closed r.entry x) ∧ s.sameMem (s.joinWritten n m k r d a) := by
  have hset := State.putPair_became (s := s.beforeJoin (groupKey n m k) r) (e := r.entry) hg r d.toNat (r.total a s.tick)
  have hsame := gr.pairWritten_sameBut r d.toNat (r.total a s.tick)
  obtain ⟨x, hx, hgroup, hmem⟩ := hset.joinHelpers (e := r.entry) (f := f) (by rw [hsame.frags, hf])
    (r.helpers.any fun h => h.2.front.fenceInv)
  exact ⟨x, _, hx, hsame, gr.pairIn_pairWritten r d.toNat a s.tick, hgroup, hmem⟩

end

/-! A fault whose resume point is after its instruction, with no vector set (R291, R297). -/

/-- It parks the group, its fragment past the instruction. -/
theorem raise_after_parks {s : State} {n m k e : Nat} {gr : Group} {f : Fragment} {c : FaultRec}
    (hg : s.group? (groupKey n m k) = some gr) (hf : aget gr.frags e = some f) (hend : gr.ended = false) (hp : gr.parked = none)
    (hh : gr.held = []) (hvec : gr.trapVec = 0#48) (hc : resumeAfter c.code = true) :
    ∃ x, s.raise (.frag n m k e) c =
      (s.putGroup (groupKey n m k) (gr.withFrag e x)).park (groupKey n m k) { c with entry := some e } := by
  refine ⟨{ f with gang := none }.advance, ?_⟩
  have hnew : aget (gr.ungang e f).frags e = some { f with gang := none } := by simp [Group.ungang]
  have hmod : (s.putGroup (groupKey n m k) (gr.ungang e f)).modFrag (groupKey n m k) e Fragment.advance =
      s.putGroup (groupKey n m k) (gr.withFrag e { f with gang := none }.advance) := by
    rw [State.modFrag, State.modGroup_eq_putGroup (State.group_putGroup _ _ _), State.putGroup_putGroup, amod_of_aget hnew, Group.ungang,
      aput_aput]
    rfl
  have hfr := gr.aget_withFrag e { f with gang := none }.advance
  have hvec' : (gr.withFrag e { f with gang := none }.advance).trapVec = 0#48 := hvec
  have hfields : (gr.ungang e f).ended = false ∧ (gr.ungang e f).parked = none ∧ (gr.ungang e f).held = [] := ⟨hend, hp, hh⟩
  obtain ⟨hend', hp', hh'⟩ := hfields
  have hungang : s.modFront (.frag n m k e) (fun r => { r with gang := none }) = s.putGroup (groupKey n m k) (gr.ungang e f) := by
    rw [State.modFront_frag hg hf, State.modGroup_eq_putGroup hg, Group.ungang]
  rw [State.raise, hungang]
  simp only [agKey, State.groupFault, State.group_putGroup, hc, hmod, hend', hp', hh', Option.isSome_none, List.isEmpty_nil, Bool.not_true,
    Bool.or_self, Bool.false_eq_true, if_true, if_false, State.deliver, hfr, Option.bind_some, Option.map_some, hvec', bne_self_eq_false,
    Bool.and_false, Bool.false_and]

/-! HJOIN_COMPLETE (R323, R324). -/

/-- HJOIN_COMPLETE answers panel `t`, in which the group is `gt`, with its recruitment closed and the pair written. -/
def State.joins (s : State) (n m k : Nat) (r : Recruit) (d : RegNo) (a : Word) (t : State) (gt : Group) : Prop :=
  exec (.hjoinComplete n m k) s = .next t ∧ t.group? (groupKey n m k) = some gt ∧ gt.recruit = none ∧
  gt.rd (d.toNat + 1) r.lane = BitVec.ofNat 32 (r.status * 2 ^ 28 + r.next.toNat) ∧
  (∃ cs, (r.helpers.map fun h => h.2.ckpt).Perm cs ∧ gt.rd d.toNat r.lane = cs.foldl (JoinOp.apply r.op) a) ∧
  (gt.tag d.toNat).empty = false ∧ (gt.tag (d.toNat + 1)).empty = false ∧ t.mem = s.mem ∧ t.l2 = s.l2

theorem State.sameMem_putGroup {s u : State} (h : s.sameMem u) (key : Nat) (g : Group) : s.sameMem (u.putGroup key g) := h

theorem State.joins_put {s u : State} {n m k : Nat} {r : Recruit} {d : RegNo} {a : Word} {g : Group}
    (hexec : exec (.hjoinComplete n m k) s = .next (u.putGroup (groupKey n m k) g)) (hr : g.recruit = none)
    (hpair : r.pairIn d.toNat a g) (hmem : s.sameMem u) : s.joins n m k r d a (u.putGroup (groupKey n m k) g) g := by
  obtain ⟨hstatus, htotal, htag, htag'⟩ := hpair
  obtain ⟨hm, hl2⟩ := State.sameMem_putGroup hmem (groupKey n m k) g
  exact ⟨hexec, State.group_putGroup _ _ _, hr, hstatus, htotal, htag, htag', hm, hl2⟩

theorem Group.pairIn_woken {g : Group} {r : Recruit} {d : Nat} {a : Word} (h : r.pairIn d a g) : r.pairIn d a g.woken :=
  Recruit.pairIn_congr h rfl rfl rfl

theorem Group.pairIn_closed {g : Group} {r : Recruit} {d : Nat} {a : Word} (h : r.pairIn d a g) (e : Nat) (x y : Fragment) :
    r.pairIn d a ((g.closed e x).withFrag e y) := Recruit.pairIn_congr h rfl rfl rfl

theorem Group.recruit_closed (g : Group) (e : Nat) (x y : Fragment) : ((g.closed e x).withFrag e y).recruit = none := rfl

theorem Group.recruit_woken {g : Group} (h : g.recruit = none) : g.woken.recruit = none := congrArg (Option.map _) h

/-- A group parked with a fault (R297). -/
def Group.parkedBy (g : Group) (F : FaultRec) : Group :=
  { g with parked := some { fault := F, inHandler := g.handler.isSome }, parkCount := g.parkCount + 1#16, readySince := none }

theorem Group.pairIn_parkedBy {g : Group} {r : Recruit} {d : Nat} {a : Word} (h : r.pairIn d a g) (F : FaultRec) :
    r.pairIn d a (g.parkedBy F) := Recruit.pairIn_congr h rfl rfl rfl

theorem State.wake_parked (s : State) (key : Nat) (g : Group) (F : FaultRec) :
    ((s.putGroup key g).park key F).wake key = ((s.putGroup key g).park key F).putGroup key (g.parkedBy F).woken :=
  State.wake_eq (State.park_spec (State.group_putGroup _ _ _) F).1

/-- Of two fragments at one place, in a started clause, the places they go on at are one, and they run there. -/
theorem Fragment.advance_whole {f x : Fragment} (hx : (x.clause, x.idx, x.hdr) = (f.clause, f.idx, f.hdr)) (hh : f.hdr.isSome = true) :
    (x.advance.clause, x.advance.idx, x.advance.hdr, x.advance.wait) =
      (f.advance.clause, f.advance.idx, f.advance.hdr, f.advance.wait) := by
  simp only [Prod.mk.injEq] at hx
  obtain ⟨hclause, hidx, hhdr⟩ := hx
  obtain ⟨w, hw⟩ := Option.isSome_iff_exists.mp hh
  have hplace := Fragment.advance_place hclause hidx hhdr
  simp only [Prod.mk.injEq] at hplace
  obtain ⟨hc, hi, hd⟩ := hplace
  rw [hc, hi, hd, Fragment.advance_wait hw, Fragment.advance_wait (hhdr.trans hw)]

/-- A fault of HJOIN has its resume point after it (R291, R324). -/
theorem Recruit.failure_resumes {r : Recruit} {c dt : Nat} (h : r.failure = some (c, dt)) : resumeAfter c = true := by
  unfold Recruit.failure at h
  split at h
  · obtain ⟨rfl, -⟩ := Prod.mk.inj (Option.some.inj h)
    rfl
  · split at h
    · obtain ⟨rfl, -⟩ := Prod.mk.inj (Option.some.inj h)
      rfl
    · split at h
      · exact absurd h (by simp)
      · obtain ⟨rfl, -⟩ := Prod.mk.inj (Option.some.inj h)
        rfl

section
variable {s : State} {n m k : Nat} {gr : Group} {f : Fragment} {r : Recruit} {d : RegNo} {a : Word} {pc : Addr}
  (hg : s.group? (groupKey n m k) = some gr) (hr : gr.recruit = some r) (hj : r.hjoin = some (d, a, pc)) (hf : aget gr.frags r.entry = some f)
  (hdone : s.helpersDone (groupKey n m k) gr r = true) (hbad : r.hjoinBad = false)
  (hbusy : s.regsBusy (.frag n m k r.entry) d.toNat 2 = false)
include hg hr hj hf hdone hbad hbusy

/-- With no iteration failed the fragment goes on. -/
theorem hjoin_goesOn (hh : f.hdr.isSome = true) (hok : r.failure = none) : ∃ t gt y, s.joins n m k r d a t gt ∧
    aget gt.frags r.entry = some y ∧ (y.clause, y.idx, y.hdr, y.wait) = (f.advance.clause, f.advance.idx, f.advance.hdr, f.advance.wait) := by
  obtain ⟨x, gj, hx, -, hpair, hgroup, hmem⟩ := State.joinWritten_spec hg hf d a
  have hexec := exec_hjoinComplete_good hg hr hj hdone hbad hbusy hok
  have hframe : aget (gj.closed r.entry x).frags r.entry = some x := (aget_aput _ _ _ _).trans (if_pos rfl)
  rw [State.advance_withFrag hgroup hframe, State.wake_eq (State.group_putGroup _ _ _), State.putGroup_putGroup] at hexec
  have hplace : (x.advance.clause, x.advance.idx, x.advance.hdr, x.advance.wait) =
      (f.advance.clause, f.advance.idx, f.advance.hdr, f.advance.wait) := Fragment.advance_whole hx hh
  have hgone := Group.pairIn_closed hpair r.entry x x.advance
  exact ⟨_, _, _, State.joins_put hexec (Group.recruit_woken (gj.recruit_closed _ _ _)) (Group.pairIn_woken hgone) hmem,
    Group.frag_woken (Group.aget_withFrag _ _ _), hplace⟩

/-- With one failed the fault of R324 parks the group, where it has no vector. -/
theorem hjoin_parks {c dt : Nat} (hfail : r.failure = some (c, dt)) (hvec : gr.trapVec = 0#48) (hp : gr.parked = none) (hh : gr.held = [])
    (hend : gr.ended = false) : ∃ t gt p, s.joins n m k r d a t gt ∧ gt.parked = some p ∧
      (p.fault.code, p.fault.detail, p.fault.pc) = (c, BitVec.ofNat 32 dt, pc) := by
  obtain ⟨x, gj, -, hsame, hpair, hgroup, hmem⟩ := State.joinWritten_spec hg hf d a
  have hexec := exec_hjoinComplete_failed hg hr hj hdone hbad hbusy hfail
  have hframe : aget (gj.closed r.entry x).frags r.entry = some x := (aget_aput _ _ _ _).trans (if_pos rfl)
  have hcode := Recruit.failure_resumes hfail
  generalize hF : ({ code := c, detail := BitVec.ofNat 32 dt, pc := pc, lanes := laneBit r.lane } : FaultRec) = F at hexec
  obtain ⟨y, hraise⟩ := raise_after_parks (c := F) hgroup hframe
    (hsame.ended.trans hend) (hsame.parked.trans hp) (hsame.held.trans hh) (hsame.trapVec.trans hvec) (hF ▸ hcode)
  rw [hraise] at hexec
  rw [State.wake_parked] at hexec
  have hrecruit : (((gj.closed r.entry x).withFrag r.entry y).parkedBy { F with entry := some r.entry }).recruit = none :=
    gj.recruit_closed r.entry x y
  have hmem' := State.sameMem_trans (State.sameMem_putGroup hmem (groupKey n m k) ((gj.closed r.entry x).withFrag r.entry y))
    (State.park_sameMem _ (groupKey n m k) { F with entry := some r.entry })
  refine ⟨_, _, _, State.joins_put hexec (Group.recruit_woken hrecruit)
    (Group.pairIn_woken (Group.pairIn_parkedBy (Group.pairIn_closed hpair r.entry x y) _)) hmem', rfl, ?_⟩
  rw [← hF]

end

/-- Settles O50: each operation of a helper is one change of its group's record; RECRUIT and HJOIN change it by their writes; the total
combines a permutation of the checkpoints. -/
theorem helpersRecruitAndJoin : Obligations.HelpersRecruitAndJoin := by
  refine ⟨?_, fun x y => joinOp_apply x y, ⟨rfl, rfl, rfl, rfl, rfl, rfl, rfl, rfl, rfl, rfl, rfl⟩, ?gang⟩
  case gang =>
    intro s k h gr x f l old hg hx
    exact ⟨fun hy => State.takeGang_none hg hx f l hy, fun hy => State.takeGang_some hg hx f l hy⟩
  intro s n m k gr key _ hm hk hg
  refine ⟨?recruit, ?iteration, ?hjoin, ?complete, ?overrun⟩
  case recruit =>
    intro e act f d a b c op o j ag l lo hi entry free most count h hf hpop ho hmost hbusy hj hjr hout hfree hland hpre hkill
    have hexec := exec_recruit_ready hm hk hg hf h hpop ho hmost hbusy hj hjr hout rfl hfree hland
    obtain ⟨gt, hwent, hgt, hrd, hrec, hrecs, hmem, hl2, hflight⟩ := State.doRecruit_spec (d := d) (o := o) (lo := lo) (hi := hi)
      (most := most) (entry := entry) hg hf hm hk (lowLane_of_popMask hpop) hpre hkill
    exact ⟨_, gt, _, hexec, hwent, hgt, hrd, hrec, rfl, rfl, rfl, rfl, rfl, rfl, rfl, rfl, hrecs, startHelpers_keys _,
      fun i x hx => startHelpers_spec (recruitCount_le lo hi most free.length) hx, hmem, hl2, hflight⟩
  case iteration =>
    intro h act g r x ag hr hx hready hrun
    have hnext := exec_hnext_ready hready
    have hquit := exec_hquit_ready hready
    refine ⟨fun hlate => ⟨?_, ?_⟩, fun h0 hp hlen hl hw i hi => ?_, fun h0 hp => ⟨fun hd hn => hnext_takes hg hr hx h0 hp hready hrun hd hn,
      fun hd => State.iterated_retires hg hr hx h0 hp hnext fun _ => hd,
      State.iterated_retires hg hr hx h0 hp hquit fun hc => absurd hc Bool.false_ne_true⟩⟩
    · exact hnext.trans (congrArg _ (State.reached_late hg hr hx true hlate))
    · exact hquit.trans (congrArg _ (State.reached_late hg hr hx false hlate))
    · obtain ⟨again, hexec⟩ : ∃ again, exec i s = .next (s.reached (.helper n m k h) h again) := by
        rcases List.mem_pair.mp hi with rfl | rfl
        · exact ⟨true, hnext⟩
        · exact ⟨false, hquit⟩
      obtain ⟨gt, rt, y, hgt, hrt, hy, hstop, hsticky, hmem, hrecs⟩ := State.poisonedV0_stops hg hr hx again hrun h0 hp hlen hl hw
      exact ⟨_, gt, rt, y, hexec, hgt, hrt, hy, hstop, hsticky, hmem.1, hmem.2, hrecs⟩
  case hjoin =>
    intro e act f r d a ag hr he hf h
    exact hjoin_holds hg hr he hf h
  case complete =>
    intro f r d a pc hr hj hf hh hdone hbad hbusy _ joined
    exact ⟨fun hok => hjoin_goesOn hg hr hj hf hdone hbad hbusy hh hok,
      fun c dt hfail hvec hp hheld hend => hjoin_parks hg hr hj hf hdone hbad hbusy hfail hvec hp hheld hend⟩
  case overrun =>
    intro h r x hr hx hrun
    refine ⟨fun h0 => ?_, fun h0 hlen hl hw => State.overrun_stops hg hr hx hrun h0 hlen hl hw⟩
    exact congrArg (Host.Outcome.next ·) (State.timeOut_early hg hr hx (Nat.not_le.mpr h0))

end Sys2Proof.Machine
end
